-- ==== Sys2Proof/Word.lean ====
section
/-! DEFINITION. The word types of the Lynos 7: a 64-bit register word, a 32-bit element word and a byte. -/
namespace Sys2Proof

/-- A 64-bit word: every register is 64 bits wide (R9), and so are X registers and gauges. -/
abbrev Word := BitVec 64
/-- A 32-bit word: one tile-register element (R119). -/
abbrev Elem := BitVec 32
/-- One byte of memory. -/
abbrev Byte := BitVec 8

end Sys2Proof
end

