-- ==== Sys2Proof/Types.lean ====
section
/-! DEFINITION. The operand types of the commands: the names the manual gives modes, formats, codes and message
kinds, as plain data that both a command and the state can hold. -/
namespace Sys2Proof

/-- The number formats of Table 5-1 (R88), long form apart. -/
inductive FloatFmt where
  | e2m1 | e2m3 | e3m2 | e4m3 | e5m2 | e8m0 | e4m4 | bf16 | fp32 | w32 | mw48
  deriving DecidableEq, Repr

/-- An exact value: NaN, an infinity, or (−1)^neg × m × 2^e. -/
inductive Num where
  | nan
  | inf (neg : Bool)
  | fin (neg : Bool) (m : Nat) (e : Int)
  deriving DecidableEq, Repr

/-- How a conversion rounds (R93, R96); `up` is the rounding of TMAX (R106). -/
inductive Rnd where
  | nearest
  | stoch (draw : Nat)
  | up
  deriving DecidableEq, Repr

/-- The status codes (Status-code table of the outline; encodings of Table 18-6, R14). -/
inductive Status where
  | ok | aborted | abortTooLate | resetAborted | tideOverrun | digestMismatch
  | xltFault | retiredResource | securityDenied | poisoned | notReady
  deriving DecidableEq, Repr

/-! ## Units (R13) -/

/-- A cell's index 64 × y + x (R33). -/
abbrev CellId := Fin 4096
/-- A thread: F 0, B 1, U 2, S 3 (Table 3-2). -/
abbrev ThreadId := Fin 4
/-- A region (R32). -/
abbrev RegionId := Fin 64
/-- A Trafort port T0 to T11. -/
abbrev TrfPort := Fin 12
/-- A PCIe port: 0 is A, 1 is B. -/
abbrev PciePort := Fin 2
/-- A 16-bit tag (Table 3-4). -/
abbrev Tag := Fin 65536

/-- A gauge: patch 0 names a gauge of this
cell, 1 to 255 a patch of the loaded Pattern (Table 3-9). -/
structure GaugeRef where
  patch : Fin 256
  gauge : Fin 64
  deriving DecidableEq, Repr

/-- Add or set (Table 3-5). -/
inductive GaugeOp where
  | add (v : Nat)
  | set (v : Nat)
  deriving DecidableEq, Repr

/-- Who updates a gauge, for the order of R52. -/
inductive GaugeSource where
  | stitch (t : ThreadId)
  | dma
  | engine
  | collective
  | host
  deriving DecidableEq, Repr

/-- What a completing command does to a gauge: the gauge, the increment 1 to 255, and the command's tag. -/
structure Completion where
  gauge : GaugeRef
  inc   : Nat
  tag   : Nat
  deriving DecidableEq, Repr

/-! ## Stitches (chapter "Cells, threads and stitches"). Their encoding is private (R3): a stitch is what Table 3-4
says it can do. -/

/-- A value a stitch reads at issue: an immediate, an X register, or the thread's own status word (R51). -/
inductive Src where
  | imm (v : Word)
  | x (r : Fin 32)
  | status
  deriving DecidableEq, Repr

/-- An address, or another value, that comes from a `Src` or from an address generator (R474). -/
inductive AddrSrc where
  | val (s : Src)
  | gen (g : Fin 8)
  deriving DecidableEq, Repr

/-- Relations of a compare or a branch. -/
inductive Rel where
  | eq | ne | lt | le | gt | ge
  deriving DecidableEq, Repr

/-- Scalar operations of Table 3-4, row 2 (R473). -/
inductive ScalarOp where
  | add | sub | shl | shr | sar | band | bor | bxor | min | max | select
  | cmpS (r : Rel) | cmpU (r : Rel)
  | mulS | mulU
  deriving DecidableEq, Repr

/-- One scalar operation: d := op a b (select: a where c is not 0, else b). -/
structure ScalarAct where
  op : ScalarOp
  d  : Fin 32
  a  : Src
  b  : Src
  c  : Src
  deriving DecidableEq, Repr

/-- One scalar load or store of 1, 2, 4 or 8 bytes (log2 of the size). -/
structure MemAct where
  store : Bool
  reg   : Fin 32
  addr  : AddrSrc
  size  : Fin 4
  deriving DecidableEq, Repr

/-- Setup or step of one address generator (R474). -/
inductive AgAct where
  | setup (g : Fin 8) (base : Src) (counts strides : List Src) (wrap : Bool)
  | step (g : Fin 8)
  deriving DecidableEq, Repr

/-- Tile shapes of Table 4-3. -/
inductive Shape where
  | s8x32 | s16x16 | s16x32 | s32x16 | s32x32 | s32x64 | s64x32 | s64x64
  deriving DecidableEq, Repr

/-- Operations of a matrix command (Table 4-2). -/
inductive MtxOp where
  | mma | chainAdd | finish
  deriving DecidableEq, Repr

/-- Anchor sources of Table 4-4. -/
inductive AnchorSrc where
  | press | predict | fixed | explicit
  deriving DecidableEq, Repr

/-- Chain roles of Table 4-2. -/
inductive ChainRole where
  | none | head | mid | tail
  deriving DecidableEq, Repr

/-- A storage format, plain or in block form; `i32` is a raw 32-bit integer (element engine only). -/
inductive StoreFmt where
  | plain (f : FloatFmt)
  | block (f : FloatFmt)
  | i32
  deriving DecidableEq, Repr

/-- Finisher options of Table 4-7; addresses are scratchpad offsets of type `A`. -/
structure FinOpts (A : Type) where
  longForm  : Bool
  fmt       : StoreFmt
  out       : A
  outScale  : A
  tScale    : Option A
  rowScale  : Option A
  colScale  : Option A
  biasRow   : Option A
  biasCol   : Option A
  biasBf16  : Bool
  act       : Nat
  param     : A
  stoch     : Bool
  maxRec    : Option A
  zeroRec   : Option A
  tensor    : Nat
  row0      : Nat
  col0      : Nat
  deriving DecidableEq, Repr

/-- A matrix command (Table 4-2). -/
structure MtxCmd (A : Type) where
  op       : MtxOp
  shape    : Shape
  kCmd     : Nat
  kOff     : Nat
  kTotal   : Nat
  aFmt     : StoreFmt
  bFmt     : StoreFmt
  a        : A
  b        : A
  aScale   : A
  bScale   : A
  aRec     : A
  bRec     : A
  longIn   : A
  longOut  : A
  group    : Nat
  start    : Bool
  last     : Bool
  anchor   : AnchorSrc
  entry    : Fin 64
  anchorV  : A
  chain    : ChainRole
  slot     : Nat
  skip     : Bool
  fin      : FinOpts A
  done     : Completion
  deriving DecidableEq, Repr

/-- Operation types of an element program (R120). -/
inductive EType where
  | w32 | fp32 | i32
  deriving DecidableEq, Repr

/-- Sources of an element program operation (R123). -/
inductive ESrc where
  | reg (t : Fin 8) | brow (t : Fin 8) | bcol (t : Fin 8) | const (k : Fin 8) | idxI | idxJ | idxLin
  deriving DecidableEq, Repr

/-- Two-source floating operations of Table 7-3. -/
inductive FBin where
  | add | sub | mul | min | max | div | copysign
  deriving DecidableEq, Repr

/-- One-source floating operations of Table 7-3. -/
inductive FUn where
  | abs | neg | sqrt | rcp | rsqrt | exp | exp2 | log | log2
  deriving DecidableEq, Repr

/-- Relations of CMP (Table 7-3). -/
inductive CmpRel where
  | eq | ne | lt | le
  deriving DecidableEq, Repr

/-- Integer operations of Table 7-3. -/
inductive IBin where
  | add | sub | mul | and | or | xor | shl | shr | sar
  deriving DecidableEq, Repr

/-- Reduction functions of Table 7-4. -/
inductive RedFn where
  | sum | max | min | amax | isum | count
  deriving DecidableEq, Repr

/-- Operations of an element program (Table 7-3). A block form names its scale array by a second E address. -/
inductive EleOp where
  | ld (ty : EType) (d : Fin 8) (e : Fin 4) (fmt : StoreFmt) (se : Fin 4)
  | st (s : Fin 8) (e : Fin 4) (fmt : StoreFmt) (se : Fin 4)
  | fbin (op : FBin) (ty : EType) (d : Fin 8) (a b : ESrc)
  | fma (ty : EType) (d : Fin 8) (a b c : ESrc)
  | fun1 (op : FUn) (ty : EType) (d : Fin 8) (a : ESrc)
  | act (code : Nat) (d : Fin 8) (a : ESrc) (k : Fin 8)
  | cmp (r : CmpRel) (ty : EType) (d : Fin 8) (a b : ESrc)
  | select (ty : EType) (d : Fin 8) (c a b : ESrc)
  | ibin (op : IBin) (d : Fin 8) (a b : ESrc)
  | inot (d : Fin 8) (a : ESrc)
  | cvt (src dst : EType) (d : Fin 8) (a : ESrc)
  | rand (d : Fin 8)
  | movt (ty : EType) (d s : Fin 8)
  | reduce (f : RedFn) (axisJ : Bool) (ty : EType) (d s : Fin 8)
  | undef (code : Nat)
  deriving DecidableEq, Repr

/-- Element command kinds (Table 7-1). -/
inductive EleKind where
  | program | press | update | reseat | convert | gather | scatter
  deriving DecidableEq, Repr

/-- Combines of SCATTER (R130). -/
inductive Combine where
  | none | add | max | min
  deriving DecidableEq, Repr

/-- An element command (Table 7-2). `e` are E0 to E3 with `pitch`; a fixed operation reads E0 and writes E1, with their scale
arrays at E2 and E3; `arrays` are the arrays of UPDATE in the order of `UpdArr` in Machine/ElementFixed. `recIn` and `recOut`
are the source's press record and the derived record of a CONVERT (R107), `scaleIt` applies the record's scale. -/
structure EleCmd (A : Type) where
  kind     : EleKind
  prog     : Fin 32
  e        : List A
  pitch    : List Nat
  k        : List A
  rowLim   : Nat
  colLim   : Nat
  mask     : Option (Fin 8)
  zero     : Bool
  summary  : Option (Fin 8 × Bool)
  src      : StoreFmt
  dst      : StoreFmt
  count    : Nat
  target   : FloatFmt
  headroom : Nat
  bexp     : Bool
  merge    : Bool
  stoch    : List Bool
  tensor   : Nat
  elemOff  : Nat
  rowStr   : Nat
  arrays   : List A
  recIn    : Option A
  recOut   : Option A
  scaleIt  : Bool
  gBase    : A
  idx      : Fin 8
  reg      : Fin 8
  ty       : EType
  strideK  : Fin 8
  combine  : Combine
  done     : Completion
  deriving DecidableEq, Repr

/-- A DMA command: one transfer, or a descriptor list (R196). -/
structure DmaCmd (A : Type) where
  list   : Bool
  src    : A
  dst    : A
  len    : A
  stride : A
  cache  : Bool
  count  : Nat
  done   : Completion
  deriving DecidableEq, Repr

/-- Fence scopes (Table 10-7). -/
inductive FenceScope where
  | cell | region | device | gang | hall
  deriving DecidableEq, Repr

/-- What a branch tests (R42). -/
inductive BranchTest where
  | xreg (r : Fin 32) (rel : Rel) (b : Src)
  | summary (k : Fin 6) (rel : Rel) (b : Src)
  | gauge (g : GaugeRef) (rel : Rel) (imm : Nat)
  | queue (q : Fin 3) (rel : Rel) (imm : Nat)
  deriving DecidableEq, Repr

/-- Control transfers of Table 3-4, row 10; targets are stitch memory indexes. -/
inductive Control where
  | jump (target : Nat)
  | loopBack (r : Fin 32) (target : Nat)
  | call (target : Nat)
  | ret
  | branch (test : BranchTest) (target : Nat)
  | halt
  | barrier (drain : Bool)
  deriving DecidableEq, Repr

/-- A stitch: at most the actions of Table 3-4, a repeat count 1 to 65,536 (R40) and a tag. -/
structure Stitch where
  wait    : Option (GaugeRef × Src)
  scalar  : Option ScalarAct
  mem     : Option MemAct
  gens    : List AgAct
  mtx     : Option (MtxCmd AddrSrc)
  ele     : Option (EleCmd AddrSrc)
  dma     : Option (DmaCmd AddrSrc)
  gauges  : List (GaugeRef × Bool × Src)
  fence   : Option (Bool × FenceScope)
  control : Option Control
  rept    : Nat
  tag     : Nat
  deriving DecidableEq, Repr

/-- A word of stitch memory: a stitch the Fonas interface produced, or a raw 256-bit word written by STITCH_COMMIT,
whose reading is private (R3). -/
inductive StitchWord where
  | asm (s : Stitch)
  | raw (w : Nat)
  deriving DecidableEq, Repr

/-- A program slot of program memory (R123): empty, or operations; a raw word stands as `EleOp.undef`. -/
inductive ProgSlot where
  | empty
  | ops (p : List EleOp)
  deriving DecidableEq, Repr

/-- Memory errors that the reads of one step meet: words corrected, and words found uncorrectable, by node-local byte
address. They come from the world outside the logic (Table 22-3). -/
structure EccHits where
  corrected     : List Nat
  uncorrectable : List Nat
  deriving DecidableEq, Repr

/-! ## Address translation (R181 to R183) -/

/-- Page attributes of Table 10-3. -/
structure PageAttr where
  r       : Bool
  w       : Bool
  x       : Bool
  pf      : Bool
  cache   : Bool
  remote  : Bool
  hostvis : Bool
  deriving DecidableEq, Repr

/-- An entry of an L1 to L4 table: invalid, the number of a table of the next level, or a leaf with its page base. -/
inductive XltEntry where
  | invalid
  | table (id : Nat)
  | leaf (base : Nat) (attr : PageAttr)
  deriving DecidableEq, Repr

/-- A map of Table 10-2: node entries give a physical node and an L1 table; each level's tables are numbered. -/
structure XltMap where
  nodes : List (Nat × Nat × Nat)
  l1    : List (Nat × List (Nat × XltEntry))
  l2    : List (Nat × List (Nat × XltEntry))
  l3    : List (Nat × List (Nat × XltEntry))
  l4    : List (Nat × List (Nat × XltEntry))
  deriving DecidableEq, Repr

/-! ## Trafort messages and flits (R246, R259) -/

/-- Collective message kinds (Table 14-3 and the chain messages of R276, R277). -/
inductive CollKind where
  | data | result | credit | ack | commit | abort | fail | post | tile | rerun | done
  deriving DecidableEq, Repr

/-- The content of a collective message (Table 14-5): GROUP_ID, slot (256 for a chain, whose byte 8 is 0xFF), layout, pass, instance (or the
chain's TAG), chunk, the rank it is addressed to, the target or anchor of RERUN and DONE with A_OBS, the status of ABORT
and FAIL, and its data bytes; `sender` is the rank whose edge it comes over, which the header's source and the layout determine. -/
structure CollMsg where
  kind   : CollKind
  group  : Nat
  slot   : Nat
  layout : Nat
  pass   : Bool
  inst   : Nat
  chunk  : Nat
  rank   : Nat
  sender : Nat
  value  : Int
  aObs   : Int
  status : Status
  data   : List Byte
  deriving DecidableEq, Repr

/-- Management messages of VC14. -/
inductive MgmtMsg where
  | ready (job id digest : Nat)
  | withdraw (job id digest : Nat)
  | sizReport (entry : Nat) (words : List Nat)
  | sizSum (patch : Nat) (words : List Nat)
  | slackReport (tide slack base : Nat) (shift : Int) (limit : Nat)
  | slackAck
  | budgetShift (delta : Int)
  | other (op : Nat)
  deriving DecidableEq, Repr

/-- The TIDE section (R224): period, policy FAULT, stretch maximum, lead. -/
structure TideSec where
  period  : Nat
  fault   : Bool
  stretch : Nat
  lead    : Nat
  deriving DecidableEq, Repr

/-- Tide messages of VC15. -/
inductive TideMsg where
  | edge (n fireAt : Nat) (overrun switch stop : Bool) (why : Nat) (param : TideSec)
  | arrive (n : Nat)
  | timeSync (t : Nat)
  | other (op : Nat)
  deriving DecidableEq, Repr

/-- The body of a Trafort message (Table 13-6). A GAUGE carries the kind of its source for the order of R217. -/
inductive MsgBody where
  | rd (addr n : Nat)
  | wr (addr : Nat) (bytes : List Byte) (poison : Bool)
  | gauge (cell : Nat) (ref : GaugeRef) (src : GaugeSource) (op : GaugeOp)
  | rdRsp (st : Status) (bytes : List Byte)
  | wrRsp (st : Status)
  | gaugeRsp (st : Status)
  | coll (m : CollMsg)
  | mgmt (m : MgmtMsg)
  | tide (m : TideMsg)
  | other (op : Nat)
  deriving DecidableEq, Repr

/-- A Trafort message with its header (Table 13-5). -/
structure Msg where
  body : MsgBody
  vc   : Nat
  dest : Nat
  src  : Nat
  rid  : Nat
  hops : Nat
  deriving DecidableEq, Repr

/-- A flit (Table 13-2) as it is received: header fields, whether its CRC is good, and the messages whose last unit it
holds (a message is performed only when every one of its units has been accepted, R247). -/
structure Flit where
  seq     : Nat
  ack     : Nat
  message : Bool
  nak     : Bool
  used    : Nat
  credits : List (Nat × Nat)
  msgs    : List Msg
  crcOk   : Bool
  deriving DecidableEq, Repr

/-! ## Identity records -/

/-- The package record as the keeper reads and verifies it (R28 to R31, R415, R416): how verification failed (0 not, 1 header, 2
CRC, 3 signature) and in which section type; the package serial; whether the identity key matches its certificate; whether
LIFECYCLE_BASE is MANUFACTURE; MIN_FW_SVN; the boot ROM's version and digest; the digest of the signed area; field log entries
applied, spare vias in use, whether the log holds a retirement entry; faulty sites (region, physical column, physical row) in
the order the maps give them; region ceilings in mW by region and step; reserves in W of LINK, MEMORY and CORE; the thermal
coefficients θ, e and k by region; and the device IDs of the stacks. -/
structure PkgRec where
  fail     : Nat
  failSect : Nat
  serial   : List Byte
  idOk     : Bool
  manufact : Bool
  minSvn   : Nat
  romVer   : Nat
  romSum   : Nat
  sum      : Nat
  logUsed  : Nat
  vias     : Nat
  retired  : Bool
  faulty   : List (Nat × Nat × Nat)
  ceilings : List (Nat × Nat × Nat)
  reserves : List Nat
  thermal  : List (List Rat × List Rat × List Rat)
  hbmIds   : List Nat
  deriving DecidableEq, Repr

/-- A keeper firmware patch in use (R418): SVN and the digest of its header and body. -/
structure FwPatch where
  svn : Nat
  sum : Nat
  deriving DecidableEq, Repr

/-- What a region's bring-up finds (R22 to R26, R389): an unrepairable I0 bundle or a failed self-test, vias it darned, and
sites newly found faulty (physical column, physical row) with the cause of Table 22-5. -/
structure RegionTest where
  badI0    : Option Nat
  badLogic : Bool
  vias     : Nat
  sites    : List (Nat × Nat × Nat)
  deriving DecidableEq, Repr

/-- What the SPDM responder answers (R429): a response of the standard, or ERROR with its reason. -/
inductive SpdmAnswer where
  | version | capabilities | algorithms | digests | certificate | challengeAuth | measurements | keyExchange | finish
  | heartbeatAck | keyUpdateAck | endSessionAck | vendorDefined
  | unsupportedRequest | sessionLimitExceeded | unexpectedRequest | invalidRequest | notReady
  deriving DecidableEq, Repr

/-- An IDE_KM message of a VENDOR_DEFINED_REQUEST: key programming, or a stream started or stopped. -/
inductive IdeKm where
  | query
  | keyProg (stream : Fin 3)
  | go (stream : Fin 3)
  | stop (stream : Fin 3)
  deriving DecidableEq, Repr

/-- One sample of a region's sensors (R371, R374): twelve readings in quarter degrees (none: no answer), and the region's power
in mW. -/
structure ThmSample where
  reads : List (Option Int)
  power : Nat
  deriving DecidableEq, Repr

/-- Energy drawn in a tide, in nJ: of the regions, and of LINK, MEMORY and CORE (R358, R361). -/
structure TideEnergy where
  regions : List Nat
  link    : Nat
  memory  : Nat
  core    : Nat
  deriving DecidableEq, Repr

/-! ## Pattern section bodies. Their encoding is private (R3); what each governs is Table 11-3. -/

/-- What a CELL section gives one cell: stitches from index 0, four windows (base, length, entry), element programs, and
short accumulator mode. -/
structure CellImage where
  stitches : List StitchWord
  windows  : List (Nat × Nat × Nat)
  progs    : List (Nat × ProgSlot)
  short    : Bool
  deriving DecidableEq, Repr

/-- A column range (R154): kind 0 scratchpad, 1 column SRAM, 2 column DRAM; base and length in 4 KiB units; class of
Table 8-4; foreign writes. -/
structure ColRange where
  kind   : Fin 3
  base   : Nat
  len    : Nat
  cls    : Fin 4
  fwrite : Bool
  deriving DecidableEq, Repr

/-- Patch levels of Table 11-9. -/
inductive PatchLevel where
  | region | device | gang | rack | hall | stage
  deriving DecidableEq, Repr

/-- A patch of the PATCH section (R216). -/
structure PatchDef where
  num    : Nat
  level  : PatchLevel
  parent : Nat
  cells  : List CellId
  nodes  : List Nat
  home   : Nat
  base   : Nat
  len    : Nat
  deriving DecidableEq, Repr

/-- The MEMORY section: arbitration weights in the order of Table 9-7 and FAR_PF_CFG. -/
structure MemSec where
  hbm   : List Nat
  ddr   : List Nat
  pfOn  : Bool
  depth : Nat
  deriving DecidableEq, Repr

/-- The NETWORK section: route entries, weights of VC0 to VC13, receive shares of VC0 to VC15, and the VC of each STAGE
patch (R253, R254, R260). -/
structure NetSec where
  routes  : List (Nat × List Nat)
  weights : List Nat
  shares  : List Nat
  stageVc : List (Nat × Nat)
  deriving DecidableEq, Repr

/-- An 8-byte tag, patch, gauge and increment set named by the COLLECTIVE section for a slot's steps. -/
structure CollGauges where
  tag     : Nat
  launch  : GaugeRef
  complete : GaugeRef
  inc     : Nat
  step    : Nat
  deriving DecidableEq, Repr

/-- A layout of a group (R266): TREE or CHAIN, its members (node ID, cell) by rank, and in a TREE each rank's parent. -/
structure Layout where
  tree    : Bool
  members : List (Nat × Nat)
  parents : List Nat
  deriving DecidableEq, Repr

/-- A group slot of the COLLECTIVE section (R265). -/
structure GroupDef where
  num     : Fin 12
  id      : Nat
  vc      : Nat
  timeout : Nat
  layouts : List Layout
  deriving DecidableEq, Repr

/-- Kinds of Table 14-1. -/
inductive CollOp where
  | reduce | allReduce | reduceScatter | allGather | broadcast
  deriving DecidableEq, Repr

/-- A collective slot (R268). -/
structure SlotDef where
  num        : Fin 256
  kind       : CollOp
  compressed : Bool
  fmt        : FloatFmt
  group      : Fin 12
  n          : Nat
  src        : Nat
  dst        : Nat
  lint       : Nat
  gauges     : CollGauges
  deriving DecidableEq, Repr

/-- A shard set (R287): `addrs` are W, WS, MASTER, M1, M1S, R, RS and PUB. -/
structure SetDef where
  num    : Fin 64
  l6     : Bool
  all    : Bool
  stop   : Bool
  group  : Fin 12
  wfmt   : Fin 9
  tensor : Nat
  p      : Nat
  pub    : CollGauges
  fet    : CollGauges
  chk    : CollGauges
  addrs  : List Nat
  deriving DecidableEq, Repr

/-- The COLLECTIVE section. -/
structure CollSec where
  groups : List GroupDef
  slots  : List SlotDef
  sets   : List SetDef
  deriving DecidableEq, Repr

/-- The decoded bodies of an image's sections (Table 11-3); `stepGauge` names the gauge of the device patch that
MTX_SR_STEP copies (R114), `needs` the warden's initial needs by slot and region and `other` those of LINK, MEMORY and
CORE by slot, in 1/16 W (R362). -/
structure PatBody where
  cells     : List (CellId × CellImage)
  stepGauge : Option (Fin 64)
  columns   : List (CellId × List ColRange)
  map       : XltMap
  net       : Option NetSec
  patches   : List PatchDef
  tide      : TideSec
  mem       : Option MemSec
  coll      : Option CollSec
  slots     : Nat
  needs     : List (List Nat)
  other     : List (Nat × Nat × Nat)
  deriving DecidableEq, Repr

end Sys2Proof
end

