-- ==== Sys2Proof/Syntax.lean ====
section
/-! DEFINITION. The commands of the block: one constructor per row of the opcode table, in its order. An operand is what the command
itself carries, or what the world outside the logic decides for it. `by_` is the port that writes a register, none the keeper; `t` a time in
ns of the tide time base; `e` the memory errors that the command's reads meet; `far` the bytes that reads of other devices return; `k` a
ring 16 × port + ring; `c` a cell; `p` a port; `m` a keeper mailbox (0 and 1 the PCIe ports, 2 MCTP); `via` an SPDM transport numbered in the
same way; `accepted` that both ends of a cable train; `held` that a thread of another device is in BREAK; `idx` the place of a
request in the queue of its kind, `j` a sluice. -/
namespace Sys2Proof

/-- The commands. -/
inductive Instr where
  /-- STITCH_ISSUE (R39). The control core issues one thread's next stitch whole, and all of its actions take effect in that cycle. -/
  | stitchIssue (c : CellId) (e : EccHits)
  /-- GAUGE_WAIT_SATISFIED (R54). The gauge that a waiting thread names reaches its threshold, and the thread leaves WAIT. -/
  | gaugeWaitSatisfied (c : CellId) (t : ThreadId)
  /-- SCALAR_LOAD_RETURN (R43). A scalar load returns its value to the X register, releasing stitches stalled on it. -/
  | scalarLoadReturn (c : CellId) (t : ThreadId) (id : Nat)
  /-- FENCE_REL_PERFORMED (R199). Every earlier write of the thread is performed in scope, and the thread leaves STALL. -/
  | fenceRelPerformed (c : CellId) (t : ThreadId)
  /-- FENCE_ACQ_PERFORMED (R200). An acquire invalidates far-cache lines for its scope and discards late fills, and the thread proceeds. -/
  | fenceAcqPerformed (c : CellId) (t : ThreadId)
  /-- DRAIN_COMPLETE (R44). All commands of a thread at a DRAIN barrier complete, and the thread enters BARRIER. -/
  | drainComplete (c : CellId) (t : ThreadId)
  /-- PATCH_GAUGE_UPDATE (R217). An update reaches a patch gauge's home and is applied there under the set and add rules. -/
  | patchGaugeUpdate (patch : Fin 256) (gauge : Fin 64) (n : Nat)
  /-- PATCH_GAUGE_ARRIVAL (R55). A patch gauge's new value reaches a member cell's copy, against which waits are tested. -/
  | patchGaugeArrival (c : CellId) (patch : Fin 256) (gauge : Fin 64) (remote : Option Word)
  /-- CEL_GAUGE_WR (R57). A host write sets a cell gauge, but only while the GAUGE_WR permission is in force. -/
  | celGaugeWr (c : CellId) (g : Fin 64) (v : Word)
  /-- MMA (R65). The matrix engine dispatches a multiply-accumulate and forms one block contribution per output element into a slot group. -/
  | mma (c : CellId) (e : EccHits)
  /-- CHAIN_ADD (R476). The matrix engine dispatches an addition of a long-form tile into a slot group. -/
  | chainAdd (c : CellId) (e : EccHits)
  /-- FINISH (R82). The matrix engine dispatches a pass of a slot group through the finisher. -/
  | finish (c : CellId) (e : EccHits)
  /-- MATRIX_COMPLETE (R56). A matrix command completes: it releases held writes, may update the predictor, and updates its gauge. -/
  | matrixComplete (c : CellId)
  /-- TILE (R276). A chain long-form tile message arrives, is combined by the collective engine and is written to the posted address. -/
  | tile
  /-- POST (R276). A POST message arrives, and the DN member's engine sends its long-form tile. -/
  | post
  /-- RERUN (R77). A RERUN message with a raised target arrives, and the part re-executes its MMA and CHAIN_ADD. -/
  | rerun
  /-- DONE (R79). A DONE message arrives, and the part's chain commands complete and free their slot group. -/
  | done
  /-- PROGRAM (R123). The element engine dispatches an element program over the tile registers. -/
  | program (c : CellId) (e : EccHits)
  /-- PRESS (R134). The element engine writes a press record, or merges into one. -/
  | press (c : CellId) (e : EccHits)
  /-- UPDATE (R135). The element engine runs the optimiser update over COUNT parameters. -/
  | update (c : CellId) (e : EccHits)
  /-- RESEAT (R115). The element engine converts masters to their working copies. -/
  | reseat (c : CellId) (e : EccHits)
  /-- CONVERT (R135). The element engine converts COUNT elements between formats. -/
  | convert (c : CellId) (e : EccHits)
  /-- GATHER (R129). The element engine issues one global load per active lane into a tile register. -/
  | gather (c : CellId) (e : EccHits)
  /-- GATHER_LANE_RETURN (R129). One gather lane returns its element, or NaN with a status. -/
  | gatherLaneReturn (c : CellId) (lane : Nat)
  /-- SCATTER (R130). The element engine writes or combines active elements atomically into the scratchpad. -/
  | scatter (c : CellId) (e : EccHits)
  /-- ELEMENT_COMPLETE (R131). An element command completes, writes its summaries and updates its gauge. -/
  | elementComplete (c : CellId)
  /-- DMA_DISPATCH (R48). A DMA command is assigned one of the cell's tags and starts its transfer. -/
  | dmaDispatch (c : CellId) (e : EccHits)
  /-- DMA_DESCRIPTOR (R196). A DMA tag performs the next descriptor of its list. -/
  | dmaDescriptor (c : CellId) (n : Fin 8) (e : EccHits)
  /-- DMA_COMPLETE (R56). A DMA command completes once its writes are visible, and updates its completion gauge. -/
  | dmaComplete (c : CellId) (n : Fin 8)
  /-- FOREIGN_REQUEST (R155). A foreign request reaches a cell's port, is checked against the column ranges and is served or refused. -/
  | foreignRequest (idx : Nat) (e : EccHits)
  /-- RINSE_TICK (R148). A column rinse walker's interval expires, and it rinses the next line. -/
  | rinseTick (c : CellId) (dram : Bool) (e : EccHits)
  /-- VERTICAL_BEAT_ERROR (R404). A vertical-channel beat fails bundle parity, is retried, and may retire the cell. -/
  | verticalBeatError (c : CellId) (bundle : Nat) (good : Bool)
  /-- COL_CTR_CLR (R158). A write of CLEAR clears OWN_DENY, COL_ECC and COL_SP_CONFLICT. -/
  | colCtrClr (c : CellId) (v : Word)
  /-- TIER_REQUEST (R164). An HBM or DDR tier controller serves a burst chosen by class and weight. -/
  | tierRequest (idx : Nat) (retries : Nat) (hard : Bool) (e : EccHits)
  /-- REQUEST_PROMOTE (R165). A weighted tier request that has waited 4 µs becomes latency-critical. -/
  | requestPromote (idx : Nat)
  /-- TIER_RINSE_TICK (R168). A tier channel's rinse interval expires, and it rinses the next granule. -/
  | tierRinseTick (ddr : Bool) (ch : Nat) (e : EccHits)
  /-- HBM_TEMP_READ (R169). The keeper reads a stack sensor every 1 ms and sets refresh, throttle or stop. -/
  | hbmTempRead (stk : Fin 6) (t : Nat)
  /-- DDR_TEMP_READ (R169). The keeper reads a DDR module's sensors every 16 ms and sets refresh or stop. -/
  | ddrTempRead (k : Fin 8) (t : Nat)
  /-- CE_WINDOW_EXPIRE (R171). A channel's 10 s corrected-error window ends. -/
  | ceWindowExpire (ddr : Bool) (ch : Nat)
  /-- TIER_LIST_FIX (R163). Once every unit of a tier has trained or failed, the tier's unit list and capacity are fixed. -/
  | tierListFix (ddr : Bool)
  /-- HBM_CH_CTL_WRITE (R175). A write of OOS takes a tier channel out of service or returns it to service. -/
  | hbmChCtlWrite (by_ : Option PciePort) (ddr : Bool) (ch : Nat) (v : Word)
  /-- TG_START (R176). A write of START to the traffic-generator control begins a generator run on an out-of-service channel. -/
  | tgStart (by_ : Option PciePort) (ddr : Bool) (ch : Nat) (v : Word)
  /-- TG_RUN_END (R177). A traffic-generator run ends and sets DONE, RESULT and ERRORS. -/
  | tgRunEnd (ddr : Bool) (ch : Nat) (errs : List (Nat × Nat))
  /-- FAR_CACHE_REQUEST (R188). A request reaches its far-cache slice: a lookup, an allocation or a snoop, which may train prefetch. -/
  | farCacheRequest (idx : Nat) (e : EccHits)
  /-- FAR_CACHE_FILL (R190). A miss fill returns, is installed, and frees its miss register. -/
  | farCacheFill (idx : Nat) (victim : Option (Nat × Nat))
  /-- PREFETCH_FILL (R194). A prefetch fill returns and is installed, or dropped if it failed. -/
  | prefetchFill (idx : Nat) (victim : Option (Nat × Nat))
  /-- XLT_PROBE_ADDR_WRITE (R181). A write to XLT_PROBE_ADDR starts a lookup of that address. -/
  | xltProbeAddrWrite (v : Word)
  /-- XLT_PROBE_DONE (R181). A probe lookup finishes, and XLT_PROBE_RES is set with DONE. -/
  | xltProbeDone
  /-- FAR_CTR_CLR (R204). A write of CLEAR clears the far-cache and translation counters. -/
  | farCtrClr (v : Word)
  /-- PAT_CTL_LOAD (R210). A write of PAT_CTL.LOAD starts or replaces a Pattern load according to the stage. -/
  | patCtlLoad (by_ : Option PciePort)
  /-- PAT_CTL_SWITCH (R212). A write of PAT_CTL.SWITCH schedules a switch of the staged Pattern at edge E. -/
  | patCtlSwitch (by_ : Option PciePort)
  /-- PAT_CTL_DISCARD (R210). A write of PAT_CTL.DISCARD stops a load, empties the stage or withdraws a switch. -/
  | patCtlDiscard (by_ : Option PciePort)
  /-- PAT_LOAD_DONE (R209). An image read ends and is checked, and the stage becomes STAGED or EMPTY with a reason. -/
  | patLoadDone (body : Option PatBody) (far : List (Nat × Byte)) (e : EccHits)
  /-- SWITCH_READY (R213). A device with a scheduled switch becomes quiesced and sends its ready message to the tide master. -/
  | switchReady
  /-- READY_MESSAGE (R214). The tide master receives a ready message and gathers agreement for the switch flag. -/
  | readyMessage
  /-- SWITCH_WITHDRAWAL (R214). The tide master receives a withdrawal and delivers the edge without the switch flag. -/
  | switchWithdrawal
  /-- SIZ_REPORT (R220). A patch home receives a member's SIZ entry 0 and recomputes the sums. -/
  | sizReport
  /-- SIZ_SUM (R220). A member receives a wider patch's sums and updates that SIZ entry. -/
  | sizSum
  /-- SIZ_IDLE_UPDATE (R220). While no tide runs, SIZ entry 0 takes a change within 1 ms. -/
  | sizIdleUpdate
  /-- TID_CTL_START (R228). On a ROOT, a write of START announces the first edge one lead ahead. -/
  | tidCtlStart (by_ : Option PciePort) (held : Bool) (t : Nat)
  /-- TID_CTL_STOP (R228). On a ROOT, a write of STOP stops the tide after the next edge. -/
  | tidCtlStop (by_ : Option PciePort)
  /-- TID_CTL_RESUME (R238). On a ROOT, a write of RESUME resumes a halted tide and announces the next edge. -/
  | tidCtlResume (by_ : Option PciePort) (held : Bool) (t : Nat)
  /-- TID_CFG_WRITE (R227). A write of TID_CFG changes the tide role, source or upstream port, and takes effect only while the tide is not RUNNING. -/
  | tidCfgWrite (by_ : Option PciePort) (v : Word)
  /-- EDGE_ANNOUNCE (R236). At one lead before its chosen fire time, the root announces the next edge under its policy. -/
  | edgeAnnounce (held : Bool) (t : Nat)
  /-- EDGE_MESSAGE (R229). A device receives an edge message, adds the switch flag if it is a MASTER, and forwards it to its children. -/
  | edgeMessage (t : Nat)
  /-- TIDE_EDGE (R240). A device fires an edge at its fire time and applies the edge events in order. -/
  | tideEdge (en : TideEnergy)
  /-- TIDE_IN_EDGE (R464). A rising edge on TIDE_IN is stamped and fires a pending edge if it falls in the window. -/
  | tideInEdge (stamp : Nat) (en : TideEnergy)
  /-- TIDE_IN_WINDOW_EXPIRE (R464). No TIDE_IN edge has arrived by fire time + 1 µs, so the device fires late and sets LATE_EDGE. -/
  | tideInWindowExpire (en : TideEnergy)
  /-- TIME_SYNC (R231). Every 1 ms, a device exchanges timestamps with its upstream neighbour to synchronise its tide time base. -/
  | timeSync (t : Nat)
  /-- TIDE_LOST_TIMEOUT (R232). A follower has received no edge message for period + stretch max + 1 ms, and enters LOST. -/
  | tideLostTimeout (t : Nat)
  /-- ARRIVE_MESSAGE (R233). A device receives ARRIVE(n) from a child and sends its own ARRIVE upstream once everything below it has arrived. -/
  | arriveMessage
  /-- OVERRUN_RECORD_DONE (R239). The overrun record is complete, and HDR.VALID is set last. -/
  | overrunRecordDone
  /-- FREQ_STEP_COMPLETE (R356). A region's voltage and clock step completes within 2 µs of its edge. -/
  | freqStepComplete (r : RegionId)
  /-- TID_CTR_CLR (R241). A write of CLEAR clears TID_CTR. -/
  | tidCtrClr (v : Word)
  /-- CABLE_PRESENT (R243). A change of Tp_PRSNT_N starts a port's bring-up or takes the port down. -/
  | cablePresent (p : TrfPort) (present : Bool) (accepted : Bool)
  /-- PORT_UP (R243). A port's training ends with its peer exchange, and the port enters UP. -/
  | portUp (p : TrfPort) (peerNode : Nat) (peerPort : Nat)
  /-- PORT_TRAIN_TIMEOUT (R243). A port has not reached UP within 200 ms and returns to DOWN. -/
  | portTrainTimeout (p : TrfPort)
  /-- PORT_TRAIN_RETRY (R243). Every 1 s while a cable is present, a DOWN port tries training again. -/
  | portTrainRetry (p : TrfPort) (accepted : Bool)
  /-- CMIS_POLL (R245). Every 100 ms, the part reads a cable's lane flags and temperature. -/
  | cmisPoll (p : TrfPort) (flags : BitVec 8) (t : Nat)
  /-- NODE_ID_WRITE (R244). A write of TRF_NODE_CFG.ID sets VALID and retrains every port that is UP. -/
  | nodeIdWrite (by_ : Option PciePort) (v : Word)
  /-- FLIT_RECEIVE (R248). A flit is received, and its ACK, NAK, credits and messages are accepted or it is discarded. -/
  | flitReceive (p : TrfPort) (f : Flit)
  /-- FLIT_TRANSMIT (R248). A port sends its next flit: messages with a new SEQ, or an idle flit. -/
  | flitTransmit (p : TrfPort)
  /-- REPLAY_TIMEOUT (R248). ACK has not advanced for 2 µs while flits are held, so every held flit is sent again. -/
  | replayTimeout (p : TrfPort)
  /-- PORT_RETRAIN_DONE (R249). A retrain ends: the lanes relock, and the held flits are sent again. -/
  | portRetrainDone (p : TrfPort) (locked : Bool)
  /-- LANE_CONTROL_BLOCK (R250). A lane-control block arrives with the peer's measurements and any width-change request. -/
  | laneControlBlock (p : TrfPort) (own : List (Nat × Nat)) (ask : Option (Fin 8 × Nat × Nat)) (t : Nat)
  /-- LANE_LOSS_OF_LOCK (R250). A lane loses lock, or reports a module flag, and is retired. -/
  | laneLossOfLock (p : TrfPort) (l : Fin 8) (flag : Bool) (t : Nat)
  /-- LANE_WINDOW_EXPIRE (R250). A lane's LANE_WINDOW of error counts ends. -/
  | laneWindowExpire (p : TrfPort) (l : Fin 8)
  /-- WIDTH_CHANGE (R251). At the named epoch group, the port enters RECONFIG at its new width. -/
  | widthChange (p : TrfPort)
  /-- RECONFIG_DONE (R251). A width change ends, and the port returns to UP and sends its held flits again. -/
  | reconfigDone (p : TrfPort)
  /-- MESSAGE_ROUTE (R257). A message not addressed to this device is routed to a port, or discarded. -/
  | messageRoute (t : Nat)
  /-- RD (R261). A remote read request arrives, is checked, is performed at home and is answered. -/
  | rd (e : EccHits)
  /-- WR (R261). A remote write request arrives, is checked, is performed and is acknowledged. -/
  | wr
  /-- REMOTE_GAUGE (R261). A GAUGE request arrives and is applied at the named gauge's home. -/
  | remoteGauge
  /-- RD_RSP (R259). A read response arrives and completes its outstanding request. -/
  | rdRsp
  /-- WR_RSP (R259). A write response arrives and completes its outstanding request. -/
  | wrRsp
  /-- GAUGE_RSP (R259). A gauge response arrives and completes its outstanding request. -/
  | gaugeRsp
  /-- REMOTE_TIMEOUT (R259). A request has had no response within REMOTE_TIMEOUT and completes with RETIRED_RESOURCE. -/
  | remoteTimeout (rid : Nat) (t : Nat)
  /-- TRF_PORT_DISABLE (R263). A write of DISABLE takes a port down, or lets it train again. -/
  | trfPortDisable (by_ : Option PciePort) (p : TrfPort) (v : Word) (accepted : Bool)
  /-- TRF_PORT_RETRAIN (R263). A write of RETRAIN retrains a port that is UP. -/
  | trfPortRetrain (by_ : Option PciePort) (p : TrfPort) (v : Word)
  /-- TRF_CMIS_GO (R263). A write of GO starts a host read of 8 bytes of cable memory. -/
  | trfCmisGo (p : TrfPort) (v : Word)
  /-- TRF_CMIS_DONE (R263). A host CMIS read ends, and DONE or ERR is set. -/
  | trfCmisDone (p : TrfPort) (data : Option Word)
  /-- TRF_CTR_CLR (R263). A write of CLEAR clears the Trafort counters. -/
  | trfCtrClr (v : Word)
  /-- CLV_LAUNCH (R268). A collective slot's instance launches at a member once its launch gauge is reached. -/
  | clvLaunch (slot : Fin 256) (rank : Nat)
  /-- DATA (R271). A collective DATA chunk arrives toward the root. -/
  | data
  /-- RESULT (R272). A RESULT chunk arrives, is written to DST and is forwarded down. -/
  | result
  /-- CREDIT (R270). A CREDIT message grants a sender further chunks. -/
  | credit
  /-- CLV_COMBINE (R270). An engine holding chunk k from every DN edge and its own contribution combines it and sends it on. -/
  | clvCombine (slot : Fin 256) (rank : Nat) (k : Nat) (e : EccHits)
  /-- CLV_ACK_SEND (R279). A member whose writes and data are done, and whose children have acknowledged, sends its ACK. -/
  | clvAckSend (slot : Fin 256) (rank : Nat)
  /-- ACK (R279). An ACK arrives up the distribution tree, and the root sends COMMIT once all have arrived. -/
  | ack
  /-- COMMIT (R279). A COMMIT arrives, and the member completes with OK and advances COMMITTED. -/
  | commit
  /-- CLV_ABORT (R281). An ABORT reaches the root, which sends FAIL on the first it receives. -/
  | clvAbort
  /-- FAIL (R281). A FAIL arrives, and the member completes the instance or chain with its status. -/
  | fail
  /-- CLV_TIMEOUT (R282). A member waits TIMEOUT_TIDES edges or TIMEOUT_US without a message and latches RETIRED_RESOURCE. -/
  | clvTimeout (chain : Bool) (k : Nat) (tag : Nat) (rank : Nat) (t : Nat)
  /-- CLV_CTR_CLR (R286). A write of CLEAR clears CLV_CTR, the digest sums and CLV_SS_CTR. -/
  | clvCtrClr (v : Word)
  /-- SS_PUBLISH (R289). A publish instance launches, digests the owner's shard and writes the publish record. -/
  | ssPublish (k : Fin 64) (e : EccHits)
  /-- SS_FETCH (R291). A fetch instance launches and reads every foreign shard from its owner. -/
  | ssFetch (k : Fin 64)
  /-- FETCH_SHARD_RETRY (R291). The 2 µs wait for an unpublished shard ends, and the fetch of that shard restarts. -/
  | fetchShardRetry (k : Fin 64) (sh : Nat) (t : Nat)
  /-- SS_FETCH_DONE (R292). Every shard has an outcome, and the fetch completes with its status and gauge. -/
  | ssFetchDone (k : Fin 64)
  /-- SS_CHECK (R294). A check instance launches and compares the shard digests with the owners'. -/
  | ssCheck (k : Fin 64) (e : EccHits)
  /-- STATE_EXPORT (R297). A ring command that exports a shard's arrays to an export file. -/
  | stateExport (k : Fin 32) (e : EccHits)
  /-- STATE_IMPORT (R298). A ring command that imports an export file into the arrays this member holds. -/
  | stateImport (k : Fin 32) (e : EccHits)
  /-- SLUICE_WRITE (R303). A producer writes an entry, spending a credit, or the write is discarded without credit. -/
  | sluiceWrite (j : Fin 46) (entry : List Byte)
  /-- SLUICE_READ (R304). A consumer reads one entry, or finds the sluice empty at once. -/
  | sluiceRead (j : Fin 46)
  /-- SLUICE_MARK (R305). The consumer sets the mark at its read pointer. -/
  | sluiceMark (j : Fin 46)
  /-- SLUICE_REWIND (R305). The consumer returns its read pointer to the mark, or to the release pointer. -/
  | sluiceRewind (j : Fin 46)
  /-- SLUICE_RELEASE (R305). The consumer frees its n oldest held entries. -/
  | sluiceRelease (j : Fin 46) (n : Nat)
  /-- SLUICE_POINTER_SYNC (R302). A Gray-coded pointer crosses its synchroniser and updates the other side's view. -/
  | sluicePointerSync (j : Fin 46) (release : Bool)
  /-- SLC_PINSEL_WRITE (R308). A write of SLC_PINSEL selects which sluice drives the flow pins. -/
  | slcPinselWrite (by_ : Option PciePort) (v : Word)
  /-- SLC_WM_WRITE (R307). A write of SLC_WM sets the thresholds, and has no effect if they break their order. -/
  | slcWmWrite (by_ : Option PciePort) (j : Fin 46) (v : Word)
  /-- SLC_CTR_CLR (R310). A write of CLEAR clears every SLC_CTR. -/
  | slcCtrClr (v : Word)
  /-- CONFIG_REQUEST (R313). A PCIe configuration request is answered, or is retried until the port is ready. -/
  | configRequest (p : PciePort) (write : Bool) (reg : Fin 1024) (mask : Fin 16) (v : BitVec 32)
  /-- REGISTER_WRITE (R10). A BAR0 write to a register field without behaviour of its own stores, clears or is ignored under its access type. -/
  | registerWrite (by_ : Option PciePort) (off : Nat) (n : Nat) (v : Word)
  /-- BAR2_READ (R317). A host read through BAR2 is translated, performed and completed on PCIe. -/
  | bar2Read (p : PciePort) (secure : Bool) (off : Nat) (n : Nat) (e : EccHits)
  /-- BAR2_WRITE (R317). A host write through BAR2 is translated and performed, or discarded. -/
  | bar2Write (p : PciePort) (secure : Bool) (off : Nat) (bytes : List Byte) (ep : Bool)
  /-- HIF_BAR2_BASE_WRITE (R317). A write sets the port's BAR2 base for the accesses that arrive after it. -/
  | hifBar2BaseWrite (by_ : Option PciePort) (p : PciePort) (v : Word)
  /-- UNSUPPORTED_TLP (R318). An AtomicOp, a Deferrable Memory Write or a request in D3hot or with memory space disabled completes with Unsupported Request. -/
  | unsupportedTlp (p : PciePort) (posted : Bool)
  /-- INGEST_WINDOW_WRITE (R316). A write to the BAR4 ingest window enters the ingest sluice in 64 B entries. -/
  | ingestWindowWrite (p : PciePort) (secure : Bool) (off : Nat) (bytes : List Byte)
  /-- DOORBELL (R328). A doorbell taken from the sluice advances a ring's fetch target, is ignored as stale, or puts the ring in ERROR. -/
  | doorbell (p : PciePort)
  /-- MBX_PUSH (R314). A configuration write of PUSH sends the request window to the keeper's request mailbox. -/
  | mbxPush (p : PciePort)
  /-- MBX_POP (R314). A configuration write of POP releases the oldest keeper response. -/
  | mbxPop (p : PciePort)
  /-- FUNCTION_LEVEL_RESET (R322). An FLR raises a levee around the port function, resets its state and stops its rings. -/
  | functionLevelReset (p : PciePort)
  /-- HOT_RESET (R322). A Hot Reset of one port resets that port as an FLR does. -/
  | hotReset (p : PciePort)
  /-- PCIE_LINK_DOWN (R322). A port's link goes down, and the port resets as an FLR does. -/
  | pcieLinkDown (p : PciePort)
  /-- PCIE_LINK_UP (R311). A port's link trains up at a rate and width. -/
  | pcieLinkUp (p : PciePort) (rate : Nat) (width : Nat) (l0p : Nat)
  /-- PERST_ASSERT (R462). An assertion of PERST_A_N or PERST_B_N resets that port's polder. -/
  | perstAssert (p : PciePort)
  /-- PERST_DEASSERT (R462). Deassertion of a PERST pin lets the port train and its configuration space become ready. -/
  | perstDeassert (p : PciePort)
  /-- D_STATE_CHANGE (R320). A function enters or leaves D3hot, which may move the part into or out of D3hot. -/
  | dStateChange (p : PciePort) (d3 : Bool)
  /-- IDE_INTEGRITY_FAIL (R321). An IDE stream fails its integrity check and leaves Secure, and IDE_FAIL is set. -/
  | ideIntegrityFail (p : PciePort) (stream : Fin 3)
  /-- HIF_CTR_CLR (R323). A write of CLEAR clears the port's HIF_PORT_CTR. -/
  | hifCtrClr (p : PciePort) (v : Word)
  /-- RING_ENABLE (R326). A DISABLED ring is enabled at START_SEQ with its history emptied. -/
  | ringEnable (by_ : Option PciePort) (k : Fin 32)
  /-- RING_RESUME (R348). A STOPPED or ERROR ring writes its missing completions and runs again. -/
  | ringResume (by_ : Option PciePort) (k : Fin 32)
  /-- RING_STOP (R326). A RUNNING ring is stopped. -/
  | ringStop (by_ : Option PciePort) (k : Fin 32)
  /-- RING_DISABLE (R326). A stopped ring with no outstanding commands is disabled. -/
  | ringDisable (by_ : Option PciePort) (k : Fin 32)
  /-- DESCRIPTOR_FETCH (R329). A fetched descriptor is checked against LAST_RECV + 1 and accepted, or the ring enters ERROR. -/
  | descriptorFetch (k : Fin 32) (bytes : Option (List Byte)) (e : EccHits) (far : List (Nat × Byte))
  /-- COMMAND_WORK_END (R340). A host command's work ends, and the part latches the moment for commit and abort. -/
  | commandWorkEnd (k : Fin 32) (seq : Nat)
  /-- COMPLETION_POST (R332). A committed command's completion is posted in SEQ order once the earlier ones are posted. -/
  | completionPost (k : Fin 32) (good : Bool)
  /-- MOD_TIME_EXPIRE (R333). The moderation time since the oldest unsignalled completion passes, and the ring's event bit is set. -/
  | modTimeExpire (k : Fin 32)
  /-- NOP (R334). A ring command that does nothing and completes. -/
  | nop (k : Fin 32)
  /-- COPY (R337). A ring command that moves data by DMA between host memory and a device address. -/
  | copy (k : Fin 32) (host : Option (List Byte)) (hostBad : List Nat) (e : EccHits)
  /-- GAUGE (R338). A ring command that adds to or sets a gauge at its commit edge. -/
  | gauge (k : Fin 32)
  /-- GAUGE_LIST (R339). A ring command that applies a list of gauge updates in one cycle. -/
  | gaugeList (k : Fin 32)
  /-- INGEST_SET (R343). A ring command that sets the port's ingest buffer and its gauges. -/
  | ingestSet (k : Fin 32)
  /-- INGEST_BATCH (R343). The ingest engine writes a batch of entries once room allows, adds to the fill gauge and releases the entries. -/
  | ingestBatch (p : PciePort) (n : Nat)
  /-- PAT_LOAD (R208). An owner ring command that loads a Pattern image. -/
  | patLoad (k : Fin 32)
  /-- PAT_SWITCH (R212). An owner ring command that schedules a Pattern switch. -/
  | patSwitch (k : Fin 32)
  /-- PAT_DISCARD (R210). An owner ring command that discards the stage. -/
  | patDiscard (k : Fin 32)
  /-- SR_SEED (R114). An owner ring command that sets the device stochastic-rounding seed on an edge. -/
  | srSeed (k : Fin 32)
  /-- CLV_LAYOUT (R267). A ring command that changes a group's layout on an edge and aborts its instances. -/
  | clvLayout (k : Fin 32)
  /-- ABORT (R341). A ring command that latches an abort of a target command, resolved at the next edge. -/
  | abort (k : Fin 32)
  /-- HANDOVER (R346). A ring command that opens an offer to move control ownership. -/
  | handover (k : Fin 32)
  /-- HANDOVER_ACK (R346). A ring command that accepts the other port's open offer, moving ownership at once. -/
  | handoverAck (k : Fin 32)
  /-- HANDOVER_EXPIRE (R346). A handover offer times out, and its HANDOVER completes with ABORTED. -/
  | handoverExpire (p : PciePort)
  /-- CAP_SET (R359). An owner ring command that sets the host power cap on an edge. -/
  | capSet (k : Fin 32)
  /-- RESET (R398). An owner ring command that resets a scope at its commit point. -/
  | reset (k : Fin 32)
  /-- PWR_POLDER_OFF_WRITE (R353). A write of PWR_POLDER_OFF requests region polders off or back on. -/
  | pwrPolderOffWrite (by_ : Option PciePort) (v : Word)
  /-- PWR_POLDER_OFF_HI_WRITE (R353). A write of PWR_POLDER_OFF_HI requests memory, link or test polders off or back on. -/
  | pwrPolderOffHiWrite (by_ : Option PciePort) (v : Word)
  /-- SLACK_REPORT (R365). A pool home receives a member's slack, base, shift and carrier limit. -/
  | slackReport
  /-- SHIFT_INTERVAL (R366). Every INTERVAL edges, the pool home may move DELTA watts between two members. -/
  | shiftInterval
  /-- BUDGET_SHIFT (R366). A member receives a budget shift and applies it on the next edge. -/
  | budgetShift
  /-- SHIFT_TIMEOUT (R367). With no shift or acknowledgement for 4 or 8 edges, a member returns its shift to 0. -/
  | shiftTimeout
  /-- COOL_FAIL_ASSERT (R368). COOL_FAIL_N held asserted for 2 µs latches the hardware coolant stop. -/
  | coolFailAssert
  /-- COOLANT_STOP_STAGE (R368). A timed stage of the hardware stop is reached and its clocks, transmitters or polders are switched off. -/
  | coolantStopStage
  /-- PWR_CTR_CLR (R370). A write of CLEAR clears PWR_CTR. -/
  | pwrCtrClr (v : Word)
  /-- THERMAL_SAMPLE (R374). Every 100 µs, the keeper samples the sensors, updates the model and effective temperatures and evaluates the triggers. -/
  | thermalSample (ms : List ThmSample) (t : Nat)
  /-- THROTTLE_LEVEL_TIMER (R379). The 1 ms rise or 10 ms fall interval of a region's throttle level expires, and the level changes. -/
  | throttleLevelTimer (r : RegionId)
  /-- DIE_COMPARATOR_TRIP (R381). A die sensor's hardware comparator crosses 115 °C and trips the region. -/
  | dieComparatorTrip (r : RegionId)
  /-- TRIP_RESTART (R382). After 10 ms at or below 90 °C, a tripped region restarts at level 9, step 3. -/
  | tripRestart (r : RegionId)
  /-- THM_CTR_CLR (R385). A write of CLEAR clears THM_CTR. -/
  | thmCtrClr (v : Word)
  /-- VAUX_PRESENT (R451). VAUX becomes present, and the keeper starts. -/
  | vauxPresent
  /-- VAUX_LOSS (R453). VAUX is lost: the part stops by hardware and enters Off. -/
  | vauxLoss
  /-- VIN_MAIN_PRESENT (R451). VIN_MAIN becomes present, which defines t0 and may start bring-up. -/
  | vinMainPresent
  /-- VIN_MAIN_LOSS (R452). VIN_MAIN is lost: the part stops by hardware into Keeper-only. -/
  | vinMainLoss
  /-- VDDQ_D_PRESENT (R454). VDDQ_D becomes present, and the DDR tier may start. -/
  | vddqDPresent
  /-- VDDQ_D_LOSS (R454). VDDQ_D is lost, and P70 and P71 switch off as a tier. -/
  | vddqDLoss
  /-- VDDQ_WAIT_TIMEOUT (R454). VDDQ_D has been absent for 1 s at DDR bring-up, and every channel settles not brought up. -/
  | vddqWaitTimeout
  /-- SYSCLK_STABLE (R455). SYSCLK has been stable for 1 ms, and the core supply may be powered. -/
  | sysclkStable
  /-- STRAP_LATCH (R459). 1 ms after VAUX is present, the keeper latches TIDE_MST and CTRL_OWN. -/
  | strapLatch (tide : Bool) (own : Bool)
  /-- KEEPER_START (R386). The keeper regenerates the identity key, verifies the package record, reads the carrier record and sets KEEPER. -/
  | keeperStart (prec : Option PkgRec) (carrier : Option (List Byte)) (t : Nat)
  /-- BRING_UP (R387). Bring-up begins, automatically or on request, powering the polders in the order of Table 21-1. -/
  | bringUp (carrier : Option (List Byte)) (t : Nat)
  /-- REGION_GROUP_ON (R388). Every 5 ms, the next group of 8 region polders switches on and starts its bring-up. -/
  | regionGroupOn
  /-- REGION_SETTLED (R389). A region's bring-up ends, with its via test and darns, ready or failed. -/
  | regionSettled (r : RegionId) (test : RegionTest)
  /-- HBM_STACK_SETTLED (R389). An HBM stack's identity read, training and start-up test end. -/
  | hbmStackSettled (stk : Fin 6) (id : Nat) (fails : List (Nat × Nat))
  /-- DDR_CHANNEL_SETTLED (R389). A DDR channel's SPD check, training and start-up test end. -/
  | ddrChannelSettled (k : Fin 8) (why : Fin 4)
  /-- SYS_RST_ASSERT (R461). SYS_RST_N held low for 1 µs requests a DEVICE reset and holds the polders in reset. -/
  | sysRstAssert
  /-- SYS_RST_DEASSERT (R461). SYS_RST_N rises, and bring-up begins within 100 µs. -/
  | sysRstDeassert
  /-- LEVEE_RAISE (R400). A levee is raised around a resetting scope, and each crossing is given its outcome. -/
  | leveeRaise (scope : Nat) (target : Nat)
  /-- LEVEE_LOWER (R402). Every function in the scope has settled, and the levee is lowered. -/
  | leveeLower (scope : Nat) (target : Nat)
  /-- MESH_HOP_ERROR (R405). A mesh hop fails its link CRC, is retried, and may retire the link. -/
  | meshHopError (c : CellId) (vertical : Bool) (good : Bool)
  /-- KEEPER_WATCHDOG (R412). The keeper watchdog expires and restarts the keeper firmware, dropping a failing patch. -/
  | keeperWatchdog (patched : Bool) (t : Nat)
  /-- STATUS (R410). A keeper operation that returns readiness, start, power, thermal, tide and lifecycle state. -/
  | status (m : Fin 3)
  /-- FLOG_DUMP (R408). A keeper operation that returns 56 B of a fault record. -/
  | flogDump (m : Fin 3)
  /-- QUOTE (R433). A keeper operation that returns a signed quote of the measurements. -/
  | quote (m : Fin 3)
  /-- SCOPE_RESET (R398). A keeper operation that resets a scope and responds when the levee is lowered. -/
  | scopeReset (m : Fin 3)
  /-- POWER_OFF (R411). A keeper operation that raises a DEVICE levee and removes power into Keeper-only. -/
  | powerOff (m : Fin 3)
  /-- POWER_ON (R369). A keeper operation that starts bring-up if coolant, supply and confirmation allow. -/
  | powerOn (m : Fin 3) (carrier : Option (List Byte)) (t : Nat)
  /-- COOLANT_STOP (R411). A keeper operation that takes the hardware coolant-stop path at once. -/
  | coolantStop (m : Fin 3)
  /-- RACK_CAP (R359). A keeper operation that stores the rack cap. -/
  | rackCap (m : Fin 3)
  /-- POWER_READ (R364). A keeper operation that returns caps, measured power, debt and slack. -/
  | powerRead (m : Fin 3)
  /-- SET_OWNER (R347). A keeper operation over MCTP that sets the control-owner port and cancels any offer. -/
  | setOwner (m : Fin 3) (eid : Fin 256)
  /-- TIDE_ROLE (R227). A keeper operation that writes TID_CFG. -/
  | tideRole (m : Fin 3)
  /-- SEC_SUBMIT (R424). A write of SEC_CTL.SUBMIT submits a token for checking and draws a new nonce. -/
  | secSubmit (by_ : Option PciePort)
  /-- TOKEN_CHECK_DONE (R425). A token check ends, entering DEBUG or RETIRE, or refusing with a result code. -/
  | tokenCheckDone (far : List (Nat × Byte)) (e : EccHits)
  /-- SEC_FW_LOAD (R418). A write of SEC_CTL.FW_LOAD starts reading and checking a keeper firmware patch. -/
  | secFwLoad (by_ : Option PciePort)
  /-- FW_LOAD_DONE (R418). A patch check ends, and the patch is refused or takes effect through a firmware restart. -/
  | fwLoadDone (e : EccHits)
  /-- SEC_ANCHOR_ADD (R420). A write of SEC_CTL.ANCHOR_ADD starts installing an owner trust anchor. -/
  | secAnchorAdd (by_ : Option PciePort)
  /-- ANCHOR_ADD_DONE (R420). An anchor install ends, installed or refused. -/
  | anchorAddDone (e : EccHits)
  /-- SEC_LOCK_ANCHORS (R420). A write of SEC_CTL.LOCK_ANCHORS locks the trust anchor slots. -/
  | secLockAnchors (by_ : Option PciePort)
  /-- SEC_RELOCK (R425). A write of SEC_CTL.RELOCK requests a DEVICE reset, ending any debug session. -/
  | secRelock (by_ : Option PciePort)
  /-- GET_VERSION (R429). An SPDM request for the supported versions. -/
  | getVersion (via : Fin 3)
  /-- GET_CAPABILITIES (R429). An SPDM request for the responder's capabilities. -/
  | getCapabilities (via : Fin 3)
  /-- NEGOTIATE_ALGORITHMS (R429). An SPDM request that negotiates the fixed algorithms. -/
  | negotiateAlgorithms (via : Fin 3)
  /-- GET_DIGESTS (R429). An SPDM request for the certificate chain digests. -/
  | getDigests (via : Fin 3)
  /-- GET_CERTIFICATE (R429). An SPDM request for the slot-0 certificate chain. -/
  | getCertificate (via : Fin 3) (slot : Fin 8) (off : Nat) (len : Nat)
  /-- CHALLENGE (R429). An SPDM request answered with CHALLENGE_AUTH signed by the identity key. -/
  | challenge (via : Fin 3) (slot : Fin 8) (nonce : List Byte)
  /-- GET_MEASUREMENTS (R432). An SPDM request answered from one snapshot of the measurements. -/
  | getMeasurements (via : Fin 3) (index : Fin 256) (nonce : Option (List Byte))
  /-- KEY_EXCHANGE (R429). An SPDM request that opens a secured session, up to four per transport. -/
  | keyExchange (via : Fin 3)
  /-- HEARTBEAT (R429). An SPDM request that keeps a session alive. -/
  | heartbeat (via : Fin 3) (id : Nat)
  /-- KEY_UPDATE (R429). An SPDM request that updates a session's keys. -/
  | keyUpdate (via : Fin 3) (id : Nat)
  /-- END_SESSION (R429). An SPDM request that ends a session. -/
  | endSession (via : Fin 3) (id : Nat)
  /-- VENDOR_DEFINED_REQUEST (R429). An SPDM request carrying IDE_KM within a secured session on the same port. -/
  | vendorDefinedRequest (via : Fin 3) (id : Nat) (msg : Option IdeKm)
  /-- SPDM_UNSUPPORTED_REQUEST (R429). Any other SPDM request is answered with ERROR UnsupportedRequest. -/
  | spdmUnsupportedRequest (via : Fin 3)
  /-- DBG_RESUME_ALL (R443). A write of RESUME_ALL resumes every thread in BREAK and every held host command. -/
  | dbgResumeAll (by_ : Option PciePort)
  /-- DBG_RESUME_ONE (R443). A write of RESUME_ONE resumes the thread or held command named in DBG_RESUME_SEL. -/
  | dbgResumeOne (by_ : Option PciePort)
  /-- TRC_START (R438). A write of TRC_START starts tracing. -/
  | trcStart (by_ : Option PciePort)
  /-- TRC_STOP (R438). A write of TRC_STOP stops tracing. -/
  | trcStop (by_ : Option PciePort)
  /-- TRC_CLEAR (R438). A write of TRC_CLEAR resets the trace write pointer while tracing is stopped. -/
  | trcClear (by_ : Option PciePort)
  /-- STITCH_COMMIT (R444). A write of STITCH_COMMIT writes one word of stitch or program memory when permitted and the cell is held. -/
  | stitchCommit (by_ : Option PciePort)
  /-- DBG_FREEZE_WRITE (R445). A write of DBG_FREEZE with the SCAN permission stops the clocks of the selected regions. -/
  | dbgFreezeWrite (by_ : Option PciePort) (v : Word)
  /-- DBG_BP_WRITE (R441). A write of DBG_BP configures or arms a breakpoint comparator and clears MATCHES. -/
  | dbgBpWrite (by_ : Option PciePort) (k : Fin 8) (v : Word)
  /-- DBG_BP_CNT_WRITE (R447). A write of DBG_BP_CNT sets a comparator's tag value and clears MATCHES. -/
  | dbgBpCntWrite (by_ : Option PciePort) (k : Fin 8) (v : Word)
  /-- DBG_TAGCTR_CFG_WRITE (R439). A write of a tag counter's configuration clears that counter. -/
  | dbgTagctrCfgWrite (by_ : Option PciePort) (j : Fin 16) (v : Word)
  /-- TELEMETRY_SNAPSHOT (R440). After each edge, or every 1 ms while the tide is not running, the part writes the DBG_TELEM snapshot. -/
  | telemetrySnapshot
  /-- TAP_RESET (R468). TRST_N low resets the test access port asynchronously. -/
  | tapReset
  /-- EXTEST (R446). A test instruction for boundary-scan external test, decoded only where the lifecycle allows. -/
  | extest (pins : Nat) (shiftIn : Nat)
  /-- IDCODE (R446). A test instruction that returns 0x1710_4B67. -/
  | idcode
  /-- SAMPLE_PRELOAD (R446). A test instruction that samples or preloads the boundary cells. -/
  | samplePreload (pins : Nat) (shiftIn : Nat)
  /-- CLAMP (R446). A test instruction that clamps the outputs, decoded as EXTEST is. -/
  | clamp
  /-- HIGHZ (R446). A test instruction that puts the outputs in high impedance, decoded as EXTEST is. -/
  | highz
  /-- STACK_SEL (R446). A test instruction that selects the IEEE 1838 die wrappers, where permitted. -/
  | stackSel
  /-- SCAN (R446). A test instruction for internal scan, where permitted. -/
  | scan
  /-- BYPASS (R446). A test instruction for bypass; every instruction not allowed is decoded as it. -/
  | bypass
  /-- MTX_CTR_CLR (R87). A write of CLEAR clears the matrix engine counters. -/
  | mtxCtrClr (c : CellId) (v : Word)
  /-- ELE_CTR_CLR (R138). A write of CLEAR clears the element engine counters. -/
  | eleCtrClr (c : CellId) (v : Word)
  /-- SPDM_FINISH (R429). An SPDM FINISH request completes the handshake of a session opened by KEY_EXCHANGE. -/
  | spdmFinish (via : Fin 3) (id : Nat)
  /-- COOL_FAIL_DEASSERT (R460). COOL_FAIL_N is deasserted, starting the 1 s deassertion interval that POWER_ON and bring-up require. -/
  | coolFailDeassert (t : Nat)
  /-- CORE_READY (R388). The core supply and base-die logic finish coming up, and KPR_READY.CORE is set. -/
  | coreReady
  /-- CONFIG_SPACE_READY (R462). A port's configuration space becomes ready, PCIE_A or PCIE_B is set, and Request Retry Status stops. -/
  | configSpaceReady (p : PciePort)
  /-- SLACK_REPORT_ACK (R367). A pool member receives the home's acknowledgement of its SLACK_REPORT, restarting its shift timeout. -/
  | slackReportAck
  /-- DYNAMIC_ADDRESS_ASSIGN (R467). A controller on the MCTP bus assigns the keeper a dynamic address, and the keeper becomes an I3C target. -/
  | dynamicAddressAssign (addr : Fin 128)
  /-- MSI_X_TABLE_WRITE (R319). A host write to the BAR4 MSI-X table masks or unmasks a vector, signalling any pending one on unmask. -/
  | msiXTableWrite (p : PciePort) (n : Fin 64) (addr : Nat) (data : Nat) (masked : Bool)
  /-- RID_REUSE_TIMEOUT (R259). 2 x REMOTE_TIMEOUT after a request timed out, its RID becomes free for reuse, releasing a waiting request. -/
  | ridReuseTimeout (rid : Nat) (t : Nat)
  deriving DecidableEq, Repr

end Sys2Proof
end

