-- ==== Sys2Proof/Decode.lean ====
section
/-! DEFINITION. The decoder of table words. The opcode table gives no row any bits: a command of this block has no binary form of its own,
so no word spells one. -/
namespace Sys2Proof

/-- The command that a word spells by the table's bits: none, as the table gives bits to no row. -/
def decodeTableWord (_nbits _w : Nat) : Option Instr := none

end Sys2Proof
end

