-- ==== Sys2Proof/Config.lean ====
section
/-! DEFINITION. What the manual leaves open: free values, each an opaque function of what it may depend on. Nothing can
evaluate one, so a claim about it holds for every value. The cryptography of the published standards that the manual
names and does not restate stands here too. -/
namespace Sys2Proof.Config

/-- The n-th free value, where the manual says only that some value results (log entry 3). -/
opaque free : Nat → Nat

/-- What a raw word of stitch memory says; its encoding is private (R3; log entry 4). -/
opaque rawStitch : Nat → Option Stitch

/-- What a raw word of program memory says; its encoding is private too (R123; log entry 4). -/
opaque rawOp : Nat → Option EleOp

/-- High bits of an X register after a scalar load of fewer than 8 bytes (log entry 5). -/
opaque loadHigh : Nat → Nat → Nat

/-- Offset of byte i of a DMA source or destination under a non-zero stride (log entry 6). -/
opaque dmaStride : Nat → Nat → Nat

/-- Quotient by zero, quotient of two infinities, and root of a negative value (log entry 7). -/
opaque divCorner : Nat → Nat → Nat → Nat

/-- Which of the encodings within the stated error a unary function or an activation gives (log entry 8). -/
opaque ulpPick : Nat → Nat → Nat → Int

/-- The value of a unary function or an activation where the manual states no real result (log entry 8). -/
opaque funCorner : Nat → Nat → Nat → Nat

/-- Index of a mesh link in a fault record, by its lower router and whether it is vertical (log entry 41). -/
opaque meshLink : Nat → Nat → Nat

/-- A byte of a traffic generator's pattern: PATTERN code, seed register and channel offset (log entry 42). -/
opaque tgPattern : Nat → Nat → Nat → Nat

/-- The needs of LINK, MEMORY and CORE (0 to 2) that a warden starts from without a POWER section, in 1/16 W (log entry 43). -/
opaque needStart : Nat → Nat

/-- SHA-384 of a byte string. -/
opaque sha384 : List Byte → Nat

/-- Whether an X.509 chain and an ECDSA P-384 signature verify: trust anchor, chain bytes, signed bytes, r and s. -/
opaque chainOk : Nat → List Byte → List Byte → Nat → Nat → Bool

/-- Whether an ECDSA P-384 signature by the key of a slot or certificate verifies. -/
opaque sigOk : Nat → List Byte → List Byte → Bool

/-- An ECDSA P-384 signature with the device identity key. -/
opaque sign : List Byte → List Byte

/-- Anchors that the boot ROM fixes by digest: 0 the Sprinhelin Pattern root, 1 the device root, 2 the firmware root. -/
opaque romAnchor : Nat → Nat

/-- DER of the Sprinhelin Pattern root's certificate (slot 0 of R420). -/
opaque rootCert : List Byte

/-- The device certificate and its chain (slot 0 of R429). -/
opaque certChain : List Byte

/-- Whether a self-signed X.509 P-384 certificate is well formed and verifies. -/
opaque certOk : List Byte → Bool

/-- Fresh random bits of the keeper's generator. -/
opaque drbg : Nat → Nat

end Sys2Proof.Config
end

