-- ==== Sys2Proof/Machine/Num.lean ====
section
/-! DEFINITION. Number formats (chapter "Number formats", R88 to R101): exact values, decoding, the one rounding of
every conversion, block forms, and the exact arithmetic every engine rounds from. -/
namespace Sys2Proof.Machine

/-- Width in bits (Table 5-1). -/
def fmtWidth : FloatFmt → Nat
  | .e2m1 => 4 | .e2m3 => 6 | .e3m2 => 6 | .e4m3 => 8 | .e5m2 => 8 | .e8m0 => 8 | .e4m4 => 8
  | .bf16 => 16 | .fp32 => 32 | .w32 => 32 | .mw48 => 48

/-- Fraction bits F (Table 5-1). -/
def fmtFrac : FloatFmt → Nat
  | .e2m1 => 1 | .e2m3 => 3 | .e3m2 => 2 | .e4m3 => 3 | .e5m2 => 2 | .e8m0 => 0 | .e4m4 => 4
  | .bf16 => 7 | .fp32 => 23 | .w32 => 20 | .mw48 => 36

/-- Exponent bias (Table 5-1). -/
def fmtBias : FloatFmt → Nat
  | .e2m1 => 1 | .e2m3 => 1 | .e3m2 => 3 | .e4m3 => 7 | .e5m2 => 15 | .e8m0 => 127 | .e4m4 => 7
  | .bf16 => 127 | .fp32 => 127 | .w32 => 1023 | .mw48 => 1023

/-- Whether the format has a sign bit (Table 5-1). -/
def fmtSigned : FloatFmt → Bool
  | .e8m0 | .e4m4 => false
  | _ => true

/-- Whether the format has infinities (Table 5-1). -/
def fmtHasInf : FloatFmt → Bool
  | .e5m2 | .bf16 | .fp32 | .w32 | .mw48 => true
  | _ => false

/-- Whether the format has a NaN encoding (Table 5-1). -/
def fmtHasNan : FloatFmt → Bool
  | .e2m1 | .e2m3 | .e3m2 => false
  | _ => true

/-- Encoding of the largest finite magnitude (Table 5-2). -/
def fmtMax : FloatFmt → Nat
  | .e2m1 => 0x7 | .e2m3 => 0x1F | .e3m2 => 0x1F | .e4m3 => 0x7E | .e5m2 => 0x7B | .e8m0 => 0xFE
  | .e4m4 => 0xFE | .bf16 => 0x7F7F | .fp32 => 0x7F7FFFFF | .w32 => 0x7FEFFFFF | .mw48 => 0x7FEFFFFFFFFF

/-- +Infinity, where the format has one (Table 5-2). -/
def fmtInf : FloatFmt → Nat
  | .e5m2 => 0x7C | .bf16 => 0x7F80 | .fp32 => 0x7F800000 | .w32 => 0x7FF00000 | .mw48 => 0x7FF000000000
  | _ => 0

/-- The canonical NaN (Table 5-2); +0 where the format has none (R95). -/
def fmtNan : FloatFmt → Nat
  | .e4m3 => 0x7F | .e5m2 => 0x7E | .e8m0 => 0xFF | .e4m4 => 0xFF | .bf16 => 0x7FC0 | .fp32 => 0x7FC00000
  | .w32 => 0x7FF80000 | .mw48 => 0x7FF800000000
  | _ => 0

/-- Largest finite exponent of the block-form element formats (R99). -/
def fmtEmax : FloatFmt → Int
  | .e2m1 => 2 | .e2m3 => 2 | .e3m2 => 4 | .e4m3 => 8 | .e5m2 => 15 | .e4m4 => 8
  | f => (fmtMax f / 2 ^ fmtFrac f : Nat) - (fmtBias f : Int)

/-- Bytes that `n` elements of a format occupy (R97: a contiguous little-endian bit string). -/
def fmtBytes (f : FloatFmt) (n : Nat) : Nat := (n * fmtWidth f + 7) / 8

/-- 2 to an integer power no lower than 0, else 1. -/
def pow2 (e : Int) : Nat := 2 ^ e.toNat

/-- Decoding (R89, R90, R91): subnormals exact, every NaN encoding the one NaN. -/
def decodeNum (f : FloatFmt) (enc : Nat) : Num :=
  let w := fmtWidth f
  let sgn := if fmtSigned f then decide (enc / 2 ^ (w - 1) % 2 = 1) else false
  let mag := if fmtSigned f then enc % 2 ^ (w - 1) else enc % 2 ^ w
  let fr := fmtFrac f
  if f = .e8m0 then
    if mag = 0xFF then .nan else .fin false 1 ((mag : Int) - 127)
  else if mag > fmtMax f then
    if fmtHasInf f && mag == fmtInf f then .inf sgn else .nan
  else
    let e := mag / 2 ^ fr
    let frac := mag % 2 ^ fr
    if e = 0 then .fin sgn frac (1 - (fmtBias f : Int) - fr)
    else .fin sgn (2 ^ fr + frac) ((e : Int) - fmtBias f - fr)

/-- Whether a value is NaN. -/
def numIsNan : Num → Bool
  | .nan => true
  | _ => false

/-- Whether a value is finite. -/
def numIsFin : Num → Bool
  | .fin _ _ _ => true
  | _ => false

/-- Whether a value is +0 or −0 (R91). -/
def numIsZero : Num → Bool
  | .fin _ m _ => m == 0
  | _ => false

/-- Sign flipped. -/
def numNeg : Num → Num
  | .nan => .nan
  | .inf s => .inf (!s)
  | .fin s m e => .fin (!s) m e

/-- Magnitude. -/
def numAbs : Num → Num
  | .nan => .nan
  | .inf _ => .inf false
  | .fin _ m e => .fin false m e

/-- Sign bit; NaN has sign 0 (R92). -/
def numSign : Num → Bool
  | .nan => false
  | .inf s => s
  | .fin s _ _ => s

/-- Multiplication by a power of two, exact. -/
def numScale (x : Num) (k : Int) : Num :=
  match x with
  | .fin s m e => .fin s m (e + k)
  | y => y

/-- The signed integer of a finite value on the grid 2^g, for g no higher than its own exponent. -/
def numOnGrid (x : Num) (g : Int) : Int :=
  match x with
  | .fin s m e => (if s then -1 else 1) * ((m * pow2 (e - g) : Nat) : Int)
  | _ => 0

/-- The value of an integer times 2^e; an exact zero is +0. -/
def numOfInt (i : Int) (e : Int) : Num := .fin (decide (i < 0)) i.natAbs e

/-- Exponent of a finite value's own grid; 0 for the others. -/
def numExp : Num → Int
  | .fin _ _ e => e
  | _ => 0

/-- Exact product; NaN for a NaN, and for an infinity times zero. -/
def numMul : Num → Num → Num
  | .nan, _ => .nan
  | _, .nan => .nan
  | .inf s, y => if numIsZero y then .nan else .inf (s != numSign y)
  | x, .inf t => if numIsZero x then .nan else .inf (numSign x != t)
  | .fin s m e, .fin t n f => .fin (s != t) (m * n) (e + f)

/-- Exact sum; NaN for a NaN and for opposite infinities; a zero sum is +0 unless both are −0. -/
def numAdd : Num → Num → Num
  | .nan, _ => .nan
  | _, .nan => .nan
  | .inf s, .inf t => if s = t then .inf s else .nan
  | .inf s, _ => .inf s
  | _, .inf t => .inf t
  | .fin s m e, .fin t n f =>
    let g := min e f
    let i := numOnGrid (.fin s m e) g + numOnGrid (.fin t n f) g
    if i = 0 then .fin (s && t) 0 g else numOfInt i g

/-- Exact difference. -/
def numSub (x y : Num) : Num := numAdd x (numNeg y)

/-- The integer that orders two values: infinities beyond every finite value on grid `g`. -/
def numOrder (x y : Num) : Int × Int :=
  match x, y with
  | .fin _ _ e, .fin _ _ f => (numOnGrid x (min e f), numOnGrid y (min e f))
  | .inf s, .inf t => ((if s then -1 else 1), (if t then -1 else 1))
  | .inf s, _ => ((if s then -1 else 1), 0)
  | _, .inf t => (0, (if t then -1 else 1))
  | _, _ => (0, 0)

/-- Numerical less-than, false for a NaN; −0 and +0 are equal. -/
def numLt (x y : Num) : Bool :=
  !(numIsNan x || numIsNan y) && decide ((numOrder x y).1 < (numOrder x y).2)

/-- Numerical equality, false for a NaN; −0 and +0 are equal. -/
def numEq (x y : Num) : Bool :=
  !(numIsNan x || numIsNan y) && decide ((numOrder x y).1 = (numOrder x y).2)

/-- Less-than with −0 below +0, as MIN and MAX order values (Table 7-3). -/
def numLtSigned (x y : Num) : Bool :=
  numLt x y || (numEq x y && numSign x && !numSign y)

/-- MAX of Table 7-3: NaN if either is NaN. -/
def numMax (x y : Num) : Num :=
  if numIsNan x || numIsNan y then .nan else if numLtSigned x y then y else x

/-- MIN of Table 7-3: NaN if either is NaN. -/
def numMin (x y : Num) : Num :=
  if numIsNan x || numIsNan y then .nan else if numLtSigned y x then y else x

/-- The larger magnitude of two finite values. -/
def numMaxAbs (x y : Num) : Num := if numLt (numAbs x) (numAbs y) then numAbs y else numAbs x

/-- Largest finite magnitude of a list of values; +0 where there is none. -/
def numMaxFinite (xs : List Num) : Num :=
  xs.foldl (fun acc x => if numIsFin x then numMaxAbs acc x else acc) (.fin false 0 0)

/-- floor(log2 |x|) of a finite non-zero value. -/
def numFloorLog2 : Num → Int
  | .fin _ m e => (Nat.log2 m : Int) + e
  | _ => 0

/-- ceil(log2 |x|) of a finite non-zero value. -/
def numCeilLog2 : Num → Int
  | .fin _ m e => (Nat.log2 m : Int) + e + (if 2 ^ Nat.log2 m = m then 0 else 1)
  | _ => 0

/-- ceil(log2 n) of a natural number, 0 for n ≤ 1. -/
def ceilLog2 (n : Nat) : Nat := if n ≤ 1 then 0 else Nat.log2 (n - 1) + 1

/-- Fraction digits below the leading one that a quotient or a root is carried to before its one rounding; the digit
after them is sticky, so every format of Table 5-1, and the 32 further places of R96, round as from the exact value. -/
def quotDigits : Nat := 160

/-- Quotient of a finite value by a finite non-zero value, exact down to a sticky last digit. -/
def numQuot : Num → Num → Num
  | .fin s m e, .fin t n f =>
    if m = 0 then .fin (s != t) 0 0 else
      let k := quotDigits + Nat.log2 n + 1
      let q := m * 2 ^ k / n
      let sticky := if q * n = m * 2 ^ k then 0 else 1
      .fin (s != t) (2 * q + sticky) (e - f - k - 1)
  | _, _ => .nan

/-- Square root of a finite non-negative value, exact down to a sticky last digit. -/
def numRoot : Num → Num
  | .fin s m e =>
    if m = 0 then .fin s 0 0 else
      let odd := (e % 2).toNat
      let v := m * 2 ^ (odd + 2 * quotDigits)
      let r := Nat.sqrt v
      let sticky := if r * r = v then 0 else 1
      .fin false (2 * r + sticky) ((e - odd) / 2 - quotDigits - 1)
  | x => x

/-- The encoding of a magnitude m × 2^e on a format's grid, exponent unbounded above: the one rounding of R93 (to
nearest, ties to even), R96 (stochastic, `D + draw ≥ 2^32`) or toward +infinity. -/
def roundMag (f : FloatFmt) (mode : Rnd) (m : Nat) (e : Int) : Nat :=
  if m = 0 then 0 else
    let fr : Int := fmtFrac f
    let emin : Int := 1 - (fmtBias f : Int)
    let lsb := max ((Nat.log2 m : Int) + e) emin - fr
    let base := (lsb + fr + fmtBias f - 1).toNat * 2 ^ fmtFrac f
    if lsb ≤ e then base + m * pow2 (e - lsb)
    else
      let d := pow2 (lsb - e)
      let q := m / d
      let r := m % d
      let up : Bool := match mode with
        | .nearest => decide (d < 2 * r) || (decide (d = 2 * r) && q % 2 == 1)
        | .stoch u => decide (2 ^ 32 ≤ r * 2 ^ 32 / d + u)
        | .up => decide (0 < r)
      base + q + (if up then 1 else 0)

/-- A magnitude with its sign bit. -/
def withSign (f : FloatFmt) (neg : Bool) (mag : Nat) : Nat :=
  if neg && fmtSigned f then mag + 2 ^ (fmtWidth f - 1) else mag

/-- Conversion of an exact value to a format (R93 to R96). `blk` says that the element is written in block form, where
a finite value never becomes infinity (R94, R99). -/
def encodeNum (f : FloatFmt) (blk : Bool) (mode : Rnd) (x : Num) : Nat :=
  match x with
  | .nan => fmtNan f
  | .inf neg =>
    if f = .e4m4 && neg then fmtNan f
    else if fmtHasInf f then withSign f neg (fmtInf f) else withSign f neg (fmtMax f)
  | .fin neg m e =>
    if f = .e4m4 && neg then (if m = 0 then 0 else fmtNan f)
    else
      let mag := roundMag f mode m e
      let beyond : Bool := match mode with
        | .up => decide (fmtMax f < mag)
        | _ => decide (fmtMax f < roundMag f .nearest m e)
      if beyond then (if fmtHasInf f && !blk then withSign f neg (fmtInf f) else withSign f neg (fmtMax f))
      else withSign f neg (min mag (fmtMax f))

/-- One rounding to a type, as a value again. -/
def roundTo (f : FloatFmt) (x : Num) : Num := decodeNum f (encodeNum f false .nearest x)

/-- Whether writing `x` as a plain element loses a NaN, so that the command completes with POISONED (R95). -/
def nanLost (f : FloatFmt) (x : Num) : Bool := numIsNan x && !fmtHasNan f

/-- Conversions between storage formats that the part performs (Table 5-5, R101). -/
def convOk (src dst : FloatFmt) : Bool :=
  match src, dst with
  | .e8m0, _ => false
  | _, .e8m0 => false
  | .e4m4, .fp32 => true
  | .e4m4, .w32 => true
  | .e4m4, .e4m4 => true
  | .e4m4, _ => false
  | .fp32, .e4m4 => true
  | .w32, .e4m4 => true
  | _, .e4m4 => false
  | _, _ => true

/-- The element formats that have a block form (R88, R97). -/
def fmtHasBlock : FloatFmt → Bool
  | .e2m1 | .e2m3 | .e3m2 | .e4m3 | .e5m2 | .e4m4 => true
  | _ => false

/-- Writing one block of up to 32 exact values (R99): the scale byte and the elements. `mode` gives each element its
rounding. -/
def writeBlock (f : FloatFmt) (xs : List Num) (mode : Nat → Rnd) : Nat × List Nat :=
  if xs.any numIsNan && !fmtHasNan f then (0xFF, xs.map (fun _ => 0))
  else
    let m := numMaxFinite xs
    let e : Int := if numIsZero m then 0 else numFloorLog2 m - fmtEmax f
    let e := min (max e (-127)) 127
    ((e + 127).toNat, xs.mapIdx (fun i x => encodeNum f true (mode i) (numScale x (-e))))

/-- One element of a block form with its scale byte (R89, R99): a NaN scale makes it NaN (R59). -/
def decodeBlockElem (f : FloatFmt) (scale enc : Nat) : Num :=
  if scale = 0xFF then .nan else numScale (decodeNum f enc) ((scale : Int) - 127)

/-- Block exponent of a press record (Table 6-2, BEXP). -/
def bexpOf (xs : List Num) : Nat :=
  let m := numMaxFinite xs
  if numIsZero m then 0 else (min (max (numCeilLog2 m + 127) 0) 254).toNat

/-- Blocks of `n` consecutive list elements, `n` at least 1. -/
def chunksOf {α : Type} (n : Nat) : Nat → List α → List (List α)
  | 0, _ => []
  | fuel + 1, xs => if xs.isEmpty then [] else xs.take n :: chunksOf n fuel (xs.drop n)

/-- A list in consecutive blocks of `n`. -/
def blocksOf {α : Type} (n : Nat) (xs : List α) : List (List α) := chunksOf n xs.length xs

/-- One level of a pairwise sum: (0,1), (2,3), … -/
def pairUp {α : Type} (f : α → α → α) : List α → List α
  | a :: b :: t => f a b :: pairUp f t
  | t => t

/-- Pairwise tree over a list of length up to 2^fuel (R117, R126, R131). -/
def pairTree {α : Type} (f : α → α → α) (z : α) : Nat → List α → α
  | 0, xs => xs.headD z
  | n + 1, xs => pairTree f z n (pairUp f xs)

/-- Two's-complement reading of an n-bit field. -/
def toSigned (n w : Nat) : Int :=
  let v := w % 2 ^ n
  if v < 2 ^ (n - 1) then (v : Int) else (v : Int) - (2 ^ n : Nat)

/-- Two's-complement n-bit field of an integer. -/
def ofSigned (n : Nat) (i : Int) : Nat := (i % ((2 ^ n : Nat) : Int)).toNat

/-- Round a non-negative or negative quotient i / 2^k to the nearest integer, ties to even (R65). -/
def roundHalfEven (i : Int) (k : Nat) : Int :=
  let d : Int := (2 ^ k : Nat)
  let q := i / d
  let r := i % d
  if 2 * r < d then q else if d < 2 * r then q + 1 else if q % 2 = 0 then q else q + 1

/-- The 32-bit draw of R113. -/
def srDraw (seed step tensor row col : Nat) : Nat :=
  let m := 2 ^ 64
  let k0 := (seed % m).xor (step * 0x9E3779B97F4A7C15 % m)
  let x0 := ((tensor % 2 ^ 16) * 2 ^ 48).xor (((row % 2 ^ 24) * 2 ^ 24).xor (col % 2 ^ 24))
  let go := fun (p : Nat × Nat) (i : Nat) =>
    let k := p.2
    let x := (p.1 + k) % m
    let x := x.xor (x / 2 ^ 31)
    let x := x * 0xBF58476D1CE4E5B9 % m
    let x := x.xor (x / 2 ^ 29)
    (x, (k * 0x94D049BB133111EB + i + 1) % m)
  ([0, 1, 2, 3].foldl go (x0, k0)).1 / 2 ^ 32

end Sys2Proof.Machine
end

