-- ==== Sys2Proof/Machine/SMap.lean ====
section
/-! DEFINITION. Sparse maps in one canonical form: a list of (key, value) pairs with strictly rising keys and no
entry equal to what an unlisted key reads as. Memory, the register file and every numbered group of units of the part
are held this way, so that equal contents are equal data. -/
namespace Sys2Proof.Machine

/-- A sparse map from numbers to `α`. -/
abbrev SMap (α : Type) := List (Nat × α)

/-- What key `k` reads as; a key the list does not hold reads `dflt k`. -/
def smGet {α : Type} (dflt : Nat → α) : SMap α → Nat → α
  | [], k => dflt k
  | (j, v) :: t, k => if j = k then v else smGet dflt t k

/-- Whether key `k` is listed. -/
def smHas {α : Type} : SMap α → Nat → Bool
  | [], _ => false
  | (j, _) :: t, k => (j == k) || smHas t k

/-- The map without key `k`. -/
def smErase {α : Type} (m : SMap α) (k : Nat) : SMap α := m.filter (fun e => e.1 != k)

/-- The map with key `k` listed as `v`. -/
def smInsert {α : Type} : SMap α → Nat → α → SMap α
  | [], k, v => [(k, v)]
  | (j, w) :: t, k, v =>
    if j = k then (k, v) :: t else if k < j then (k, v) :: (j, w) :: t else (j, w) :: smInsert t k v

/-- Writing `v` at `k`. Writing what an unlisted key reads as removes the entry. -/
def smSet {α : Type} [DecidableEq α] (dflt : Nat → α) (m : SMap α) (k : Nat) (v : α) : SMap α :=
  if v = dflt k then smErase m k else smInsert m k v

/-- Changing the value at `k`. -/
def smModify {α : Type} [DecidableEq α] (dflt : Nat → α) (m : SMap α) (k : Nat) (f : α → α) : SMap α :=
  smSet dflt m k (f (smGet dflt m k))

/-- Keeping only the entries whose key satisfies `p`: every other key goes back to its default. -/
def smKeep {α : Type} (p : Nat → Bool) (m : SMap α) : SMap α := m.filter (fun e => p e.1)

/-- The canonical form: strictly rising keys, and no entry that its key reads as unlisted. -/
abbrev smWf {α : Type} (dflt : Nat → α) (m : SMap α) : Prop :=
  m.Pairwise (fun a b => a.1 < b.1) ∧ ∀ e ∈ m, e.2 ≠ dflt e.1

end Sys2Proof.Machine
end

