-- ==== Sys2Proof/Machine/CellState.lean ====
section
/-! DEFINITION. The state of one cell: its four thread contexts, queues, engines, slot groups, tile registers, DMA tags
and gauges (chapters "Cells, threads and stitches", "Matrix engine", "Element engine"). Registers that only report or
count are in the register file of the device. -/
namespace Sys2Proof.Machine

/-- Thread states of Table 3-3. -/
inductive ThState where
  | idle | run | stall | wait | barrier | fault | brk
  deriving DecidableEq, Repr

/-- One address generator (R474): a base, three loops from the innermost outward, and the wrap setting. -/
structure AddrGen where
  base    : Word
  idx     : List Nat
  counts  : List Nat
  strides : List Word
  wrap    : Bool
  deriving DecidableEq, Repr

/-- The result of a scalar load or a GATHER lane: still awaited, with the parts to come, the bytes that came and the status
so far (an access is cut at 128 B lines); a value; or a status. -/
inductive LoadState where
  | waiting (left acc : Nat) (st : Status)
  | ready (v : Nat)
  | failed (s : Status)
  deriving DecidableEq, Repr

/-- A scalar load that has issued and not yet written its X register (R43). -/
structure PendingLoad where
  id    : Nat
  reg   : Fin 32
  bytes : Nat
  st    : LoadState
  deriving DecidableEq, Repr

/-- A thread context (R34, R35) and what its next stitch waits for. -/
structure Thread where
  st        : ThState
  stallOn   : Nat
  pc        : Nat
  xs        : SMap Word
  gens      : SMap AddrGen
  rstack    : List Nat
  winBase   : Nat
  winLen    : Nat
  winEntry  : Nat
  waitN     : Nat
  waitSrc   : GaugeRef
  waitOk    : Bool
  sums      : SMap Word
  sumInt    : Bool
  sumWait   : Nat
  repDone   : Nat
  loads     : List PendingLoad
  fence     : Option (Bool × FenceScope)
  openCmds  : Nat
  openStores : Nat
  faultWith : Status
  draining  : Bool
  lastTag   : Nat
  deriving DecidableEq, Repr

/-- A slot group (R62): a tile in progress. `slots` holds the 192-bit sums as integers mod 2^192 (long mode) or FP32
encodings (short mode); `flags` holds NaN (4), +INF (2) and −INF (1) beside each slot (R67). -/
structure Group where
  shape    : Shape
  kTotal   : Nat
  anchor   : Int
  anchor0  : Int
  source   : AnchorSrc
  slots    : SMap Nat
  flags    : SMap Nat
  blocks   : Nat
  poisoned : Bool
  chain    : Bool
  excess   : Nat
  aObs     : Int
  deriving DecidableEq, Repr

/-- A queued matrix command with its issuing thread. -/
structure MtxEntry where
  thread : ThreadId
  cmd    : MtxCmd Nat
  deriving DecidableEq, Repr

/-- A queued element command with its issuing thread. -/
structure EleEntry where
  thread : ThreadId
  cmd    : EleCmd Nat
  deriving DecidableEq, Repr

/-- A queued DMA command with its issuing thread. -/
structure DmaEntry where
  thread : ThreadId
  cmd    : DmaCmd Nat
  deriving DecidableEq, Repr

/-- A matrix command that is running, or a chain part that has left the engine and waits for its tile or for DONE (R77,
R79), with what its passes found (R72, R74, R81). `zmap` lists the blocks whose skip would be right, `ranges` what the
command reads (R64). -/
structure MtxRun where
  entry   : MtxEntry
  status  : Status
  anchor0 : Int
  anchor  : Int
  source  : AnchorSrc
  aObs    : Int
  excess  : Nat
  zmap    : List Nat
  passes  : Nat
  closes  : Bool
  ranges  : List (Nat × Nat)
  deriving DecidableEq, Repr

/-- The element command that is running. `lanes` are the GATHER lanes not yet returned: linear index and result. -/
structure EleRun where
  entry  : EleEntry
  status : Status
  passes : Nat
  active : List Nat
  lanes  : List (Nat × LoadState)
  deriving DecidableEq, Repr

/-- A transfer of a DMA command: source and destination input addresses, length, stride and CACHE flag. -/
structure Transfer where
  src    : Nat
  dst    : Nat
  len    : Nat
  stride : Nat
  cache  : Bool
  bad    : Bool
  deriving DecidableEq, Repr

/-- A DMA tag in use: its command, sequence number (R401), the descriptors of its list not yet read and the list's bytes,
the transfers still to perform, the one in progress with the source bytes it has and those that were poisoned, whether it
writes already, the requests still open, the writes held under R64, and the status it will complete with. -/
structure DmaTag where
  entry   : DmaEntry
  seq     : Nat
  list    : SMap Byte
  listN   : Nat
  todo    : List Transfer
  cur     : Option Transfer
  got     : SMap Byte
  gotBad  : List Nat
  writing : Bool
  openReq : Nat
  held    : Nat
  status  : Status
  deriving DecidableEq, Repr

/-- Who waits for a held write: an engine or the host, for which nothing else waits; a DMA tag; a scalar store; a remote
request, by its source and RID. -/
inductive HeldFor where
  | engine
  | dma (cell tag : Nat)
  | store (cell thread : Nat)
  | remote (node rid : Nat)
  deriving DecidableEq, Repr

/-- A write that the scratchpad holds under R64: node-local address, bytes, whether it is poisoned, and who waits for it. -/
structure HeldWrite where
  addr   : Nat
  bytes  : List Byte
  poison : Bool
  who    : HeldFor
  deriving DecidableEq, Repr

/-- One cell. -/
structure Cell where
  threads   : SMap Thread
  stitches  : SMap StitchWord
  stitchBad : SMap Bool
  progs     : SMap ProgSlot
  progBad   : SMap Bool
  gauges    : SMap Word
  patchView : SMap Word
  mq        : List MtxEntry
  eq        : List EleEntry
  dq        : List DmaEntry
  mrun      : Option MtxRun
  mchain    : List MtxRun
  redo      : List MtxEntry
  erun      : Option EleRun
  tags      : SMap (Option DmaTag)
  dmaSeq    : Nat
  groups    : SMap (Option Group)
  held      : List HeldWrite
  tiles     : SMap Elem
  ttypes    : SMap EType
  zmaps     : SMap (List Nat)
  lastIssue : ThreadId
  short     : Bool
  stepOff   : Bool
  retired   : Bool
  loadId    : Nat
  rinseSram : Nat
  rinseDram : Nat
  deriving DecidableEq, Repr

/-- A thread context after reset (R35, R47, reset column of Tables 3-7 to 3-9). -/
def threadReset : Thread :=
  { st := .idle, stallOn := 0, pc := 0, xs := [], gens := [], rstack := [], winBase := 0, winLen := 0, winEntry := 0,
    waitN := 0, waitSrc := ⟨0, 0⟩, waitOk := false, sums := [], sumInt := true, sumWait := 0, repDone := 0, loads := [],
    fence := none, openCmds := 0, openStores := 0, faultWith := .ok, draining := false, lastTag := 0 }

/-- An address generator after reset: zero (R47). -/
def addrGenReset : AddrGen := { base := 0, idx := [0, 0, 0], counts := [0, 0, 0], strides := [0, 0, 0], wrap := false }

/-- What stitch memory that no Pattern has written holds: the all-zero word. -/
def stitchReset : StitchWord := .raw 0

/-- A cell after reset. The rotation of R38 starts at F, so the last issuer reads S. -/
def cellReset : Cell :=
  { threads := [], stitches := [], stitchBad := [], progs := [], progBad := [], gauges := [], patchView := [], mq := [],
    eq := [], dq := [], mrun := none, mchain := [], redo := [], erun := none, tags := [], dmaSeq := 0,
    groups := [], held := [], tiles := [], ttypes := [], zmaps := [], lastIssue := 3, short := false, stepOff := false,
    retired := false, loadId := 0, rinseSram := 0, rinseDram := 0 }

end Sys2Proof.Machine
end

