-- ==== Sys2Proof/Machine/ClvState.lean ====
section
/-! DEFINITION. The state of the collective engines (chapters "Collectives and gradient reduction" and "Parameters,
gradients and optimiser state"). -/
namespace Sys2Proof.Machine

/-- An instance of a collective slot at one member of this device (R268). Edges are 0 for UP and 1 to 4 for DN0 to DN3; 5 is the
parent in the distribution tree and 6 to 9 its children. `rx` and `tx` hold the chunks received and sent per edge, `grant` how
many chunks this member may send on an edge and `given` how many it has granted, `combined` the chunks combined, `written` the
result chunks written and passed on, `acks` the children that have acknowledged. `half` is the lint half it reads (R274), `latched`
the failure latched (R280), and `waits` the edges it waits on, each with the tide edges that passed and the time it began. -/
structure CollInst where
  slot     : Nat
  rank     : Nat
  num      : Nat
  layout   : Nat
  half     : Nat
  rx       : List (Nat × Nat × List Byte)
  tx       : List (Nat × Nat × List Byte)
  grant    : SMap Nat
  given    : SMap Nat
  combined : List Nat
  written  : List Nat
  acks     : List Nat
  ackSent  : Bool
  latched  : Option Status
  waits    : SMap (Nat × Nat)
  deriving DecidableEq, Repr

/-- A chain of matrix commands at one member of this device (R275 to R277): group slot, TAG, the member's rank and cell, the
pass, the layout, the address its CHAIN_ADD has posted, whether POST has come from its UP member, where its own tile stands once
written, the tile that has gone up, the chunks received per DN edge, whether they have been combined, the failure latched, and
the edges it waits on as an instance does. -/
structure Chain where
  group    : Nat
  tag      : Nat
  rank     : Nat
  cell     : CellId
  pass     : Bool
  layout   : Nat
  posted   : Option Nat
  postsIn  : Bool
  ready    : Option (Nat × Nat)
  sentUp   : Option (List Byte)
  tiles    : List (Nat × Nat × List Byte)
  combined : Bool
  latched  : Option Status
  waits    : SMap (Nat × Nat)
  deriving DecidableEq, Repr

/-- Operations of a shard set. -/
inductive SetOp where
  | publish | fetch | check
  deriving DecidableEq, Repr

/-- A shard being fetched or compared (R291, R294): 0 the first record is read, 1 the bytes, 2 the second record, 3 it waits 2 µs
for its publication since time `since`; the pieces asked for, the reads open, the first record's VERSION and DIGEST, the bytes by
place in the shard's stream, the attempts, the failure met with its cause, and the outcome. `waits` are the edges that passed, and
the time, since it was first found unpublished. -/
structure ShardRun where
  shard    : Nat
  stage    : Nat
  asked    : Nat
  openReq  : Nat
  version  : Nat
  digest   : Nat
  bytes    : SMap Byte
  attempts : Nat
  since    : Nat
  waits    : SMap (Nat × Nat)
  bad      : Option (Status × Nat)
  outcome  : Option (Status × Nat)
  deriving DecidableEq, Repr

/-- A shard-set operation in progress: `refetch` says that a check repairs the shards that differ (R295), `diffs` lists them. -/
structure SetRun where
  set     : Nat
  op      : SetOp
  num     : Nat
  refetch : Bool
  shards  : List ShardRun
  diffs   : List Nat
  deriving DecidableEq, Repr

/-- The collective engines' state; the section in force is the active Pattern's. `launched` and `committed` count instances by
65,536 × slot + rank, `counts` publish, fetch and check instances of each set, `aborts` the ABORTs that came after the first
(R281). -/
structure ClvState where
  insts     : List CollInst
  chains    : List Chain
  setRuns   : List SetRun
  counts    : SMap (Nat × Nat × Nat)
  launched  : SMap Nat
  committed : SMap Nat
  aborts    : Nat
  deriving DecidableEq, Repr

/-- No collective in progress. -/
def clvReset : ClvState :=
  { insts := [], chains := [], setRuns := [], counts := [], launched := [], committed := [], aborts := 0 }

end Sys2Proof.Machine
end

