-- ==== Sys2Proof/Machine/FarState.lean ====
section
/-! DEFINITION. The state of translation, the far cache and remote requests (chapters "Address space, translation,
prefetch and ordering" and "Trafort links and routing"). -/
namespace Sys2Proof.Machine

/-- The kind of request that reaches the far cache (Table 10-5). -/
inductive FarKind where
  | load | store | gather | dmaRead | dmaWrite
  deriving DecidableEq, Repr

/-- A request on its way to its far-cache slice: issuer, kind, physical node and node-local address, size, store data,
the page it was translated by, and that page's CACHE and PF attributes. `id` is the load's number, the lane or the DMA tag, `dst` the first byte's place in a
DMA transfer. -/
structure FarReq where
  kind   : FarKind
  cell   : CellId
  thread : ThreadId
  id     : Nat
  dst    : Nat
  node   : Nat
  addr   : Nat
  bytes  : Nat
  data   : Nat
  page   : Nat
  psize  : Nat
  cache  : Bool
  pf     : Bool
  deriving DecidableEq, Repr

/-- A far-cache line: whether it is dirty, and the bytes it holds that its home does not (all 128 of another device's
line; the written bytes of a dirty own line). -/
structure FarLine where
  dirty : Bool
  bytes : SMap Byte
  deriving DecidableEq, Repr

/-- A miss register (R190): line, requests that share it in order, whether a prefetch holds it, whether an acquire
has made its fill one to discard (R200), whether it was promoted (R165), and what its home has answered: for another
device's line, with the bytes. -/
structure MissReg where
  node     : Nat
  line     : Nat
  waiting  : List FarReq
  prefetch : Bool
  discard  : Bool
  promoted : Bool
  data     : Option (Status × List Byte)
  deriving DecidableEq, Repr

/-- A prefetch stream (R192): thread, page, last line, stride, accesses seen at that stride, farthest line requested. -/
structure Stream where
  cell   : CellId
  thread : ThreadId
  node   : Nat
  page   : Nat
  psize  : Nat
  line   : Int
  stride : Int
  seen   : Nat
  asked  : List Int
  deriving DecidableEq, Repr

/-- The far cache. Lines are keyed by node × 2^41 + line number. -/
structure FarState where
  lines   : SMap (Option FarLine)
  misses  : List MissReg
  queue   : List FarReq
  streams : List Stream
  deriving DecidableEq, Repr

/-- What a remote request of this device is for (R259). -/
inductive RidUse where
  | load (cell : CellId) (thread : ThreadId) (id place : Nat)
  | store (cell : CellId) (thread : ThreadId)
  | gather (cell : CellId) (lane place : Nat)
  | fill (node line : Nat)
  | dmaList (cell : CellId) (tag : Nat) (off : Nat)
  | dmaRead (cell : CellId) (tag : Nat) (dst : Nat)
  | dmaWrite (cell : CellId) (tag : Nat)
  | gauge
  | dropped
  | copyRead (port : PciePort) (ring : Nat) (seq : Nat) (dst : Nat)
  | copyWrite (port : PciePort) (ring : Nat) (seq : Nat)
  | shard (set shard piece : Nat)
  | bar2 (port : PciePort) (id : Nat)
  | ingest (port : PciePort) (place : Nat)
  deriving DecidableEq, Repr

/-- An outstanding remote request, or one whose RID rests after a time-out (R259), and the time it was sent, or timed
out. -/
structure RidRec where
  use    : RidUse
  dest   : Nat
  addr   : Nat
  bytes  : Nat
  since  : Nat
  rests  : Bool
  deriving DecidableEq, Repr

/-- A flit held in a transmit sluice (R248): the flit, the messages that begin in it, and how often it was sent again. -/
structure HeldFlit where
  flit   : Flit
  begins : List Msg
  resent : Nat
  deriving DecidableEq, Repr

/-- One Trafort port: VC queues, side-band sluice, the message that a flit has begun with the units it still has, the transmit
sluice and the SEQs to send again, next and expected SEQ, whether flits are skipped until the expected one and a NAK is owed,
`credits` the receive entries of the peer in use by VC, `rxFreed` the entries freed here and not yet returned, the round robin's VC
and messages left, the cable and whether it is accepted, whether the port retrains, retrainings in a row without ACK passing, when a
lane was last retired, the epoch of a width change to come, and whether a host read of the module is under way. -/
structure Port where
  vcq       : SMap (List Msg)
  side      : List Msg
  cur       : Option (Msg × Nat)
  held      : List HeldFlit
  resend    : List Nat
  nextSeq   : Nat
  expSeq    : Nat
  skipping  : Bool
  nakOwed   : Bool
  credits   : SMap Nat
  rxFreed   : SMap Nat
  wrrVc     : Nat
  wrrLeft   : Nat
  cable     : Bool
  cableOk   : Bool
  retrying  : Bool
  trainFail : Nat
  laneLost  : Option Nat
  wantWidth : Option Nat
  cmisWait  : Bool
  deriving DecidableEq, Repr

/-- A flow (R257): SRC, DEST, VC, the issuing agent, its port, and when it last sent a message. -/
structure Flow where
  src   : Nat
  dest  : Nat
  vc    : Nat
  agent : Nat
  port  : Nat
  last  : Nat
  deriving DecidableEq, Repr

/-- A port after reset: down, with nothing queued. -/
def portReset : Port :=
  { vcq := [], side := [], cur := none, held := [], resend := [], nextSeq := 0, expSeq := 0, skipping := false,
    nakOwed := false, credits := [], rxFreed := [], wrrVc := 0, wrrLeft := 0, cable := false,
    cableOk := false, retrying := false, trainFail := 0, laneLost := none, wantWidth := none, cmisWait := false }

/-- The far cache after reset: empty. -/
def farReset : FarState := { lines := [], misses := [], queue := [], streams := [] }

end Sys2Proof.Machine
end

