-- ==== Sys2Proof/Machine/HostState.lean ====
section
/-! DEFINITION. The state of the host side: accepted ring commands, rings, ingest, mailboxes and MSI-X (chapters
"PCI Express attachment" and "Command rings and host protocol"). -/
namespace Sys2Proof.Machine

/-- A gauge reference of a descriptor (R336): cell, patch, gauge, and the add used on completion. -/
structure Gref where
  cell  : Nat
  patch : Nat
  gauge : Nat
  inc   : Nat
  deriving DecidableEq, Repr

/-- A command of Table 18-5 with its operands. -/
inductive HostOp where
  | nop
  | copy (host dev len : Nat) (toHost : Bool) (g : Gref)
  | gauge (g : Gref) (set : Bool) (v : Nat)
  | gaugeList (addr count : Nat)
  | ingestSet (base log2 : Nat) (fill consumed : Gref)
  | patLoad (addr len : Nat)
  | patSwitch (edge : Nat)
  | patDiscard
  | srSeed (seed edge : Nat)
  | clvLayout (slot layout edge : Nat)
  | stateExport (set shard addr : Nat)
  | stateImport (set addr : Nat)
  | abort (port ring seq : Nat)
  | handover (ms : Nat)
  | handoverAck
  | capSet (watts edge : Nat)
  | reset (scope target : Nat)
  | malformed
  deriving DecidableEq, Repr

/-- A ring command that has been accepted and not yet posted (R329, R340). `ended` says that its work has ended, `workEnd` and
`abortAt` are the latches that R341 compares, numbered in the order they were set, `abortAt` with the port, ring and SEQ
of the ABORT; `latch` numbers the acceptance; `final` is the status written once at the commit point, with DETAIL, RESULT
and EDGE; `due` is the edge a command takes effect on, `brk` that a breakpoint holds it; `got` are the bytes that a
COPY to the host has read and `gotBad` the places of those that were poisoned. `spans` are the ranges that a STATE_IMPORT wrote,
or the place and value of a STATE_EXPORT's DIGEST. -/
structure HostCmd where
  seq     : Nat
  tag     : Nat
  opcode  : Nat
  fence   : Bool
  op      : HostOp
  started : Bool
  ended   : Bool
  due     : Nat
  status  : Status
  detail  : Nat
  result  : Nat
  lists   : List (Gref × Bool × Nat)
  openReq : Nat
  latch   : Nat
  workEnd : Option Nat
  abortAt : Option (Nat × Nat × Nat × Nat)
  final   : Option (Status × Nat × Nat × Nat)
  brk     : Bool
  got     : SMap Byte
  gotBad  : List Nat
  spans   : List (Nat × Nat)
  deriving DecidableEq, Repr

/-- The part of a ring that no register holds: fetch target, commands, completions recorded and not yet written to host
memory, the moderation count of R333, and the LOG2 that was in force at its ENABLE. -/
structure Ring where
  target  : Nat
  cmds    : List HostCmd
  unwrit  : List Nat
  modSeen : Nat
  log2    : Nat
  deriving DecidableEq, Repr

/-- One MSI-X table entry: masked or not. -/
structure MsixEntry where
  addr   : Nat
  data   : Nat
  masked : Bool
  pend   : Bool
  deriving DecidableEq, Repr

/-- A BAR2 access that has arrived and has no outcome yet (R317): input address, length, the pieces still to perform in order, the
data of a write and whether it came with EP set, the bytes a read has, whether any was poisoned, the status met, and whether a
request to another device is outstanding. -/
structure Bar2Op where
  id      : Nat
  write   : Bool
  addr    : Nat
  len     : Nat
  todo    : List (Nat × Nat)
  data    : List Byte
  ep      : Bool
  got     : List Byte
  bad     : Bool
  st      : Status
  waiting : Bool
  deriving DecidableEq, Repr

/-- The port state that no BAR0 register holds. `ingestK` is the k of R343, `ingestN` the entries of the batch under way that count as
written and `ingestOpen` its writes to other devices that are open. -/
structure PciePortState where
  cfgReady : Bool
  memOn    : Bool
  msixOn   : Bool
  msixMask : Bool
  msix     : SMap MsixEntry
  mbxReq   : SMap Byte
  inPerst  : Bool
  ingestK  : Nat
  ingestN  : Nat
  ingestOpen : Nat
  fill     : Gref
  consumed : Gref
  bar2     : List Bar2Op
  bar2No   : Nat
  deriving DecidableEq, Repr

/-- A PCIe port after reset: nothing enabled, every MSI-X entry masked. -/
def msixReset : MsixEntry := { addr := 0, data := 0, masked := true, pend := false }

/-- A ring after reset. -/
def ringReset : Ring := { target := 0, cmds := [], unwrit := [], modSeen := 0, log2 := 4 }

/-- The port state after reset. -/
def pciePortReset : PciePortState :=
  { cfgReady := false, memOn := false, msixOn := false, msixMask := false, msix := [], mbxReq := [], inPerst := false,
    ingestK := 0, ingestN := 0, ingestOpen := 0, fill := ⟨0, 0, 0, 0⟩, consumed := ⟨0, 0, 0, 0⟩,
    bar2 := [], bar2No := 0 }

end Sys2Proof.Machine
end

