-- ==== Sys2Proof/Machine/RegMap.lean ====
section
/-! DEFINITION. The register map of BAR0 (R9, R10 and the register tables of every chapter): each block with its base,
count and stride, each register with its offset, and each field with its bits, access type and reset value. A field's
name is its register's name, an underscore and the field's name of the table. -/
namespace Sys2Proof.Machine

/-- A field of a register: BAR0 offset of the register, lowest bit, width. -/
structure Fld where
  off : Nat
  lo  : Nat
  wid : Nat
  deriving DecidableEq, Repr

/-- Access types of Table 0-1. -/
inductive Access where
  | ro | rw | w1c | w1s | wo | rws
  deriving DecidableEq, Repr

/-- Who may write a register: anyone, the control-owner port and the keeper, or the register's own port and the keeper. -/
inductive WriteBy where
  | any | owner | port
  deriving DecidableEq, Repr

/-- One field of the table: lowest bit, width, access, reset value. -/
structure FieldRow where
  lo  : Nat
  wid : Nat
  acc : Access
  rst : Nat
  deriving DecidableEq, Repr

/-- One register of a block: offset, number of copies, their stride, who may write it, and whether its content is
composed from other state when it is read. -/
structure RegRow where
  off    : Nat
  count  : Nat
  stride : Nat
  by_    : WriteBy
  view   : Bool
  fields : List FieldRow
  deriving DecidableEq, Repr

/-- One register block: base, number of copies, their stride, and its registers. -/
structure BlockRow where
  base   : Nat
  count  : Nat
  stride : Nat
  regs   : List RegRow
  deriving DecidableEq, Repr

/-! Block PREC: 02_stack, R30 Table_2-5. -/

def KPR_PREC_STATUS : Nat := 0x200
def KPR_PREC_STATUS_LOG_ENTRIES : Fld := ⟨KPR_PREC_STATUS, 34, 14⟩
def KPR_PREC_STATUS_CELLS_DARNED : Fld := ⟨KPR_PREC_STATUS, 24, 10⟩
def KPR_PREC_STATUS_VIAS_DARNED : Fld := ⟨KPR_PREC_STATUS, 4, 20⟩
def KPR_PREC_STATUS_LOG_FULL : Fld := ⟨KPR_PREC_STATUS, 3, 1⟩
def KPR_PREC_STATUS_FIELD_REPAIR : Fld := ⟨KPR_PREC_STATUS, 2, 1⟩
def KPR_PREC_STATUS_SIG_OK : Fld := ⟨KPR_PREC_STATUS, 1, 1⟩
def KPR_PREC_STATUS_VALID : Fld := ⟨KPR_PREC_STATUS, 0, 1⟩
def KPR_DARN_RETIRED : Nat := 0x208
def KPR_DARN_RETIRED_REGION_MASK : Fld := ⟨KPR_DARN_RETIRED, 0, 64⟩

def rowsPREC : List RegRow := [
  ⟨0x0, 1, 0x8, .any, false, [⟨34, 14, .ro, 0⟩, ⟨24, 10, .ro, 0⟩, ⟨4, 20, .ro, 0⟩, ⟨3, 1, .w1c, 0⟩, ⟨2, 1, .ro, 0⟩, ⟨1, 1, .ro, 0⟩, ⟨0, 1, .ro, 0⟩]⟩,
  ⟨0x8, 1, 0x8, .any, false, [⟨0, 64, .ro, 0⟩]⟩]

/-! Block START: 21_startup, R395. -/

def KPR_READY : Nat := 0x100
def KPR_READY_NODE_ID : Fld := ⟨KPR_READY, 49, 1⟩
def KPR_READY_CORE : Fld := ⟨KPR_READY, 48, 1⟩
def KPR_READY_TRF : Fld := ⟨KPR_READY, 32, 12⟩
def KPR_READY_DDR_TIER : Fld := ⟨KPR_READY, 24, 1⟩
def KPR_READY_DDR : Fld := ⟨KPR_READY, 16, 8⟩
def KPR_READY_HBM_TIER : Fld := ⟨KPR_READY, 15, 1⟩
def KPR_READY_HBM : Fld := ⟨KPR_READY, 8, 6⟩
def KPR_READY_PCIE_B : Fld := ⟨KPR_READY, 4, 1⟩
def KPR_READY_PCIE_A : Fld := ⟨KPR_READY, 3, 1⟩
def KPR_READY_CARRIER : Fld := ⟨KPR_READY, 2, 1⟩
def KPR_READY_PREC : Fld := ⟨KPR_READY, 1, 1⟩
def KPR_READY_KEEPER : Fld := ⟨KPR_READY, 0, 1⟩
def KPR_SETTLED : Nat := 0x108
def KPR_SETTLED_BITS : Fld := ⟨KPR_SETTLED, 0, 64⟩
def KPR_RGN_READY : Nat := 0x110
def KPR_RGN_READY_BITS : Fld := ⟨KPR_RGN_READY, 0, 64⟩
def KPR_RGN_SETTLED : Nat := 0x118
def KPR_RGN_SETTLED_BITS : Fld := ⟨KPR_RGN_SETTLED, 0, 64⟩
def KPR_START : Nat := 0x120
def KPR_START_STARTS : Fld := ⟨KPR_START, 32, 32⟩
def KPR_START_CAUSE : Fld := ⟨KPR_START, 24, 8⟩
def KPR_START_LAST_STOP : Fld := ⟨KPR_START, 16, 8⟩
def KPR_START_CAR_REASON : Fld := ⟨KPR_START, 8, 8⟩
def KPR_START_WAITING : Fld := ⟨KPR_START, 0, 1⟩
def KPR_CARRIER : Nat := 0x128
def KPR_CARRIER_NODE_ID : Fld := ⟨KPR_CARRIER, 48, 16⟩
def KPR_CARRIER_POWER_LIMIT : Fld := ⟨KPR_CARRIER, 32, 16⟩
def KPR_CARRIER_COOLING_CLASS : Fld := ⟨KPR_CARRIER, 24, 8⟩
def KPR_CARRIER_TRAY_TYPE : Fld := ⟨KPR_CARRIER, 16, 8⟩
def KPR_CARRIER_TRAY_POS : Fld := ⟨KPR_CARRIER, 8, 8⟩
def KPR_CARRIER_SOCKET : Fld := ⟨KPR_CARRIER, 0, 8⟩
def KPR_CARRIER_PINS : Nat := 0x130
def KPR_CARRIER_PINS_RACK_ID : Fld := ⟨KPR_CARRIER_PINS, 48, 16⟩
def KPR_CARRIER_PINS_TIDE_IN_SOURCE : Fld := ⟨KPR_CARRIER_PINS, 32, 16⟩
def KPR_CARRIER_PINS_TIDE_IN_DELAY : Fld := ⟨KPR_CARRIER_PINS, 16, 16⟩
def KPR_CARRIER_PINS_FLOW_WIRING : Fld := ⟨KPR_CARRIER_PINS, 8, 8⟩
def KPR_CARRIER_PINS_TIDE_WIRING : Fld := ⟨KPR_CARRIER_PINS, 0, 8⟩

def rowsSTART : List RegRow := [
  ⟨0x0, 1, 0x8, .any, false, [⟨49, 1, .ro, 0⟩, ⟨48, 1, .ro, 0⟩, ⟨32, 12, .ro, 0⟩, ⟨24, 1, .ro, 0⟩, ⟨16, 8, .ro, 0⟩, ⟨15, 1, .ro, 0⟩, ⟨8, 6, .ro, 0⟩, ⟨4, 1, .ro, 0⟩, ⟨3, 1, .ro, 0⟩, ⟨2, 1, .ro, 0⟩, ⟨1, 1, .ro, 0⟩, ⟨0, 1, .ro, 0⟩]⟩,
  ⟨0x8, 1, 0x8, .any, false, [⟨0, 64, .ro, 0⟩]⟩,
  ⟨0x10, 1, 0x8, .any, false, [⟨0, 64, .ro, 0⟩]⟩,
  ⟨0x18, 1, 0x8, .any, false, [⟨0, 64, .ro, 0⟩]⟩,
  ⟨0x20, 1, 0x8, .any, false, [⟨32, 32, .ro, 0⟩, ⟨24, 8, .ro, 0⟩, ⟨16, 8, .ro, 0⟩, ⟨8, 8, .ro, 0⟩, ⟨0, 1, .ro, 0⟩]⟩,
  ⟨0x28, 1, 0x8, .any, false, [⟨48, 16, .ro, 0⟩, ⟨32, 16, .ro, 0⟩, ⟨24, 8, .ro, 0⟩, ⟨16, 8, .ro, 0⟩, ⟨8, 8, .ro, 0⟩, ⟨0, 8, .ro, 0⟩]⟩,
  ⟨0x30, 1, 0x8, .any, false, [⟨48, 16, .ro, 0⟩, ⟨32, 16, .ro, 0⟩, ⟨16, 16, .ro, 0⟩, ⟨8, 8, .ro, 0⟩, ⟨0, 8, .ro, 0⟩]⟩]

/-! Block FLOG: 22_faults, R414. -/

def KPR_FLOG_NEWEST : Nat := 0x300
def KPR_FLOG_NEWEST_SEQ : Fld := ⟨KPR_FLOG_NEWEST, 0, 64⟩
def KPR_FLOG_OLDEST : Nat := 0x308
def KPR_FLOG_OLDEST_SEQ : Fld := ⟨KPR_FLOG_OLDEST, 0, 64⟩
def KPR_FLOG_STATUS : Nat := 0x310
def KPR_FLOG_STATUS_OVERWRITTEN : Fld := ⟨KPR_FLOG_STATUS, 32, 32⟩
def KPR_FLOG_STATUS_NEWEST_OFF : Fld := ⟨KPR_FLOG_STATUS, 16, 16⟩
def KPR_FLOG_STATUS_OLDEST_OFF : Fld := ⟨KPR_FLOG_STATUS, 0, 16⟩
def KPR_RESET_STATUS : Nat := 0x318
def KPR_RESET_STATUS_BUSY : Fld := ⟨KPR_RESET_STATUS, 63, 1⟩
def KPR_RESET_STATUS_SCOPE : Fld := ⟨KPR_RESET_STATUS, 60, 3⟩
def KPR_RESET_STATUS_TARGET : Fld := ⟨KPR_RESET_STATUS, 32, 16⟩
def KPR_RESET_STATUS_LEVEES : Fld := ⟨KPR_RESET_STATUS, 16, 16⟩
def KPR_RESET_STATUS_RESETS : Fld := ⟨KPR_RESET_STATUS, 0, 16⟩

def rowsFLOG : List RegRow := [
  ⟨0x0, 1, 0x8, .any, false, [⟨0, 64, .ro, 0⟩]⟩,
  ⟨0x8, 1, 0x8, .any, false, [⟨0, 64, .ro, 0⟩]⟩,
  ⟨0x10, 1, 0x8, .any, false, [⟨32, 32, .ro, 0⟩, ⟨16, 16, .ro, 0⟩, ⟨0, 16, .ro, 0⟩]⟩,
  ⟨0x18, 1, 0x8, .any, false, [⟨63, 1, .ro, 0⟩, ⟨60, 3, .ro, 0⟩, ⟨32, 16, .ro, 0⟩, ⟨16, 16, .ro, 0⟩, ⟨0, 16, .ro, 0⟩]⟩]

/-! Block HBMT: 09_far_memory, R178. -/

def HBM_TIER_STATUS : Nat := 0x600000
def HBM_TIER_STATUS_FIXED : Fld := ⟨HBM_TIER_STATUS, 48, 1⟩
def HBM_TIER_STATUS_N_UNITS : Fld := ⟨HBM_TIER_STATUS, 32, 9⟩
def HBM_TIER_STATUS_IN_SERVICE : Fld := ⟨HBM_TIER_STATUS, 16, 9⟩
def HBM_TIER_STATUS_CAP_GIB : Fld := ⟨HBM_TIER_STATUS, 0, 16⟩
def HBM_ARB : Nat := 0x600008
def HBM_ARB_W_PREFETCH : Fld := ⟨HBM_ARB, 16, 4⟩
def HBM_ARB_W_EXTERNAL : Fld := ⟨HBM_ARB, 12, 4⟩
def HBM_ARB_W_CACHE : Fld := ⟨HBM_ARB, 8, 4⟩
def HBM_ARB_W_DMA_WR : Fld := ⟨HBM_ARB, 4, 4⟩
def HBM_ARB_W_DMA_RD : Fld := ⟨HBM_ARB, 0, 4⟩
def HBM_RINSE : Nat := 0x600010
def HBM_RINSE_LOG2 : Fld := ⟨HBM_RINSE, 0, 5⟩
def HBM_RETIRE_THR : Nat := 0x600018
def HBM_RETIRE_THR_UE_LIMIT : Fld := ⟨HBM_RETIRE_THR, 32, 16⟩
def HBM_RETIRE_THR_CE_LIMIT : Fld := ⟨HBM_RETIRE_THR, 0, 32⟩
def HBM_THROTTLE : Nat := 0x600020
def HBM_THROTTLE_S0 : Fld := ⟨HBM_THROTTLE, 0, 7⟩
def HBM_THROTTLE_S1 : Fld := ⟨HBM_THROTTLE, 7, 7⟩
def HBM_THROTTLE_S2 : Fld := ⟨HBM_THROTTLE, 14, 7⟩
def HBM_THROTTLE_S3 : Fld := ⟨HBM_THROTTLE, 21, 7⟩
def HBM_THROTTLE_S4 : Fld := ⟨HBM_THROTTLE, 28, 7⟩
def HBM_THROTTLE_S5 : Fld := ⟨HBM_THROTTLE, 35, 7⟩

def rowsHBMT : List RegRow := [
  ⟨0x0, 1, 0x8, .any, false, [⟨48, 1, .ro, 0⟩, ⟨32, 9, .ro, 0⟩, ⟨16, 9, .ro, 0⟩, ⟨0, 16, .ro, 0⟩]⟩,
  ⟨0x8, 1, 0x8, .any, false, [⟨16, 4, .ro, 1⟩, ⟨12, 4, .ro, 4⟩, ⟨8, 4, .ro, 4⟩, ⟨4, 4, .ro, 6⟩, ⟨0, 4, .ro, 6⟩]⟩,
  ⟨0x10, 1, 0x8, .any, false, [⟨0, 5, .rw, 10⟩]⟩,
  ⟨0x18, 1, 0x8, .any, false, [⟨32, 16, .rw, 3⟩, ⟨0, 32, .rw, 4096⟩]⟩,
  ⟨0x20, 1, 0x8, .any, false, [⟨0, 7, .ro, 64⟩, ⟨7, 7, .ro, 64⟩, ⟨14, 7, .ro, 64⟩, ⟨21, 7, .ro, 64⟩, ⟨28, 7, .ro, 64⟩, ⟨35, 7, .ro, 64⟩]⟩]

/-! Block HBMC: 09_far_memory, R178. -/

def HBM_CH_STATUS (i : Nat) : Nat := 0x610000 + 0x400 * i
def HBM_CH_STATUS_TEMP (i : Nat) : Fld := ⟨HBM_CH_STATUS i, 56, 8⟩
def HBM_CH_STATUS_REASON (i : Nat) : Fld := ⟨HBM_CH_STATUS i, 8, 3⟩
def HBM_CH_STATUS_REFRESH (i : Nat) : Fld := ⟨HBM_CH_STATUS i, 6, 2⟩
def HBM_CH_STATUS_BUSY (i : Nat) : Fld := ⟨HBM_CH_STATUS i, 5, 1⟩
def HBM_CH_STATUS_STATE (i : Nat) : Fld := ⟨HBM_CH_STATUS i, 0, 4⟩
def HBM_CH_CTL (i : Nat) : Nat := 0x610008 + 0x400 * i
def HBM_CH_CTL_OOS (i : Nat) : Fld := ⟨HBM_CH_CTL i, 0, 1⟩
def HBM_CH_ECC (i : Nat) : Nat := 0x610010 + 0x400 * i
def HBM_CH_ECC_CE (i : Nat) : Fld := ⟨HBM_CH_ECC i, 40, 24⟩
def HBM_CH_ECC_UE (i : Nat) : Fld := ⟨HBM_CH_ECC i, 24, 16⟩
def HBM_CH_ECC_RETRIES (i : Nat) : Fld := ⟨HBM_CH_ECC i, 8, 16⟩
def HBM_CH_ECC_LOST_WB (i : Nat) : Fld := ⟨HBM_CH_ECC i, 0, 8⟩
def HBM_ERR_ADDR (i : Nat) : Nat := 0x610018 + 0x400 * i
def HBM_ERR_ADDR_ADDR (i : Nat) : Fld := ⟨HBM_ERR_ADDR i, 0, 64⟩
def HBM_TG_CFG (i : Nat) : Nat := 0x610020 + 0x400 * i
def HBM_TG_CFG_MODE (i : Nat) : Fld := ⟨HBM_TG_CFG i, 60, 4⟩
def HBM_TG_CFG_PATTERN (i : Nat) : Fld := ⟨HBM_TG_CFG i, 58, 2⟩
def HBM_TG_CFG_RAW (i : Nat) : Fld := ⟨HBM_TG_CFG i, 57, 1⟩
def HBM_TG_CFG_WR_RATIO (i : Nat) : Fld := ⟨HBM_TG_CFG i, 53, 4⟩
def HBM_TG_CFG_LOOPS (i : Nat) : Fld := ⟨HBM_TG_CFG i, 45, 8⟩
def HBM_TG_CFG_STRIDE (i : Nat) : Fld := ⟨HBM_TG_CFG i, 29, 16⟩
def HBM_TG_CFG_END_ROW (i : Nat) : Fld := ⟨HBM_TG_CFG i, 0, 29⟩
def HBM_TG_SEED (i : Nat) : Nat := 0x610028 + 0x400 * i
def HBM_TG_SEED_SEED (i : Nat) : Fld := ⟨HBM_TG_SEED i, 0, 64⟩
def HBM_TG_CTL (i : Nat) : Nat := 0x610030 + 0x400 * i
def HBM_TG_CTL_START (i : Nat) : Fld := ⟨HBM_TG_CTL i, 0, 1⟩
def HBM_TG_RES (i : Nat) : Nat := 0x610038 + 0x400 * i
def HBM_TG_RES_DONE (i : Nat) : Fld := ⟨HBM_TG_RES i, 63, 1⟩
def HBM_TG_RES_BUSY (i : Nat) : Fld := ⟨HBM_TG_RES i, 62, 1⟩
def HBM_TG_RES_RESULT (i : Nat) : Fld := ⟨HBM_TG_RES i, 60, 2⟩
def HBM_TG_RES_ERRORS (i : Nat) : Fld := ⟨HBM_TG_RES i, 0, 32⟩
def HBM_FIRST_ADDR (i : Nat) : Nat := 0x610040 + 0x400 * i
def HBM_FIRST_ADDR_ADDR (i : Nat) : Fld := ⟨HBM_FIRST_ADDR i, 0, 64⟩
def HBM_FIRST_BITS (i : Nat) : Nat := 0x610048 + 0x400 * i
def HBM_FIRST_BITS_BITS (i : Nat) : Fld := ⟨HBM_FIRST_BITS i, 0, 64⟩

def rowsHBMC : List RegRow := [
  ⟨0x0, 1, 0x8, .any, false, [⟨56, 8, .ro, 0⟩, ⟨8, 3, .ro, 0⟩, ⟨6, 2, .ro, 0⟩, ⟨5, 1, .ro, 0⟩, ⟨0, 4, .ro, 0⟩]⟩,
  ⟨0x8, 1, 0x8, .owner, false, [⟨0, 1, .rw, 0⟩]⟩,
  ⟨0x10, 1, 0x8, .any, false, [⟨40, 24, .ro, 0⟩, ⟨24, 16, .ro, 0⟩, ⟨8, 16, .ro, 0⟩, ⟨0, 8, .ro, 0⟩]⟩,
  ⟨0x18, 1, 0x8, .any, false, [⟨0, 64, .ro, 0⟩]⟩,
  ⟨0x20, 1, 0x8, .owner, false, [⟨60, 4, .rw, 0⟩, ⟨58, 2, .rw, 0⟩, ⟨57, 1, .rw, 0⟩, ⟨53, 4, .rw, 0⟩, ⟨45, 8, .rw, 1⟩, ⟨29, 16, .rw, 1⟩, ⟨0, 29, .rw, 0⟩]⟩,
  ⟨0x28, 1, 0x8, .owner, false, [⟨0, 64, .rw, 0⟩]⟩,
  ⟨0x30, 1, 0x8, .owner, false, [⟨0, 1, .wo, 0⟩]⟩,
  ⟨0x38, 1, 0x8, .any, false, [⟨63, 1, .ro, 0⟩, ⟨62, 1, .ro, 0⟩, ⟨60, 2, .ro, 0⟩, ⟨0, 32, .ro, 0⟩]⟩,
  ⟨0x40, 1, 0x8, .any, false, [⟨0, 64, .ro, 0⟩]⟩,
  ⟨0x48, 1, 0x8, .any, false, [⟨0, 64, .ro, 0⟩]⟩]

/-! Block DDRT: 09_far_memory, R178. -/

def DDR_TIER_STATUS : Nat := 0x640000
def DDR_TIER_STATUS_FIXED : Fld := ⟨DDR_TIER_STATUS, 48, 1⟩
def DDR_TIER_STATUS_N_UNITS : Fld := ⟨DDR_TIER_STATUS, 32, 9⟩
def DDR_TIER_STATUS_IN_SERVICE : Fld := ⟨DDR_TIER_STATUS, 16, 9⟩
def DDR_TIER_STATUS_CAP_GIB : Fld := ⟨DDR_TIER_STATUS, 0, 16⟩
def DDR_ARB : Nat := 0x640008
def DDR_ARB_W_PREFETCH : Fld := ⟨DDR_ARB, 16, 4⟩
def DDR_ARB_W_EXTERNAL : Fld := ⟨DDR_ARB, 12, 4⟩
def DDR_ARB_W_CACHE : Fld := ⟨DDR_ARB, 8, 4⟩
def DDR_ARB_W_DMA_WR : Fld := ⟨DDR_ARB, 4, 4⟩
def DDR_ARB_W_DMA_RD : Fld := ⟨DDR_ARB, 0, 4⟩
def DDR_RINSE : Nat := 0x640010
def DDR_RINSE_LOG2 : Fld := ⟨DDR_RINSE, 0, 5⟩
def DDR_RETIRE_THR : Nat := 0x640018
def DDR_RETIRE_THR_UE_LIMIT : Fld := ⟨DDR_RETIRE_THR, 32, 16⟩
def DDR_RETIRE_THR_CE_LIMIT : Fld := ⟨DDR_RETIRE_THR, 0, 32⟩

def rowsDDRT : List RegRow := [
  ⟨0x0, 1, 0x8, .any, false, [⟨48, 1, .ro, 0⟩, ⟨32, 9, .ro, 0⟩, ⟨16, 9, .ro, 0⟩, ⟨0, 16, .ro, 0⟩]⟩,
  ⟨0x8, 1, 0x8, .any, false, [⟨16, 4, .ro, 1⟩, ⟨12, 4, .ro, 4⟩, ⟨8, 4, .ro, 4⟩, ⟨4, 4, .ro, 6⟩, ⟨0, 4, .ro, 6⟩]⟩,
  ⟨0x10, 1, 0x8, .any, false, [⟨0, 5, .rw, 10⟩]⟩,
  ⟨0x18, 1, 0x8, .any, false, [⟨32, 16, .rw, 3⟩, ⟨0, 32, .rw, 4096⟩]⟩]

/-! Block DDRC: 09_far_memory, R178. -/

def DDR_CH_STATUS (i : Nat) : Nat := 0x641000 + 0x400 * i
def DDR_CH_STATUS_TEMP (i : Nat) : Fld := ⟨DDR_CH_STATUS i, 56, 8⟩
def DDR_CH_STATUS_REASON (i : Nat) : Fld := ⟨DDR_CH_STATUS i, 8, 3⟩
def DDR_CH_STATUS_REFRESH (i : Nat) : Fld := ⟨DDR_CH_STATUS i, 6, 2⟩
def DDR_CH_STATUS_BUSY (i : Nat) : Fld := ⟨DDR_CH_STATUS i, 5, 1⟩
def DDR_CH_STATUS_STATE (i : Nat) : Fld := ⟨DDR_CH_STATUS i, 0, 4⟩
def DDR_CH_CTL (i : Nat) : Nat := 0x641008 + 0x400 * i
def DDR_CH_CTL_OOS (i : Nat) : Fld := ⟨DDR_CH_CTL i, 0, 1⟩
def DDR_CH_ECC (i : Nat) : Nat := 0x641010 + 0x400 * i
def DDR_CH_ECC_CE (i : Nat) : Fld := ⟨DDR_CH_ECC i, 40, 24⟩
def DDR_CH_ECC_UE (i : Nat) : Fld := ⟨DDR_CH_ECC i, 24, 16⟩
def DDR_CH_ECC_RETRIES (i : Nat) : Fld := ⟨DDR_CH_ECC i, 8, 16⟩
def DDR_CH_ECC_LOST_WB (i : Nat) : Fld := ⟨DDR_CH_ECC i, 0, 8⟩
def DDR_ERR_ADDR (i : Nat) : Nat := 0x641018 + 0x400 * i
def DDR_ERR_ADDR_ADDR (i : Nat) : Fld := ⟨DDR_ERR_ADDR i, 0, 64⟩
def DDR_TG_CFG (i : Nat) : Nat := 0x641020 + 0x400 * i
def DDR_TG_CFG_MODE (i : Nat) : Fld := ⟨DDR_TG_CFG i, 60, 4⟩
def DDR_TG_CFG_PATTERN (i : Nat) : Fld := ⟨DDR_TG_CFG i, 58, 2⟩
def DDR_TG_CFG_RAW (i : Nat) : Fld := ⟨DDR_TG_CFG i, 57, 1⟩
def DDR_TG_CFG_WR_RATIO (i : Nat) : Fld := ⟨DDR_TG_CFG i, 53, 4⟩
def DDR_TG_CFG_LOOPS (i : Nat) : Fld := ⟨DDR_TG_CFG i, 45, 8⟩
def DDR_TG_CFG_STRIDE (i : Nat) : Fld := ⟨DDR_TG_CFG i, 29, 16⟩
def DDR_TG_CFG_END_ROW (i : Nat) : Fld := ⟨DDR_TG_CFG i, 0, 29⟩
def DDR_TG_SEED (i : Nat) : Nat := 0x641028 + 0x400 * i
def DDR_TG_SEED_SEED (i : Nat) : Fld := ⟨DDR_TG_SEED i, 0, 64⟩
def DDR_TG_CTL (i : Nat) : Nat := 0x641030 + 0x400 * i
def DDR_TG_CTL_START (i : Nat) : Fld := ⟨DDR_TG_CTL i, 0, 1⟩
def DDR_TG_RES (i : Nat) : Nat := 0x641038 + 0x400 * i
def DDR_TG_RES_DONE (i : Nat) : Fld := ⟨DDR_TG_RES i, 63, 1⟩
def DDR_TG_RES_BUSY (i : Nat) : Fld := ⟨DDR_TG_RES i, 62, 1⟩
def DDR_TG_RES_RESULT (i : Nat) : Fld := ⟨DDR_TG_RES i, 60, 2⟩
def DDR_TG_RES_ERRORS (i : Nat) : Fld := ⟨DDR_TG_RES i, 0, 32⟩
def DDR_FIRST_ADDR (i : Nat) : Nat := 0x641040 + 0x400 * i
def DDR_FIRST_ADDR_ADDR (i : Nat) : Fld := ⟨DDR_FIRST_ADDR i, 0, 64⟩
def DDR_FIRST_BITS (i : Nat) : Nat := 0x641048 + 0x400 * i
def DDR_FIRST_BITS_BITS (i : Nat) : Fld := ⟨DDR_FIRST_BITS i, 0, 64⟩

def rowsDDRC : List RegRow := [
  ⟨0x0, 1, 0x8, .any, false, [⟨56, 8, .ro, 0⟩, ⟨8, 3, .ro, 0⟩, ⟨6, 2, .ro, 0⟩, ⟨5, 1, .ro, 0⟩, ⟨0, 4, .ro, 0⟩]⟩,
  ⟨0x8, 1, 0x8, .owner, false, [⟨0, 1, .rw, 0⟩]⟩,
  ⟨0x10, 1, 0x8, .any, false, [⟨40, 24, .ro, 0⟩, ⟨24, 16, .ro, 0⟩, ⟨8, 16, .ro, 0⟩, ⟨0, 8, .ro, 0⟩]⟩,
  ⟨0x18, 1, 0x8, .any, false, [⟨0, 64, .ro, 0⟩]⟩,
  ⟨0x20, 1, 0x8, .owner, false, [⟨60, 4, .rw, 0⟩, ⟨58, 2, .rw, 0⟩, ⟨57, 1, .rw, 0⟩, ⟨53, 4, .rw, 0⟩, ⟨45, 8, .rw, 1⟩, ⟨29, 16, .rw, 1⟩, ⟨0, 29, .rw, 0⟩]⟩,
  ⟨0x28, 1, 0x8, .owner, false, [⟨0, 64, .rw, 0⟩]⟩,
  ⟨0x30, 1, 0x8, .owner, false, [⟨0, 1, .wo, 0⟩]⟩,
  ⟨0x38, 1, 0x8, .any, false, [⟨63, 1, .ro, 0⟩, ⟨62, 1, .ro, 0⟩, ⟨60, 2, .ro, 0⟩, ⟨0, 32, .ro, 0⟩]⟩,
  ⟨0x40, 1, 0x8, .any, false, [⟨0, 64, .ro, 0⟩]⟩,
  ⟨0x48, 1, 0x8, .any, false, [⟨0, 64, .ro, 0⟩]⟩]

/-! Block XLT: 10_addressing, R204. -/

def XLT_NODE_ID : Nat := 0x680000
def XLT_NODE_ID_VALID : Fld := ⟨XLT_NODE_ID, 16, 1⟩
def XLT_NODE_ID_ID : Fld := ⟨XLT_NODE_ID, 0, 16⟩
def XLT_STATUS : Nat := 0x680008
def XLT_STATUS_BOOT : Fld := ⟨XLT_STATUS, 32, 1⟩
def XLT_STATUS_STORE_USED : Fld := ⟨XLT_STATUS, 0, 17⟩
def XLT_FAULT_ADDR : Nat := 0x680010
def XLT_FAULT_ADDR_ADDR : Fld := ⟨XLT_FAULT_ADDR, 0, 64⟩
def XLT_FAULT_INFO : Nat := 0x680018
def XLT_FAULT_INFO_VALID : Fld := ⟨XLT_FAULT_INFO, 63, 1⟩
def XLT_FAULT_INFO_CAUSE : Fld := ⟨XLT_FAULT_INFO, 48, 8⟩
def XLT_FAULT_INFO_LEVEL : Fld := ⟨XLT_FAULT_INFO, 40, 8⟩
def XLT_FAULT_INFO_REQ : Fld := ⟨XLT_FAULT_INFO, 36, 4⟩
def XLT_FAULT_INFO_TAG : Fld := ⟨XLT_FAULT_INFO, 16, 16⟩
def XLT_FAULT_INFO_SOURCE : Fld := ⟨XLT_FAULT_INFO, 0, 16⟩
def XLT_CTR : Nat := 0x680020
def XLT_CTR_WALKS : Fld := ⟨XLT_CTR, 32, 32⟩
def XLT_CTR_FAULTS : Fld := ⟨XLT_CTR, 16, 16⟩
def XLT_CTR_REMOTE_DENY : Fld := ⟨XLT_CTR, 0, 16⟩
def XLT_PROBE_ADDR : Nat := 0x680028
def XLT_PROBE_ADDR_ADDR : Fld := ⟨XLT_PROBE_ADDR, 0, 64⟩
def XLT_PROBE_RES : Nat := 0x680030
def XLT_PROBE_RES_DONE : Fld := ⟨XLT_PROBE_RES, 63, 1⟩
def XLT_PROBE_RES_VALID : Fld := ⟨XLT_PROBE_RES, 62, 1⟩
def XLT_PROBE_RES_SIZE : Fld := ⟨XLT_PROBE_RES, 60, 2⟩
def XLT_PROBE_RES_ATTR : Fld := ⟨XLT_PROBE_RES, 53, 7⟩
def XLT_PROBE_RES_NODE : Fld := ⟨XLT_PROBE_RES, 32, 16⟩
def XLT_PROBE_RES_PAGE : Fld := ⟨XLT_PROBE_RES, 0, 32⟩

def rowsXLT : List RegRow := [
  ⟨0x0, 1, 0x8, .any, true, [⟨16, 1, .ro, 0⟩, ⟨0, 16, .ro, 0⟩]⟩,
  ⟨0x8, 1, 0x8, .any, false, [⟨32, 1, .ro, 1⟩, ⟨0, 17, .ro, 0⟩]⟩,
  ⟨0x10, 1, 0x8, .any, false, [⟨0, 64, .ro, 0⟩]⟩,
  ⟨0x18, 1, 0x8, .any, false, [⟨63, 1, .w1c, 0⟩, ⟨48, 8, .ro, 0⟩, ⟨40, 8, .ro, 0⟩, ⟨36, 4, .ro, 0⟩, ⟨16, 16, .ro, 0⟩, ⟨0, 16, .ro, 0⟩]⟩,
  ⟨0x20, 1, 0x8, .any, false, [⟨32, 32, .ro, 0⟩, ⟨16, 16, .ro, 0⟩, ⟨0, 16, .ro, 0⟩]⟩,
  ⟨0x28, 1, 0x8, .any, false, [⟨0, 64, .rw, 0⟩]⟩,
  ⟨0x30, 1, 0x8, .any, false, [⟨63, 1, .ro, 0⟩, ⟨62, 1, .ro, 0⟩, ⟨60, 2, .ro, 3⟩, ⟨53, 7, .ro, 0⟩, ⟨32, 16, .ro, 0⟩, ⟨0, 32, .ro, 0⟩]⟩]

/-! Block FAR: 10_addressing, R204. -/

def FAR_STATUS : Nat := 0x690000
def FAR_STATUS_MISS_HWM : Fld := ⟨FAR_STATUS, 32, 16⟩
def FAR_STATUS_MISS_INUSE : Fld := ⟨FAR_STATUS, 0, 13⟩
def FAR_CTR : Nat := 0x690008
def FAR_CTR_HITS : Fld := ⟨FAR_CTR, 32, 32⟩
def FAR_CTR_MISSES : Fld := ⟨FAR_CTR, 0, 32⟩
def FAR_PF : Nat := 0x690010
def FAR_PF_ISSUED : Fld := ⟨FAR_PF, 32, 32⟩
def FAR_PF_FAILED : Fld := ⟨FAR_PF, 0, 32⟩
def FAR_PF_DROP : Nat := 0x690018
def FAR_PF_DROP_DROPS : Fld := ⟨FAR_PF_DROP, 0, 32⟩
def FAR_PF_CFG : Nat := 0x690020
def FAR_PF_CFG_EN : Fld := ⟨FAR_PF_CFG, 7, 1⟩
def FAR_PF_CFG_DEPTH : Fld := ⟨FAR_PF_CFG, 0, 6⟩
def FAR_ACQ : Nat := 0x690028
def FAR_ACQ_ACQUIRES : Fld := ⟨FAR_ACQ, 32, 32⟩
def FAR_ACQ_FILLS_DISCARDED : Fld := ⟨FAR_ACQ, 0, 32⟩
def FAR_CTR_CLR : Nat := 0x690030
def FAR_CTR_CLR_CLEAR : Fld := ⟨FAR_CTR_CLR, 0, 1⟩

def rowsFAR : List RegRow := [
  ⟨0x0, 1, 0x8, .any, false, [⟨32, 16, .ro, 0⟩, ⟨0, 13, .ro, 0⟩]⟩,
  ⟨0x8, 1, 0x8, .any, false, [⟨32, 32, .ro, 0⟩, ⟨0, 32, .ro, 0⟩]⟩,
  ⟨0x10, 1, 0x8, .any, false, [⟨32, 32, .ro, 0⟩, ⟨0, 32, .ro, 0⟩]⟩,
  ⟨0x18, 1, 0x8, .any, false, [⟨0, 32, .ro, 0⟩]⟩,
  ⟨0x20, 1, 0x8, .any, false, [⟨7, 1, .ro, 1⟩, ⟨0, 6, .ro, 8⟩]⟩,
  ⟨0x28, 1, 0x8, .any, false, [⟨32, 32, .ro, 0⟩, ⟨0, 32, .ro, 0⟩]⟩,
  ⟨0x30, 1, 0x8, .any, false, [⟨0, 1, .wo, 0⟩]⟩]

/-! Block SIZ: 11_patterns, R219. -/

def SIZ_HDR (i : Nat) : Nat := 0x700000 + 0x40 * i
def SIZ_HDR_VALID (i : Nat) : Fld := ⟨SIZ_HDR i, 63, 1⟩
def SIZ_HDR_LEVEL (i : Nat) : Fld := ⟨SIZ_HDR i, 59, 4⟩
def SIZ_HDR_PARENT (i : Nat) : Fld := ⟨SIZ_HDR i, 48, 8⟩
def SIZ_HDR_NODES (i : Nat) : Fld := ⟨SIZ_HDR i, 0, 17⟩
def SIZ_CELLS (i : Nat) : Nat := 0x700008 + 0x40 * i
def SIZ_CELLS_CELLS (i : Nat) : Fld := ⟨SIZ_CELLS i, 32, 32⟩
def SIZ_CELLS_REGIONS (i : Nat) : Fld := ⟨SIZ_CELLS i, 0, 32⟩
def SIZ_SP (i : Nat) : Nat := 0x700010 + 0x40 * i
def SIZ_SP_BYTES (i : Nat) : Fld := ⟨SIZ_SP i, 0, 64⟩
def SIZ_CSRAM (i : Nat) : Nat := 0x700018 + 0x40 * i
def SIZ_CSRAM_BYTES (i : Nat) : Fld := ⟨SIZ_CSRAM i, 0, 64⟩
def SIZ_CDRAM (i : Nat) : Nat := 0x700020 + 0x40 * i
def SIZ_CDRAM_BYTES (i : Nat) : Fld := ⟨SIZ_CDRAM i, 0, 64⟩
def SIZ_HBM (i : Nat) : Nat := 0x700028 + 0x40 * i
def SIZ_HBM_BYTES (i : Nat) : Fld := ⟨SIZ_HBM i, 0, 64⟩
def SIZ_DDR (i : Nat) : Nat := 0x700030 + 0x40 * i
def SIZ_DDR_BYTES (i : Nat) : Fld := ⟨SIZ_DDR i, 0, 64⟩
def SIZ_LINKS (i : Nat) : Nat := 0x700038 + 0x40 * i
def SIZ_LINKS_PORTS (i : Nat) : Fld := ⟨SIZ_LINKS i, 32, 24⟩
def SIZ_LINKS_LANES (i : Nat) : Fld := ⟨SIZ_LINKS i, 0, 32⟩

def rowsSIZ : List RegRow := [
  ⟨0x0, 1, 0x8, .any, false, [⟨63, 1, .ro, 0⟩, ⟨59, 4, .ro, 0⟩, ⟨48, 8, .ro, 0⟩, ⟨0, 17, .ro, 0⟩]⟩,
  ⟨0x8, 1, 0x8, .any, false, [⟨32, 32, .ro, 0⟩, ⟨0, 32, .ro, 0⟩]⟩,
  ⟨0x10, 1, 0x8, .any, false, [⟨0, 64, .ro, 0⟩]⟩,
  ⟨0x18, 1, 0x8, .any, false, [⟨0, 64, .ro, 0⟩]⟩,
  ⟨0x20, 1, 0x8, .any, false, [⟨0, 64, .ro, 0⟩]⟩,
  ⟨0x28, 1, 0x8, .any, false, [⟨0, 64, .ro, 0⟩]⟩,
  ⟨0x30, 1, 0x8, .any, false, [⟨0, 64, .ro, 0⟩]⟩,
  ⟨0x38, 1, 0x8, .any, false, [⟨32, 24, .ro, 0⟩, ⟨0, 32, .ro, 0⟩]⟩]

/-! Block PAT: 11_patterns, R222. -/

def PAT_STATUS : Nat := 0x710000
def PAT_STATUS_STAGE : Fld := ⟨PAT_STATUS, 62, 2⟩
def PAT_STATUS_ACTIVE : Fld := ⟨PAT_STATUS, 61, 1⟩
def PAT_STATUS_GANG : Fld := ⟨PAT_STATUS, 60, 1⟩
def PAT_STATUS_REASON : Fld := ⟨PAT_STATUS, 48, 8⟩
def PAT_STATUS_LAST_STATUS : Fld := ⟨PAT_STATUS, 40, 8⟩
def PAT_STATUS_SWITCHES : Fld := ⟨PAT_STATUS, 16, 16⟩
def PAT_STATUS_FAILURES : Fld := ⟨PAT_STATUS, 0, 16⟩
def PAT_LOAD_ADDR : Nat := 0x710008
def PAT_LOAD_ADDR_ADDR : Fld := ⟨PAT_LOAD_ADDR, 6, 58⟩
def PAT_LOAD_LEN : Nat := 0x710010
def PAT_LOAD_LEN_LEN : Fld := ⟨PAT_LOAD_LEN, 0, 32⟩
def PAT_CTL : Nat := 0x710018
def PAT_CTL_DISCARD : Fld := ⟨PAT_CTL, 2, 1⟩
def PAT_CTL_SWITCH : Fld := ⟨PAT_CTL, 1, 1⟩
def PAT_CTL_LOAD : Fld := ⟨PAT_CTL, 0, 1⟩
def PAT_SWITCH_EDGE : Nat := 0x710020
def PAT_SWITCH_EDGE_EDGE : Fld := ⟨PAT_SWITCH_EDGE, 0, 64⟩
def PAT_SWITCH_DONE : Nat := 0x710028
def PAT_SWITCH_DONE_EDGE : Fld := ⟨PAT_SWITCH_DONE, 0, 64⟩
def PAT_ACTIVE_ID (j : Nat) : Nat := 0x710030 + 0x8 * j
def PAT_ACTIVE_ID_ID (j : Nat) : Fld := ⟨PAT_ACTIVE_ID j, 0, 64⟩
def PAT_ACTIVE_VER : Nat := 0x710040
def PAT_ACTIVE_VER_VER : Fld := ⟨PAT_ACTIVE_VER, 0, 32⟩
def PAT_ACTIVE_JOB : Nat := 0x710048
def PAT_ACTIVE_JOB_JOB : Fld := ⟨PAT_ACTIVE_JOB, 0, 64⟩
def PAT_STAGED_ID (j : Nat) : Nat := 0x710050 + 0x8 * j
def PAT_STAGED_ID_ID (j : Nat) : Fld := ⟨PAT_STAGED_ID j, 0, 64⟩

def rowsPAT : List RegRow := [
  ⟨0x0, 1, 0x8, .any, false, [⟨62, 2, .ro, 0⟩, ⟨61, 1, .ro, 0⟩, ⟨60, 1, .ro, 0⟩, ⟨48, 8, .ro, 0⟩, ⟨40, 8, .ro, 0⟩, ⟨16, 16, .ro, 0⟩, ⟨0, 16, .ro, 0⟩]⟩,
  ⟨0x8, 1, 0x8, .owner, false, [⟨6, 58, .rw, 0⟩]⟩,
  ⟨0x10, 1, 0x8, .owner, false, [⟨0, 32, .rw, 0⟩]⟩,
  ⟨0x18, 1, 0x8, .owner, false, [⟨2, 1, .wo, 0⟩, ⟨1, 1, .wo, 0⟩, ⟨0, 1, .wo, 0⟩]⟩,
  ⟨0x20, 1, 0x8, .owner, false, [⟨0, 64, .rw, 0⟩]⟩,
  ⟨0x28, 1, 0x8, .any, false, [⟨0, 64, .ro, 0⟩]⟩,
  ⟨0x30, 2, 0x8, .any, false, [⟨0, 64, .ro, 0⟩]⟩,
  ⟨0x40, 1, 0x8, .any, false, [⟨0, 32, .ro, 0⟩]⟩,
  ⟨0x48, 1, 0x8, .any, false, [⟨0, 64, .ro, 0⟩]⟩,
  ⟨0x50, 2, 0x8, .any, false, [⟨0, 64, .ro, 0⟩]⟩]

/-! Block PATP: 11_patterns, R222. -/

def PAT_PATCH_BASE (i : Nat) : Nat := 0x710800 + 0x10 * i
def PAT_PATCH_BASE_BASE (i : Nat) : Fld := ⟨PAT_PATCH_BASE i, 0, 64⟩
def PAT_PATCH_LEN (i : Nat) : Nat := 0x710808 + 0x10 * i
def PAT_PATCH_LEN_HOME (i : Nat) : Fld := ⟨PAT_PATCH_LEN i, 48, 16⟩
def PAT_PATCH_LEN_LEN (i : Nat) : Fld := ⟨PAT_PATCH_LEN i, 0, 48⟩

def rowsPATP : List RegRow := [
  ⟨0x0, 1, 0x8, .any, false, [⟨0, 64, .ro, 0⟩]⟩,
  ⟨0x8, 1, 0x8, .any, false, [⟨48, 16, .ro, 0⟩, ⟨0, 48, .ro, 0⟩]⟩]

/-! Block TID: 12_tide, R241. -/

def TID_STATUS : Nat := 0x720000
def TID_STATUS_STATE : Fld := ⟨TID_STATUS, 62, 2⟩
def TID_STATUS_LOCKED : Fld := ⟨TID_STATUS, 5, 1⟩
def TID_STATUS_SWITCH_EDGE : Fld := ⟨TID_STATUS, 4, 1⟩
def TID_STATUS_LATE_EDGE : Fld := ⟨TID_STATUS, 3, 1⟩
def TID_STATUS_STRETCHED : Fld := ⟨TID_STATUS, 2, 1⟩
def TID_STATUS_OVERRUN : Fld := ⟨TID_STATUS, 1, 1⟩
def TID_STATUS_ARRIVED : Fld := ⟨TID_STATUS, 0, 1⟩
def TID_COUNT : Nat := 0x720008
def TID_COUNT_COUNT : Fld := ⟨TID_COUNT, 0, 64⟩
def TID_TIME : Nat := 0x720010
def TID_TIME_TIME : Fld := ⟨TID_TIME, 0, 64⟩
def TID_LAST_TIME : Nat := 0x720018
def TID_LAST_TIME_TIME : Fld := ⟨TID_LAST_TIME, 0, 64⟩
def TID_CFG : Nat := 0x720020
def TID_CFG_ROLE : Fld := ⟨TID_CFG, 62, 2⟩
def TID_CFG_SRC : Fld := ⟨TID_CFG, 61, 1⟩
def TID_CFG_UP_PORT : Fld := ⟨TID_CFG, 48, 4⟩
def TID_CFG_PIN_DELAY : Fld := ⟨TID_CFG, 0, 16⟩
def TID_PARAM : Nat := 0x720028
def TID_PARAM_POLICY : Fld := ⟨TID_PARAM, 63, 1⟩
def TID_PARAM_LEAD_NS : Fld := ⟨TID_PARAM, 32, 20⟩
def TID_PARAM_PERIOD_NS : Fld := ⟨TID_PARAM, 0, 26⟩
def TID_STRETCH_MAX : Nat := 0x720030
def TID_STRETCH_MAX_NS : Fld := ⟨TID_STRETCH_MAX, 0, 26⟩
def TID_CTL : Nat := 0x720038
def TID_CTL_STOP : Fld := ⟨TID_CTL, 2, 1⟩
def TID_CTL_RESUME : Fld := ⟨TID_CTL, 1, 1⟩
def TID_CTL_START : Fld := ⟨TID_CTL, 0, 1⟩
def TID_CTR : Nat := 0x720040
def TID_CTR_OVERRUNS : Fld := ⟨TID_CTR, 32, 32⟩
def TID_CTR_STRETCHED : Fld := ⟨TID_CTR, 16, 16⟩
def TID_CTR_LATE_EDGES : Fld := ⟨TID_CTR, 0, 16⟩
def TID_CTR_CLR : Nat := 0x720048
def TID_CTR_CLR_CLEAR : Fld := ⟨TID_CTR_CLR, 0, 1⟩

def rowsTID : List RegRow := [
  ⟨0x0, 1, 0x8, .any, false, [⟨62, 2, .ro, 0⟩, ⟨5, 1, .ro, 0⟩, ⟨4, 1, .ro, 0⟩, ⟨3, 1, .w1c, 0⟩, ⟨2, 1, .ro, 0⟩, ⟨1, 1, .w1c, 0⟩, ⟨0, 1, .ro, 0⟩]⟩,
  ⟨0x8, 1, 0x8, .any, false, [⟨0, 64, .ro, 0⟩]⟩,
  ⟨0x10, 1, 0x8, .any, false, [⟨0, 64, .ro, 0⟩]⟩,
  ⟨0x18, 1, 0x8, .any, false, [⟨0, 64, .ro, 0⟩]⟩,
  ⟨0x20, 1, 0x8, .owner, false, [⟨62, 2, .rw, 0⟩, ⟨61, 1, .rw, 0⟩, ⟨48, 4, .rw, 15⟩, ⟨0, 16, .rw, 0⟩]⟩,
  ⟨0x28, 1, 0x8, .any, false, [⟨63, 1, .ro, 0⟩, ⟨32, 20, .ro, 20000⟩, ⟨0, 26, .ro, 1000000⟩]⟩,
  ⟨0x30, 1, 0x8, .any, false, [⟨0, 26, .ro, 10000000⟩]⟩,
  ⟨0x38, 1, 0x8, .owner, false, [⟨2, 1, .wo, 0⟩, ⟨1, 1, .wo, 0⟩, ⟨0, 1, .wo, 0⟩]⟩,
  ⟨0x40, 1, 0x8, .any, false, [⟨32, 32, .ro, 0⟩, ⟨16, 16, .ro, 0⟩, ⟨0, 16, .ro, 0⟩]⟩,
  ⟨0x48, 1, 0x8, .any, false, [⟨0, 1, .wo, 0⟩]⟩]

/-! Block TRF: 13_trafort, R263. -/

def TRF_STATUS : Nat := 0x730000
def TRF_STATUS_UP : Fld := ⟨TRF_STATUS, 16, 12⟩
def TRF_STATUS_RETIRED : Fld := ⟨TRF_STATUS, 0, 12⟩
def TRF_NODE_CFG : Nat := 0x730008
def TRF_NODE_CFG_VALID : Fld := ⟨TRF_NODE_CFG, 16, 1⟩
def TRF_NODE_CFG_ID : Fld := ⟨TRF_NODE_CFG, 0, 16⟩
def TRF_CFG : Nat := 0x730010
def TRF_CFG_REMOTE_TIMEOUT : Fld := ⟨TRF_CFG, 0, 16⟩
def TRF_RETIRE_CFG : Nat := 0x730018
def TRF_RETIRE_CFG_PORT_WINDOW : Fld := ⟨TRF_RETIRE_CFG, 48, 16⟩
def TRF_RETIRE_CFG_UCW_LIMIT : Fld := ⟨TRF_RETIRE_CFG, 40, 8⟩
def TRF_RETIRE_CFG_LANE_WINDOW : Fld := ⟨TRF_RETIRE_CFG, 24, 16⟩
def TRF_RETIRE_CFG_CE_LIMIT : Fld := ⟨TRF_RETIRE_CFG, 0, 24⟩
def TRF_CTR : Nat := 0x730020
def TRF_CTR_TIMEOUTS : Fld := ⟨TRF_CTR, 48, 16⟩
def TRF_CTR_LATE_RSP : Fld := ⟨TRF_CTR, 32, 16⟩
def TRF_CTR_UNROUTABLE : Fld := ⟨TRF_CTR, 16, 16⟩
def TRF_CTR_HOP_DROPS : Fld := ⟨TRF_CTR, 0, 16⟩
def TRF_CTR_CLR : Nat := 0x730028
def TRF_CTR_CLR_CLEAR : Fld := ⟨TRF_CTR_CLR, 0, 1⟩
def TRF_VC_WEIGHT : Nat := 0x730030
def TRF_VC_WEIGHT_GROUPS : Fld := ⟨TRF_VC_WEIGHT, 0, 48⟩
def TRF_VC_WEIGHT_W12 : Fld := ⟨TRF_VC_WEIGHT, 48, 4⟩
def TRF_VC_WEIGHT_W13 : Fld := ⟨TRF_VC_WEIGHT, 52, 4⟩

def rowsTRF : List RegRow := [
  ⟨0x0, 1, 0x8, .any, false, [⟨16, 12, .ro, 0⟩, ⟨0, 12, .ro, 0⟩]⟩,
  ⟨0x8, 1, 0x8, .owner, false, [⟨16, 1, .ro, 0⟩, ⟨0, 16, .rw, 0⟩]⟩,
  ⟨0x10, 1, 0x8, .owner, false, [⟨0, 16, .rw, 1000⟩]⟩,
  ⟨0x18, 1, 0x8, .owner, false, [⟨48, 16, .rw, 3600⟩, ⟨40, 8, .rw, 8⟩, ⟨24, 16, .rw, 1000⟩, ⟨0, 24, .rw, 2097152⟩]⟩,
  ⟨0x20, 1, 0x8, .any, false, [⟨48, 16, .ro, 0⟩, ⟨32, 16, .ro, 0⟩, ⟨16, 16, .ro, 0⟩, ⟨0, 16, .ro, 0⟩]⟩,
  ⟨0x28, 1, 0x8, .any, false, [⟨0, 1, .wo, 0⟩]⟩,
  ⟨0x30, 1, 0x8, .any, false, [⟨0, 48, .ro, 0⟩, ⟨48, 4, .ro, 4⟩, ⟨52, 4, .ro, 4⟩]⟩]

/-! Block TRFP: 13_trafort, R263. -/

def TRF_PORT_STATUS (i : Nat) : Nat := 0x731000 + 0x400 * i
def TRF_PORT_STATUS_STATE (i : Nat) : Fld := ⟨TRF_PORT_STATUS i, 60, 4⟩
def TRF_PORT_STATUS_REASON (i : Nat) : Fld := ⟨TRF_PORT_STATUS i, 56, 4⟩
def TRF_PORT_STATUS_WIDTH (i : Nat) : Fld := ⟨TRF_PORT_STATUS i, 52, 4⟩
def TRF_PORT_STATUS_IN_SERVICE (i : Nat) : Fld := ⟨TRF_PORT_STATUS i, 40, 8⟩
def TRF_PORT_STATUS_ACTIVE (i : Nat) : Fld := ⟨TRF_PORT_STATUS i, 32, 8⟩
def TRF_PORT_STATUS_HELD (i : Nat) : Fld := ⟨TRF_PORT_STATUS i, 16, 11⟩
def TRF_PORT_STATUS_EPOCH (i : Nat) : Fld := ⟨TRF_PORT_STATUS i, 0, 16⟩
def TRF_PORT_CTL (i : Nat) : Nat := 0x731008 + 0x400 * i
def TRF_PORT_CTL_RETRAIN (i : Nat) : Fld := ⟨TRF_PORT_CTL i, 1, 1⟩
def TRF_PORT_CTL_DISABLE (i : Nat) : Fld := ⟨TRF_PORT_CTL i, 0, 1⟩
def TRF_PORT_PEER (i : Nat) : Nat := 0x731010 + 0x400 * i
def TRF_PORT_PEER_VALID (i : Nat) : Fld := ⟨TRF_PORT_PEER i, 63, 1⟩
def TRF_PORT_PEER_PORT (i : Nat) : Fld := ⟨TRF_PORT_PEER i, 48, 4⟩
def TRF_PORT_PEER_NODE (i : Nat) : Fld := ⟨TRF_PORT_PEER i, 32, 16⟩
def TRF_PORT_LINK (i : Nat) : Nat := 0x731018 + 0x400 * i
def TRF_PORT_LINK_REPLAYS (i : Nat) : Fld := ⟨TRF_PORT_LINK i, 48, 16⟩
def TRF_PORT_LINK_NAKS_SENT (i : Nat) : Fld := ⟨TRF_PORT_LINK i, 32, 16⟩
def TRF_PORT_LINK_CRC_ERRS (i : Nat) : Fld := ⟨TRF_PORT_LINK i, 16, 16⟩
def TRF_PORT_LINK_RETRAINS (i : Nat) : Fld := ⟨TRF_PORT_LINK i, 8, 8⟩
def TRF_PORT_FEC (i : Nat) : Nat := 0x731020 + 0x400 * i
def TRF_PORT_FEC_CE_SYMBOLS (i : Nat) : Fld := ⟨TRF_PORT_FEC i, 32, 32⟩
def TRF_PORT_FEC_UCW (i : Nat) : Fld := ⟨TRF_PORT_FEC i, 0, 32⟩
def TRF_LANE (i : Nat) (j : Nat) : Nat := 0x731040 + 0x400 * i + 0x8 * j
def TRF_LANE_STATE (i : Nat) (j : Nat) : Fld := ⟨TRF_LANE i j, 62, 2⟩
def TRF_LANE_CAUSE (i : Nat) (j : Nat) : Fld := ⟨TRF_LANE i j, 58, 4⟩
def TRF_LANE_CE_WIN (i : Nat) (j : Nat) : Fld := ⟨TRF_LANE i j, 8, 24⟩
def TRF_LANE_UCW_WIN (i : Nat) (j : Nat) : Fld := ⟨TRF_LANE i j, 0, 8⟩
def TRF_CMIS_CTL (i : Nat) : Nat := 0x731080 + 0x400 * i
def TRF_CMIS_CTL_GO (i : Nat) : Fld := ⟨TRF_CMIS_CTL i, 63, 1⟩
def TRF_CMIS_CTL_DONE (i : Nat) : Fld := ⟨TRF_CMIS_CTL i, 62, 1⟩
def TRF_CMIS_CTL_ERR (i : Nat) : Fld := ⟨TRF_CMIS_CTL i, 61, 1⟩
def TRF_CMIS_CTL_PAGE (i : Nat) : Fld := ⟨TRF_CMIS_CTL i, 16, 8⟩
def TRF_CMIS_CTL_OFFSET (i : Nat) : Fld := ⟨TRF_CMIS_CTL i, 8, 8⟩
def TRF_CMIS_DATA (i : Nat) : Nat := 0x731088 + 0x400 * i
def TRF_CMIS_DATA_DATA (i : Nat) : Fld := ⟨TRF_CMIS_DATA i, 0, 64⟩

def rowsTRFP : List RegRow := [
  ⟨0x0, 1, 0x8, .any, false, [⟨60, 4, .ro, 0⟩, ⟨56, 4, .ro, 0⟩, ⟨52, 4, .ro, 0⟩, ⟨40, 8, .ro, 0⟩, ⟨32, 8, .ro, 0⟩, ⟨16, 11, .ro, 0⟩, ⟨0, 16, .ro, 0⟩]⟩,
  ⟨0x8, 1, 0x8, .owner, false, [⟨1, 1, .wo, 0⟩, ⟨0, 1, .rw, 0⟩]⟩,
  ⟨0x10, 1, 0x8, .any, false, [⟨63, 1, .ro, 0⟩, ⟨48, 4, .ro, 0⟩, ⟨32, 16, .ro, 0⟩]⟩,
  ⟨0x18, 1, 0x8, .any, false, [⟨48, 16, .ro, 0⟩, ⟨32, 16, .ro, 0⟩, ⟨16, 16, .ro, 0⟩, ⟨8, 8, .ro, 0⟩]⟩,
  ⟨0x20, 1, 0x8, .any, false, [⟨32, 32, .ro, 0⟩, ⟨0, 32, .ro, 0⟩]⟩,
  ⟨0x40, 8, 0x8, .any, false, [⟨62, 2, .ro, 3⟩, ⟨58, 4, .ro, 0⟩, ⟨8, 24, .ro, 0⟩, ⟨0, 8, .ro, 0⟩]⟩,
  ⟨0x80, 1, 0x8, .any, false, [⟨63, 1, .wo, 0⟩, ⟨62, 1, .ro, 0⟩, ⟨61, 1, .ro, 0⟩, ⟨16, 8, .rw, 0⟩, ⟨8, 8, .rw, 0⟩]⟩,
  ⟨0x88, 1, 0x8, .any, false, [⟨0, 64, .ro, 0⟩]⟩]

/-! Block ROUTE: 13_trafort, R256. -/

def TRF_ROUTE (i : Nat) : Nat := 0x900000 + 0x8 * i
def TRF_ROUTE_VALID (i : Nat) : Fld := ⟨TRF_ROUTE i, 63, 1⟩
def TRF_ROUTE_COUNT (i : Nat) : Fld := ⟨TRF_ROUTE i, 16, 4⟩
def TRF_ROUTE_ALT3 (i : Nat) : Fld := ⟨TRF_ROUTE i, 12, 4⟩
def TRF_ROUTE_ALT2 (i : Nat) : Fld := ⟨TRF_ROUTE i, 8, 4⟩
def TRF_ROUTE_ALT1 (i : Nat) : Fld := ⟨TRF_ROUTE i, 4, 4⟩
def TRF_ROUTE_ALT0 (i : Nat) : Fld := ⟨TRF_ROUTE i, 0, 4⟩

def rowsROUTE : List RegRow := [
  ⟨0x0, 1, 0x8, .any, false, [⟨63, 1, .ro, 0⟩, ⟨16, 4, .ro, 0⟩, ⟨12, 4, .ro, 15⟩, ⟨8, 4, .ro, 15⟩, ⟨4, 4, .ro, 15⟩, ⟨0, 4, .ro, 15⟩]⟩]

/-! Block CLV: 14_collectives, R286. -/

def CLV_STATUS : Nat := 0x740000
def CLV_STATUS_GRP_BUSY : Fld := ⟨CLV_STATUS, 16, 12⟩
def CLV_STATUS_ENG_BUSY : Fld := ⟨CLV_STATUS, 0, 13⟩
def CLV_CFG : Nat := 0x740008
def CLV_CFG_TIMEOUT_US : Fld := ⟨CLV_CFG, 0, 32⟩
def CLV_CTR : Nat := 0x740010
def CLV_CTR_COMMITS : Fld := ⟨CLV_CTR, 32, 32⟩
def CLV_CTR_FAILS : Fld := ⟨CLV_CTR, 16, 16⟩
def CLV_CTR_TIMEOUTS : Fld := ⟨CLV_CTR, 8, 8⟩
def CLV_CTR_STALE : Fld := ⟨CLV_CTR, 0, 8⟩
def CLV_CTR_CLR : Nat := 0x740018
def CLV_CTR_CLR_CLEAR : Fld := ⟨CLV_CTR_CLR, 0, 1⟩

def rowsCLV : List RegRow := [
  ⟨0x0, 1, 0x8, .any, false, [⟨16, 12, .ro, 0⟩, ⟨0, 13, .ro, 0⟩]⟩,
  ⟨0x8, 1, 0x8, .owner, false, [⟨0, 32, .rw, 10000⟩]⟩,
  ⟨0x10, 1, 0x8, .any, false, [⟨32, 32, .ro, 0⟩, ⟨16, 16, .ro, 0⟩, ⟨8, 8, .ro, 0⟩, ⟨0, 8, .ro, 0⟩]⟩,
  ⟨0x18, 1, 0x8, .any, false, [⟨0, 1, .wo, 0⟩]⟩]

/-! Block CLVG: 14_collectives, R286. -/

def CLV_GRP_CFG (i : Nat) : Nat := 0x740100 + 0x10 * i
def CLV_GRP_CFG_VALID (i : Nat) : Fld := ⟨CLV_GRP_CFG i, 63, 1⟩
def CLV_GRP_CFG_TOPO (i : Nat) : Fld := ⟨CLV_GRP_CFG i, 62, 1⟩
def CLV_GRP_CFG_LAYOUT (i : Nat) : Fld := ⟨CLV_GRP_CFG i, 60, 2⟩
def CLV_GRP_CFG_NLAYOUTS (i : Nat) : Fld := ⟨CLV_GRP_CFG i, 58, 2⟩
def CLV_GRP_CFG_VC (i : Nat) : Fld := ⟨CLV_GRP_CFG i, 54, 4⟩
def CLV_GRP_CFG_TIMEOUT_TIDES (i : Nat) : Fld := ⟨CLV_GRP_CFG i, 42, 8⟩
def CLV_GRP_CFG_GROUP_ID (i : Nat) : Fld := ⟨CLV_GRP_CFG i, 26, 16⟩
def CLV_GRP_CFG_MEMBERS (i : Nat) : Fld := ⟨CLV_GRP_CFG i, 0, 17⟩
def CLV_GRP_MEMB (i : Nat) : Nat := 0x740108 + 0x10 * i
def CLV_GRP_MEMB_RANK (i : Nat) : Fld := ⟨CLV_GRP_MEMB i, 32, 32⟩
def CLV_GRP_MEMB_MEMBERS (i : Nat) : Fld := ⟨CLV_GRP_MEMB i, 0, 17⟩

def rowsCLVG : List RegRow := [
  ⟨0x0, 1, 0x8, .any, false, [⟨63, 1, .ro, 0⟩, ⟨62, 1, .ro, 0⟩, ⟨60, 2, .ro, 0⟩, ⟨58, 2, .ro, 0⟩, ⟨54, 4, .ro, 0⟩, ⟨42, 8, .ro, 4⟩, ⟨26, 16, .ro, 0⟩, ⟨0, 17, .ro, 0⟩]⟩,
  ⟨0x8, 1, 0x8, .any, false, [⟨32, 32, .ro, 0⟩, ⟨0, 17, .ro, 0⟩]⟩]

/-! Block CLVGD: 14_collectives, R286. -/

def CLV_GRP_DIG (i : Nat) (j : Nat) : Nat := 0x740800 + 0x80 * i + 0x8 * j
def CLV_GRP_DIG_SUM (i : Nat) (j : Nat) : Fld := ⟨CLV_GRP_DIG i j, 0, 64⟩

def rowsCLVGD : List RegRow := [
  ⟨0x0, 10, 0x8, .any, false, [⟨0, 64, .ro, 0⟩]⟩]

/-! Block CLVS: 14_collectives, R286. -/

def CLV_SLOT_CFG0 (i : Nat) : Nat := 0x741000 + 0x80 * i
def CLV_SLOT_CFG0_VALID (i : Nat) : Fld := ⟨CLV_SLOT_CFG0 i, 63, 1⟩
def CLV_SLOT_CFG0_KIND (i : Nat) : Fld := ⟨CLV_SLOT_CFG0 i, 60, 3⟩
def CLV_SLOT_CFG0_MODE (i : Nat) : Fld := ⟨CLV_SLOT_CFG0 i, 59, 1⟩
def CLV_SLOT_CFG0_FMT (i : Nat) : Fld := ⟨CLV_SLOT_CFG0 i, 57, 2⟩
def CLV_SLOT_CFG0_GROUP (i : Nat) : Fld := ⟨CLV_SLOT_CFG0 i, 53, 4⟩
def CLV_SLOT_CFG0_GROUP_ID (i : Nat) : Fld := ⟨CLV_SLOT_CFG0 i, 29, 16⟩
def CLV_SLOT_CFG0_N (i : Nat) : Fld := ⟨CLV_SLOT_CFG0 i, 0, 29⟩
def CLV_SLOT_CFG1 (i : Nat) : Nat := 0x741008 + 0x80 * i
def CLV_SLOT_CFG1_TAG (i : Nat) : Fld := ⟨CLV_SLOT_CFG1 i, 48, 16⟩
def CLV_SLOT_CFG1_L_PATCH (i : Nat) : Fld := ⟨CLV_SLOT_CFG1 i, 40, 8⟩
def CLV_SLOT_CFG1_L_GAUGE (i : Nat) : Fld := ⟨CLV_SLOT_CFG1 i, 34, 6⟩
def CLV_SLOT_CFG1_C_PATCH (i : Nat) : Fld := ⟨CLV_SLOT_CFG1 i, 26, 8⟩
def CLV_SLOT_CFG1_C_GAUGE (i : Nat) : Fld := ⟨CLV_SLOT_CFG1 i, 20, 6⟩
def CLV_SLOT_CFG1_C_INC (i : Nat) : Fld := ⟨CLV_SLOT_CFG1 i, 12, 8⟩
def CLV_SLOT_CFG1_STEP (i : Nat) : Fld := ⟨CLV_SLOT_CFG1 i, 0, 12⟩
def CLV_SLOT_SRC (i : Nat) : Nat := 0x741010 + 0x80 * i
def CLV_SLOT_SRC_ADDR (i : Nat) : Fld := ⟨CLV_SLOT_SRC i, 0, 64⟩
def CLV_SLOT_DST (i : Nat) : Nat := 0x741018 + 0x80 * i
def CLV_SLOT_DST_ADDR (i : Nat) : Fld := ⟨CLV_SLOT_DST i, 0, 64⟩
def CLV_SLOT_LINT (i : Nat) : Nat := 0x741020 + 0x80 * i
def CLV_SLOT_LINT_ADDR (i : Nat) : Fld := ⟨CLV_SLOT_LINT i, 0, 64⟩
def CLV_SLOT_STATUS (i : Nat) : Nat := 0x741028 + 0x80 * i
def CLV_SLOT_STATUS_INSTANCE (i : Nat) : Fld := ⟨CLV_SLOT_STATUS i, 40, 24⟩
def CLV_SLOT_STATUS_COMMITTED (i : Nat) : Fld := ⟨CLV_SLOT_STATUS i, 16, 24⟩
def CLV_SLOT_STATUS_LAST_STATUS (i : Nat) : Fld := ⟨CLV_SLOT_STATUS i, 8, 8⟩
def CLV_SLOT_STATUS_LOCAL_CAUSE (i : Nat) : Fld := ⟨CLV_SLOT_STATUS i, 0, 8⟩
def CLV_SLOT_DIG (i : Nat) (j : Nat) : Nat := 0x741030 + 0x80 * i + 0x8 * j
def CLV_SLOT_DIG_DIG (i : Nat) (j : Nat) : Fld := ⟨CLV_SLOT_DIG i j, 0, 64⟩

def rowsCLVS : List RegRow := [
  ⟨0x0, 1, 0x8, .any, false, [⟨63, 1, .ro, 0⟩, ⟨60, 3, .ro, 0⟩, ⟨59, 1, .ro, 0⟩, ⟨57, 2, .ro, 0⟩, ⟨53, 4, .ro, 0⟩, ⟨29, 16, .ro, 0⟩, ⟨0, 29, .ro, 0⟩]⟩,
  ⟨0x8, 1, 0x8, .any, false, [⟨48, 16, .ro, 0⟩, ⟨40, 8, .ro, 0⟩, ⟨34, 6, .ro, 0⟩, ⟨26, 8, .ro, 0⟩, ⟨20, 6, .ro, 0⟩, ⟨12, 8, .ro, 0⟩, ⟨0, 12, .ro, 0⟩]⟩,
  ⟨0x10, 1, 0x8, .any, false, [⟨0, 64, .ro, 0⟩]⟩,
  ⟨0x18, 1, 0x8, .any, false, [⟨0, 64, .ro, 0⟩]⟩,
  ⟨0x20, 1, 0x8, .any, false, [⟨0, 64, .ro, 0⟩]⟩,
  ⟨0x28, 1, 0x8, .any, false, [⟨40, 24, .ro, 0⟩, ⟨16, 24, .ro, 0⟩, ⟨8, 8, .ro, 0⟩, ⟨0, 8, .ro, 0⟩]⟩,
  ⟨0x30, 10, 0x8, .any, false, [⟨0, 64, .ro, 0⟩]⟩]

/-! Block CLVSS: 15_state, R299. -/

def CLV_SS_CFG0 (i : Nat) : Nat := 0x74A000 + 0x100 * i
def CLV_SS_CFG0_VALID (i : Nat) : Fld := ⟨CLV_SS_CFG0 i, 63, 1⟩
def CLV_SS_CFG0_MODE (i : Nat) : Fld := ⟨CLV_SS_CFG0 i, 62, 1⟩
def CLV_SS_CFG0_SCOPE (i : Nat) : Fld := ⟨CLV_SS_CFG0 i, 61, 1⟩
def CLV_SS_CFG0_POLICY (i : Nat) : Fld := ⟨CLV_SS_CFG0 i, 60, 1⟩
def CLV_SS_CFG0_GROUP (i : Nat) : Fld := ⟨CLV_SS_CFG0 i, 56, 4⟩
def CLV_SS_CFG0_WFMT (i : Nat) : Fld := ⟨CLV_SS_CFG0 i, 52, 4⟩
def CLV_SS_CFG0_TENSOR (i : Nat) : Fld := ⟨CLV_SS_CFG0 i, 32, 16⟩
def CLV_SS_CFG0_OWN_SHARD (i : Nat) : Fld := ⟨CLV_SS_CFG0 i, 0, 32⟩
def CLV_SS_PUB (i : Nat) : Nat := 0x74A008 + 0x100 * i
def CLV_SS_PUB_TAG (i : Nat) : Fld := ⟨CLV_SS_PUB i, 48, 16⟩
def CLV_SS_PUB_L_PATCH (i : Nat) : Fld := ⟨CLV_SS_PUB i, 40, 8⟩
def CLV_SS_PUB_L_GAUGE (i : Nat) : Fld := ⟨CLV_SS_PUB i, 34, 6⟩
def CLV_SS_PUB_C_PATCH (i : Nat) : Fld := ⟨CLV_SS_PUB i, 26, 8⟩
def CLV_SS_PUB_C_GAUGE (i : Nat) : Fld := ⟨CLV_SS_PUB i, 20, 6⟩
def CLV_SS_PUB_C_INC (i : Nat) : Fld := ⟨CLV_SS_PUB i, 12, 8⟩
def CLV_SS_PUB_STEP (i : Nat) : Fld := ⟨CLV_SS_PUB i, 0, 12⟩
def CLV_SS_FET (i : Nat) : Nat := 0x74A010 + 0x100 * i
def CLV_SS_FET_TAG (i : Nat) : Fld := ⟨CLV_SS_FET i, 48, 16⟩
def CLV_SS_FET_L_PATCH (i : Nat) : Fld := ⟨CLV_SS_FET i, 40, 8⟩
def CLV_SS_FET_L_GAUGE (i : Nat) : Fld := ⟨CLV_SS_FET i, 34, 6⟩
def CLV_SS_FET_C_PATCH (i : Nat) : Fld := ⟨CLV_SS_FET i, 26, 8⟩
def CLV_SS_FET_C_GAUGE (i : Nat) : Fld := ⟨CLV_SS_FET i, 20, 6⟩
def CLV_SS_FET_C_INC (i : Nat) : Fld := ⟨CLV_SS_FET i, 12, 8⟩
def CLV_SS_FET_STEP (i : Nat) : Fld := ⟨CLV_SS_FET i, 0, 12⟩
def CLV_SS_CHK (i : Nat) : Nat := 0x74A018 + 0x100 * i
def CLV_SS_CHK_TAG (i : Nat) : Fld := ⟨CLV_SS_CHK i, 48, 16⟩
def CLV_SS_CHK_L_PATCH (i : Nat) : Fld := ⟨CLV_SS_CHK i, 40, 8⟩
def CLV_SS_CHK_L_GAUGE (i : Nat) : Fld := ⟨CLV_SS_CHK i, 34, 6⟩
def CLV_SS_CHK_C_PATCH (i : Nat) : Fld := ⟨CLV_SS_CHK i, 26, 8⟩
def CLV_SS_CHK_C_GAUGE (i : Nat) : Fld := ⟨CLV_SS_CHK i, 20, 6⟩
def CLV_SS_CHK_C_INC (i : Nat) : Fld := ⟨CLV_SS_CHK i, 12, 8⟩
def CLV_SS_CHK_STEP (i : Nat) : Fld := ⟨CLV_SS_CHK i, 0, 12⟩
def CLV_SS_P (i : Nat) : Nat := 0x74A020 + 0x100 * i
def CLV_SS_P_P (i : Nat) : Fld := ⟨CLV_SS_P i, 0, 41⟩
def CLV_SS_ADDR (i : Nat) (j : Nat) : Nat := 0x74A028 + 0x100 * i + 0x8 * j
def CLV_SS_ADDR_ADDR (i : Nat) (j : Nat) : Fld := ⟨CLV_SS_ADDR i j, 0, 64⟩
def CLV_SS_STATUS (i : Nat) : Nat := 0x74A068 + 0x100 * i
def CLV_SS_STATUS_INSTANCE (i : Nat) : Fld := ⟨CLV_SS_STATUS i, 40, 24⟩
def CLV_SS_STATUS_FIRST_SHARD (i : Nat) : Fld := ⟨CLV_SS_STATUS i, 16, 24⟩
def CLV_SS_STATUS_OP (i : Nat) : Fld := ⟨CLV_SS_STATUS i, 14, 2⟩
def CLV_SS_STATUS_CAUSE (i : Nat) : Fld := ⟨CLV_SS_STATUS i, 11, 3⟩
def CLV_SS_STATUS_LAST_STATUS (i : Nat) : Fld := ⟨CLV_SS_STATUS i, 0, 8⟩
def CLV_SS_CTR (i : Nat) : Nat := 0x74A070 + 0x100 * i
def CLV_SS_CTR_REFETCHES (i : Nat) : Fld := ⟨CLV_SS_CTR i, 40, 24⟩
def CLV_SS_CTR_FAILED_SHARDS (i : Nat) : Fld := ⟨CLV_SS_CTR i, 24, 16⟩
def CLV_SS_CTR_CHECK_DIFFS (i : Nat) : Fld := ⟨CLV_SS_CTR i, 8, 16⟩
def CLV_SS_CTR_REPAIRED (i : Nat) : Fld := ⟨CLV_SS_CTR i, 0, 8⟩
def CLV_SS_CHK_RES (i : Nat) : Nat := 0x74A078 + 0x100 * i
def CLV_SS_CHK_RES_DIFF (i : Nat) : Fld := ⟨CLV_SS_CHK_RES i, 32, 32⟩
def CLV_SS_CHK_RES_FIRST (i : Nat) : Fld := ⟨CLV_SS_CHK_RES i, 0, 32⟩

def rowsCLVSS : List RegRow := [
  ⟨0x0, 1, 0x8, .any, false, [⟨63, 1, .ro, 0⟩, ⟨62, 1, .ro, 0⟩, ⟨61, 1, .ro, 0⟩, ⟨60, 1, .ro, 0⟩, ⟨56, 4, .ro, 0⟩, ⟨52, 4, .ro, 0⟩, ⟨32, 16, .ro, 0⟩, ⟨0, 32, .ro, 0⟩]⟩,
  ⟨0x8, 1, 0x8, .any, false, [⟨48, 16, .ro, 0⟩, ⟨40, 8, .ro, 0⟩, ⟨34, 6, .ro, 0⟩, ⟨26, 8, .ro, 0⟩, ⟨20, 6, .ro, 0⟩, ⟨12, 8, .ro, 0⟩, ⟨0, 12, .ro, 0⟩]⟩,
  ⟨0x10, 1, 0x8, .any, false, [⟨48, 16, .ro, 0⟩, ⟨40, 8, .ro, 0⟩, ⟨34, 6, .ro, 0⟩, ⟨26, 8, .ro, 0⟩, ⟨20, 6, .ro, 0⟩, ⟨12, 8, .ro, 0⟩, ⟨0, 12, .ro, 0⟩]⟩,
  ⟨0x18, 1, 0x8, .any, false, [⟨48, 16, .ro, 0⟩, ⟨40, 8, .ro, 0⟩, ⟨34, 6, .ro, 0⟩, ⟨26, 8, .ro, 0⟩, ⟨20, 6, .ro, 0⟩, ⟨12, 8, .ro, 0⟩, ⟨0, 12, .ro, 0⟩]⟩,
  ⟨0x20, 1, 0x8, .any, false, [⟨0, 41, .ro, 0⟩]⟩,
  ⟨0x28, 8, 0x8, .any, false, [⟨0, 64, .ro, 0⟩]⟩,
  ⟨0x68, 1, 0x8, .any, false, [⟨40, 24, .ro, 0⟩, ⟨16, 24, .ro, 0⟩, ⟨14, 2, .ro, 0⟩, ⟨11, 3, .ro, 0⟩, ⟨0, 8, .ro, 0⟩]⟩,
  ⟨0x70, 1, 0x8, .any, false, [⟨40, 24, .ro, 0⟩, ⟨24, 16, .ro, 0⟩, ⟨8, 16, .ro, 0⟩, ⟨0, 8, .ro, 0⟩]⟩,
  ⟨0x78, 1, 0x8, .any, false, [⟨32, 32, .ro, 0⟩, ⟨0, 32, .ro, 0⟩]⟩]

/-! Block SLC: 16_sluices, R310. -/

def SLC_PINSEL : Nat := 0x750000
def SLC_PINSEL_SEL : Fld := ⟨SLC_PINSEL, 0, 6⟩
def SLC_PIN_STATUS : Nat := 0x750008
def SLC_PIN_STATUS_FLOW_LO : Fld := ⟨SLC_PIN_STATUS, 1, 1⟩
def SLC_PIN_STATUS_FLOW_HI : Fld := ⟨SLC_PIN_STATUS, 0, 1⟩
def SLC_CTR_CLR : Nat := 0x750010
def SLC_CTR_CLR_CLEAR : Fld := ⟨SLC_CTR_CLR, 0, 1⟩

def rowsSLC : List RegRow := [
  ⟨0x0, 1, 0x8, .owner, false, [⟨0, 6, .rw, 3⟩]⟩,
  ⟨0x8, 1, 0x8, .any, true, [⟨1, 1, .ro, 0⟩, ⟨0, 1, .ro, 0⟩]⟩,
  ⟨0x10, 1, 0x8, .any, false, [⟨0, 1, .wo, 0⟩]⟩]

/-! Block SLCI: 16_sluices, R310. -/

def SLC_STATUS (i : Nat) : Nat := 0x750100 + 0x20 * i
def SLC_STATUS_HI (i : Nat) : Fld := ⟨SLC_STATUS i, 63, 1⟩
def SLC_STATUS_LO (i : Nat) : Fld := ⟨SLC_STATUS i, 62, 1⟩
def SLC_STATUS_MARK_HELD (i : Nat) : Fld := ⟨SLC_STATUS i, 61, 1⟩
def SLC_STATUS_DROPPED (i : Nat) : Fld := ⟨SLC_STATUS i, 60, 1⟩
def SLC_STATUS_CAP_LOG2 (i : Nat) : Fld := ⟨SLC_STATUS i, 56, 4⟩
def SLC_STATUS_OCC (i : Nat) : Fld := ⟨SLC_STATUS i, 39, 13⟩
def SLC_STATUS_AVAIL (i : Nat) : Fld := ⟨SLC_STATUS i, 26, 13⟩
def SLC_STATUS_HELD (i : Nat) : Fld := ⟨SLC_STATUS i, 13, 13⟩
def SLC_STATUS_CREDITS (i : Nat) : Fld := ⟨SLC_STATUS i, 0, 13⟩
def SLC_WM (i : Nat) : Nat := 0x750108 + 0x20 * i
def SLC_WM_HI_SET (i : Nat) : Fld := ⟨SLC_WM i, 39, 13⟩
def SLC_WM_HI_CLR (i : Nat) : Fld := ⟨SLC_WM i, 26, 13⟩
def SLC_WM_LO_CLR (i : Nat) : Fld := ⟨SLC_WM i, 13, 13⟩
def SLC_WM_LO_SET (i : Nat) : Fld := ⟨SLC_WM i, 0, 13⟩
def SLC_CTR (i : Nat) : Nat := 0x750110 + 0x20 * i
def SLC_CTR_REWINDS (i : Nat) : Fld := ⟨SLC_CTR i, 40, 24⟩
def SLC_CTR_DROPS (i : Nat) : Fld := ⟨SLC_CTR i, 24, 16⟩
def SLC_CTR_DISCARDED (i : Nat) : Fld := ⟨SLC_CTR i, 8, 16⟩
def SLC_CTR_WM_CHANGES (i : Nat) : Fld := ⟨SLC_CTR i, 4, 4⟩
def SLC_CTR_BAD_OPS (i : Nat) : Fld := ⟨SLC_CTR i, 0, 4⟩

def rowsSLCI : List RegRow := [
  ⟨0x0, 1, 0x8, .any, true, [⟨63, 1, .ro, 0⟩, ⟨62, 1, .ro, 1⟩, ⟨61, 1, .ro, 0⟩, ⟨60, 1, .w1c, 0⟩, ⟨56, 4, .ro, 0⟩, ⟨39, 13, .ro, 0⟩, ⟨26, 13, .ro, 0⟩, ⟨13, 13, .ro, 0⟩, ⟨0, 13, .ro, 0⟩]⟩,
  ⟨0x8, 1, 0x8, .owner, false, [⟨39, 13, .rw, 0⟩, ⟨26, 13, .rw, 0⟩, ⟨13, 13, .rw, 0⟩, ⟨0, 13, .rw, 0⟩]⟩,
  ⟨0x10, 1, 0x8, .any, false, [⟨40, 24, .ro, 0⟩, ⟨24, 16, .ro, 0⟩, ⟨8, 16, .ro, 0⟩, ⟨4, 4, .ro, 0⟩, ⟨0, 4, .ro, 0⟩]⟩]

/-! Block HIF: 17_pcie, R323. -/

def HIF_LINK (i : Nat) : Nat := 0x760000 + 0x400 * i
def HIF_LINK_LINK_UPS (i : Nat) : Fld := ⟨HIF_LINK i, 24, 8⟩
def HIF_LINK_IDE_FAIL (i : Nat) : Fld := ⟨HIF_LINK i, 23, 1⟩
def HIF_LINK_IDE_SECURE (i : Nat) : Fld := ⟨HIF_LINK i, 20, 3⟩
def HIF_LINK_DSTATE (i : Nat) : Fld := ⟨HIF_LINK i, 18, 2⟩
def HIF_LINK_L0P_WIDTH (i : Nat) : Fld := ⟨HIF_LINK i, 14, 4⟩
def HIF_LINK_FLIT (i : Nat) : Fld := ⟨HIF_LINK i, 13, 1⟩
def HIF_LINK_WIDTH (i : Nat) : Fld := ⟨HIF_LINK i, 9, 4⟩
def HIF_LINK_RATE (i : Nat) : Fld := ⟨HIF_LINK i, 6, 3⟩
def HIF_LINK_UP (i : Nat) : Fld := ⟨HIF_LINK i, 0, 1⟩
def HIF_PORT_CFG (i : Nat) : Nat := 0x760008 + 0x400 * i
def HIF_PORT_CFG_IDE_REQUIRED (i : Nat) : Fld := ⟨HIF_PORT_CFG i, 0, 1⟩
def HIF_BAR2_BASE (i : Nat) : Nat := 0x760010 + 0x400 * i
def HIF_BAR2_BASE_BASE (i : Nat) : Fld := ⟨HIF_BAR2_BASE i, 30, 34⟩
def HIF_BAR2_ERR_ADDR (i : Nat) : Nat := 0x760018 + 0x400 * i
def HIF_BAR2_ERR_ADDR_ADDR (i : Nat) : Fld := ⟨HIF_BAR2_ERR_ADDR i, 0, 64⟩
def HIF_BAR2_ERR (i : Nat) : Nat := 0x760020 + 0x400 * i
def HIF_BAR2_ERR_VALID (i : Nat) : Fld := ⟨HIF_BAR2_ERR i, 63, 1⟩
def HIF_BAR2_ERR_WRITE (i : Nat) : Fld := ⟨HIF_BAR2_ERR i, 48, 1⟩
def HIF_BAR2_ERR_STATUS (i : Nat) : Fld := ⟨HIF_BAR2_ERR i, 40, 8⟩
def HIF_BAR2_ERR_LENGTH (i : Nat) : Fld := ⟨HIF_BAR2_ERR i, 0, 13⟩
def HIF_EVENT (i : Nat) : Nat := 0x760028 + 0x400 * i
def HIF_EVENT_BITS (i : Nat) : Fld := ⟨HIF_EVENT i, 0, 28⟩
def HIF_PORT_CTR (i : Nat) : Nat := 0x760030 + 0x400 * i
def HIF_PORT_CTR_UR (i : Nat) : Fld := ⟨HIF_PORT_CTR i, 32, 32⟩
def HIF_PORT_CTR_CA (i : Nat) : Fld := ⟨HIF_PORT_CTR i, 16, 16⟩
def HIF_PORT_CTR_BAD_INGEST (i : Nat) : Fld := ⟨HIF_PORT_CTR i, 0, 16⟩
def HIF_CTR_CLR (i : Nat) : Nat := 0x760038 + 0x400 * i
def HIF_CTR_CLR_CLEAR (i : Nat) : Fld := ⟨HIF_CTR_CLR i, 0, 1⟩

def rowsHIF : List RegRow := [
  ⟨0x0, 1, 0x8, .any, false, [⟨24, 8, .ro, 0⟩, ⟨23, 1, .w1c, 0⟩, ⟨20, 3, .ro, 0⟩, ⟨18, 2, .ro, 0⟩, ⟨14, 4, .ro, 0⟩, ⟨13, 1, .ro, 0⟩, ⟨9, 4, .ro, 0⟩, ⟨6, 3, .ro, 0⟩, ⟨0, 1, .ro, 0⟩]⟩,
  ⟨0x8, 1, 0x8, .owner, false, [⟨0, 1, .rws, 0⟩]⟩,
  ⟨0x10, 1, 0x8, .port, false, [⟨30, 34, .rw, 0⟩]⟩,
  ⟨0x18, 1, 0x8, .any, false, [⟨0, 64, .ro, 0⟩]⟩,
  ⟨0x20, 1, 0x8, .any, false, [⟨63, 1, .w1c, 0⟩, ⟨48, 1, .ro, 0⟩, ⟨40, 8, .ro, 0⟩, ⟨0, 13, .ro, 0⟩]⟩,
  ⟨0x28, 1, 0x8, .any, false, [⟨0, 28, .w1c, 0⟩]⟩,
  ⟨0x30, 1, 0x8, .any, false, [⟨32, 32, .ro, 0⟩, ⟨16, 16, .ro, 0⟩, ⟨0, 16, .ro, 0⟩]⟩,
  ⟨0x38, 1, 0x8, .any, false, [⟨0, 1, .wo, 0⟩]⟩]

/-! Block WHO: 17_pcie, R316. -/

def HIF_WHOAMI : Nat := 0x760800
def HIF_WHOAMI_PORT : Fld := ⟨HIF_WHOAMI, 0, 1⟩

def rowsWHO : List RegRow := [
  ⟨0x0, 1, 0x8, .any, true, [⟨0, 1, .ro, 0⟩]⟩]

/-! Block RING: 18_host_protocol, R349. -/

def HIF_RING_DBASE (i : Nat) : Nat := 0x770000 + 0x100 * i
def HIF_RING_DBASE_ADDR (i : Nat) : Fld := ⟨HIF_RING_DBASE i, 12, 52⟩
def HIF_RING_CBASE (i : Nat) : Nat := 0x770008 + 0x100 * i
def HIF_RING_CBASE_ADDR (i : Nat) : Fld := ⟨HIF_RING_CBASE i, 12, 52⟩
def HIF_RING_CFG (i : Nat) : Nat := 0x770010 + 0x100 * i
def HIF_RING_CFG_LOG2 (i : Nat) : Fld := ⟨HIF_RING_CFG i, 32, 5⟩
def HIF_RING_CFG_MOD_TIME (i : Nat) : Fld := ⟨HIF_RING_CFG i, 16, 16⟩
def HIF_RING_CFG_MOD_COUNT (i : Nat) : Fld := ⟨HIF_RING_CFG i, 0, 8⟩
def HIF_RING_CTL (i : Nat) : Nat := 0x770018 + 0x100 * i
def HIF_RING_CTL_DISABLE (i : Nat) : Fld := ⟨HIF_RING_CTL i, 3, 1⟩
def HIF_RING_CTL_STOP (i : Nat) : Fld := ⟨HIF_RING_CTL i, 2, 1⟩
def HIF_RING_CTL_RESUME (i : Nat) : Fld := ⟨HIF_RING_CTL i, 1, 1⟩
def HIF_RING_CTL_ENABLE (i : Nat) : Fld := ⟨HIF_RING_CTL i, 0, 1⟩
def HIF_RING_STATUS (i : Nat) : Nat := 0x770020 + 0x100 * i
def HIF_RING_STATUS_STATE (i : Nat) : Fld := ⟨HIF_RING_STATUS i, 62, 2⟩
def HIF_RING_STATUS_ERR (i : Nat) : Fld := ⟨HIF_RING_STATUS i, 48, 8⟩
def HIF_RING_STATUS_INFLIGHT (i : Nat) : Fld := ⟨HIF_RING_STATUS i, 32, 7⟩
def HIF_RING_STATUS_ERR_SEQ (i : Nat) : Fld := ⟨HIF_RING_STATUS i, 0, 32⟩
def HIF_RING_SEQ (i : Nat) : Nat := 0x770028 + 0x100 * i
def HIF_RING_SEQ_LAST_RECV (i : Nat) : Fld := ⟨HIF_RING_SEQ i, 32, 32⟩
def HIF_RING_SEQ_LAST_DONE (i : Nat) : Fld := ⟨HIF_RING_SEQ i, 0, 32⟩
def HIF_RING_START (i : Nat) : Nat := 0x770030 + 0x100 * i
def HIF_RING_START_START_SEQ (i : Nat) : Fld := ⟨HIF_RING_START i, 0, 32⟩
def HIF_RING_CTR (i : Nat) : Nat := 0x770038 + 0x100 * i
def HIF_RING_CTR_COMMANDS (i : Nat) : Fld := ⟨HIF_RING_CTR i, 32, 32⟩
def HIF_RING_CTR_ABORTED (i : Nat) : Fld := ⟨HIF_RING_CTR i, 16, 16⟩
def HIF_RING_CTR_STALE_DB (i : Nat) : Fld := ⟨HIF_RING_CTR i, 0, 16⟩

def rowsRING : List RegRow := [
  ⟨0x0, 1, 0x8, .port, false, [⟨12, 52, .rw, 0⟩]⟩,
  ⟨0x8, 1, 0x8, .port, false, [⟨12, 52, .rw, 0⟩]⟩,
  ⟨0x10, 1, 0x8, .port, false, [⟨32, 5, .rw, 4⟩, ⟨16, 16, .rw, 0⟩, ⟨0, 8, .rw, 1⟩]⟩,
  ⟨0x18, 1, 0x8, .port, false, [⟨3, 1, .wo, 0⟩, ⟨2, 1, .wo, 0⟩, ⟨1, 1, .wo, 0⟩, ⟨0, 1, .wo, 0⟩]⟩,
  ⟨0x20, 1, 0x8, .any, false, [⟨62, 2, .ro, 0⟩, ⟨48, 8, .ro, 0⟩, ⟨32, 7, .ro, 0⟩, ⟨0, 32, .ro, 0⟩]⟩,
  ⟨0x28, 1, 0x8, .any, false, [⟨32, 32, .ro, 4294967295⟩, ⟨0, 32, .ro, 4294967295⟩]⟩,
  ⟨0x30, 1, 0x8, .port, false, [⟨0, 32, .rw, 0⟩]⟩,
  ⟨0x38, 1, 0x8, .any, false, [⟨32, 32, .ro, 0⟩, ⟨16, 16, .ro, 0⟩, ⟨0, 16, .ro, 0⟩]⟩]

/-! Block HIFC: 18_host_protocol, R345. -/

def HIF_CTRL : Nat := 0x772000
def HIF_CTRL_OFFER_B : Fld := ⟨HIF_CTRL, 5, 1⟩
def HIF_CTRL_OFFER_A : Fld := ⟨HIF_CTRL, 4, 1⟩
def HIF_CTRL_STRAP : Fld := ⟨HIF_CTRL, 1, 1⟩
def HIF_CTRL_OWNER : Fld := ⟨HIF_CTRL, 0, 1⟩

def rowsHIFC : List RegRow := [
  ⟨0x0, 1, 0x8, .any, false, [⟨5, 1, .ro, 0⟩, ⟨4, 1, .ro, 0⟩, ⟨1, 1, .ro, 0⟩, ⟨0, 1, .ro, 0⟩]⟩]

/-! Block INGEST: 18_host_protocol, R343. -/

def HIF_INGEST_BASE (i : Nat) : Nat := 0x772100 + 0x40 * i
def HIF_INGEST_BASE_BASE (i : Nat) : Fld := ⟨HIF_INGEST_BASE i, 0, 64⟩
def HIF_INGEST_CFG (i : Nat) : Nat := 0x772108 + 0x40 * i
def HIF_INGEST_CFG_VALID (i : Nat) : Fld := ⟨HIF_INGEST_CFG i, 7, 1⟩
def HIF_INGEST_CFG_LOG2 (i : Nat) : Fld := ⟨HIF_INGEST_CFG i, 0, 5⟩
def HIF_INGEST_STATUS (i : Nat) : Nat := 0x772110 + 0x40 * i
def HIF_INGEST_STATUS_ERR (i : Nat) : Fld := ⟨HIF_INGEST_STATUS i, 56, 8⟩
def HIF_INGEST_STATUS_DELIVERED (i : Nat) : Fld := ⟨HIF_INGEST_STATUS i, 0, 56⟩

def rowsINGEST : List RegRow := [
  ⟨0x0, 1, 0x8, .any, false, [⟨0, 64, .ro, 0⟩]⟩,
  ⟨0x8, 1, 0x8, .any, false, [⟨7, 1, .ro, 0⟩, ⟨0, 5, .ro, 0⟩]⟩,
  ⟨0x10, 1, 0x8, .any, false, [⟨56, 8, .ro, 0⟩, ⟨0, 56, .ro, 0⟩]⟩]

/-! Block HIST: 18_host_protocol, R349. -/

def HIF_CMPL_HIST (i : Nat) (j : Nat) : Nat := 0x780000 + 0x20 * i + 0x8 * j
def HIF_CMPL_HIST_WORD (i : Nat) (j : Nat) : Fld := ⟨HIF_CMPL_HIST i j, 0, 64⟩

def rowsHIST : List RegRow := [
  ⟨0x0, 4, 0x8, .any, false, [⟨0, 64, .ro, 0⟩]⟩]

/-! Block PWR: 19_power, R370. -/

def PWR_STATUS : Nat := 0x790000
def PWR_STATUS_STATE : Fld := ⟨PWR_STATUS, 62, 2⟩
def PWR_STATUS_MODE : Fld := ⟨PWR_STATUS, 61, 1⟩
def PWR_STATUS_FLOOR : Fld := ⟨PWR_STATUS, 60, 1⟩
def PWR_STATUS_COOL_SEEN : Fld := ⟨PWR_STATUS, 59, 1⟩
def PWR_STATUS_POOL : Fld := ⟨PWR_STATUS, 58, 1⟩
def PWR_STATUS_POOL_PATCH : Fld := ⟨PWR_STATUS, 40, 8⟩
def PWR_STATUS_SLOT : Fld := ⟨PWR_STATUS, 0, 6⟩
def PWR_CAP : Nat := 0x790008
def PWR_CAP_EFFECTIVE : Fld := ⟨PWR_CAP, 48, 16⟩
def PWR_CAP_HOST : Fld := ⟨PWR_CAP, 32, 16⟩
def PWR_CAP_RACK : Fld := ⟨PWR_CAP, 16, 16⟩
def PWR_CAP_SHIFT : Fld := ⟨PWR_CAP, 0, 16⟩
def PWR_RESERVE : Nat := 0x790010
def PWR_RESERVE_CARRIER : Fld := ⟨PWR_RESERVE, 48, 16⟩
def PWR_RESERVE_CORE : Fld := ⟨PWR_RESERVE, 32, 16⟩
def PWR_RESERVE_MEMORY : Fld := ⟨PWR_RESERVE, 16, 16⟩
def PWR_RESERVE_LINK : Fld := ⟨PWR_RESERVE, 0, 16⟩
def PWR_MEAS : Nat := 0x790018
def PWR_MEAS_LINK : Fld := ⟨PWR_MEAS, 48, 16⟩
def PWR_MEAS_MEMORY : Fld := ⟨PWR_MEAS, 32, 16⟩
def PWR_MEAS_COMPUTE : Fld := ⟨PWR_MEAS, 16, 16⟩
def PWR_MEAS_TOTAL : Fld := ⟨PWR_MEAS, 0, 16⟩
def PWR_DEBT : Nat := 0x790020
def PWR_DEBT_MJ : Fld := ⟨PWR_DEBT, 0, 32⟩
def PWR_POLDER_ON : Nat := 0x790028
def PWR_POLDER_ON_ON : Fld := ⟨PWR_POLDER_ON, 0, 64⟩
def PWR_POLDER_ON_HI : Nat := 0x790030
def PWR_POLDER_ON_HI_ON : Fld := ⟨PWR_POLDER_ON_HI, 0, 16⟩
def PWR_POLDER_OFF : Nat := 0x790038
def PWR_POLDER_OFF_OFF : Fld := ⟨PWR_POLDER_OFF, 0, 64⟩
def PWR_POLDER_OFF_HI : Nat := 0x790040
def PWR_POLDER_OFF_HI_OFF : Fld := ⟨PWR_POLDER_OFF_HI, 0, 15⟩
def PWR_WARDEN : Nat := 0x790048
def PWR_WARDEN_TRAINED : Fld := ⟨PWR_WARDEN, 63, 1⟩
def PWR_WARDEN_SLOTS : Fld := ⟨PWR_WARDEN, 8, 8⟩
def PWR_WARDEN_ALPHA : Fld := ⟨PWR_WARDEN, 0, 3⟩
def PWR_SHIFT_CFG : Nat := 0x790050
def PWR_SHIFT_CFG_GAP : Fld := ⟨PWR_SHIFT_CFG, 32, 16⟩
def PWR_SHIFT_CFG_INTERVAL : Fld := ⟨PWR_SHIFT_CFG, 16, 16⟩
def PWR_SHIFT_CFG_DELTA : Fld := ⟨PWR_SHIFT_CFG, 0, 16⟩
def PWR_SLACK : Nat := 0x790058
def PWR_SLACK_MEAN : Fld := ⟨PWR_SLACK, 32, 32⟩
def PWR_SLACK_LAST : Fld := ⟨PWR_SLACK, 0, 32⟩
def PWR_CTR : Nat := 0x790060
def PWR_CTR_CEILING_TIDES : Fld := ⟨PWR_CTR, 32, 32⟩
def PWR_CTR_SHIFTS : Fld := ⟨PWR_CTR, 24, 8⟩
def PWR_CTR_BAD_REQ : Fld := ⟨PWR_CTR, 16, 8⟩
def PWR_CTR_STEPS_UP : Fld := ⟨PWR_CTR, 8, 8⟩
def PWR_CTR_STEPS_DOWN : Fld := ⟨PWR_CTR, 0, 8⟩
def PWR_CTR_CLR : Nat := 0x790068
def PWR_CTR_CLR_CLEAR : Fld := ⟨PWR_CTR_CLR, 0, 1⟩
def PWR_RGN (j : Nat) : Nat := 0x790100 + 0x8 * j
def PWR_RGN_STEP (j : Nat) : Fld := ⟨PWR_RGN j, 60, 4⟩
def PWR_RGN_GOV_STEP (j : Nat) : Fld := ⟨PWR_RGN j, 56, 4⟩
def PWR_RGN_THM_STEP (j : Nat) : Fld := ⟨PWR_RGN j, 52, 4⟩
def PWR_RGN_NEED (j : Nat) : Fld := ⟨PWR_RGN j, 32, 16⟩
def PWR_RGN_ENERGY (j : Nat) : Fld := ⟨PWR_RGN j, 0, 32⟩

def rowsPWR : List RegRow := [
  ⟨0x0, 1, 0x8, .any, false, [⟨62, 2, .ro, 0⟩, ⟨61, 1, .ro, 1⟩, ⟨60, 1, .ro, 0⟩, ⟨59, 1, .w1c, 0⟩, ⟨58, 1, .ro, 0⟩, ⟨40, 8, .ro, 0⟩, ⟨0, 6, .ro, 0⟩]⟩,
  ⟨0x8, 1, 0x8, .any, false, [⟨48, 16, .ro, 2600⟩, ⟨32, 16, .ro, 2600⟩, ⟨16, 16, .ro, 2600⟩, ⟨0, 16, .ro, 0⟩]⟩,
  ⟨0x10, 1, 0x8, .any, false, [⟨48, 16, .ro, 0⟩, ⟨32, 16, .ro, 0⟩, ⟨16, 16, .ro, 0⟩, ⟨0, 16, .ro, 0⟩]⟩,
  ⟨0x18, 1, 0x8, .any, false, [⟨48, 16, .ro, 0⟩, ⟨32, 16, .ro, 0⟩, ⟨16, 16, .ro, 0⟩, ⟨0, 16, .ro, 0⟩]⟩,
  ⟨0x20, 1, 0x8, .any, false, [⟨0, 32, .ro, 0⟩]⟩,
  ⟨0x28, 1, 0x8, .any, false, [⟨0, 64, .ro, 0⟩]⟩,
  ⟨0x30, 1, 0x8, .any, false, [⟨0, 16, .ro, 0⟩]⟩,
  ⟨0x38, 1, 0x8, .owner, false, [⟨0, 64, .rw, 0⟩]⟩,
  ⟨0x40, 1, 0x8, .owner, false, [⟨0, 15, .rw, 0⟩]⟩,
  ⟨0x48, 1, 0x8, .any, false, [⟨63, 1, .ro, 0⟩, ⟨8, 8, .ro, 1⟩, ⟨0, 3, .rw, 3⟩]⟩,
  ⟨0x50, 1, 0x8, .owner, false, [⟨32, 16, .rw, 10⟩, ⟨16, 16, .rw, 16⟩, ⟨0, 16, .rw, 25⟩]⟩,
  ⟨0x58, 1, 0x8, .any, false, [⟨32, 32, .ro, 0⟩, ⟨0, 32, .ro, 0⟩]⟩,
  ⟨0x60, 1, 0x8, .any, false, [⟨32, 32, .ro, 0⟩, ⟨24, 8, .ro, 0⟩, ⟨16, 8, .ro, 0⟩, ⟨8, 8, .ro, 0⟩, ⟨0, 8, .ro, 0⟩]⟩,
  ⟨0x68, 1, 0x8, .any, false, [⟨0, 1, .wo, 0⟩]⟩,
  ⟨0x100, 64, 0x8, .any, false, [⟨60, 4, .ro, 8⟩, ⟨56, 4, .ro, 8⟩, ⟨52, 4, .ro, 8⟩, ⟨32, 16, .ro, 0⟩, ⟨0, 32, .ro, 0⟩]⟩]

/-! Block THM: 20_thermal, R385. -/

def THM_STATUS : Nat := 0x7A0000
def THM_STATUS_DIE_MAX : Fld := ⟨THM_STATUS, 56, 8⟩
def THM_STATUS_DIE_MAX_RGN : Fld := ⟨THM_STATUS, 48, 8⟩
def THM_STATUS_MEM_MAX : Fld := ⟨THM_STATUS, 40, 8⟩
def THM_STATUS_MEM_MAX_RGN : Fld := ⟨THM_STATUS, 32, 8⟩
def THM_STATUS_TRIP_SEEN : Fld := ⟨THM_STATUS, 1, 1⟩
def THM_STATUS_SUSPECT_SEEN : Fld := ⟨THM_STATUS, 0, 1⟩
def THM_SENSOR_SUSPECT : Nat := 0x7A0008
def THM_SENSOR_SUSPECT_BITS : Fld := ⟨THM_SENSOR_SUSPECT, 0, 64⟩
def THM_TRIPPED : Nat := 0x7A0010
def THM_TRIPPED_BITS : Fld := ⟨THM_TRIPPED, 0, 64⟩
def THM_CTR : Nat := 0x7A0018
def THM_CTR_LEVEL_CHANGES : Fld := ⟨THM_CTR, 32, 32⟩
def THM_CTR_SUSPECT_EVENTS : Fld := ⟨THM_CTR, 16, 16⟩
def THM_CTR_TRIPS : Fld := ⟨THM_CTR, 0, 16⟩
def THM_CTR_CLR : Nat := 0x7A0020
def THM_CTR_CLR_CLEAR : Fld := ⟨THM_CTR_CLR, 0, 1⟩

def rowsTHM : List RegRow := [
  ⟨0x0, 1, 0x8, .any, false, [⟨56, 8, .ro, 0⟩, ⟨48, 8, .ro, 0⟩, ⟨40, 8, .ro, 0⟩, ⟨32, 8, .ro, 0⟩, ⟨1, 1, .w1c, 0⟩, ⟨0, 1, .w1c, 0⟩]⟩,
  ⟨0x8, 1, 0x8, .any, false, [⟨0, 64, .ro, 0⟩]⟩,
  ⟨0x10, 1, 0x8, .any, false, [⟨0, 64, .ro, 0⟩]⟩,
  ⟨0x18, 1, 0x8, .any, false, [⟨32, 32, .ro, 0⟩, ⟨16, 16, .ro, 0⟩, ⟨0, 16, .ro, 0⟩]⟩,
  ⟨0x20, 1, 0x8, .any, false, [⟨0, 1, .wo, 0⟩]⟩]

/-! Block THMR: 20_thermal, R385. -/

def THM_RGN_STATUS (i : Nat) : Nat := 0x7A1000 + 0x40 * i
def THM_RGN_STATUS_LEVEL (i : Nat) : Fld := ⟨THM_RGN_STATUS i, 60, 4⟩
def THM_RGN_STATUS_TRIPPED (i : Nat) : Fld := ⟨THM_RGN_STATUS i, 59, 1⟩
def THM_RGN_STATUS_TRIGGER (i : Nat) : Fld := ⟨THM_RGN_STATUS i, 58, 1⟩
def THM_RGN_STATUS_SUSPECT (i : Nat) : Fld := ⟨THM_RGN_STATUS i, 48, 8⟩
def THM_RGN_STATUS_INVALID (i : Nat) : Fld := ⟨THM_RGN_STATUS i, 33, 12⟩
def THM_RGN_STATUS_SUSPECT_SEEN (i : Nat) : Fld := ⟨THM_RGN_STATUS i, 0, 1⟩
def THM_RAW_DIE (i : Nat) : Nat := 0x7A1008 + 0x40 * i
def THM_RAW_DIE_DIE (i : Nat) : Fld := ⟨THM_RAW_DIE i, 0, 32⟩
def THM_RAW_MEM (i : Nat) : Nat := 0x7A1010 + 0x40 * i
def THM_RAW_MEM_MEM (i : Nat) : Fld := ⟨THM_RAW_MEM i, 0, 64⟩
def THM_MODEL (i : Nat) : Nat := 0x7A1018 + 0x40 * i
def THM_MODEL_EST (i : Nat) : Fld := ⟨THM_MODEL i, 0, 40⟩
def THM_EFF (i : Nat) : Nat := 0x7A1020 + 0x40 * i
def THM_EFF_EFF (i : Nat) : Fld := ⟨THM_EFF i, 0, 40⟩

def rowsTHMR : List RegRow := [
  ⟨0x0, 1, 0x8, .any, false, [⟨60, 4, .ro, 0⟩, ⟨59, 1, .ro, 0⟩, ⟨58, 1, .ro, 0⟩, ⟨48, 8, .ro, 0⟩, ⟨33, 12, .ro, 0⟩, ⟨0, 1, .w1c, 0⟩]⟩,
  ⟨0x8, 1, 0x8, .any, false, [⟨0, 32, .ro, 0⟩]⟩,
  ⟨0x10, 1, 0x8, .any, false, [⟨0, 64, .ro, 0⟩]⟩,
  ⟨0x18, 1, 0x8, .any, false, [⟨0, 40, .ro, 0⟩]⟩,
  ⟨0x20, 1, 0x8, .any, false, [⟨0, 40, .ro, 0⟩]⟩]

/-! Block SEC: 23_security, R434. -/

def SEC_STATUS : Nat := 0x7B0000
def SEC_STATUS_LIFECYCLE : Fld := ⟨SEC_STATUS, 62, 2⟩
def SEC_STATUS_ID_OK : Fld := ⟨SEC_STATUS, 61, 1⟩
def SEC_STATUS_ANCHOR_LOCK : Fld := ⟨SEC_STATUS, 60, 1⟩
def SEC_STATUS_FW_PATCHED : Fld := ⟨SEC_STATUS, 59, 1⟩
def SEC_STATUS_FW_DROPPED : Fld := ⟨SEC_STATUS, 58, 1⟩
def SEC_STATUS_TOKEN_RESULT : Fld := ⟨SEC_STATUS, 48, 8⟩
def SEC_STATUS_FW_RESULT : Fld := ⟨SEC_STATUS, 40, 8⟩
def SEC_STATUS_ANCHOR_RESULT : Fld := ⟨SEC_STATUS, 32, 8⟩
def SEC_STATUS_DBG_SESSIONS : Fld := ⟨SEC_STATUS, 16, 8⟩
def SEC_STATUS_BUSY : Fld := ⟨SEC_STATUS, 0, 1⟩
def SEC_CTL : Nat := 0x7B0008
def SEC_CTL_RELOCK : Fld := ⟨SEC_CTL, 4, 1⟩
def SEC_CTL_LOCK_ANCHORS : Fld := ⟨SEC_CTL, 3, 1⟩
def SEC_CTL_ANCHOR_ADD : Fld := ⟨SEC_CTL, 2, 1⟩
def SEC_CTL_FW_LOAD : Fld := ⟨SEC_CTL, 1, 1⟩
def SEC_CTL_SUBMIT : Fld := ⟨SEC_CTL, 0, 1⟩
def SEC_TOKEN_ADDR : Nat := 0x7B0010
def SEC_TOKEN_ADDR_ADDR : Fld := ⟨SEC_TOKEN_ADDR, 6, 58⟩
def SEC_TOKEN_LEN : Nat := 0x7B0018
def SEC_TOKEN_LEN_LEN : Fld := ⟨SEC_TOKEN_LEN, 0, 16⟩
def SEC_DBG_NONCE (j : Nat) : Nat := 0x7B0020 + 0x8 * j
def SEC_DBG_NONCE_NONCE (j : Nat) : Fld := ⟨SEC_DBG_NONCE j, 0, 64⟩
def SEC_DBG_PERMS : Nat := 0x7B0030
def SEC_DBG_PERMS_PERMS : Fld := ⟨SEC_DBG_PERMS, 0, 64⟩
def SEC_FW_ADDR : Nat := 0x7B0038
def SEC_FW_ADDR_ADDR : Fld := ⟨SEC_FW_ADDR, 0, 64⟩
def SEC_FW_LEN : Nat := 0x7B0040
def SEC_FW_LEN_LEN : Fld := ⟨SEC_FW_LEN, 0, 32⟩
def SEC_FW_INFO : Nat := 0x7B0048
def SEC_FW_INFO_ROM_VERSION : Fld := ⟨SEC_FW_INFO, 32, 32⟩
def SEC_FW_INFO_SVN : Fld := ⟨SEC_FW_INFO, 0, 32⟩
def SEC_ANCHOR_ADDR : Nat := 0x7B0050
def SEC_ANCHOR_ADDR_ADDR : Fld := ⟨SEC_ANCHOR_ADDR, 0, 64⟩
def SEC_ANCHOR_CFG : Nat := 0x7B0058
def SEC_ANCHOR_CFG_SLOT : Fld := ⟨SEC_ANCHOR_CFG, 16, 2⟩
def SEC_ANCHOR_CFG_DEBUG : Fld := ⟨SEC_ANCHOR_CFG, 1, 1⟩
def SEC_ANCHOR_CFG_PATTERN : Fld := ⟨SEC_ANCHOR_CFG, 0, 1⟩
def SEC_ANCHOR_STATUS : Nat := 0x7B0060
def SEC_ANCHOR_STATUS_SLOT3 : Fld := ⟨SEC_ANCHOR_STATUS, 6, 2⟩
def SEC_ANCHOR_STATUS_SLOT2 : Fld := ⟨SEC_ANCHOR_STATUS, 4, 2⟩
def SEC_ANCHOR_STATUS_SLOT1 : Fld := ⟨SEC_ANCHOR_STATUS, 2, 2⟩
def SEC_ANCHOR_STATUS_SLOT0 : Fld := ⟨SEC_ANCHOR_STATUS, 0, 2⟩
def SEC_SPDM_STATUS : Nat := 0x7B0068
def SEC_SPDM_STATUS_MCTP : Fld := ⟨SEC_SPDM_STATUS, 16, 8⟩
def SEC_SPDM_STATUS_PORT_B : Fld := ⟨SEC_SPDM_STATUS, 8, 8⟩
def SEC_SPDM_STATUS_PORT_A : Fld := ⟨SEC_SPDM_STATUS, 0, 8⟩

def rowsSEC : List RegRow := [
  ⟨0x0, 1, 0x8, .any, false, [⟨62, 2, .ro, 0⟩, ⟨61, 1, .ro, 0⟩, ⟨60, 1, .ro, 0⟩, ⟨59, 1, .ro, 0⟩, ⟨58, 1, .w1c, 0⟩, ⟨48, 8, .ro, 0⟩, ⟨40, 8, .ro, 0⟩, ⟨32, 8, .ro, 0⟩, ⟨16, 8, .ro, 0⟩, ⟨0, 1, .ro, 0⟩]⟩,
  ⟨0x8, 1, 0x8, .owner, false, [⟨4, 1, .wo, 0⟩, ⟨3, 1, .wo, 0⟩, ⟨2, 1, .wo, 0⟩, ⟨1, 1, .wo, 0⟩, ⟨0, 1, .wo, 0⟩]⟩,
  ⟨0x10, 1, 0x8, .owner, false, [⟨6, 58, .rw, 0⟩]⟩,
  ⟨0x18, 1, 0x8, .owner, false, [⟨0, 16, .rw, 0⟩]⟩,
  ⟨0x20, 2, 0x8, .any, false, [⟨0, 64, .ro, 0⟩]⟩,
  ⟨0x30, 1, 0x8, .any, false, [⟨0, 64, .ro, 0⟩]⟩,
  ⟨0x38, 1, 0x8, .owner, false, [⟨0, 64, .rw, 0⟩]⟩,
  ⟨0x40, 1, 0x8, .owner, false, [⟨0, 32, .rw, 0⟩]⟩,
  ⟨0x48, 1, 0x8, .any, false, [⟨32, 32, .ro, 0⟩, ⟨0, 32, .ro, 0⟩]⟩,
  ⟨0x50, 1, 0x8, .owner, false, [⟨0, 64, .rw, 0⟩]⟩,
  ⟨0x58, 1, 0x8, .owner, false, [⟨16, 2, .rw, 0⟩, ⟨1, 1, .rw, 0⟩, ⟨0, 1, .rw, 0⟩]⟩,
  ⟨0x60, 1, 0x8, .any, false, [⟨6, 2, .ro, 0⟩, ⟨4, 2, .ro, 0⟩, ⟨2, 2, .ro, 0⟩, ⟨0, 2, .ro, 3⟩]⟩,
  ⟨0x68, 1, 0x8, .any, false, [⟨16, 8, .ro, 0⟩, ⟨8, 8, .ro, 0⟩, ⟨0, 8, .ro, 0⟩]⟩]

/-! Block DBG: 24_debug, R447. -/

def DBG_STATUS : Nat := 0x7C0000
def DBG_STATUS_BP_HIT : Fld := ⟨DBG_STATUS, 56, 8⟩
def DBG_STATUS_STITCH_REJ : Fld := ⟨DBG_STATUS, 8, 1⟩
def DBG_CTL : Nat := 0x7C0008
def DBG_CTL_STITCH_COMMIT : Fld := ⟨DBG_CTL, 5, 1⟩
def DBG_CTL_TRC_CLEAR : Fld := ⟨DBG_CTL, 4, 1⟩
def DBG_CTL_TRC_STOP : Fld := ⟨DBG_CTL, 3, 1⟩
def DBG_CTL_TRC_START : Fld := ⟨DBG_CTL, 2, 1⟩
def DBG_CTL_RESUME_ONE : Fld := ⟨DBG_CTL, 1, 1⟩
def DBG_CTL_RESUME_ALL : Fld := ⟨DBG_CTL, 0, 1⟩
def DBG_RESUME_SEL : Nat := 0x7C0010
def DBG_RESUME_SEL_HOST : Fld := ⟨DBG_RESUME_SEL, 19, 1⟩
def DBG_RESUME_SEL_THREAD : Fld := ⟨DBG_RESUME_SEL, 17, 2⟩
def DBG_RESUME_SEL_CELL : Fld := ⟨DBG_RESUME_SEL, 0, 16⟩
def DBG_FREEZE : Nat := 0x7C0018
def DBG_FREEZE_BITS : Fld := ⟨DBG_FREEZE, 0, 64⟩
def DBG_TRC_CFG : Nat := 0x7C0020
def DBG_TRC_CFG_DATA : Fld := ⟨DBG_TRC_CFG, 49, 1⟩
def DBG_TRC_CFG_MODE : Fld := ⟨DBG_TRC_CFG, 48, 1⟩
def DBG_TRC_CFG_EVENTS : Fld := ⟨DBG_TRC_CFG, 40, 8⟩
def DBG_TRC_CFG_TAG_MASK : Fld := ⟨DBG_TRC_CFG, 16, 16⟩
def DBG_TRC_CFG_TAG_VAL : Fld := ⟨DBG_TRC_CFG, 0, 16⟩
def DBG_TRC_RGN : Nat := 0x7C0028
def DBG_TRC_RGN_BITS : Fld := ⟨DBG_TRC_RGN, 0, 64⟩
def DBG_TRC_STATUS : Nat := 0x7C0030
def DBG_TRC_STATUS_DROPPED : Fld := ⟨DBG_TRC_STATUS, 32, 32⟩
def DBG_TRC_STATUS_RUNNING : Fld := ⟨DBG_TRC_STATUS, 31, 1⟩
def DBG_TRC_STATUS_FULL : Fld := ⟨DBG_TRC_STATUS, 30, 1⟩
def DBG_TRC_STATUS_WPTR : Fld := ⟨DBG_TRC_STATUS, 0, 18⟩

def rowsDBG : List RegRow := [
  ⟨0x0, 1, 0x8, .owner, false, [⟨56, 8, .w1c, 0⟩, ⟨8, 1, .w1c, 0⟩]⟩,
  ⟨0x8, 1, 0x8, .owner, false, [⟨5, 1, .wo, 0⟩, ⟨4, 1, .wo, 0⟩, ⟨3, 1, .wo, 0⟩, ⟨2, 1, .wo, 0⟩, ⟨1, 1, .wo, 0⟩, ⟨0, 1, .wo, 0⟩]⟩,
  ⟨0x10, 1, 0x8, .owner, false, [⟨19, 1, .rw, 0⟩, ⟨17, 2, .rw, 0⟩, ⟨0, 16, .rw, 0⟩]⟩,
  ⟨0x18, 1, 0x8, .owner, false, [⟨0, 64, .rw, 0⟩]⟩,
  ⟨0x20, 1, 0x8, .owner, false, [⟨49, 1, .rw, 0⟩, ⟨48, 1, .rw, 0⟩, ⟨40, 8, .rw, 0⟩, ⟨16, 16, .rw, 0⟩, ⟨0, 16, .rw, 0⟩]⟩,
  ⟨0x28, 1, 0x8, .owner, false, [⟨0, 64, .rw, 18446744073709551615⟩]⟩,
  ⟨0x30, 1, 0x8, .any, false, [⟨32, 32, .ro, 0⟩, ⟨31, 1, .ro, 0⟩, ⟨30, 1, .ro, 0⟩, ⟨0, 18, .ro, 0⟩]⟩]

/-! Block DBGBP: 24_debug, R447. -/

def DBG_BP (i : Nat) : Nat := 0x7C0100 + 0x10 * i
def DBG_BP_ARMED (i : Nat) : Fld := ⟨DBG_BP i, 63, 1⟩
def DBG_BP_ACTION (i : Nat) : Fld := ⟨DBG_BP i, 62, 1⟩
def DBG_BP_STOP_TRC (i : Nat) : Fld := ⟨DBG_BP i, 61, 1⟩
def DBG_BP_SCOPE (i : Nat) : Fld := ⟨DBG_BP i, 59, 2⟩
def DBG_BP_CLASS (i : Nat) : Fld := ⟨DBG_BP i, 56, 3⟩
def DBG_BP_UNIT (i : Nat) : Fld := ⟨DBG_BP i, 36, 12⟩
def DBG_BP_COUNT (i : Nat) : Fld := ⟨DBG_BP i, 20, 12⟩
def DBG_BP_TAG_MASK (i : Nat) : Fld := ⟨DBG_BP i, 0, 16⟩
def DBG_BP_CNT (i : Nat) : Nat := 0x7C0108 + 0x10 * i
def DBG_BP_CNT_TAG_VAL (i : Nat) : Fld := ⟨DBG_BP_CNT i, 32, 16⟩
def DBG_BP_CNT_MATCHES (i : Nat) : Fld := ⟨DBG_BP_CNT i, 0, 32⟩

def rowsDBGBP : List RegRow := [
  ⟨0x0, 1, 0x8, .owner, false, [⟨63, 1, .rw, 0⟩, ⟨62, 1, .rw, 0⟩, ⟨61, 1, .rw, 0⟩, ⟨59, 2, .rw, 0⟩, ⟨56, 3, .rw, 0⟩, ⟨36, 12, .rw, 0⟩, ⟨20, 12, .rw, 1⟩, ⟨0, 16, .rw, 0⟩]⟩,
  ⟨0x8, 1, 0x8, .owner, false, [⟨32, 16, .rw, 0⟩, ⟨0, 32, .ro, 0⟩]⟩]

/-! Block DBGTC: 24_debug, R447. -/

def DBG_TAGCTR_CFG (i : Nat) : Nat := 0x7C0200 + 0x10 * i
def DBG_TAGCTR_CFG_CLASS (i : Nat) : Fld := ⟨DBG_TAGCTR_CFG i, 32, 3⟩
def DBG_TAGCTR_CFG_TAG_MASK (i : Nat) : Fld := ⟨DBG_TAGCTR_CFG i, 16, 16⟩
def DBG_TAGCTR_CFG_TAG_VAL (i : Nat) : Fld := ⟨DBG_TAGCTR_CFG i, 0, 16⟩
def DBG_TAGCTR (i : Nat) : Nat := 0x7C0208 + 0x10 * i
def DBG_TAGCTR_COMPLETED (i : Nat) : Fld := ⟨DBG_TAGCTR i, 32, 32⟩
def DBG_TAGCTR_NOT_OK (i : Nat) : Fld := ⟨DBG_TAGCTR i, 16, 16⟩

def rowsDBGTC : List RegRow := [
  ⟨0x0, 1, 0x8, .owner, false, [⟨32, 3, .rw, 0⟩, ⟨16, 16, .rw, 0⟩, ⟨0, 16, .rw, 0⟩]⟩,
  ⟨0x8, 1, 0x8, .any, false, [⟨32, 32, .ro, 0⟩, ⟨16, 16, .ro, 0⟩]⟩]

/-! Block DBGTEL: 24_debug, R440. -/

def DBG_TELEM (j : Nat) : Nat := 0x7C0400 + 0x8 * j
def DBG_TELEM_WORD (j : Nat) : Fld := ⟨DBG_TELEM j, 0, 64⟩

def rowsDBGTEL : List RegRow := [
  ⟨0x0, 32, 0x8, .any, false, [⟨0, 64, .ro, 0⟩]⟩]

/-! Block DBGST: 24_debug, R444. -/

def DBG_STITCH_SEL : Nat := 0x7C1000
def DBG_STITCH_SEL_TARGET : Fld := ⟨DBG_STITCH_SEL, 32, 1⟩
def DBG_STITCH_SEL_INDEX : Fld := ⟨DBG_STITCH_SEL, 16, 11⟩
def DBG_STITCH_SEL_CELL : Fld := ⟨DBG_STITCH_SEL, 0, 16⟩
def DBG_STITCH_DATA (j : Nat) : Nat := 0x7C1008 + 0x8 * j
def DBG_STITCH_DATA_DATA (j : Nat) : Fld := ⟨DBG_STITCH_DATA j, 0, 64⟩

def rowsDBGST : List RegRow := [
  ⟨0x0, 1, 0x8, .owner, false, [⟨32, 1, .rw, 0⟩, ⟨16, 11, .rw, 0⟩, ⟨0, 16, .rw, 0⟩]⟩,
  ⟨0x8, 4, 0x8, .owner, false, [⟨0, 64, .rw, 0⟩]⟩]

/-! Block OVR: 12_tide, R239. -/

def OVR_HDR : Nat := 0x800000
def OVR_HDR_VALID : Fld := ⟨OVR_HDR, 63, 1⟩
def OVR_HDR_DROPPED : Fld := ⟨OVR_HDR, 32, 16⟩
def OVR_HDR_POLICY : Fld := ⟨OVR_HDR, 24, 8⟩
def OVR_HDR_ENTRIES : Fld := ⟨OVR_HDR, 0, 15⟩
def OVR_EDGE : Nat := 0x800008
def OVR_EDGE_EDGE : Fld := ⟨OVR_EDGE, 0, 64⟩
def OVR_TIME : Nat := 0x800010
def OVR_TIME_TIME : Fld := ⟨OVR_TIME, 0, 64⟩
def OVR_MISS : Nat := 0x800018
def OVR_MISS_FIRST_MISSING : Fld := ⟨OVR_MISS, 48, 16⟩
def OVR_MISS_MISSING : Fld := ⟨OVR_MISS, 32, 16⟩
def OVR_MISS_STRETCH_NS : Fld := ⟨OVR_MISS, 0, 32⟩

def rowsOVR : List RegRow := [
  ⟨0x0, 1, 0x8, .any, true, [⟨63, 1, .w1c, 0⟩, ⟨32, 16, .ro, 0⟩, ⟨24, 8, .ro, 0⟩, ⟨0, 15, .ro, 0⟩]⟩,
  ⟨0x8, 1, 0x8, .any, true, [⟨0, 64, .ro, 0⟩]⟩,
  ⟨0x10, 1, 0x8, .any, true, [⟨0, 64, .ro, 0⟩]⟩,
  ⟨0x18, 1, 0x8, .any, true, [⟨48, 16, .ro, 0⟩, ⟨32, 16, .ro, 0⟩, ⟨0, 32, .ro, 0⟩]⟩]

/-! Block CEL: 03_cells, R33. -/

def CEL_ID (i : Nat) : Nat := 0x1000000 + 0x2000 * i
def CEL_ID_RETIRED (i : Nat) : Fld := ⟨CEL_ID i, 40, 1⟩
def CEL_ID_PHYS_ROW (i : Nat) : Fld := ⟨CEL_ID i, 32, 8⟩
def CEL_ID_PHYS_COL (i : Nat) : Fld := ⟨CEL_ID i, 24, 8⟩
def CEL_ID_REGION (i : Nat) : Fld := ⟨CEL_ID i, 16, 8⟩
def CEL_ID_Y (i : Nat) : Fld := ⟨CEL_ID i, 8, 8⟩
def CEL_ID_X (i : Nat) : Fld := ⟨CEL_ID i, 0, 8⟩
def CEL_THR_STATUS (i : Nat) (j : Nat) : Nat := 0x1000100 + 0x2000 * i + 0x8 * j
def CEL_THR_STATUS_STATE (i : Nat) (j : Nat) : Fld := ⟨CEL_THR_STATUS i j, 61, 3⟩
def CEL_THR_STATUS_STALL_ON (i : Nat) (j : Nat) : Fld := ⟨CEL_THR_STATUS i j, 58, 3⟩
def CEL_THR_STATUS_MQ_DEPTH (i : Nat) (j : Nat) : Fld := ⟨CEL_THR_STATUS i j, 53, 5⟩
def CEL_THR_STATUS_EQ_DEPTH (i : Nat) (j : Nat) : Fld := ⟨CEL_THR_STATUS i j, 48, 5⟩
def CEL_THR_STATUS_DQ_DEPTH (i : Nat) (j : Nat) : Fld := ⟨CEL_THR_STATUS i j, 42, 6⟩
def CEL_THR_STATUS_MQ_OWN (i : Nat) (j : Nat) : Fld := ⟨CEL_THR_STATUS i j, 37, 5⟩
def CEL_THR_STATUS_EQ_OWN (i : Nat) (j : Nat) : Fld := ⟨CEL_THR_STATUS i j, 32, 5⟩
def CEL_THR_STATUS_DQ_OWN (i : Nat) (j : Nat) : Fld := ⟨CEL_THR_STATUS i j, 26, 6⟩
def CEL_THR_STATUS_TAGS_OWN (i : Nat) (j : Nat) : Fld := ⟨CEL_THR_STATUS i j, 22, 4⟩
def CEL_THR_STATUS_PC (i : Nat) (j : Nat) : Fld := ⟨CEL_THR_STATUS i j, 0, 11⟩
def CEL_THR_WIN (i : Nat) (j : Nat) : Nat := 0x1000120 + 0x2000 * i + 0x8 * j
def CEL_THR_WIN_LEN (i : Nat) (j : Nat) : Fld := ⟨CEL_THR_WIN i j, 32, 16⟩
def CEL_THR_WIN_ENTRY (i : Nat) (j : Nat) : Fld := ⟨CEL_THR_WIN i j, 16, 16⟩
def CEL_THR_WIN_BASE (i : Nat) (j : Nat) : Fld := ⟨CEL_THR_WIN i j, 0, 16⟩
def CEL_THR_WAIT (i : Nat) (j : Nat) : Nat := 0x1000140 + 0x2000 * i + 0x8 * j
def CEL_THR_WAIT_N (i : Nat) (j : Nat) : Fld := ⟨CEL_THR_WAIT i j, 0, 64⟩
def CEL_THR_WAITSRC (i : Nat) (j : Nat) : Nat := 0x1000160 + 0x2000 * i + 0x8 * j
def CEL_THR_WAITSRC_PATCH (i : Nat) (j : Nat) : Fld := ⟨CEL_THR_WAITSRC i j, 8, 8⟩
def CEL_THR_WAITSRC_GAUGE (i : Nat) (j : Nat) : Fld := ⟨CEL_THR_WAITSRC i j, 0, 6⟩
def CEL_GAUGE (i : Nat) (j : Nat) : Nat := 0x1001000 + 0x2000 * i + 0x8 * j
def CEL_GAUGE_VALUE (i : Nat) (j : Nat) : Fld := ⟨CEL_GAUGE i j, 0, 64⟩
def CEL_GAUGE_WR (i : Nat) (j : Nat) : Nat := 0x1001200 + 0x2000 * i + 0x8 * j
def CEL_GAUGE_WR_VALUE (i : Nat) (j : Nat) : Fld := ⟨CEL_GAUGE_WR i j, 0, 64⟩
def CEL_GAUGE_SAT (i : Nat) : Nat := 0x1001400 + 0x2000 * i
def CEL_GAUGE_SAT_BITS (i : Nat) : Fld := ⟨CEL_GAUGE_SAT i, 0, 64⟩
def CEL_GAUGE_CONFLICT (i : Nat) : Nat := 0x1001408 + 0x2000 * i
def CEL_GAUGE_CONFLICT_BITS (i : Nat) : Fld := ⟨CEL_GAUGE_CONFLICT i, 0, 64⟩

def rowsCEL : List RegRow := [
  ⟨0x0, 1, 0x8, .any, true, [⟨40, 1, .ro, 0⟩, ⟨32, 8, .ro, 0⟩, ⟨24, 8, .ro, 0⟩, ⟨16, 8, .ro, 0⟩, ⟨8, 8, .ro, 0⟩, ⟨0, 8, .ro, 0⟩]⟩,
  ⟨0x100, 4, 0x8, .any, true, [⟨61, 3, .ro, 0⟩, ⟨58, 3, .ro, 0⟩, ⟨53, 5, .ro, 0⟩, ⟨48, 5, .ro, 0⟩, ⟨42, 6, .ro, 0⟩, ⟨37, 5, .ro, 0⟩, ⟨32, 5, .ro, 0⟩, ⟨26, 6, .ro, 0⟩, ⟨22, 4, .ro, 0⟩, ⟨0, 11, .ro, 0⟩]⟩,
  ⟨0x120, 4, 0x8, .any, true, [⟨32, 16, .ro, 0⟩, ⟨16, 16, .ro, 0⟩, ⟨0, 16, .ro, 0⟩]⟩,
  ⟨0x140, 4, 0x8, .any, true, [⟨0, 64, .ro, 0⟩]⟩,
  ⟨0x160, 4, 0x8, .any, true, [⟨8, 8, .ro, 0⟩, ⟨0, 6, .ro, 0⟩]⟩,
  ⟨0x1000, 64, 0x8, .any, true, [⟨0, 64, .ro, 0⟩]⟩,
  ⟨0x1200, 64, 0x8, .any, false, [⟨0, 64, .wo, 0⟩]⟩,
  ⟨0x1400, 1, 0x8, .any, false, [⟨0, 64, .w1c, 0⟩]⟩,
  ⟨0x1408, 1, 0x8, .any, false, [⟨0, 64, .w1c, 0⟩]⟩]

/-! Block MTX: 04_matrix_engine, R87. -/

def MTX_STATUS (i : Nat) : Nat := 0x3000000 + 0x400 * i
def MTX_STATUS_ACC_MODE (i : Nat) : Fld := ⟨MTX_STATUS i, 63, 1⟩
def MTX_STATUS_CHAINS_PENDING (i : Nat) : Fld := ⟨MTX_STATUS i, 58, 5⟩
def MTX_STATUS_GROUPS_OPEN (i : Nat) : Fld := ⟨MTX_STATUS i, 51, 7⟩
def MTX_STATUS_LAST_TAG (i : Nat) : Fld := ⟨MTX_STATUS i, 32, 16⟩
def MTX_STATUS_LAST_STATUS (i : Nat) : Fld := ⟨MTX_STATUS i, 24, 8⟩
def MTX_STATUS_ANCHOR_LIMIT (i : Nat) : Fld := ⟨MTX_STATUS i, 3, 1⟩
def MTX_STATUS_CHAIN_FAIL (i : Nat) : Fld := ⟨MTX_STATUS i, 2, 1⟩
def MTX_STATUS_BUSY (i : Nat) : Fld := ⟨MTX_STATUS i, 1, 1⟩
def MTX_REPEAT (i : Nat) : Nat := 0x3000008 + 0x400 * i
def MTX_REPEAT_TILE_REPEATS (i : Nat) : Fld := ⟨MTX_REPEAT i, 32, 32⟩
def MTX_REPEAT_CHAIN_RERUNS (i : Nat) : Fld := ⟨MTX_REPEAT i, 0, 32⟩
def MTX_SKIP (i : Nat) : Nat := 0x3000010 + 0x400 * i
def MTX_SKIP_BLOCKS_SKIPPED (i : Nat) : Fld := ⟨MTX_SKIP i, 32, 32⟩
def MTX_SKIP_SKIP_MISSES (i : Nat) : Fld := ⟨MTX_SKIP i, 0, 32⟩
def MTX_ANCHOR_LAST (i : Nat) : Nat := 0x3000018 + 0x400 * i
def MTX_ANCHOR_LAST_TAG (i : Nat) : Fld := ⟨MTX_ANCHOR_LAST i, 32, 16⟩
def MTX_ANCHOR_LAST_ANCHOR (i : Nat) : Fld := ⟨MTX_ANCHOR_LAST i, 16, 16⟩
def MTX_ANCHOR_LAST_SOURCE (i : Nat) : Fld := ⟨MTX_ANCHOR_LAST i, 14, 2⟩
def MTX_ANCHOR_LAST_RAISE (i : Nat) : Fld := ⟨MTX_ANCHOR_LAST i, 2, 12⟩
def MTX_CTR_CLR (i : Nat) : Nat := 0x3000020 + 0x400 * i
def MTX_CTR_CLR_CLEAR (i : Nat) : Fld := ⟨MTX_CTR_CLR i, 0, 1⟩
def MTX_SR_SEED (i : Nat) : Nat := 0x3000028 + 0x400 * i
def MTX_SR_SEED_SEED (i : Nat) : Fld := ⟨MTX_SR_SEED i, 0, 64⟩
def MTX_SR_STEP (i : Nat) : Nat := 0x3000030 + 0x400 * i
def MTX_SR_STEP_STEP (i : Nat) : Fld := ⟨MTX_SR_STEP i, 0, 64⟩
def MTX_PRED (i : Nat) (j : Nat) : Nat := 0x3000100 + 0x400 * i + 0x8 * j
def MTX_PRED_VALID (i : Nat) (j : Nat) : Fld := ⟨MTX_PRED i j, 63, 1⟩
def MTX_PRED_ANCHOR (i : Nat) (j : Nat) : Fld := ⟨MTX_PRED i j, 32, 16⟩
def MTX_PRED_MISSES (i : Nat) (j : Nat) : Fld := ⟨MTX_PRED i j, 0, 32⟩

def rowsMTX : List RegRow := [
  ⟨0x0, 1, 0x8, .any, false, [⟨63, 1, .ro, 0⟩, ⟨58, 5, .ro, 0⟩, ⟨51, 7, .ro, 0⟩, ⟨32, 16, .ro, 0⟩, ⟨24, 8, .ro, 0⟩, ⟨3, 1, .w1c, 0⟩, ⟨2, 1, .w1c, 0⟩, ⟨1, 1, .ro, 0⟩]⟩,
  ⟨0x8, 1, 0x8, .any, false, [⟨32, 32, .ro, 0⟩, ⟨0, 32, .ro, 0⟩]⟩,
  ⟨0x10, 1, 0x8, .any, false, [⟨32, 32, .ro, 0⟩, ⟨0, 32, .ro, 0⟩]⟩,
  ⟨0x18, 1, 0x8, .any, false, [⟨32, 16, .ro, 0⟩, ⟨16, 16, .ro, 0⟩, ⟨14, 2, .ro, 0⟩, ⟨2, 12, .ro, 0⟩]⟩,
  ⟨0x20, 1, 0x8, .any, false, [⟨0, 1, .wo, 0⟩]⟩,
  ⟨0x28, 1, 0x8, .any, true, [⟨0, 64, .ro, 0⟩]⟩,
  ⟨0x30, 1, 0x8, .any, true, [⟨0, 64, .ro, 0⟩]⟩,
  ⟨0x100, 64, 0x8, .any, false, [⟨63, 1, .ro, 0⟩, ⟨32, 16, .ro, 0⟩, ⟨0, 32, .ro, 0⟩]⟩]

/-! Block ELE: 07_element_engine, R138. -/

def ELE_STATUS (i : Nat) : Nat := 0x3400000 + 0x400 * i
def ELE_STATUS_LAST_TAG (i : Nat) : Fld := ⟨ELE_STATUS i, 32, 16⟩
def ELE_STATUS_LAST_STATUS (i : Nat) : Fld := ⟨ELE_STATUS i, 24, 8⟩
def ELE_STATUS_LAST_INVALID (i : Nat) : Fld := ⟨ELE_STATUS i, 16, 8⟩
def ELE_STATUS_GATHER_FAULT (i : Nat) : Fld := ⟨ELE_STATUS i, 3, 1⟩
def ELE_STATUS_INVALID (i : Nat) : Fld := ⟨ELE_STATUS i, 2, 1⟩
def ELE_STATUS_BUSY (i : Nat) : Fld := ⟨ELE_STATUS i, 1, 1⟩
def ELE_CTR (i : Nat) : Nat := 0x3400008 + 0x400 * i
def ELE_CTR_COMMANDS (i : Nat) : Fld := ⟨ELE_CTR i, 32, 32⟩
def ELE_CTR_PASSES (i : Nat) : Fld := ⟨ELE_CTR i, 0, 32⟩
def ELE_GATHER (i : Nat) : Nat := 0x3400010 + 0x400 * i
def ELE_GATHER_LANES (i : Nat) : Fld := ⟨ELE_GATHER i, 32, 32⟩
def ELE_GATHER_FAULT_LANES (i : Nat) : Fld := ⟨ELE_GATHER i, 0, 32⟩
def ELE_TTYPE (i : Nat) : Nat := 0x3400018 + 0x400 * i
def ELE_TTYPE_TAG (i : Nat) : Fld := ⟨ELE_TTYPE i, 0, 16⟩
def ELE_CTR_CLR (i : Nat) : Nat := 0x3400020 + 0x400 * i
def ELE_CTR_CLR_CLEAR (i : Nat) : Fld := ⟨ELE_CTR_CLR i, 0, 1⟩
def ELE_SUMTYPE (i : Nat) : Nat := 0x3400028 + 0x400 * i
def ELE_SUMTYPE_INT (i : Nat) : Fld := ⟨ELE_SUMTYPE i, 0, 4⟩
def ELE_SUM (i : Nat) (j : Nat) : Nat := 0x3400100 + 0x400 * i + 0x8 * j
def ELE_SUM_VALUE (i : Nat) (j : Nat) : Fld := ⟨ELE_SUM i j, 0, 64⟩

def rowsELE : List RegRow := [
  ⟨0x0, 1, 0x8, .any, false, [⟨32, 16, .ro, 0⟩, ⟨24, 8, .ro, 0⟩, ⟨16, 8, .ro, 0⟩, ⟨3, 1, .w1c, 0⟩, ⟨2, 1, .w1c, 0⟩, ⟨1, 1, .ro, 0⟩]⟩,
  ⟨0x8, 1, 0x8, .any, false, [⟨32, 32, .ro, 0⟩, ⟨0, 32, .ro, 0⟩]⟩,
  ⟨0x10, 1, 0x8, .any, false, [⟨32, 32, .ro, 0⟩, ⟨0, 32, .ro, 0⟩]⟩,
  ⟨0x18, 1, 0x8, .any, true, [⟨0, 16, .ro, 0⟩]⟩,
  ⟨0x20, 1, 0x8, .any, false, [⟨0, 1, .wo, 0⟩]⟩,
  ⟨0x28, 1, 0x8, .any, true, [⟨0, 4, .ro, 15⟩]⟩,
  ⟨0x100, 32, 0x8, .any, true, [⟨0, 64, .ro, 0⟩]⟩]

/-! Block COL: 08_near_memory, R158. -/

def COL_STATUS (i : Nat) : Nat := 0x3800000 + 0x400 * i
def COL_STATUS_OWN_DENY (i : Nat) : Fld := ⟨COL_STATUS i, 32, 32⟩
def COL_STATUS_POISON_SEEN (i : Nat) : Fld := ⟨COL_STATUS i, 3, 1⟩
def COL_STATUS_DRAM_STOP (i : Nat) : Fld := ⟨COL_STATUS i, 2, 1⟩
def COL_STATUS_DRAM_BUSY (i : Nat) : Fld := ⟨COL_STATUS i, 1, 1⟩
def COL_STATUS_SRAM_BUSY (i : Nat) : Fld := ⟨COL_STATUS i, 0, 1⟩
def COL_ECC (i : Nat) : Nat := 0x3800008 + 0x400 * i
def COL_ECC_CE_COL (i : Nat) : Fld := ⟨COL_ECC i, 48, 16⟩
def COL_ECC_UE_COL (i : Nat) : Fld := ⟨COL_ECC i, 32, 16⟩
def COL_ECC_CE_SP (i : Nat) : Fld := ⟨COL_ECC i, 16, 16⟩
def COL_ECC_UE_SP (i : Nat) : Fld := ⟨COL_ECC i, 0, 16⟩
def COL_POISON_ADDR (i : Nat) : Nat := 0x3800010 + 0x400 * i
def COL_POISON_ADDR_ADDR (i : Nat) : Fld := ⟨COL_POISON_ADDR i, 0, 64⟩
def COL_SP_CONFLICT (i : Nat) : Nat := 0x3800018 + 0x400 * i
def COL_SP_CONFLICT_CYCLES (i : Nat) : Fld := ⟨COL_SP_CONFLICT i, 0, 64⟩
def COL_CTR_CLR (i : Nat) : Nat := 0x3800020 + 0x400 * i
def COL_CTR_CLR_CLEAR (i : Nat) : Fld := ⟨COL_CTR_CLR i, 0, 1⟩
def COL_RD (i : Nat) (j : Nat) : Nat := 0x3800040 + 0x400 * i + 0x10 * j
def COL_RD_BEATS (i : Nat) (j : Nat) : Fld := ⟨COL_RD i j, 0, 64⟩
def COL_WR (i : Nat) (j : Nat) : Nat := 0x3800048 + 0x400 * i + 0x10 * j
def COL_WR_BEATS (i : Nat) (j : Nat) : Fld := ⟨COL_WR i j, 0, 64⟩
def COL_RANGE (i : Nat) (j : Nat) : Nat := 0x3800080 + 0x400 * i + 0x8 * j
def COL_RANGE_VALID (i : Nat) (j : Nat) : Fld := ⟨COL_RANGE i j, 63, 1⟩
def COL_RANGE_KIND (i : Nat) (j : Nat) : Fld := ⟨COL_RANGE i j, 61, 2⟩
def COL_RANGE_CLASS (i : Nat) (j : Nat) : Fld := ⟨COL_RANGE i j, 59, 2⟩
def COL_RANGE_FWRITE (i : Nat) (j : Nat) : Fld := ⟨COL_RANGE i j, 58, 1⟩
def COL_RANGE_LENGTH (i : Nat) (j : Nat) : Fld := ⟨COL_RANGE i j, 32, 16⟩
def COL_RANGE_BASE (i : Nat) (j : Nat) : Fld := ⟨COL_RANGE i j, 0, 16⟩

def rowsCOL : List RegRow := [
  ⟨0x0, 1, 0x8, .any, false, [⟨32, 32, .ro, 0⟩, ⟨3, 1, .w1c, 0⟩, ⟨2, 1, .ro, 0⟩, ⟨1, 1, .ro, 0⟩, ⟨0, 1, .ro, 0⟩]⟩,
  ⟨0x8, 1, 0x8, .any, false, [⟨48, 16, .ro, 0⟩, ⟨32, 16, .ro, 0⟩, ⟨16, 16, .ro, 0⟩, ⟨0, 16, .ro, 0⟩]⟩,
  ⟨0x10, 1, 0x8, .any, false, [⟨0, 64, .ro, 0⟩]⟩,
  ⟨0x18, 1, 0x8, .any, false, [⟨0, 64, .ro, 0⟩]⟩,
  ⟨0x20, 1, 0x8, .any, false, [⟨0, 1, .wo, 0⟩]⟩,
  ⟨0x40, 4, 0x10, .any, false, [⟨0, 64, .ro, 0⟩]⟩,
  ⟨0x48, 4, 0x10, .any, false, [⟨0, 64, .ro, 0⟩]⟩,
  ⟨0x80, 8, 0x8, .any, false, [⟨63, 1, .ro, 0⟩, ⟨61, 2, .ro, 0⟩, ⟨59, 2, .ro, 0⟩, ⟨58, 1, .ro, 0⟩, ⟨32, 16, .ro, 0⟩, ⟨0, 16, .ro, 0⟩]⟩]

/-! Block COLR: 08_near_memory, R158. -/

def COL_RGN_STATUS (i : Nat) : Nat := 0x3C00000 + 0x400 * i
def COL_RGN_STATUS_REFRESH (i : Nat) : Fld := ⟨COL_RGN_STATUS i, 8, 2⟩
def COL_RGN_STATUS_DRAM_STOP (i : Nat) : Fld := ⟨COL_RGN_STATUS i, 3, 1⟩
def COL_RGN_STATUS_STOP_SEEN (i : Nat) : Fld := ⟨COL_RGN_STATUS i, 2, 1⟩
def COL_RGN_STATUS_THROTTLED (i : Nat) : Fld := ⟨COL_RGN_STATUS i, 1, 1⟩
def COL_THROTTLE (i : Nat) : Nat := 0x3C00008 + 0x400 * i
def COL_THROTTLE_SRAM_LIMIT (i : Nat) : Fld := ⟨COL_THROTTLE i, 7, 7⟩
def COL_THROTTLE_DRAM_LIMIT (i : Nat) : Fld := ⟨COL_THROTTLE i, 0, 7⟩
def COL_RINSE (i : Nat) : Nat := 0x3C00010 + 0x400 * i
def COL_RINSE_SRAM_EN (i : Nat) : Fld := ⟨COL_RINSE i, 17, 1⟩
def COL_RINSE_DRAM_EN (i : Nat) : Fld := ⟨COL_RINSE i, 16, 1⟩
def COL_RINSE_SRAM_LOG2 (i : Nat) : Fld := ⟨COL_RINSE i, 8, 5⟩
def COL_RINSE_DRAM_LOG2 (i : Nat) : Fld := ⟨COL_RINSE i, 0, 5⟩
def COL_RINSE_PASS (i : Nat) : Nat := 0x3C00018 + 0x400 * i
def COL_RINSE_PASS_SRAM (i : Nat) : Fld := ⟨COL_RINSE_PASS i, 32, 32⟩
def COL_RINSE_PASS_DRAM (i : Nat) : Fld := ⟨COL_RINSE_PASS i, 0, 32⟩
def COL_RGN_ACC (i : Nat) (j : Nat) : Nat := 0x3C00040 + 0x400 * i + 0x8 * j
def COL_RGN_ACC_BEATS (i : Nat) (j : Nat) : Fld := ⟨COL_RGN_ACC i j, 0, 64⟩

def rowsCOLR : List RegRow := [
  ⟨0x0, 1, 0x8, .any, false, [⟨8, 2, .ro, 0⟩, ⟨3, 1, .ro, 0⟩, ⟨2, 1, .w1c, 0⟩, ⟨1, 1, .ro, 0⟩]⟩,
  ⟨0x8, 1, 0x8, .any, false, [⟨7, 7, .ro, 64⟩, ⟨0, 7, .ro, 64⟩]⟩,
  ⟨0x10, 1, 0x8, .any, false, [⟨17, 1, .rw, 1⟩, ⟨16, 1, .rw, 1⟩, ⟨8, 5, .rw, 14⟩, ⟨0, 5, .rw, 14⟩]⟩,
  ⟨0x18, 1, 0x8, .any, false, [⟨32, 32, .ro, 0⟩, ⟨0, 32, .ro, 0⟩]⟩,
  ⟨0x40, 4, 0x8, .any, false, [⟨0, 64, .ro, 0⟩]⟩]

/-- Every register block, by rising base. -/
def regBlocks : List BlockRow := [
  ⟨0x100, 1, 0x38, rowsSTART⟩,
  ⟨0x200, 1, 0x10, rowsPREC⟩,
  ⟨0x300, 1, 0x20, rowsFLOG⟩,
  ⟨0x600000, 1, 0x28, rowsHBMT⟩,
  ⟨0x610000, 192, 0x400, rowsHBMC⟩,
  ⟨0x640000, 1, 0x20, rowsDDRT⟩,
  ⟨0x641000, 8, 0x400, rowsDDRC⟩,
  ⟨0x680000, 1, 0x38, rowsXLT⟩,
  ⟨0x690000, 1, 0x38, rowsFAR⟩,
  ⟨0x700000, 256, 0x40, rowsSIZ⟩,
  ⟨0x710000, 1, 0x60, rowsPAT⟩,
  ⟨0x710800, 256, 0x10, rowsPATP⟩,
  ⟨0x720000, 1, 0x50, rowsTID⟩,
  ⟨0x730000, 1, 0x38, rowsTRF⟩,
  ⟨0x731000, 12, 0x400, rowsTRFP⟩,
  ⟨0x740000, 1, 0x20, rowsCLV⟩,
  ⟨0x740100, 12, 0x10, rowsCLVG⟩,
  ⟨0x740800, 12, 0x80, rowsCLVGD⟩,
  ⟨0x741000, 256, 0x80, rowsCLVS⟩,
  ⟨0x74A000, 64, 0x100, rowsCLVSS⟩,
  ⟨0x750000, 1, 0x18, rowsSLC⟩,
  ⟨0x750100, 46, 0x20, rowsSLCI⟩,
  ⟨0x760000, 2, 0x400, rowsHIF⟩,
  ⟨0x760800, 1, 0x8, rowsWHO⟩,
  ⟨0x770000, 32, 0x100, rowsRING⟩,
  ⟨0x772000, 1, 0x8, rowsHIFC⟩,
  ⟨0x772100, 2, 0x40, rowsINGEST⟩,
  ⟨0x780000, 2048, 0x20, rowsHIST⟩,
  ⟨0x790000, 1, 0x300, rowsPWR⟩,
  ⟨0x7A0000, 1, 0x28, rowsTHM⟩,
  ⟨0x7A1000, 64, 0x40, rowsTHMR⟩,
  ⟨0x7B0000, 1, 0x70, rowsSEC⟩,
  ⟨0x7C0000, 1, 0x38, rowsDBG⟩,
  ⟨0x7C0100, 8, 0x10, rowsDBGBP⟩,
  ⟨0x7C0200, 16, 0x10, rowsDBGTC⟩,
  ⟨0x7C0400, 1, 0x100, rowsDBGTEL⟩,
  ⟨0x7C1000, 1, 0x28, rowsDBGST⟩,
  ⟨0x800000, 1, 0x20, rowsOVR⟩,
  ⟨0x900000, 65536, 0x8, rowsROUTE⟩,
  ⟨0x1000000, 4096, 0x2000, rowsCEL⟩,
  ⟨0x3000000, 4096, 0x400, rowsMTX⟩,
  ⟨0x3400000, 4096, 0x400, rowsELE⟩,
  ⟨0x3800000, 4096, 0x400, rowsCOL⟩,
  ⟨0x3C00000, 64, 0x400, rowsCOLR⟩]

/-- The register of a block that lies at `off` within it. -/
def rowAt : List RegRow → Nat → Option RegRow
  | [], _ => none
  | r :: t, off =>
    if r.off ≤ off ∧ off < r.off + r.count * r.stride ∧ (off - r.off) % r.stride = 0 then some r else rowAt t off

/-- The register at a BAR0 offset, if the manual names one there. -/
def regAt : List BlockRow → Nat → Option RegRow
  | [], _ => none
  | b :: t, off =>
    if b.base ≤ off ∧ off < b.base + b.count * b.stride then
      match rowAt b.regs ((off - b.base) % b.stride) with
      | some r => some r
      | none => regAt t off
    else regAt t off

/-- The register at a BAR0 offset. -/
def regRow (off : Nat) : Option RegRow := regAt regBlocks off

/-- The reset value the field tables give a register. -/
def rowReset (r : RegRow) : Nat := r.fields.foldl (fun v f => v + f.rst % 2 ^ f.wid * 2 ^ f.lo) 0

end Sys2Proof.Machine
end

