-- ==== Sys2Proof/Machine/SysState.lean ====
section
/-! DEFINITION. The state of the sluices, of power, thermal protection, start-up and resets, security and test that no
register holds (chapters "Sluice queues", "Polders, power states and budgets", "Thermal protection", "Start-up, identity and
readiness", "Resets, faults and recovery", "Security, lifecycle and attestation", "Trace, debug and test"). -/
namespace Sys2Proof.Machine

/-- A sluice (R301): the pointers W, W′, R, L and L′ modulo 2C, the mark, the states HI and LO of R307, and the entries by
index. -/
structure Sluice where
  w     : Nat
  wSync : Nat
  r     : Nat
  l     : Nat
  lSync : Nat
  mark  : Option Nat
  hi    : Bool
  lo    : Bool
  data  : SMap (List Byte)
  deriving DecidableEq, Repr

/-- A sluice after reset: empty, LO 1 and HI 0 (R307, R309). -/
def sluiceReset : Sluice :=
  { w := 0, wSync := 0, r := 0, l := 0, lSync := 0, mark := none, hi := false, lo := true, data := [] }

/-- What a pool home holds of a member (R365): its slacks of the interval, newest first, and base, shift and carrier limit. -/
structure PoolMember where
  node   : Nat
  slacks : List Nat
  base   : Nat
  shift  : Int
  limit  : Nat
  deriving DecidableEq, Repr

/-- Power. `state` is 0 Run, 1 Trim, 2 D3hot, 3 Keeper-only, 4 Off (Table 19-2). `rackNew` is a rack cap and `shiftNew` a
budget shift that wait for an edge; `offDue` the polders and `d3Due` the entry into D3hot that wait for one. Needs are in W by
64 × slot + region and by 3 × slot + class, unlisted while they have their initial value; the debt is in nJ. `slotBase` is the edge E of R362, `tides` the tides since,
`slacks` the device's own of the interval, `quiet` the edges since the home last answered, `pool` the members as the home
holds them and `sinceMove` the edges since its last interval ended. -/
structure PwrState where
  state     : Nat
  rackNew   : Option Nat
  shiftNew  : Option Int
  offDue    : Nat
  d3Due     : Bool
  needs     : SMap Rat
  needOther : SMap Rat
  debt      : Nat
  slotBase  : Nat
  tides     : Nat
  slacks    : List Nat
  quiet     : Nat
  pool      : List PoolMember
  sinceMove : Nat
  deriving DecidableEq, Repr

/-- Power before the first start. -/
def pwrReset : PwrState :=
  { state := 4, rackNew := none, shiftNew := none, offDue := 0, d3Due := false, needs := [], needOther := [], debt := 0,
    slotBase := 0, tides := 0, slacks := [], quiet := 0, pool := [], sinceMove := 0 }

/-- A region's thermal state. Sensors are numbered 0 to 3 for the die and 4 + 2(l − 1) + j for sensor j of layer l; readings
are in quarter degrees. `missed` counts samples in a row without an answer, `good` good ones in a row of an invalid sensor,
`low` and `near` evaluations in a row of R376, `held` those in which a trigger has held since the last rise, `quiet` those of
rule 4 of R379 since the last fall, `cool` those of R382. -/
structure ThmRegion where
  reads  : SMap Int
  est    : List Rat
  missed : SMap Nat
  good   : SMap Nat
  low    : SMap Nat
  near   : SMap Nat
  beats  : List Nat
  held   : Nat
  quiet  : Nat
  cool   : Nat
  deriving DecidableEq, Repr

/-- A region's thermal state after reset. -/
def thmReset : ThmRegion :=
  { reads := [], est := [0, 0, 0, 0], missed := [], good := [], low := [], near := [], beats := [0, 0, 0], held := 0,
    quiet := 0, cool := 0 }

/-- A keeper request that a reset or stop answers when it ends: mailbox 0 to 2, OP and TAG. -/
structure KeeperReq where
  mbx : Nat
  op  : Nat
  tag : Nat
  deriving DecidableEq, Repr

/-- A reset in progress (R398, R399): scope code and target, whether its levee stands, and the requests it answers. -/
structure ResetRun where
  scope  : Nat
  target : Nat
  raised : Bool
  owed   : List KeeperReq
  deriving DecidableEq, Repr

/-- The keeper, the supplies and the side-band pins. `coolLow` is COOL_FAIL_N asserted, `coolAt` when it was last
deasserted, `rstLow` SYS_RST_N asserted; straps are latched levels. `stop` is the hardware stop in
progress: its stage and the value LAST_STOP takes. `groups` counts the region groups switched on in this bring-up, `svnFloor`
is the floor of R418, `wdAt` the time of the last watchdog restart that the loaded patch caused, `armed` that an accepted power-on
waits to begin, `lastTide` TID_COUNT as last recorded before the base die lost its supply, and `outbox` the response entries
that wait for room in a response mailbox. -/
structure KeeperState where
  vaux      : Bool
  vin       : Bool
  vddq      : Bool
  sysclk    : Bool
  coolLow   : Bool
  coolAt    : Nat
  rstLow    : Bool
  strapTide : Bool
  strapOwn  : Bool
  running   : Bool
  bringing  : Bool
  groups    : Nat
  vddqWait  : Bool
  stop      : Option (Nat × Nat)
  prec      : Option PkgRec
  carrier   : Option (List Byte)
  resets    : List ResetRun
  i3c       : Bool
  dynAddr   : Option Nat
  patch     : Option FwPatch
  svnFloor  : Nat
  wdAt      : Option Nat
  armed     : Bool
  lastTide  : Nat
  outbox    : List (Nat × List Byte)
  deriving DecidableEq, Repr

/-- The keeper with no supply. COOL_FAIL_N, PERST and the straps read their pulls (Table 25-4). -/
def keeperReset : KeeperState :=
  { vaux := false, vin := false, vddq := false, sysclk := false, coolLow := true, coolAt := 0, rstLow := false,
    strapTide := false, strapOwn := false, running := false, bringing := false,
    groups := 0, vddqWait := false, stop := none, prec := none, carrier := none, resets := [], i3c := false, dynAddr := none,
    patch := none, svnFloor := 0, wdAt := none, armed := false, lastTide := 0, outbox := [] }

/-- Work that SEC_STATUS.BUSY reports (R424, R418, R420). -/
inductive SecJob where
  | token (addr len nonce0 nonce1 : Nat)
  | firmware (addr len : Nat)
  | anchor (addr slot roles : Nat)
  deriving DecidableEq, Repr

/-- An owner trust anchor (R420): its roles, bit 0 PATTERN and bit 1 DEBUG, and its certificate. -/
structure Anchor where
  roles : Nat
  cert  : List Byte
  deriving DecidableEq, Repr

/-- An SPDM session: transport (0 port A, 1 port B, 2 MCTP), number, and whether FINISH has completed its handshake. -/
structure SpdmSession where
  via  : Nat
  id   : Nat
  done : Bool
  deriving DecidableEq, Repr

/-- Security: the job in progress, owner anchors by slot, the last accepted token, how often the generator has been drawn
from, the sessions, and how far each transport has negotiated. -/
structure SecState where
  job      : Option SecJob
  anchors  : SMap (Option Anchor)
  token    : List Byte
  draws    : Nat
  sessions : List SpdmSession
  nextId   : Nat
  stage    : SMap Nat
  deriving DecidableEq, Repr

/-- Security before the first keeper start. -/
def secReset : SecState := { job := none, anchors := [], token := [], draws := 0, sessions := [], nextId := 0, stage := [] }

/-- The test access port (R446): the instruction decoded, and the boundary cells as preloaded and as sampled. -/
structure TapState where
  ir      : Nat
  preload : Nat
  sampled : Nat
  deriving DecidableEq, Repr

/-- The test access port after reset: IDCODE, as IEEE 1149.1 has it. -/
def tapReset : TapState := { ir := 0x01, preload := 0, sampled := 0 }

end Sys2Proof.Machine
end

