-- ==== Sys2Proof/Machine/TideState.lean ====
section
/-! DEFINITION. The state of the tide and of the Pattern stage that no register holds (chapters "The tide" and
"Patterns, patches and spatial pipelines"). -/
namespace Sys2Proof.Machine

/-- An edge that has been announced and not fired (R229); `why` is the reason of R214 (15 to 17) for a switch that fails,
`stop` that the tide stops after it, `heardAt` when the device came to know of it. -/
structure Announce where
  n         : Nat
  fireAt    : Nat
  overrun   : Bool
  switch    : Bool
  why       : Nat
  stop      : Bool
  param     : TideSec
  heardAt   : Nat
  deriving DecidableEq, Repr

/-- One entry of the overrun record (Table 12-5). -/
structure OvrEntry where
  cell      : Nat
  thread    : Nat
  st        : Nat
  stallOn   : Nat
  patch     : Nat
  waitPatch : Nat
  waitGauge : Nat
  threshold : Nat
  value     : Nat
  pc        : Nat
  tag       : Nat
  fault     : Nat
  deriving DecidableEq, Repr

/-- The overrun record (R239); `ready` says that its content stands but VALID is still to be set. -/
structure OvrRec where
  valid   : Bool
  dropped : Nat
  fault   : Bool
  edge    : Nat
  time    : Nat
  first   : Nat
  missing : Nat
  stretch : Nat
  entries : List OvrEntry
  ready   : Bool
  deriving DecidableEq, Repr

/-- The tide. `startAsked` is a START or RESUME held back by a thread in BREAK (R234). `seed` and `step` are the device seed and the step value of R114; `seedAt` is a seed waiting for its edge. -/
structure TideState where
  next      : Option Announce
  children  : List Nat
  arrived   : List Nat
  sentArr   : Bool
  arrivedAt : Option Nat
  ready     : List (Nat × Nat × Nat × Nat)
  withdrawn : Bool
  heardWithdraw : Bool
  sentReady : Bool
  startAsked : Bool
  stopAsked : Bool
  cfgWritten : Bool
  ovr       : OvrRec
  seed      : Word
  step      : Nat
  deriving DecidableEq, Repr

/-- A staged or active image: identity, gang fields, minima, whether it is signed and the digest that is measured (Table 23-5),
the edge it took effect on, and its bodies. -/
structure PatImage where
  id       : Nat
  version  : Nat
  job      : Nat
  gang     : Bool
  nodes    : Nat
  digest   : Nat
  minima   : List Nat
  signed   : Bool
  sum      : Nat
  edge     : Nat
  body     : PatBody
  deriving DecidableEq, Repr

/-- The Pattern stage: staged and active images, the address and length of a load in progress, which ring command asked for
the load or the switch (ring and SEQ; none for a register write), the edge of the switch, the gauges of the patches homed
here, the SIZ figures of other members, and sums that wait for an edge. -/
structure PatState where
  loading  : Option (Nat × Nat)
  due      : Nat
  sums     : List (Nat × List Nat)
  staged   : Option PatImage
  active   : Option PatImage
  loadCmd  : Option (Nat × Nat)
  swCmd    : Option (Nat × Nat)
  gauges   : SMap Word
  siz      : List (Nat × List Nat)
  deriving DecidableEq, Repr

/-- The overrun record after reset: empty. -/
def ovrReset : OvrRec :=
  { valid := false, dropped := 0, fault := false, edge := 0, time := 0, first := 0, missing := 0, stretch := 0,
    entries := [], ready := false }

/-- The tide after reset: stopped, nothing announced, seed 0. -/
def tideReset : TideState :=
  { next := none, children := [], arrived := [], sentArr := false, arrivedAt := none, ready := [], withdrawn := false, heardWithdraw := false, sentReady := false,
    startAsked := false, stopAsked := false, cfgWritten := false, ovr := ovrReset, seed := 0, step := 0 }

/-- No image staged or active. -/
def patReset : PatState :=
  { loading := none, due := 0, sums := [], staged := none, active := none, loadCmd := none, swCmd := none, gauges := [], siz := [] }

end Sys2Proof.Machine
end

