-- ==== Sys2Proof/Machine/State.lean ====
section
/-! DEFINITION. The state of the part: the device, all of what the manual names in it, and the queue of commands that
wait. Plain data. -/
namespace Sys2Proof.Machine

/-- What the part sends out: what an observer at its lands sees. -/
inductive Out where
  | msix (port vector : Nat)
  | hostWrite (port addr : Nat) (ep : Bool) (bytes : List Byte)
  | pcieRead (port : Nat) (st : Status) (poison : Bool) (bytes : List Byte)
  | pcieUr (port : Nat)
  | pcieCa (port : Nat)
  | pcieRetry (port : Nat)
  | pcieCfg (port : Nat) (value : Nat)
  | pin (name : String) (level : Bool)
  | flit (port : Nat) (f : Flit)
  | control (port : Nat) (lanes : Nat) (epoch : Nat) (width : Nat)
  | spdm (via : Nat) (answer : SpdmAnswer) (body : List Byte)
  | tap (value : Nat)
  | sluice (index status : Nat) (entry : List Byte)
  deriving DecidableEq, Repr

/-- A fault record (Table 22-4) with its place in the log. -/
structure FaultRec where
  seq     : Nat
  off     : Nat
  edge    : Nat
  time    : Nat
  typ     : Nat
  st      : Status
  flags   : Nat
  uclass  : Nat
  unit    : Nat
  tag     : Nat
  cause   : Nat
  det0    : Nat
  det1    : Nat
  payload : List Byte
  deriving DecidableEq, Repr

/-- An update on its way to a patch gauge homed on this device (R217). -/
structure GaugeUpd where
  patch : Nat
  gauge : Nat
  src   : GaugeSource
  cell  : Nat
  node  : Nat
  op    : GaugeOp
  deriving DecidableEq, Repr

/-- The device. Register contents are in `regs`, keyed by BAR0 offset; a register that the state below determines is
composed when it is read (the `view` rows of RegMap). Memory is keyed by node-local address. `frozen` marks the regions whose
clocks DBG_FREEZE has stopped (R445). -/
structure Dev where
  regs    : SMap Word
  mem     : SMap Byte
  poison  : SMap Bool
  cells   : SMap Cell
  far     : FarState
  map     : Option XltMap
  probing : Bool
  ports   : SMap Port
  flows   : List Flow
  rids    : SMap (Option RidRec)
  inbox   : List Msg
  toRoute : List Msg
  reqWait : List (RidRec × Msg)
  pcie    : SMap PciePortState
  rings   : SMap Ring
  latchNo : Nat
  tide    : TideState
  pat     : PatState
  clv     : ClvState
  meshOff : List Nat
  frozen  : Nat
  rgnUp   : Nat
  ceWin   : SMap Nat
  tierPos : SMap Nat
  hbmList : List Nat
  ddrList : List Nat
  gaugeq  : List GaugeUpd
  slc     : SMap Sluice
  pwr     : PwrState
  thm     : SMap ThmRegion
  kpr     : KeeperState
  levees  : List (Nat × Nat)
  sec     : SecState
  tap     : TapState
  trace   : SMap Nat
  flog    : List FaultRec
  flogSeq : Nat
  flogEnd : Nat
  now     : Nat
  free    : Nat
  out     : List Out
  deriving DecidableEq, Repr

/-- The state: the device, and the commands that wait, first in first out. -/
structure State where
  pending : List Instr
  dev     : Dev
  deriving DecidableEq, Repr

/-- No command of this block ends in a fault. -/
inductive Fault where
  /-- Raised by no command; the block reports every fault the manual names as state. Safe. -/
  | none
  deriving DecidableEq, Repr

/-- Refusals. -/
inductive Refusal where
  /-- Raised by exec for a command that has no meaning yet. Safe. -/
  | notModelled (mnemonic : String)
  deriving DecidableEq, Repr

/-- The device after reset. -/
def devReset : Dev :=
  { regs := [], mem := [], poison := [], cells := [], far := farReset, map := none, probing := false, ports := [], flows := [], rids := [], inbox := [],
    toRoute := [], reqWait := [], pcie := [], rings := [], latchNo := 0, tide := tideReset, pat := patReset, clv := clvReset,
    meshOff := [], frozen := 0, rgnUp := 0, ceWin := [], tierPos := [], hbmList := [], ddrList := [], gaugeq := [],
    slc := [], pwr := pwrReset, thm := [], kpr := keeperReset, levees := [], sec := secReset, tap := tapReset, trace := [], flog := [], flogSeq := 0, flogEnd := 0, now := 0, free := 0, out := [] }

/-- The part right after reset, with no command waiting. -/
def State.reset : State := { pending := [], dev := devReset }

end Sys2Proof.Machine
end

