-- ==== Sys2Proof/Machine/Ops.lean ====
section
/-! DEFINITION. The named operations over registers, memory, events and the fault log that every meaning uses. -/
namespace Sys2Proof.Machine

/-! ## Status codes -/

/-- Encoding of a status (Table 18-1, R14, R324). -/
def statusCode : Status → Nat
  | .ok => 0x00 | .aborted => 0x01 | .abortTooLate => 0x02 | .resetAborted => 0x03 | .tideOverrun => 0x04
  | .digestMismatch => 0x05 | .xltFault => 0x06 | .retiredResource => 0x07 | .securityDenied => 0x08
  | .poisoned => 0x09 | .notReady => 0x0A

/-- The status an encoding stands for; codes above 0x0A are never reported (R324). -/
def statusOf : Nat → Status
  | 0x00 => .ok | 0x01 => .aborted | 0x02 => .abortTooLate | 0x03 => .resetAborted | 0x04 => .tideOverrun
  | 0x05 => .digestMismatch | 0x06 => .xltFault | 0x07 => .retiredResource | 0x08 => .securityDenied
  | 0x09 => .poisoned | _ => .notReady

/-! ## The register file (R9, R10) -/

/-- log2 of the capacity of sluice s (Table 16-2). -/
def sluiceLog2 (s : Nat) : Nat :=
  if s ≤ 1 then 8 else if s ≤ 27 then 12 else if s ≤ 39 then 8 else 4

/-- What a register holds after reset: the reset values of its fields, where the tables make them depend on the index. -/
def regDefault (off : Nat) : Word :=
  if SLC_WM 0 ≤ off ∧ off < SLC_WM 46 ∧ (off - SLC_WM 0) % 0x20 = 0 then
    let c := 2 ^ sluiceLog2 ((off - SLC_WM 0) / 0x20)
    BitVec.ofNat 64 ((7 * c / 8) * 2 ^ 39 + (c / 2) * 2 ^ 26 + (c / 4) * 2 ^ 13 + c / 8)
  else if off = SIZ_HDR 0 then BitVec.ofNat 64 (2 ^ 63 + 2 * 2 ^ 59 + 1)
  else match regRow off with
    | some r => BitVec.ofNat 64 (rowReset r)
    | none => 0

/-- Raw content of a register. -/
def rget (d : Dev) (off : Nat) : Word := smGet regDefault d.regs off

/-- Writing a register's content. -/
def rset (d : Dev) (off : Nat) (v : Word) : Dev := { d with regs := smSet regDefault d.regs off v }

/-- Bits of a word. -/
def bitsOf (w : Word) (lo wid : Nat) : Nat := w.toNat / 2 ^ lo % 2 ^ wid

/-- A word with one field replaced; the value is taken modulo the field's width. -/
def setBits (w : Word) (lo wid v : Nat) : Word :=
  BitVec.ofNat 64 (w.toNat - bitsOf w lo wid * 2 ^ lo + v % 2 ^ wid * 2 ^ lo)

/-- A field of a register. -/
def fget (d : Dev) (f : Fld) : Nat := bitsOf (rget d f.off) f.lo f.wid

/-- A field of a register, as a flag. -/
def fbit (d : Dev) (f : Fld) : Bool := fget d f != 0

/-- Writing a field of a register. -/
def fset (d : Dev) (f : Fld) (v : Nat) : Dev := rset d f.off (setBits (rget d f.off) f.lo f.wid v)

/-- Adding to a saturating counter field. -/
def fcount (d : Dev) (f : Fld) (n : Nat) : Dev := fset d f (min (fget d f + n) (2 ^ f.wid - 1))

/-- Adding to a wrapping counter field. -/
def fwrap (d : Dev) (f : Fld) (n : Nat) : Dev := fset d f ((fget d f + n) % 2 ^ f.wid)

/-- Subtracting from a field, no lower than 0. -/
def fsub (d : Dev) (f : Fld) (n : Nat) : Dev := fset d f (fget d f - n)

/-- Bit n of a 64-bit map register. -/
def rbit (d : Dev) (off n : Nat) : Bool := (rget d off).toNat.testBit n

/-- Setting or clearing bit n of a map register. -/
def rsetBit (d : Dev) (off n : Nat) (b : Bool) : Dev := fset d ⟨off, n, 1⟩ (if b then 1 else 0)

/-- A register of a scope back at its reset value (R11), RWS fields apart. -/
def rwsMask (off : Nat) : Nat :=
  match regRow off with
  | some r => r.fields.foldl (fun m f => if f.acc = .rws then m + (2 ^ f.wid - 1) * 2 ^ f.lo else m) 0
  | none => 0

/-- Every register whose offset satisfies `p` back at its reset value, with RWS fields kept (R11). -/
def resetRegs (d : Dev) (p : Nat → Bool) : Dev :=
  let keep := d.regs.filter (fun e => p e.1 && rwsMask e.1 != 0)
  let d1 := { d with regs := smKeep (fun o => !p o) d.regs }
  keep.foldl (fun d e => rset d e.1 ((e.2 &&& BitVec.ofNat 64 (rwsMask e.1)) |||
    (regDefault e.1 &&& ~~~ BitVec.ofNat 64 (rwsMask e.1)))) d1

/-- Registers whose offset satisfies `p` back at their reset value, RWS fields too (keeper reset, R11). -/
def wipeRegs (d : Dev) (p : Nat → Bool) : Dev := { d with regs := smKeep (fun o => !p o) d.regs }

/-! ## Cells, ports, rings -/

/-- The default of a map of cells. -/
def cellDflt (_ : Nat) : Cell := cellReset

/-- Cell c. -/
def getCell (d : Dev) (c : Nat) : Cell := smGet cellDflt d.cells c

/-- Cell c replaced. -/
def setCell (d : Dev) (c : Nat) (x : Cell) : Dev := { d with cells := smSet cellDflt d.cells c x }

/-- Cell c changed. -/
def modCell (d : Dev) (c : Nat) (f : Cell → Cell) : Dev := setCell d c (f (getCell d c))

/-- Thread t of a cell. -/
def getTh (x : Cell) (t : Nat) : Thread := smGet (fun _ => threadReset) x.threads t

/-- Thread t of a cell replaced. -/
def setTh (x : Cell) (t : Nat) (th : Thread) : Cell :=
  { x with threads := smSet (fun _ => threadReset) x.threads t th }

/-- Thread t of cell c changed. -/
def modTh (d : Dev) (c t : Nat) (f : Thread → Thread) : Dev :=
  modCell d c (fun x => setTh x t (f (getTh x t)))

/-- Thread t of cell c. -/
def thread (d : Dev) (c t : Nat) : Thread := getTh (getCell d c) t

/-- Trafort port p. -/
def getPort (d : Dev) (p : Nat) : Port := smGet (fun _ => portReset) d.ports p

/-- Trafort port p changed. -/
def modPort (d : Dev) (p : Nat) (f : Port → Port) : Dev :=
  { d with ports := smSet (fun _ => portReset) d.ports p (f (getPort d p)) }

/-- PCIe port p. -/
def getPcie (d : Dev) (p : Nat) : PciePortState := smGet (fun _ => pciePortReset) d.pcie p

/-- PCIe port p changed. -/
def modPcie (d : Dev) (p : Nat) (f : PciePortState → PciePortState) : Dev :=
  { d with pcie := smSet (fun _ => pciePortReset) d.pcie p (f (getPcie d p)) }

/-- The number of ring r of port p among the 32 rings. -/
def ringNo (p r : Nat) : Nat := 16 * p + r

/-- A ring. -/
def getRing (d : Dev) (k : Nat) : Ring := smGet (fun _ => ringReset) d.rings k

/-- A ring changed. -/
def modRing (d : Dev) (k : Nat) (f : Ring → Ring) : Dev :=
  { d with rings := smSet (fun _ => ringReset) d.rings k (f (getRing d k)) }

/-- Region of a cell (R32). -/
def regionOf (c : Nat) : Nat := 8 * (c / 64 / 8) + c % 64 / 8

/-- The cells of region r, in ascending order. -/
def cellsOf (r : Nat) : List Nat :=
  (List.range 64).map (fun k => 64 * (8 * (r / 8) + k / 8) + 8 * (r % 8) + k % 8)

/-! ## Bytes -/

/-- Little-endian number of a list of bytes (R5). -/
def leNat : List Byte → Nat
  | [] => 0
  | b :: t => b.toNat + 256 * leNat t

/-- The n little-endian bytes of a number. -/
def leBytes : Nat → Nat → List Byte
  | 0, _ => []
  | n + 1, v => BitVec.ofNat 8 v :: leBytes n (v / 256)

/-- One byte of memory. -/
def rdByte (d : Dev) (a : Nat) : Byte := smGet (fun _ => 0) d.mem a

/-- One byte of memory written. -/
def wrByte (d : Dev) (a : Nat) (b : Byte) : Dev := { d with mem := smSet (fun _ => 0) d.mem a b }

/-- The n bytes of memory from a onward. -/
def rdBytes (d : Dev) (a n : Nat) : List Byte := (List.range n).map (fun i => rdByte d (a + i))

/-- Little-endian number of the n bytes from a onward. -/
def rdNat (d : Dev) (a n : Nat) : Nat := leNat (rdBytes d a n)

/-- Bytes written from a onward. -/
def wrBytes (d : Dev) : Nat → List Byte → Dev
  | _, [] => d
  | a, b :: t => wrBytes (wrByte d a b) (a + 1) t

/-! ## Poison (R146, R147): one mark per 64 B granule -/

/-- The granules that n bytes from a touch. -/
def granules (a n : Nat) : List Nat :=
  if n = 0 then [] else (List.range ((a + n - 1) / 64 - a / 64 + 1)).map (fun i => a / 64 + i)

/-- Whether granule g is poisoned. -/
def granBad (d : Dev) (g : Nat) : Bool := smGet (fun _ => false) d.poison g

/-- Marking granule g. -/
def setGran (d : Dev) (g : Nat) (b : Bool) : Dev := { d with poison := smSet (fun _ => false) d.poison g b }

/-- Whether a read of n bytes from a touches a poisoned granule. -/
def isPoison (d : Dev) (a n : Nat) : Bool := (granules a n).any (granBad d)

/-- A write of bytes at a: clean data that covers a whole granule clears its mark, a partial write leaves it, and
poisoned data marks every granule it touches (R147). -/
def storeNow (d : Dev) (a : Nat) (bytes : List Byte) (bad : Bool) : Dev :=
  let n := bytes.length
  let d1 := wrBytes d a bytes
  (granules a n).foldl (fun d g =>
    if bad then setGran d g true
    else if a ≤ 64 * g ∧ 64 * g + 64 ≤ a + n then setGran d g false else d) d1

/-- Every granule that n bytes from a touch marked poisoned, contents unchanged. -/
def poisonRange (d : Dev) (a n : Nat) : Dev := (granules a n).foldl (fun d g => setGran d g true) d

/-! ## Events and MSI-X (R319) -/

/-- Vector n of port p is signalled, or left pending if its entry or the function is masked. -/
def signalMsix (d : Dev) (p n : Nat) : Dev :=
  let q := getPcie d p
  let e := smGet (fun _ => msixReset) q.msix n
  if !q.msixOn || 28 ≤ n then d
  else if e.masked || q.msixMask then
    modPcie d p (fun q => { q with msix := smSet (fun _ => msixReset) q.msix n { e with pend := true } })
  else { d with out := d.out ++ [.msix p n] }

/-- Bit n of port p's HIF_EVENT is set; a change from 0 to 1 signals its vector. -/
def raiseEvent (d : Dev) (p n : Nat) : Dev :=
  if rbit d (HIF_EVENT p) n then d else signalMsix (rsetBit d (HIF_EVENT p) n true) p n

/-- The event on both ports. -/
def raiseBoth (d : Dev) (n : Nat) : Dev := raiseEvent (raiseEvent d 0 n) 1 n

/-- Adding to what the part sends out. -/
def emit (d : Dev) (o : Out) : Dev := { d with out := d.out ++ [o] }

/-! ## Trace and tag counters (R437 to R439) -/

/-- Whether the tag of some work matches a value under a mask. -/
def tagMatch (tag val mask : Nat) : Bool := (tag.xor val).land mask == 0

/-- Records the trace buffer holds (R438). -/
def traceCap : Nat := 262144

/-- One 16 B record at the write pointer (R438): WRAP goes round, STOP ends the trace when the buffer is full. -/
def tracePut (d : Dev) (rec : Nat) : Dev :=
  if !fbit d DBG_TRC_STATUS_RUNNING then d else
    let w := fget d DBG_TRC_STATUS_WPTR
    let d := { d with trace := smSet (fun _ => 0) d.trace w rec }
    if w + 1 < traceCap then fset d DBG_TRC_STATUS_WPTR (w + 1)
    else if fbit d DBG_TRC_CFG_MODE then
      fset (fset (fset d DBG_TRC_STATUS_WPTR 0) DBG_TRC_STATUS_FULL 1) DBG_TRC_STATUS_RUNNING 0
    else fset d DBG_TRC_STATUS_WPTR 0

/-- An event offered to the trace (R437, Tables 24-2 and 24-3). `src` below 4,096 is a cell, whose region must be
selected; `ext` is the extension of classes 0 to 3: first address, and length or gauge value. -/
def traceEv (d : Dev) (cls ev tag src sub : Nat) (st : Status) (ext : Nat × Nat) : Dev :=
  let on := fbit d DBG_TRC_STATUS_RUNNING && (fget d DBG_TRC_CFG_EVENTS).testBit cls &&
    tagMatch tag (fget d DBG_TRC_CFG_TAG_VAL) (fget d DBG_TRC_CFG_TAG_MASK) &&
    (decide (4096 ≤ src) || rbit d DBG_TRC_RGN (regionOf src))
  if !on then d else
    let rec_ := d.now % 2 ^ 40 + ev * 2 ^ 40 + tag % 2 ^ 16 * 2 ^ 48 + src % 2 ^ 16 * 2 ^ 64 + sub % 2 ^ 8 * 2 ^ 80 +
      statusCode st * 2 ^ 88 + (rget d TID_COUNT).toNat % 2 ^ 32 * 2 ^ 96
    let d := tracePut d rec_
    if decide (cls ≤ 3) && fbit d DBG_TRC_CFG_DATA && (fget d SEC_DBG_PERMS_PERMS).testBit 4 then
      tracePut d (ext.1 % 2 ^ 64 + ext.2 % 2 ^ 64 * 2 ^ 64)
    else d

/-- Tag counters count a completion or commit of class 1, 2 or 4 (R439). -/
def countTag (d : Dev) (cls tag : Nat) (st : Status) : Dev :=
  (List.range 16).foldl (fun d j =>
    let sel := (if cls = 1 then 1 else if cls = 2 then 2 else 4 : Nat)
    if (fget d (DBG_TAGCTR_CFG_CLASS j)).land sel != 0 &&
        tagMatch tag (fget d (DBG_TAGCTR_CFG_TAG_VAL j)) (fget d (DBG_TAGCTR_CFG_TAG_MASK j)) then
      let d := fcount d (DBG_TAGCTR_COMPLETED j) 1
      if st = .ok then d else fcount d (DBG_TAGCTR_NOT_OK j) 1
    else d) d

/-! ## The fault log (R407) -/

/-- Bytes of the fault log. -/
def flogSize : Nat := 4 * 2 ^ 20

/-- Bytes a record takes. -/
def recLen (payload : List Byte) : Nat := (64 + payload.length + 63) / 64 * 64

/-- One record placed at the end of the log; the oldest records that it overlaps are overwritten whole. -/
def placeRec (d : Dev) (r : FaultRec) (size : Nat) : Dev :=
  let gone := d.flog.filter (fun o => decide (o.off < r.off + size ∧ r.off < o.off + recLen o.payload))
  let kept := d.flog.filter (fun o => !decide (o.off < r.off + size ∧ r.off < o.off + recLen o.payload))
  let log := kept ++ [r]
  let d := { d with flog := log, flogSeq := d.flogSeq + 1, flogEnd := (r.off + size) % flogSize }
  let oldest := log.headD r
  let d := fcount d KPR_FLOG_STATUS_OVERWRITTEN gone.length
  let d := fset d KPR_FLOG_STATUS_NEWEST_OFF (r.off / 64)
  let d := fset d KPR_FLOG_STATUS_OLDEST_OFF (oldest.off / 64)
  let d := fset d KPR_FLOG_NEWEST_SEQ r.seq
  fset d KPR_FLOG_OLDEST_SEQ oldest.seq

/-- A fault record written (R407): a PAD record first where it would wrap past the end; then HIF_EVENT bit 19. -/
def addFault (d : Dev) (typ : Nat) (st : Status) (flags uclass unit tag cause det0 det1 : Nat)
    (payload : List Byte) : Dev :=
  let size := recLen payload
  let edge := (rget d TID_COUNT).toNat
  let mk := fun (d : Dev) (t : Nat) (p : List Byte) (s : Status) (f u n g c a b : Nat) =>
    ({ seq := d.flogSeq, off := d.flogEnd, edge := edge, time := d.now, typ := t, st := s, flags := f, uclass := u,
       unit := n, tag := g, cause := c, det0 := a, det1 := b, payload := p } : FaultRec)
  let d := if flogSize < d.flogEnd + size then
      let fill := flogSize - d.flogEnd
      placeRec d (mk d 0 (List.replicate (fill - 64) 0) .ok 0 0 0 0 0 0 0) fill
    else d
  let d := placeRec d (mk d typ payload st flags uclass unit tag cause det0 det1) size
  traceEv (raiseBoth d 19) 7 0x60 tag (if uclass = 1 then unit else 0xFFFF) typ st (0, 0)

/-! ## CRC-32 of the package record (R28) and CRC-64 (R283) -/

/-- One byte into a reflected CRC-32. -/
def crc32Byte (crc : Nat) (b : Byte) : Nat :=
  (List.range 8).foldl (fun c _ => if c % 2 = 1 then (c / 2).xor 0xEDB88320 else c / 2) (crc.xor b.toNat)

/-- CRC-32 with the parameters of R28. -/
def crc32 (bs : List Byte) : Nat := (bs.foldl crc32Byte 0xFFFFFFFF).xor 0xFFFFFFFF

/-- One byte into the ECMA-182 CRC-64. -/
def crc64Byte (crc : Nat) (b : Byte) : Nat :=
  (List.range 8).foldl (fun c _ =>
    if c / 2 ^ 63 % 2 = 1 then ((c * 2) % 2 ^ 64).xor 0x42F0E1EBA9EA3693 else (c * 2) % 2 ^ 64)
    (crc.xor (b.toNat * 2 ^ 56))

/-- CRC-64 with the parameters of R283. -/
def crc64 (bs : List Byte) : Nat := bs.foldl crc64Byte 0

/-- The bytes of a fault record as the log holds them (Table 22-4). -/
def recBytes (r : FaultRec) : List Byte :=
  let head := leBytes 8 r.seq ++ leBytes 8 r.edge ++ leBytes 8 r.time ++ leBytes 2 r.typ ++
    leBytes 1 (statusCode r.st) ++ leBytes 1 r.flags ++ leBytes 1 r.uclass ++ leBytes 1 0 ++ leBytes 2 r.unit ++
    leBytes 2 r.tag ++ leBytes 2 r.cause ++ leBytes 4 r.payload.length ++ leBytes 8 r.det0 ++ leBytes 8 r.det1
  let body := head ++ leBytes 4 (crc32 (head ++ r.payload)) ++ leBytes 4 0 ++ r.payload
  body ++ List.replicate (recLen r.payload - body.length) 0

/-- One byte of the fault log window (R408). -/
def flogByte (d : Dev) (a : Nat) : Byte :=
  match d.flog.find? (fun r => decide (r.off ≤ a ∧ a < r.off + recLen r.payload)) with
  | some r => (recBytes r).getD (a - r.off) 0
  | none => 0

/-! ## Free values -/

/-- The number of the next free value, and the device that has used it. -/
def takeFree (d : Dev) : Nat × Dev := (d.free, { d with free := d.free + 1 })

/-! ## Time -/

/-- The device at time t, in ns of TID_TIME; time never goes back. -/
def atTime (d : Dev) (t : Nat) : Dev := { d with now := max d.now t }

/-! ## Lifting to the state -/

/-- A meaning that changes the device and leaves the queue: it answers the next state. -/
def run (s : State) (f : Dev → Dev) : Host.Outcome State Fault Refusal := .next { s with dev := f s.dev }

end Sys2Proof.Machine
end

