-- ==== Sys2Proof/Machine/Mem.lean ====
section
/-! DEFINITION. The node-local address map (Table 10-1), what an access to each kind of memory meets, and memory errors
(chapters "Scratchpad and column memory", "HBM and DDR tiers"). -/
namespace Sys2Proof.Machine

/-- What a node-local address names (Table 10-1): for the near memories the cell and the offset in its range. -/
inductive Place where
  | hbm (off : Nat)
  | ddr (off : Nat)
  | cdram (cell off : Nat)
  | csram (cell off : Nat)
  | sp (cell off : Nat)
  | regs (off : Nat)
  | reserved
  deriving DecidableEq, Repr

/-- Base of the column DRAM, column SRAM, scratchpad and register ranges (Tables 8-1 and 10-1). -/
def cdramBase : Nat := 0x020000000000
def csramBase : Nat := 0x020800000000
def spBase : Nat := 0x020900000000
def regBase : Nat := 0x021000000000
def ddrBase : Nat := 0x010000000000

/-- The node-local map of Table 10-1. -/
def placeOf (a : Nat) : Place :=
  if a < 0x00C000000000 then .hbm a
  else if ddrBase ≤ a ∧ a < 0x020000000000 then .ddr (a - ddrBase)
  else if cdramBase ≤ a ∧ a < 0x020800000000 then .cdram ((a - cdramBase) / 0x800000) ((a - cdramBase) % 0x800000)
  else if csramBase ≤ a ∧ a < 0x020880000000 then .csram ((a - csramBase) / 0x80000) ((a - csramBase) % 0x80000)
  else if spBase ≤ a ∧ a < 0x020940000000 then .sp ((a - spBase) / 0x40000) ((a - spBase) % 0x40000)
  else if regBase ≤ a ∧ a < 0x021004000000 then .regs (a - regBase)
  else .reserved

/-- Node-local address of offset o of cell c's scratchpad (Table 8-1). -/
def spAddr (c o : Nat) : Nat := spBase + c * 0x40000 + o

/-- Size of a scratchpad. -/
def spSize : Nat := 0x40000

/-- Fold of Table "place" (R161). -/
def foldRow (row : Nat) : Nat := (row.xor (row / 2 ^ 14)).land 0x3FFF

/-- R161: the unit that holds offset a of a tier, and the offset within it. -/
def placeUnit (units : List Nat) (a : Nat) : Nat × Nat :=
  let n := units.length
  let g := a / 256
  let row := g / n
  let k := (g % n + foldRow row) % n
  (units.getD k 0, row * 256 + a % 256)

/-- What a channel's state answers to a request (R170, R172, R175): STATE 2 is IN_SERVICE. -/
def chStatus (st : Nat) : Status :=
  if st = 2 then .ok else if st = 5 then .retiredResource else .notReady

/-- HBM channel index 32 × stack + channel of unit u. -/
def hbmChan (u : Nat) : Nat := 32 * (u / 64) + u % 64 / 2

/-- Whether a levee stands around cell c (Table 22-1); around the device, until its region is ready again (R388). -/
def leveeCell (d : Dev) (c : Nat) : Bool :=
  d.levees.any (fun l => (l.1 == 0 && l.2 == c) || (l.1 == 1 && l.2 == regionOf c) || l.1 == 3 ||
    (decide (4 ≤ l.1) && !rbit d KPR_RGN_READY (regionOf c)))

/-- Whether a levee stands around the device. -/
def leveeDevice (d : Dev) : Bool := d.levees.any (fun l => decide (4 ≤ l.1))

/-- Whether a region that is not ready is away for a time: tripped, frozen, switched off, or the part in D3hot (Table 21-2). -/
def rgnAway (d : Dev) (r : Nat) : Bool :=
  rbit d THM_TRIPPED r || d.frozen.testBit r || rbit d PWR_POLDER_OFF r || fget d PWR_STATUS_STATE == 2

/-- The status a near memory of a cell answers before any access (R24, R151, R400, Table 21-2). -/
def nearStatus (d : Dev) (c : Nat) (dram : Bool) : Status :=
  let r := regionOf c
  if leveeCell d c then .resetAborted
  else if (getCell d c).retired then .retiredResource
  else if !rbit d KPR_RGN_SETTLED r then .notReady
  else if !rbit d KPR_RGN_READY r then
    (if rgnAway d r then .notReady else .retiredResource)
  else if rbit d THM_TRIPPED r || d.frozen.testBit r then .notReady
  else if dram && fbit d (COL_RGN_STATUS_DRAM_STOP r) then .notReady
  else .ok

/-- The status a node-local memory address answers (R162, R170, R172, R400 and `nearStatus`); `ok` when the access is
performed. Registers and reserved addresses are refused by translation, not here. -/
def memStatus (d : Dev) (a : Nat) : Status :=
  match placeOf a with
  | .hbm off =>
    if fget d PWR_STATUS_STATE = 2 then .notReady
    else if !fbit d HBM_TIER_STATUS_FIXED then (if leveeDevice d then .resetAborted else .notReady)
    else if fget d HBM_TIER_STATUS_N_UNITS * 2 ^ 31 ≤ off then .retiredResource
    else chStatus (fget d (HBM_CH_STATUS_STATE (hbmChan (placeUnit d.hbmList off).1)))
  | .ddr off =>
    if fget d PWR_STATUS_STATE = 2 then .notReady
    else if !fbit d DDR_TIER_STATUS_FIXED then (if leveeDevice d then .resetAborted else .notReady)
    else if fget d DDR_TIER_STATUS_N_UNITS * 2 ^ 37 ≤ off then .retiredResource
    else chStatus (fget d (DDR_CH_STATUS_STATE (placeUnit d.ddrList off).1))
  | .cdram c _ => nearStatus d c true
  | .csram c _ => nearStatus d c false
  | .sp c _ => nearStatus d c false
  | .regs _ => .xltFault
  | .reserved => .xltFault

/-! ## Writes held for the matrix engine (R64) -/

/-- Whether a write of n bytes at a meets a range that a running matrix command, or a chain part that waits, of cell c
reads. -/
def heldBy (x : Cell) (c a n : Nat) : Bool :=
  let hits := fun (r : MtxRun) => r.ranges.any (fun p =>
    decide (spAddr c p.1 < a + n ∧ a < spAddr c p.1 + p.2))
  (match x.mrun with | some r => hits r | none => false) || x.mchain.any hits

/-- A range cut at the multiples of `blk`: place of each piece in the range, and its length. -/
def cutAt (blk a n : Nat) : List (Nat × Nat) :=
  if n = 0 then [] else
    (List.range ((a + n - 1) / blk - a / blk + 1)).map (fun k =>
      let lo := max a ((a / blk + k) * blk)
      let hi := min (a + n) ((a / blk + k + 1) * blk)
      (lo - a, hi - lo))

/-- A write to a memory of this device, granule by granule: the scratchpad holds a granule's bytes that a matrix command
reads. The number says how many are held. -/
def storeHeld (d : Dev) (a : Nat) (bytes : List Byte) (bad : Bool) (who : HeldFor) : Dev × Nat :=
  match placeOf a with
  | .sp c _ =>
    if !heldBy (getCell d c) c a bytes.length then (storeNow d a bytes bad, 0) else
      (cutAt 64 a bytes.length).foldl (fun (d, n) p =>
        let bs := (bytes.drop p.1).take p.2
        let x := getCell d c
        if heldBy x c (a + p.1) p.2 then
          (setCell d c { x with held := x.held ++ [{ addr := a + p.1, bytes := bs, poison := bad, who := who }] }, n + 1)
        else (storeNow d (a + p.1) bs bad, n)) (d, 0)
  | _ => (storeNow d a bytes bad, 0)

/-- A write by an engine. -/
def store (d : Dev) (a : Nat) (bytes : List Byte) (bad : Bool) : Dev := (storeHeld d a bytes bad .engine).1

/-- The first status other than OK over the granules of a range. -/
def rangeStatus (d : Dev) (a n : Nat) : Status :=
  (granules a n).foldl (fun s g => if s = .ok then memStatus d (max a (64 * g)) else s) .ok

/-- The layer 1 to 4 of a column offset, 0 to 3 here (Table 8-1). -/
def layerOf (dram : Bool) (off : Nat) : Nat :=
  if dram then (if off < 0x400000 then 2 else 3) else (if off < 0x40000 then 0 else 1)

/-- Beats of n bytes from an offset: 32 B on the DRAM channel, 128 B on the SRAM channel (R144). -/
def beats (dram : Bool) (off n : Nat) : Nat :=
  let b := if dram then 32 else 128
  if n = 0 then 0 else (off + n - 1) / b - off / b + 1

/-- Beats of an access counted in COL_RD or COL_WR and in COL_RGN_ACC (R153). -/
def countBeats (d : Dev) (a n : Nat) (write : Bool) : Dev :=
  let go := fun (c off : Nat) (dram : Bool) =>
    let k := beats dram off n
    let l := layerOf dram off
    let d := if write then fwrap d (COL_WR_BEATS c l) k else fwrap d (COL_RD_BEATS c l) k
    fwrap d (COL_RGN_ACC_BEATS (regionOf c) l) k
  match placeOf a with
  | .cdram c off => go c off true
  | .csram c off => go c off false
  | _ => d

/-- KPR_READY bits of the stacks, the DDR channels and the tiers (Table 21-6, R390). -/
def tierReady (d : Dev) : Dev :=
  let live := fun (st : Nat) => st == 2 || st == 3
  let hbm := (List.range 6).foldl (fun v s =>
    if (List.range 32).any (fun ch => live (fget d (HBM_CH_STATUS_STATE (32 * s + ch)))) then v + 2 ^ s else v) 0
  let ddr := (List.range 8).foldl (fun v k => if live (fget d (DDR_CH_STATUS_STATE k)) then v + 2 ^ k else v) 0
  let d := fset (fset d KPR_READY_HBM hbm) KPR_READY_DDR ddr
  fset (fset d KPR_READY_HBM_TIER (fget d HBM_TIER_STATUS_FIXED)) KPR_READY_DDR_TIER (fget d DDR_TIER_STATUS_FIXED)

/-- Units of the lists whose channel is in service (Table 9-6, IN_SERVICE), and the ready bits. -/
def countInService (d : Dev) : Dev :=
  let d := tierReady d
  let h := (d.hbmList.filter (fun u => fget d (HBM_CH_STATUS_STATE (hbmChan u)) == 2)).length
  let k := (d.ddrList.filter (fun u => fget d (DDR_CH_STATUS_STATE u) == 2)).length
  fset (fset d HBM_TIER_STATUS_IN_SERVICE h) DDR_TIER_STATUS_IN_SERVICE k

/-- A traffic generator that runs on a channel that is stopped or retired ends with RESULT 2 (R177). -/
def tgStop (d : Dev) (busy result done : Fld) : Dev :=
  if fbit d busy then raiseBoth (fset (fset (fset d busy 0) result 2) done 1) 23 else d

/-- The state of HBM channel ch from what holds of it (R173): retired stays, else stopped, else out of service, else in
service; a channel not brought up or in training is left. -/
def hbmSettle (d : Dev) (ch : Nat) : Dev :=
  let st := fget d (HBM_CH_STATUS_STATE ch)
  if st ≤ 1 || st = 5 then d else
    let n := if fget d (HBM_CH_STATUS_REFRESH ch) = 3 then 4 else if fbit d (HBM_CH_CTL_OOS ch) then 3 else 2
    let d := if n = 4 then tgStop d (HBM_TG_RES_BUSY ch) (HBM_TG_RES_RESULT ch) (HBM_TG_RES_DONE ch) else d
    countInService (fset d (HBM_CH_STATUS_STATE ch) n)

/-- The state of DDR channel ch from what holds of it (R173). -/
def ddrSettle (d : Dev) (ch : Nat) : Dev :=
  let st := fget d (DDR_CH_STATUS_STATE ch)
  if st ≤ 1 || st = 5 then d else
    let n := if fget d (DDR_CH_STATUS_REFRESH ch) = 3 then 4 else if fbit d (DDR_CH_CTL_OOS ch) then 3 else 2
    let d := if n = 4 then tgStop d (DDR_TG_RES_BUSY ch) (DDR_TG_RES_RESULT ch) (DDR_TG_RES_DONE ch) else d
    countInService (fset d (DDR_CH_STATUS_STATE ch) n)

/-- An HBM channel retired for the session with its reason of Table 9-8 (R171, R172); a traffic generator that runs on it
ends with RESULT 2 (R177). -/
def retireHbm (d : Dev) (ch reason : Nat) : Dev :=
  if fget d (HBM_CH_STATUS_STATE ch) = 5 then d else
    let d := fset (fset d (HBM_CH_STATUS_STATE ch) 5) (HBM_CH_STATUS_REASON ch) reason
    let d := tgStop d (HBM_TG_RES_BUSY ch) (HBM_TG_RES_RESULT ch) (HBM_TG_RES_DONE ch)
    addFault (countInService d) 0x07 .retiredResource 1 3 ch 0 reason (fget d (HBM_CH_ECC_CE ch))
      (fget d (HBM_CH_ECC_UE ch)) []

/-- A DDR channel retired for the session. -/
def retireDdr (d : Dev) (ch reason : Nat) : Dev :=
  if fget d (DDR_CH_STATUS_STATE ch) = 5 then d else
    let d := fset (fset d (DDR_CH_STATUS_STATE ch) 5) (DDR_CH_STATUS_REASON ch) reason
    let d := tgStop d (DDR_TG_RES_BUSY ch) (DDR_TG_RES_RESULT ch) (DDR_TG_RES_DONE ch)
    addFault (countInService d) 0x07 .retiredResource 1 4 ch 0 reason (fget d (DDR_CH_ECC_CE ch))
      (fget d (DDR_CH_ECC_UE ch)) []

/-- Limits of R171 on uncorrectable errors, checked after one is counted. -/
def ueLimitHbm (d : Dev) (ch : Nat) : Dev :=
  if fget d HBM_RETIRE_THR_UE_LIMIT ≤ fget d (HBM_CH_ECC_UE ch) then retireHbm d ch 4 else d
def ueLimitDdr (d : Dev) (ch : Nat) : Dev :=
  if fget d DDR_RETIRE_THR_UE_LIMIT ≤ fget d (DDR_CH_ECC_UE ch) then retireDdr d ch 4 else d

/-- A corrected error of a channel, counted also in its 10 s window (R171); channel 192 + d is DDR channel d. -/
def ceCount (d : Dev) (k : Nat) : Dev :=
  let n := smGet (fun _ => 0) d.ceWin k + 1
  let d := { d with ceWin := smSet (fun _ => 0) d.ceWin k n }
  if k < 192 then
    let d := fcount d (HBM_CH_ECC_CE k) 1
    if fget d HBM_RETIRE_THR_CE_LIMIT ≤ n then retireHbm d k 5 else d
  else
    let d := fcount d (DDR_CH_ECC_CE (k - 192)) 1
    if fget d DDR_RETIRE_THR_CE_LIMIT ≤ n then retireDdr d (k - 192) 5 else d

/-- Corrected and uncorrectable errors that a read of n bytes from a meets (R146, R167). -/
def eccRead (d : Dev) (e : EccHits) (a n : Nat) : Dev :=
  let inside := fun x => decide (a ≤ x ∧ x < a + n)
  let d := (e.corrected.filter inside).foldl (fun d x => match placeOf x with
    | .sp c _ => fcount d (COL_ECC_CE_SP c) 1
    | .csram c _ => fcount d (COL_ECC_CE_COL c) 1
    | .cdram c _ => fcount d (COL_ECC_CE_COL c) 1
    | .hbm o => ceCount d (hbmChan (placeUnit d.hbmList o).1)
    | .ddr o => ceCount d (192 + (placeUnit d.ddrList o).1)
    | _ => d) d
  (e.uncorrectable.filter inside).foldl (fun d x =>
    let g := x / 64
    if granBad d g then d else
      let d := setGran d g true
      let near := fun (c : Nat) (f : Fld) =>
        let d := fcount d f 1
        let d := rset d (COL_POISON_ADDR c) (BitVec.ofNat 64 (64 * g))
        let d := fset d (COL_STATUS_POISON_SEEN c) 1
        addFault d 0x04 .poisoned 0 1 c 0 0 (64 * g) 0 []
      match placeOf x with
      | .sp c _ => near c (COL_ECC_UE_SP c)
      | .csram c _ => near c (COL_ECC_UE_COL c)
      | .cdram c _ => near c (COL_ECC_UE_COL c)
      | .hbm o =>
        let ch := hbmChan (placeUnit d.hbmList o).1
        let d := rset (fcount d (HBM_CH_ECC_UE ch) 1) (HBM_ERR_ADDR ch) (BitVec.ofNat 64 x)
        ueLimitHbm (addFault d 0x04 .poisoned 0 3 ch 0 0 (64 * g) 0 []) ch
      | .ddr o =>
        let ch := (placeUnit d.ddrList o).1
        let d := rset (fcount d (DDR_CH_ECC_UE ch) 1) (DDR_ERR_ADDR ch) (BitVec.ofNat 64 x)
        ueLimitDdr (addFault d 0x04 .poisoned 0 4 ch 0 0 (64 * g) 0 []) ch
      | _ => d) d

end Sys2Proof.Machine
end

