-- ==== Sys2Proof/Machine/Gauge.lean ====
section
/-! DEFINITION. Gauges (R52 to R55, R217): updates that meet in one cycle, homes, and the waits they satisfy. -/
namespace Sys2Proof.Machine

/-- Rank of a source in the order of R52 and R217, lowest first: host, collective, DMA, stitch by thread. -/
def sourceRank : GaugeSource → Nat
  | .host => 0
  | .collective => 1
  | .dma => 2
  | .engine => 3
  | .stitch t => 4 + t

/-- The order key of an update: source, then cell index, then node ID (R217). -/
def updKey (u : GaugeUpd) : Nat := (sourceRank u.src * 2 ^ 13 + u.cell) * 2 ^ 17 + u.node

/-- The set that takes effect among updates that meet: the first of lowest key. -/
def winningSet : List GaugeUpd → Option GaugeUpd
  | [] => none
  | u :: t =>
    match u.op, winningSet t with
    | .set _, some w => if updKey w < updKey u then some w else some u
    | .set _, none => some u
    | .add _, r => r

/-- The number of sets among updates. -/
def setCount (us : List GaugeUpd) : Nat := (us.filter (fun u => match u.op with | .set _ => true | _ => false)).length

/-- Sum of the adds among updates. -/
def addSum (us : List GaugeUpd) : Nat :=
  us.foldl (fun n u => match u.op with | .add v => n + v | .set _ => n) 0

/-- Updates that reach one gauge in one cycle (R52, R53): new value, saturated, conflict. -/
def combineGauge (old : Nat) (us : List GaugeUpd) : Nat × Bool × Bool :=
  let base := match winningSet us with
    | some ⟨_, _, _, _, _, .set v⟩ => v
    | _ => old
  let sum := base + addSum us
  (min sum (2 ^ 64 - 1), decide (2 ^ 64 - 1 < sum), decide (2 ≤ setCount us))

/-- A cell gauge. -/
def cellGauge (x : Cell) (g : Nat) : Nat := (smGet (fun _ => 0) x.gauges g).toNat

/-- The key of a patch gauge. -/
def patchKey (patch gauge : Nat) : Nat := patch * 64 + gauge

/-- The value a thread of a cell sees of a gauge: the cell's own, or the cell's copy of a patch gauge (R217). -/
def seenGauge (x : Cell) (ref : GaugeRef) : Nat :=
  if ref.patch.val = 0 then cellGauge x ref.gauge else (smGet (fun _ => 0) x.patchView (patchKey ref.patch ref.gauge)).toNat

/-- R54: every wait on the gauge that its value now satisfies stays satisfied, whatever updates follow. -/
def latchWaits (x : Cell) (ref : GaugeRef) : Cell :=
  let v := seenGauge x ref
  [0, 1, 2, 3].foldl (fun x t =>
    let th := getTh x t
    if th.st = .wait && decide (th.waitSrc = ref) && decide (th.waitN ≤ v) then setTh x t { th with waitOk := true }
    else x) x

/-- Updates that reach gauge g of cell c in one cycle. -/
def applyCellGauge (d : Dev) (c : Nat) (g : Fin 64) (us : List GaugeUpd) : Dev :=
  if us.isEmpty then d else
    let x := getCell d c
    let (v, sat, conf) := combineGauge (cellGauge x g) us
    let x := latchWaits { x with gauges := smSet (fun _ => 0) x.gauges g (BitVec.ofNat 64 v) } ⟨0, g⟩
    let d := setCell d c x
    let d := if sat then rsetBit d (CEL_GAUGE_SAT c) g true else d
    if conf then rsetBit d (CEL_GAUGE_CONFLICT c) g true else d

/-- The definition of patch k of the Pattern in effect; patch 1 is the device when no PATCH section defines it (R216). -/
def patchDef (d : Dev) (k : Nat) : Option PatchDef :=
  match d.pat.active with
  | none => none
  | some a =>
    match a.body.patches.find? (fun p => p.num == k) with
    | some p => some p
    | none => if k = 1 then
        some { num := 1, level := .device, parent := 0, cells := [], nodes := [fget d TRF_NODE_CFG_ID],
               home := fget d TRF_NODE_CFG_ID, base := 0, len := 0 }
      else none

/-- This device's node ID. -/
def nodeId (d : Dev) : Nat := fget d TRF_NODE_CFG_ID

/-- Value of a patch gauge at its home. -/
def homeGauge (d : Dev) (k : Nat) : Nat := (smGet (fun _ => 0) d.pat.gauges k).toNat

/-- The lowest number from n onward that is no key of a map with rising keys. -/
def firstFree {α : Type} : SMap α → Nat → Nat
  | [], n => n
  | (k, _) :: t, n => if k = n then firstFree t (n + 1) else if k < n then firstFree t n else n

/-- A request of this device sent over Trafort under a RID that is free, the lowest, or left to wait while every RID is taken
(R259). -/
def sendRequest (d : Dev) (use : RidUse) (dest addr bytes : Nat) (body : MsgBody) (vc : Nat) : Dev :=
  let rid := firstFree d.rids 0
  let r : RidRec := { use := use, dest := dest, addr := addr, bytes := bytes, since := d.now, rests := false }
  let m : Msg := { body := body, vc := vc, dest := dest, src := nodeId d, rid := rid, hops := 0 }
  if rid < 65536 then { d with toRoute := d.toRoute ++ [m], rids := smSet (fun _ => none) d.rids rid (some r) }
  else { d with reqWait := d.reqWait ++ [(r, m)] }

/-- A RID set free goes to the oldest request that waits for one. -/
def freeRid (d : Dev) (rid : Nat) : Dev :=
  let d := { d with rids := smSet (fun _ => none) d.rids rid none }
  match d.reqWait with
  | [] => d
  | (r, m) :: t =>
    { d with reqWait := t, toRoute := d.toRoute ++ [{ m with rid := rid }],
             rids := smSet (fun _ => none) d.rids rid (some { r with since := d.now }) }

/-- An update sent to a patch gauge: to the queue of its home here, or as a GAUGE message to the home's device (R217). -/
def sendPatchGauge (d : Dev) (u : GaugeUpd) : Dev :=
  match patchDef d u.patch with
  | none => d
  | some p =>
    if p.home = nodeId d then { d with gaugeq := d.gaugeq ++ [u] }
    else sendRequest d .gauge p.home 0 0 (.gauge u.cell ⟨Fin.ofNat 256 u.patch, Fin.ofNat 64 u.gauge⟩ u.src u.op) 12

/-- An update of one gauge from a source: a cell gauge at once, a patch gauge on its way to its home. -/
def updateGauge (d : Dev) (c : Nat) (ref : GaugeRef) (src : GaugeSource) (op : GaugeOp) : Dev :=
  let u : GaugeUpd := { patch := ref.patch, gauge := ref.gauge, src := src, cell := c, node := nodeId d, op := op }
  if ref.patch.val = 0 then applyCellGauge d c ref.gauge [u] else sendPatchGauge d u

/-- The completion of a command: its gauge receives its increment (R56). -/
def completeGauge (d : Dev) (c : Nat) (k : Completion) (src : GaugeSource) : Dev :=
  updateGauge d c k.gauge src (.add k.inc)

/-- Updates that reach patch gauge (patch, gauge) at its home in one cycle (R52, R53, R217). -/
def applyPatchGauge (d : Dev) (patch gauge : Nat) (us : List GaugeUpd) : Dev :=
  let k := patchKey patch gauge
  let v := (combineGauge (homeGauge d k) us).1
  { d with pat := { d.pat with gauges := smSet (fun _ => 0) d.pat.gauges k (BitVec.ofNat 64 v) } }

/-- PATCH_GAUGE_UPDATE (R52, R217): the first n updates that wait for this gauge reach its home together. -/
def patchGaugeUpdate (d : Dev) (patch : Fin 256) (gauge : Fin 64) (n : Nat) : Dev :=
  let mine := d.gaugeq.filter (fun u => u.patch == patch.val && u.gauge == gauge.val)
  let take := mine.take n
  if take.isEmpty then d else
    let rest := d.gaugeq.filter (fun u => !(u.patch == patch.val && u.gauge == gauge.val)) ++ mine.drop n
    applyPatchGauge { d with gaugeq := rest } patch gauge take

/-- PATCH_GAUGE_ARRIVAL (R55, R217): the home's value reaches the copy of one member cell. -/
def patchGaugeArrival (d : Dev) (c : CellId) (patch : Fin 256) (gauge : Fin 64) (remote : Option Word) : Dev :=
  if patch.val = 0 then d else
    match patchDef d patch with
    | none => d
    | some p =>
      let v : Word := if p.home = nodeId d then BitVec.ofNat 64 (homeGauge d (patchKey patch gauge))
        else remote.getD (smGet (fun _ => 0) (getCell d c).patchView (patchKey patch gauge))
      modCell d c (fun x => latchWaits
        { x with patchView := smSet (fun _ => 0) x.patchView (patchKey patch gauge) v } ⟨patch, gauge⟩)

/-- CEL_GAUGE_WR (R57): a host set of a cell gauge, only while GAUGE_WR is granted; otherwise no effect. -/
def gaugeWrite (d : Dev) (c : CellId) (g : Fin 64) (v : Word) : Dev :=
  if (fget d SEC_DBG_PERMS_PERMS).testBit 1 && decide (nearStatus d c false = .ok) then
    updateGauge d c ⟨0, g⟩ .host (.set v.toNat) else d

end Sys2Proof.Machine
end

