-- ==== Sys2Proof/Machine/Xlt.lean ====
section
/-! DEFINITION. Translation (R179 to R186): the lookup, the attributes an access needs, and what a refusal records. -/
namespace Sys2Proof.Machine

/-- A leaf found: physical node, node-local address, attributes, base of the page in input addresses, its size code
(0 64 KiB, 1 2 MiB, 2 1 GiB), and whether the node entry is for another device. -/
structure Leaf where
  node  : Nat
  addr  : Nat
  attr  : PageAttr
  page  : Nat
  size  : Nat
  deriving DecidableEq, Repr

/-- A lookup: a leaf, or the level at which it ended. -/
inductive Lookup where
  | leaf (l : Leaf) (level : Nat)
  | none (level : Nat)
  deriving DecidableEq, Repr

/-- An entry of a numbered table; a table or an entry not listed is invalid. -/
def tabEntry (tabs : List (Nat × List (Nat × XltEntry))) (id i : Nat) : XltEntry :=
  match tabs.find? (fun t => t.1 == id) with
  | none => .invalid
  | some t => match t.2.find? (fun e => e.1 == i) with
    | none => .invalid
    | some e => e.2

/-- Bytes of a page by size code. -/
def pageBytes (size : Nat) : Nat := if size = 0 then 0x10000 else if size = 1 then 0x200000 else 0x40000000

/-- R181: the lookup of an input address in a Pattern's map. -/
def walkMap (m : XltMap) (a : Nat) : Lookup :=
  match m.nodes.find? (fun e => e.1 == a / 2 ^ 48 % 2 ^ 16) with
  | none => .none 0
  | some (_, node, l1) =>
    let mk := fun (base : Nat) (attr : PageAttr) (size level : Nat) =>
      let b := pageBytes size
      Lookup.leaf { node := node, addr := base + a % b, attr := attr, page := a - a % b, size := size } level
    match tabEntry m.l1 l1 (a / 2 ^ 39 % 512) with
    | .table l2 =>
      match tabEntry m.l2 l2 (a / 2 ^ 30 % 512) with
      | .leaf base attr => mk base attr 2 2
      | .invalid => .none 2
      | .table l3 =>
        match tabEntry m.l3 l3 (a / 2 ^ 21 % 512) with
        | .leaf base attr => mk base attr 1 3
        | .invalid => .none 3
        | .table l4 =>
          match tabEntry m.l4 l4 (a / 2 ^ 16 % 32) with
          | .leaf base attr => mk base attr 0 4
          | _ => .none 4
    | _ => .none 1

/-- Attributes of the boot map (R185). -/
def bootAttr : PageAttr :=
  { r := true, w := true, x := true, pf := false, cache := false, remote := false, hostvis := true }

/-- R185: the boot map. Every node field names this device and the offset is used unchanged. -/
def walkBoot (self a : Nat) : Lookup :=
  let off := a % 2 ^ 48
  let size := match placeOf off with
    | .regs _ => 1
    | _ => 2
  match placeOf off with
  | .reserved => .none 0xFF
  | _ => .leaf { node := self, addr := off, attr := bootAttr, page := a - a % pageBytes size, size := size } 0xFF

/-- The lookup under the map in force. -/
def lookup (d : Dev) (a : Nat) : Lookup :=
  match d.map with
  | none => walkBoot (nodeId d) (a % 2 ^ 64)
  | some m => walkMap m (a % 2 ^ 64)

/-- Accesses of Table 10-4, with the REQ code of XLT_FAULT_INFO. -/
inductive Need where
  | load | store | gather | dmaRead | dmaWrite | barRead | barWrite | fetch
  deriving DecidableEq, Repr

/-- REQ of Table 10-10. -/
def needReq : Need → Nat
  | .load => 0 | .store => 1 | .gather => 2 | .dmaRead => 3 | .dmaWrite => 4 | .barRead => 5 | .barWrite => 6
  | .fetch => 7

/-- Whether R, W and X suffice (Table 10-4). -/
def rwxOk (n : Need) (p : PageAttr) : Bool :=
  match n with
  | .load | .gather | .dmaRead | .barRead => p.r
  | .store | .dmaWrite | .barWrite => p.w
  | .fetch => p.r && p.x

/-- Whether the access needs HOSTVIS. -/
def needHost : Need → Bool
  | .barRead | .barWrite => true
  | _ => false

/-- A translation: the leaf, or a refusal with its cause and level (Table 10-10). -/
inductive Xlat where
  | ok (l : Leaf)
  | refused (cause level : Nat)
  deriving DecidableEq, Repr

/-- R183, R184, R180: the translation of one access. An access to the register range is refused with cause 2. -/
def translate (d : Dev) (n : Need) (a : Nat) : Xlat :=
  match lookup d a with
  | .none level => .refused 1 level
  | .leaf l level =>
    if !rwxOk n l.attr then .refused 2 level
    else if needHost n && !l.attr.hostvis then .refused 3 level
    else if l.node ≠ nodeId d && !l.attr.remote then .refused 4 level
    else if l.node = nodeId d then
      match placeOf l.addr with
      | .regs _ => .refused 2 level
      | .reserved => .refused 1 level
      | _ => .ok l
    else .ok l

/-- R186: the first refusal since VALID was cleared is recorded; every refusal is counted. -/
def recordRefusal (d : Dev) (a cause level req tag source : Nat) : Dev :=
  let d := fcount d XLT_CTR_FAULTS 1
  if fbit d XLT_FAULT_INFO_VALID then d else
    let d := rset d XLT_FAULT_ADDR (BitVec.ofNat 64 a)
    rset d XLT_FAULT_INFO (BitVec.ofNat 64 (2 ^ 63 + cause * 2 ^ 48 + level * 2 ^ 40 + req * 2 ^ 36 + tag % 2 ^ 16 * 2 ^ 16 +
      source % 2 ^ 16))

/-- A lookup may walk the store, which WALKS counts; which lookups miss is not specified (R479), so the count grows by a
free value. -/
def countWalk (d : Dev) : Dev :=
  let (n, d) := takeFree d
  fcount d XLT_CTR_WALKS (Config.free n % 2)

/-- Input addresses at which a range must be checked: its start, and each 64 KiB boundary inside it. -/
def pageStarts (a n : Nat) : List Nat :=
  if n = 0 then [] else
    (List.range ((a + n - 1) / 65536 - a / 65536 + 1)).map (fun i => if i = 0 then a else (a / 65536 + i) * 65536)

/-- R186: every page of a range checked before any byte moves. -/
def checkRange (d : Dev) (n : Need) (a len : Nat) : Option (Nat × Nat × Nat) :=
  (pageStarts a len).foldl (fun r p => match r with
    | some x => some x
    | none => match translate d n p with
      | .ok _ => none
      | .refused c l => some (p, c, l)) none

/-! ## Column ranges (R154, R155) -/

/-- Who makes a request of a near memory. -/
inductive Requester where
  | cell (c : Nat)
  | host
  | remote (node : Nat)
  deriving DecidableEq, Repr

/-- Class and FWRITE of the 4 KiB unit of a near memory of cell c; LOCAL where no range covers it. -/
def rangeAt (d : Dev) (c kind unit : Nat) : Nat × Bool :=
  (List.range 8).foldl (fun r k =>
    if fbit d (COL_RANGE_VALID c k) && fget d (COL_RANGE_KIND c k) == kind &&
       decide (fget d (COL_RANGE_BASE c k) ≤ unit) &&
       decide (unit < fget d (COL_RANGE_BASE c k) + fget d (COL_RANGE_LENGTH c k)) then
      (fget d (COL_RANGE_CLASS c k), fbit d (COL_RANGE_FWRITE c k)) else r) (0, false)

/-- Table 8-4: whether a class admits a requester of a near memory of cell c. -/
def classAdmits (cls c : Nat) : Requester → Bool
  | .cell q => (decide (1 ≤ cls) && decide (regionOf q = regionOf c)) || decide (2 ≤ cls)
  | .host => decide (2 ≤ cls)
  | .remote _ => decide (3 ≤ cls)

/-- R155: the target's check of a request to its near memory; the cell's own requests are not foreign. -/
def ownerOk (d : Dev) (q : Requester) (a n : Nat) (write : Bool) : Bool :=
  let go := fun (c off kind : Nat) =>
    if q = .cell c then true else
      (List.range ((off + n - 1) / 4096 - off / 4096 + 1)).all (fun i =>
        let r := rangeAt d c kind (off / 4096 + i)
        classAdmits r.1 c q && (!write || r.2))
  if n = 0 then true else
    match placeOf a with
    | .sp c off => go c off 0
    | .csram c off => go c off 1
    | .cdram c off => go c off 2
    | _ => true

/-- A refusal under R155 counted at the cell. -/
def countDeny (d : Dev) (a : Nat) : Dev :=
  match placeOf a with
  | .sp c _ => fcount d (COL_STATUS_OWN_DENY c) 1
  | .csram c _ => fcount d (COL_STATUS_OWN_DENY c) 1
  | .cdram c _ => fcount d (COL_STATUS_OWN_DENY c) 1
  | _ => d

/-! ## Reads and writes at home (R188, R189) -/

/-- Key of the far-cache line of a node-local address. -/
def lineKey (node a : Nat) : Nat := node * 2 ^ 41 + a / 128

/-- A line, if the far cache holds it. -/
def getLine (d : Dev) (node a : Nat) : Option FarLine := smGet (fun _ => none) d.far.lines (lineKey node a)

/-- A line installed, replaced or dropped. -/
def setLine (d : Dev) (node a : Nat) (l : Option FarLine) : Dev :=
  { d with far := { d.far with lines := smSet (fun _ => none) d.far.lines (lineKey node a) l } }

/-- Whether a node-local address is in a tier, which the far cache can hold (R187). -/
def isTier (a : Nat) : Bool :=
  match placeOf a with
  | .hbm _ => true
  | .ddr _ => true
  | _ => false

/-- One byte of this device as a coherent read returns it: from a dirty line that holds it, else from its home (R189). -/
def cohByte (d : Dev) (a : Nat) : Byte :=
  if isTier a then
    match getLine d (nodeId d) a with
    | some l => smGet (fun i => rdByte d (a - a % 128 + i)) l.bytes (a % 128)
    | none => rdByte d a
  else rdByte d a

/-- Bytes of this device as a coherent read returns them. -/
def cohBytes (d : Dev) (a n : Nat) : List Byte := (List.range n).map (fun i => cohByte d (a + i))

/-- A write at home that also updates any line that holds the bytes (R189). -/
def cohStore (d : Dev) (a : Nat) (bytes : List Byte) (bad : Bool) : Dev :=
  let d := store d a bytes bad
  if !isTier a then d else
    bytes.zipIdx.foldl (fun d (bi : Byte × Nat) =>
      let b := a + bi.2
      match getLine d (nodeId d) b with
      | some l =>
        if smHas l.bytes (b % 128) then
          setLine d (nodeId d) b (some { l with bytes := smInsert l.bytes (b % 128) bi.1 })
        else d
      | none => d) d

/-- A line written back and dropped (R188); a retired channel loses it (R172). -/
def writeBack (d : Dev) (node line : Nat) : Dev :=
  let a := 128 * line
  match getLine d node a with
  | none => d
  | some l =>
    let d' := setLine d node a none
    if l.dirty && decide (node = nodeId d) then
      if memStatus d a = .ok then l.bytes.foldl (fun d e => store d (a + e.1) [e.2] false) d'
      else match placeOf a with
        | .hbm o => fcount d' (HBM_CH_ECC_LOST_WB (hbmChan (placeUnit d.hbmList o).1)) 1
        | .ddr o => fcount d' (DDR_CH_ECC_LOST_WB (placeUnit d.ddrList o).1) 1
        | _ => d'
    else d'

/-- A write to memory of this device by some agent, with the number of pieces that the scratchpad holds (R64). -/
def agentStore (d : Dev) (a : Nat) (bytes : List Byte) (bad : Bool) (who : HeldFor) : Dev × Nat :=
  match placeOf a with
  | .sp _ _ => storeHeld d a bytes bad who
  | _ => (countBeats (cohStore d a bytes bad) a bytes.length true, 0)

/-- A read of this device's memory by some agent: errors met, beats counted; the bytes and whether any is poisoned. -/
def agentLoad (d : Dev) (e : EccHits) (a n : Nat) : Dev × List Byte × Bool :=
  let d := countBeats (eccRead d e a n) a n false
  (d, cohBytes d a n, isPoison d a n)

end Sys2Proof.Machine
end

