-- ==== Sys2Proof/Machine/Flags.lean ====
section
/-! DEFINITION. Status words and flags: thread states and the thread status word (Tables 3-3 and 3-7), faults charged to
a thread (R37, R233), and arrival at the tide barrier (R233, R234). -/
namespace Sys2Proof.Machine

/-- Code of a thread state (Table 3-3). -/
def thCode : ThState → Nat
  | .idle => 0 | .run => 1 | .stall => 2 | .wait => 3 | .barrier => 4 | .fault => 5 | .brk => 6

/-- DMA tags in use of a cell, with their numbers. -/
def tagsInUse (x : Cell) : List (Nat × DmaTag) :=
  x.tags.filterMap (fun e => e.2.map (fun t => (e.1, t)))

/-- CEL_THR_STATUS (Table 3-7, R51). -/
def thrStatusWord (x : Cell) (t : Nat) : Word :=
  let th := getTh x t
  let own := fun (l : List Nat) => (l.filter (fun k => k == t)).length
  let v := thCode th.st * 2 ^ 61 + (if th.st = .stall then th.stallOn else 0) * 2 ^ 58 + x.mq.length * 2 ^ 53 +
    x.eq.length * 2 ^ 48 + x.dq.length * 2 ^ 42 + own (x.mq.map (fun e => e.thread.val)) * 2 ^ 37 +
    own (x.eq.map (fun e => e.thread.val)) * 2 ^ 32 + own (x.dq.map (fun e => e.thread.val)) * 2 ^ 26 +
    own ((tagsInUse x).map (fun e => e.2.entry.thread.val)) * 2 ^ 22 + th.pc % 2 ^ 11
  BitVec.ofNat 64 v

/-- Whether a cell's clocks run: its region is powered and ready, not tripped (R382), not frozen (R445), and the cell is
not retired. -/
def cellRuns (d : Dev) (c : Nat) : Bool :=
  let r := regionOf c
  rbit d KPR_RGN_READY r && !rbit d THM_TRIPPED r && !d.frozen.testBit r && !(getCell d c).retired

/-- R37, R233: a fault charged to thread t of cell c, with the record it writes. A thread in BARRIER or IDLE enters FAULT on
the next edge; a thread already faulted keeps its first fault. -/
def chargeWith (d : Dev) (c t : Nat) (st : Status) (typ tag cause det0 det1 : Nat) : Dev :=
  let th := thread d c t
  let d := addFault d typ st 0 1 c tag cause det0 det1 []
  if th.st = .fault || decide (th.faultWith ≠ .ok) then d
  else if th.st = .barrier || th.st = .idle then modTh d c t (fun th => { th with faultWith := st })
  else modTh d c t (fun th => { th with st := .fault, stallOn := 0, faultWith := st, draining := false, fence := none })

/-- A THREAD_FAULT record and the fault (type 0x01 of Table 22-5). -/
def chargeFault (d : Dev) (c t : Nat) (st : Status) (tag : Nat) : Dev :=
  chargeWith d c t st 0x01 tag t ((thread d c t).pc % 2 ^ 11) (statusCode st)

/-! ## Arrival (R233, R234) -/

/-- Whether a thread has arrived: BARRIER or IDLE. -/
def thArrived (th : Thread) : Bool := th.st = .barrier || th.st = .idle

/-- Whether every thread of the device has arrived and none is in BREAK, frozen regions counting as in BREAK. -/
def allArrived (d : Dev) : Bool :=
  (d.frozen == 0) && d.cells.all (fun e => e.2.threads.all (fun t => thArrived t.2))

/-- TID_STATUS.STATE codes: STOPPED 0, RUNNING 1, HALTED 2, LOST 3 (Table 12-7). -/
def tideState (d : Dev) : Nat := fget d TID_STATUS_STATE

/-- Role of the device (Table 12-1). -/
def tideRole (d : Dev) : Nat := fget d TID_CFG_ROLE

/-- A message onto the side-band sluice of a port (VC14 and VC15 go link by link there). -/
def sendSide (d : Dev) (p : Nat) (body : MsgBody) (vc : Nat) : Dev :=
  let m : Msg := { body := body, vc := vc, dest := 0xFFFF, src := nodeId d, rid := 0, hops := 0 }
  modPort d p (fun q => { q with side := q.side ++ [m] })

/-! ## A switch that is due (R213, R214) -/

/-- PAT_STATUS.STAGE. -/
def patStage (d : Dev) : Nat := fget d PAT_STATUS_STAGE

/-- The ready and withdrawal figures of the staged image. -/
def readyFigures (d : Dev) : Nat × Nat × Nat :=
  match d.pat.staged with
  | some i => (i.job, i.id, i.digest)
  | none => (0, 0, 0)

/-- What a tide master finds for edge n (R214): 0 no switch is due, 1 agreement, 2 not all ready, 15 disagreement, 16 a
withdrawal. -/
def switchVerdict (d : Dev) (n : Nat) : Nat :=
  if patStage d = 3 ∧ d.pat.due ≤ n then
    let (job, id, digest) := readyFigures d
    let need := match d.pat.staged with | some i => i.nodes | none => 1
    if d.tide.withdrawn || d.tide.heardWithdraw then 16
    else if d.tide.ready.any (fun r => r.2 != (job, id, digest)) then 15
    else if need ≤ d.tide.ready.length then 1 else 2
  else 0

/-- R214, R236: a MASTER or ROOT whose gang is not yet ready for a switch due at the next edge counts as a missing arrival. -/
def switchMissing (d : Dev) : Bool := decide (tideRole d ≠ 0) && switchVerdict d ((rget d TID_COUNT).toNat + 1) == 2

/-- R233: STATUS.ARRIVED once every thread has arrived; ARRIVE(n) upstream once also every child's has come. A stopped or halted
device reports too, so that a restarted tide knows of it; no tide has begun while TID_COUNT reads 0. -/
def tryArrive (d : Dev) : Dev :=
  if !allArrived d then d else
    let d := fset d TID_STATUS_ARRIVED 1
    let d := if d.tide.arrivedAt.isNone then { d with tide := { d.tide with arrivedAt := some d.now } } else d
    let up := fget d TID_CFG_UP_PORT
    let n := (rget d TID_COUNT).toNat
    if n ≠ 0 && decide (tideState d ≠ 3) && decide (tideRole d ≠ 2) && decide (up < 12) && !d.tide.sentArr && !switchMissing d &&
        d.tide.children.all (fun p => d.tide.arrived.contains p) then
      let d := sendSide d up (.tide (.arrive n)) 15
      { d with tide := { d.tide with sentArr := true } }
    else d

/-! ## Completion flags of the engines -/

/-- Status registers, trace and tag counters of a completed engine command. -/
def noteDone (d : Dev) (c t tag : Nat) (st : Status) (ext : Nat × Nat) : Dev :=
  countTag (traceEv d 1 0x04 tag c t st ext) 1 tag st

/-- One command of thread t fewer outstanding. -/
def closeCmd (d : Dev) (c t : Nat) : Dev := modTh d c t (fun th => { th with openCmds := th.openCmds - 1 })

end Sys2Proof.Machine
end

