-- ==== Sys2Proof/Machine/ClvBase.lean ====
section
/-! DEFINITION. Groups, layouts and the sending of collective messages (R265 to R267, R278, R285). -/
namespace Sys2Proof.Machine

/-- The COLLECTIVE section in force. -/
def collSec (d : Dev) : Option CollSec := d.pat.active.bind (fun a => a.body.coll)

/-- Group slot g of the Pattern in effect. -/
def groupDef (d : Dev) (g : Nat) : Option GroupDef := (collSec d).bind (fun s => s.groups.find? (fun x => x.num == g))

/-- The layout in force of a group slot (R267). -/
def layoutOf (d : Dev) (g : Nat) : Option Layout :=
  (groupDef d g).bind (fun x => x.layouts[fget d (CLV_GRP_CFG_LAYOUT g)]?)

/-- The group slot that holds a GROUP_ID. -/
def groupOfId (d : Dev) (id : Nat) : Option GroupDef := (collSec d).bind (fun s => s.groups.find? (fun x => x.id == id))

/-- Members of a layout. -/
def layoutSize (l : Layout) : Nat := l.members.length

/-- The member that rank r's data flows to (R266). -/
def upRank (l : Layout) (r : Nat) : Option Nat :=
  if r = 0 then none else if l.tree then l.parents[r]? else some (r - 1)

/-- The members whose data flows to rank r, by rising rank (R266). -/
def dnRanks (l : Layout) (r : Nat) : List Nat :=
  (List.range (layoutSize l)).filter (fun k => upRank l k == some r)

/-- Rank of a cell of this device in a layout. -/
def rankOf (d : Dev) (l : Layout) (c : Nat) : Option Nat :=
  let i := l.members.findIdx (fun m => m == (nodeId d, c))
  if i < layoutSize l then some i else none

/-- Ranks of a layout that lie on this device, rising. -/
def ranksHere (d : Dev) (l : Layout) : List Nat :=
  (List.range (layoutSize l)).filter (fun k => (l.members.getD k (0, 0)).1 == nodeId d)

/-- Children of rank k in the distribution tree (R278). -/
def treeKids (l : Layout) (k : Nat) : List Nat :=
  [4 * k + 1, 4 * k + 2, 4 * k + 3, 4 * k + 4].filter (fun j => decide (j < layoutSize l))

/-- Parent of rank k in the distribution tree (R278). -/
def treeParent (k : Nat) : Option Nat := if k = 0 then none else some ((k - 1) / 4)

/-- A message on its way: a member of this device hears it over the mesh, another over its route (R264). -/
def postMsg (d : Dev) (m : Msg) : Dev :=
  if m.dest = nodeId d then { d with inbox := d.inbox ++ [m] } else { d with toRoute := d.toRoute ++ [m] }

/-- A collective message to a rank of a layout, on the group's VC. -/
def sendRank (d : Dev) (g : GroupDef) (l : Layout) (rank : Nat) (m : CollMsg) : Dev :=
  postMsg d { body := .coll { m with rank := rank }, vc := g.vc, dest := (l.members.getD rank (0, 0)).1, src := nodeId d,
              rid := 0, hops := 0 }

/-- A collective message with nothing but its kind, group, numbers and sender. -/
def collMsg (k : CollKind) (g : GroupDef) (layout slot inst : Nat) (pass : Bool) (sender : Nat) : CollMsg :=
  { kind := k, group := g.id, slot := slot, layout := layout, pass := pass, inst := inst, chunk := 0, rank := 0,
    sender := sender, value := 0, aObs := 0, status := .ok, data := [] }

/-! ## What a member waits for (R282) -/

/-- The edges waited on, brought up to date: an edge just heard, or newly awaited, begins to be waited on now. -/
def renewWaits (now : Nat) (awaited heard : List Nat) (w : SMap (Nat × Nat)) : SMap (Nat × Nat) :=
  (List.range 10).filterMap (fun e =>
    if !awaited.contains e then none
    else if smHas w e && !heard.contains e then some (e, smGet (fun _ => (0, 0)) w e)
    else some (e, (0, now)))

/-- One more tide edge passes for every edge waited on; a stretched edge counts once. -/
def waitsEdge (w : SMap (Nat × Nat)) : SMap (Nat × Nat) := w.map (fun e => (e.1, (e.2.1 + 1, e.2.2)))

/-- Whether a wait has reached its limit: TIMEOUT_TIDES edges while the tide is RUNNING, TIMEOUT_US else. -/
def waitsOver (d : Dev) (g : GroupDef) (w : SMap (Nat × Nat)) : Bool :=
  w.any (fun e => if tideState d = 1 then decide (g.timeout ≤ e.2.1)
    else decide (e.2.2 + 1000 * fget d CLV_CFG_TIMEOUT_US ≤ d.now))

/-! ## Chains (R275 to R277) -/

/-- Chain records of this device. -/
def findChain (d : Dev) (g tag rank : Nat) : Option Chain :=
  d.clv.chains.find? (fun c => c.group == g && c.tag == tag && c.rank == rank)

/-- What a part of a chain waits for: tiles of its DN edges once posted, POST once its own tile stands, and the outcome once that
tile has gone; the tail has no member above it. -/
def chainAwaits (l : Layout) (c : Chain) : List Nat :=
  let dn := (List.range (dnRanks l c.rank).length).map (fun i => i + 1)
  (if c.posted.isSome && !c.combined then dn else []) ++
    (if c.ready.isSome && !c.postsIn then [0] else []) ++ (if c.sentUp.isSome then [5] else [])

/-- A chain record changed, `heard` telling the edges that a message came on. -/
def modChainHeard (d : Dev) (g tag rank : Nat) (heard : List Nat) (f : Chain → Chain) : Dev :=
  let aw := fun c => match layoutOf d g with
    | some l => chainAwaits l c
    | none => []
  { d with clv := { d.clv with chains := d.clv.chains.map (fun c =>
      if c.group == g && c.tag == tag && c.rank == rank then
        { f c with waits := renewWaits d.now (aw (f c)) heard c.waits } else c) } }

/-- A chain record changed. -/
def modChain (d : Dev) (g tag rank : Nat) (f : Chain → Chain) : Dev := modChainHeard d g tag rank [] f

/-- A chain record made if there is none. -/
def ensureChain (d : Dev) (g tag rank cell layout : Nat) : Dev :=
  match findChain d g tag rank with
  | some _ => d
  | none => { d with clv := { d.clv with chains := d.clv.chains ++
      [{ group := g, tag := tag, rank := rank, cell := Fin.ofNat 4096 cell, pass := false, layout := layout,
         posted := none, postsIn := false, ready := none, sentUp := none, tiles := [], combined := false,
         latched := none, waits := [] }] } }

/-- A member latches a failure of a chain it holds and sends ABORT to the root (R280, R281). -/
def latchChain (d : Dev) (g tag rank : Nat) (st : Status) : Dev :=
  match findChain d g tag rank, groupDef d g, layoutOf d g with
  | some ch, some gd, some l =>
    if ch.latched.isSome then d else
      let d := modChain d g tag rank (fun c => { c with latched := some st })
      sendRank d gd l 0 { collMsg .abort gd ch.layout 256 tag ch.pass rank with status := st }
  | _, _, _ => d

/-- A member's own tile is read and goes to its UP member once POST has come and the tile is written, in chunks of 128 B (R270,
R276). A tile that cannot be read, or is poisoned, is a failure (R280). -/
def chainSend (d : Dev) (g tag rank : Nat) : Dev :=
  match findChain d g tag rank, groupDef d g, layoutOf d g with
  | some ch, some gd, some l =>
    match ch.ready, upRank l rank with
    | some (o, n), some up =>
      if ch.postsIn && ch.sentUp.isNone then
        let a := spAddr ch.cell o
        let st := rangeStatus d a n
        if st ≠ .ok then latchChain d g tag rank st
        else if isPoison d a n then latchChain d g tag rank .poisoned
        else
          let bytes := rdBytes d a n
          let d := ((blocksOf 128 bytes).zipIdx).foldl (fun d p =>
            sendRank d gd l up { collMsg .tile gd ch.layout 256 tag ch.pass rank with chunk := p.2, data := p.1 }) d
          modChain d g tag rank (fun c => { c with sentUp := some bytes })
      else d
    | _, _ => d
  | _, _, _ => d

/-- A member asks its DN members for their tiles (R276). -/
def chainPost (d : Dev) (g tag rank : Nat) : Dev :=
  match findChain d g tag rank, groupDef d g, layoutOf d g with
  | some ch, some gd, some l =>
    (dnRanks l rank).foldl (fun d k => sendRank d gd l k (collMsg .post gd ch.layout 256 tag ch.pass rank)) d
  | _, _, _ => d

/-- Every chain with its member's cell among some cells latches a failure (R280). -/
def latchChains (d : Dev) (cells : Nat → Bool) (st : Status) : Dev :=
  d.clv.chains.foldl (fun d c => if cells c.cell then latchChain d c.group c.tag c.rank st else d) d

/-- The definition of a collective slot. -/
def slotDef (d : Dev) (s : Nat) : Option SlotDef := (collSec d).bind (fun c => c.slots.find? (fun x => x.num == s))

/-- Busy bits of the group slots (CLV_STATUS.GRP_BUSY). -/
def clvBusy (d : Dev) : Dev :=
  let slotGroup := fun (s : Nat) => match slotDef d s with
    | some x => x.group.val
    | none => 99
  let busy := (List.range 12).foldl (fun v g =>
    if d.clv.chains.any (fun c => c.group == g) || d.clv.insts.any (fun i => slotGroup i.slot == g) then v + 2 ^ g else v) 0
  fset d CLV_STATUS_GRP_BUSY busy

end Sys2Proof.Machine
end

