-- ==== Sys2Proof/Machine/Operands.lean ====
section
/-! DEFINITION. What a stitch names: values it reads at issue, address generators (R474), the registers it reads and
writes (R43), scalar operations (R473) and branch tests (R42). -/
namespace Sys2Proof.Machine

/-- An X register of a thread. -/
def xreg (th : Thread) (r : Nat) : Word := smGet (fun _ => 0) th.xs r

/-- An X register written. -/
def setX (th : Thread) (r : Nat) (v : Word) : Thread := { th with xs := smSet (fun _ => 0) th.xs r v }

/-- An address generator of a thread. -/
def genOf (th : Thread) (g : Nat) : AddrGen := smGet (fun _ => addrGenReset) th.gens g

/-- Value of a source; `status` is the thread's own status word (R51). -/
def srcVal (th : Thread) (statusW : Word) : Src → Word
  | .imm v => v
  | .x r => xreg th r
  | .status => statusW

/-- R474: the address of a generator. -/
def genAddr (a : AddrGen) : Word :=
  (a.idx.zip a.strides).foldl (fun s p => s + BitVec.ofNat 64 p.1 * p.2) a.base

/-- R474: one step. The innermost index advances; an index that reaches its count returns to 0 and advances the next; the
outermost returns to 0 with wrap and counts on without it. -/
def stepIdx (wrap : Bool) : List Nat → List Nat → List Nat
  | [], _ => []
  | i :: t, cs =>
    let last := t.isEmpty
    if i + 1 = cs.headD 0 && (!last || wrap) then
      0 :: (if last then [] else stepIdx wrap t cs.tail)
    else (i + 1) :: t

/-- One step of a generator. -/
def genStep (a : AddrGen) : AddrGen := { a with idx := stepIdx a.wrap a.idx a.counts }

/-- Three loops of a generator, from the innermost outward; loops the setup does not give have count and stride 0. -/
def genSetup (base : Word) (counts : List Nat) (strides : List Word) (wrap : Bool) : AddrGen :=
  { base := base, idx := [0, 0, 0], counts := (counts ++ [0, 0, 0]).take 3, strides := (strides ++ [0, 0, 0]).take 3,
    wrap := wrap }

/-- Value of an address source. -/
def addrVal (th : Thread) (statusW : Word) : AddrSrc → Word
  | .val s => srcVal th statusW s
  | .gen g => genAddr (genOf th g)

/-! ## Registers a stitch reads and writes (R39, R43) -/

/-- X registers a source reads. -/
def srcRegs : Src → List Nat
  | .x r => [r.val]
  | _ => []

/-- X registers an address source reads. -/
def addrRegs : AddrSrc → List Nat
  | .val s => srcRegs s
  | .gen _ => []

/-- X registers a matrix command reads at issue. -/
def mtxRegs (m : MtxCmd AddrSrc) : List Nat :=
  [m.a, m.b, m.aScale, m.bScale, m.aRec, m.bRec, m.longIn, m.longOut, m.anchorV, m.fin.out, m.fin.outScale,
    m.fin.param].flatMap addrRegs ++
  [m.fin.tScale, m.fin.rowScale, m.fin.colScale, m.fin.biasRow, m.fin.biasCol, m.fin.maxRec, m.fin.zeroRec].flatMap
    (fun o => match o with | some a => addrRegs a | none => [])

/-- X registers an element command reads at issue. -/
def eleRegs (m : EleCmd AddrSrc) : List Nat :=
  (m.e ++ m.k ++ m.arrays ++ [m.gBase]).flatMap addrRegs ++
  [m.recIn, m.recOut].flatMap (fun o => match o with | some a => addrRegs a | none => [])

/-- X registers a DMA command reads at issue. -/
def dmaRegs (m : DmaCmd AddrSrc) : List Nat := [m.src, m.dst, m.len, m.stride].flatMap addrRegs

/-- X registers an address generator action reads. -/
def agRegs : AgAct → List Nat
  | .setup _ base counts strides _ => (base :: counts ++ strides).flatMap srcRegs
  | .step _ => []

/-- X registers a control transfer reads or writes. -/
def controlRegs : Control → List Nat
  | .loopBack r _ => [r.val]
  | .branch (.xreg r _ b) _ => r.val :: srcRegs b
  | .branch (.summary _ _ b) _ => srcRegs b
  | _ => []

/-- X registers a stitch reads or writes. -/
def stitchRegs (s : Stitch) : List Nat :=
  (match s.wait with | some (_, n) => srcRegs n | none => []) ++
  (match s.scalar with | some a => a.d.val :: (srcRegs a.a ++ srcRegs a.b ++ srcRegs a.c) | none => []) ++
  (match s.mem with | some m => m.reg.val :: addrRegs m.addr | none => []) ++ s.gens.flatMap agRegs ++
  (match s.mtx with | some m => mtxRegs m | none => []) ++ (match s.ele with | some m => eleRegs m | none => []) ++
  (match s.dma with | some m => dmaRegs m | none => []) ++ s.gauges.flatMap (fun u => srcRegs u.2.2) ++
  (match s.control with | some k => controlRegs k | none => [])

/-- Whether a stitch reads a summary register. -/
def readsSummary (s : Stitch) : Bool :=
  match s.control with
  | some (.branch (.summary _ _ _) _) => true
  | _ => false

/-! ## Scalar operations (R473) -/

/-- A relation between two integers. -/
def relHolds (r : Rel) (a b : Int) : Bool :=
  match r with
  | .eq => a == b | .ne => a != b | .lt => decide (a < b) | .le => decide (a ≤ b) | .gt => decide (b < a)
  | .ge => decide (b ≤ a)

/-- 1 or 0. -/
def flagWord (b : Bool) : Word := if b then 1 else 0

/-- R473: the scalar operations. A compare gives 1 or 0. -/
def scalarVal (op : ScalarOp) (a b c : Word) : Word :=
  let n := b.toNat % 64
  match op with
  | .add => a + b
  | .sub => a - b
  | .shl => a <<< n
  | .shr => a >>> n
  | .sar => a.sshiftRight n
  | .band => a &&& b
  | .bor => a ||| b
  | .bxor => a ^^^ b
  | .min => if a.toInt ≤ b.toInt then a else b
  | .max => if a.toInt ≤ b.toInt then b else a
  | .select => if c = 0 then b else a
  | .cmpS r => flagWord (relHolds r a.toInt b.toInt)
  | .cmpU r => flagWord (relHolds r a.toNat b.toNat)
  | .mulS => BitVec.ofInt 64 ((a.setWidth 32).toInt * (b.setWidth 32).toInt)
  | .mulU => BitVec.ofNat 64 ((a.setWidth 32).toNat * (b.setWidth 32).toNat)

/-! ## Branches (R42, R132) -/

/-- The value of a binary64 encoding. -/
def decode64 (w : Nat) : Num :=
  let s := decide (2 ^ 63 ≤ w % 2 ^ 64)
  let e : Nat := w / 2 ^ 52 % 2 ^ 11
  let f : Nat := w % 2 ^ 52
  if e = 2047 then (if f = 0 then .inf s else .nan)
  else if e = 0 then .fin s f (-1074)
  else .fin s (2 ^ 52 + f) ((e : Int) - 1075)

/-- A relation between two values; a NaN satisfies only not-equal (R132). -/
def relNum (r : Rel) (a b : Num) : Bool :=
  match r with
  | .eq => numEq a b | .ne => !numEq a b | .lt => numLt a b | .le => numLt a b || numEq a b | .gt => numLt b a
  | .ge => numLt b a || numEq a b

/-- A summary register of a thread. -/
def summaryReg (th : Thread) (k : Nat) : Word := smGet (fun _ => 0) th.sums k

/-- Summary register k against an operand: SMAX, SMIN and SSUM in float form numerically with the operand read as
binary64, in integer form as signed integers; SNF, SANY and SALL as unsigned integers (R132). -/
def summaryTest (th : Thread) (k : Nat) (r : Rel) (b : Word) : Bool :=
  let a := summaryReg th k
  if k < 3 then
    if th.sumInt then relHolds r a.toInt b.toInt else relNum r (decode64 a.toNat) (decode64 b.toNat)
  else relHolds r a.toNat b.toNat

/-- Queue occupancy: 0 matrix, 1 element, 2 DMA. -/
def queueDepth (x : Cell) (q : Nat) : Nat :=
  if q = 0 then x.mq.length else if q = 1 then x.eq.length else x.dq.length

/-- A branch test. `start` is the cell at the start of the issuing cycle, whose queue occupancies the test sees (R42); `x` is
the cell as the earlier rows of the stitch leave it. -/
def branchTest (start x : Cell) (t : Nat) (statusW : Word) : BranchTest → Bool
  | .xreg r rel b => relHolds rel (xreg (getTh x t) r).toInt (srcVal (getTh x t) statusW b).toInt
  | .summary k rel b => summaryTest (getTh x t) k rel (srcVal (getTh x t) statusW b)
  | .gauge g rel imm => relHolds rel (seenGauge x g) imm
  | .queue q rel imm => relHolds rel (queueDepth start q) imm

/-! ## Commands with their operands read -/

/-- A matrix command with every address and immediate read. -/
def mtxRead (f : AddrSrc → Nat) (m : MtxCmd AddrSrc) (tag : Nat) : MtxCmd Nat :=
  { op := m.op, shape := m.shape, kCmd := m.kCmd, kOff := m.kOff, kTotal := m.kTotal, aFmt := m.aFmt, bFmt := m.bFmt,
    a := f m.a, b := f m.b, aScale := f m.aScale, bScale := f m.bScale, aRec := f m.aRec, bRec := f m.bRec,
    longIn := f m.longIn, longOut := f m.longOut, group := m.group, start := m.start, last := m.last,
    anchor := m.anchor, entry := m.entry, anchorV := f m.anchorV, chain := m.chain, slot := m.slot, skip := m.skip,
    fin := { longForm := m.fin.longForm, fmt := m.fin.fmt, out := f m.fin.out, outScale := f m.fin.outScale,
             tScale := m.fin.tScale.map f, rowScale := m.fin.rowScale.map f, colScale := m.fin.colScale.map f,
             biasRow := m.fin.biasRow.map f, biasCol := m.fin.biasCol.map f, biasBf16 := m.fin.biasBf16,
             act := m.fin.act, param := f m.fin.param, stoch := m.fin.stoch, maxRec := m.fin.maxRec.map f,
             zeroRec := m.fin.zeroRec.map f, tensor := m.fin.tensor, row0 := m.fin.row0, col0 := m.fin.col0 },
    done := { m.done with tag := tag } }

/-- An element command with every address and constant read. -/
def eleRead (f : AddrSrc → Nat) (m : EleCmd AddrSrc) (tag : Nat) : EleCmd Nat :=
  { kind := m.kind, prog := m.prog, e := m.e.map f, pitch := m.pitch, k := m.k.map f, rowLim := m.rowLim,
    colLim := m.colLim, mask := m.mask, zero := m.zero, summary := m.summary, src := m.src, dst := m.dst,
    count := m.count, target := m.target, headroom := m.headroom, bexp := m.bexp, merge := m.merge, stoch := m.stoch,
    tensor := m.tensor, elemOff := m.elemOff, rowStr := m.rowStr, arrays := m.arrays.map f, recIn := m.recIn.map f,
    recOut := m.recOut.map f, scaleIt := m.scaleIt, gBase := f m.gBase, idx := m.idx, reg := m.reg, ty := m.ty,
    strideK := m.strideK, combine := m.combine, done := { m.done with tag := tag } }

/-- A DMA command with every operand read. -/
def dmaRead (f : AddrSrc → Nat) (m : DmaCmd AddrSrc) (tag : Nat) : DmaCmd Nat :=
  { list := m.list, src := f m.src, dst := f m.dst, len := f m.len, stride := f m.stride, cache := m.cache,
    count := m.count, done := { m.done with tag := tag } }

end Sys2Proof.Machine
end

