-- ==== Sys2Proof/Machine/Stitch.lean ====
section
/-! DEFINITION. Issue of stitches by a control core (R36 to R46, R441): which thread issues, what holds a stitch, and the
actions of one stitch in the order of Table 3-4. -/
namespace Sys2Proof.Machine

/-- A stitch that does nothing but advance. -/
def emptyStitch : Stitch :=
  { wait := none, scalar := none, mem := none, gens := [], mtx := none, ele := none, dma := none, gauges := [],
    fence := none, control := none, rept := 1, tag := 0 }

/-- A word of stitch memory as a stitch; what a raw word says is private (R3; log entry 4). -/
def wordStitch : StitchWord → Stitch
  | .asm s => s
  | .raw w => (Config.rawStitch w).getD emptyStitch

/-- Word n of a cell's stitch memory. -/
def stitchAt (x : Cell) (n : Nat) : Stitch := wordStitch (smGet (fun _ => stitchReset) x.stitches n)

/-- What a thread's next stitch meets (R36, R37, R39). -/
inductive Verdict where
  | skip
  | fault (st : Status)
  | wait (n : Nat) (src : GaugeRef)
  | stall (code : Nat)
  | go
  deriving DecidableEq, Repr

/-- Threshold of the wait of a stitch. -/
def waitLevel (x : Cell) (t : Nat) (n : Src) : Nat := (srcVal (getTh x t) (thrStatusWord x t) n).toNat

/-- R39, R43, R199, R200: the conditions that stall a stitch, in the order fence, scalar load, summary, queues. -/
def stallCode (x : Cell) (t : Nat) (s : Stitch) : Option Nat :=
  let th := getTh x t
  if th.fence.isSome then some 5
  else if th.loads.any (fun l => (stitchRegs s).contains l.reg.val) then some 4
  else if readsSummary s && decide (0 < th.sumWait) then some 3
  else if s.mtx.isSome && decide (16 ≤ x.mq.length) then some 0
  else if s.ele.isSome && decide (16 ≤ x.eq.length) then some 1
  else if s.dma.isSome && decide (32 ≤ x.dq.length) then some 2
  else none

/-- What holds the next stitch of thread t of a cell, if anything does. -/
def verdict (x : Cell) (t : Nat) : Verdict :=
  let th := getTh x t
  if th.st ≠ .run ∧ th.st ≠ .stall then .skip
  else if th.draining then .skip
  else if th.pc < th.winBase ∨ th.winBase + th.winLen ≤ th.pc ∨ 2048 ≤ th.pc then .fault .aborted
  else if smGet (fun _ => false) x.stitchBad th.pc then .fault .poisoned
  else
    let s := stitchAt x th.pc
    match s.wait with
    | some (ref, n) =>
      if th.loads.any (fun l => (srcRegs n).contains l.reg.val) then .stall 4
      else if !th.waitOk && decide (seenGauge x ref < waitLevel x t n) then .wait (waitLevel x t n) ref
      else match stallCode x t s with
        | some k => .stall k
        | none => .go
    | none => match stallCode x t s with
        | some k => .stall k
        | none => .go

/-- R54: a wait that holds when it is considered stays satisfied; CEL_THR_WAIT and CEL_THR_WAITSRC take the wait. -/
def noteWait (x : Cell) (t : Nat) : Cell :=
  let th := getTh x t
  match (stitchAt x th.pc).wait with
  | none => x
  | some (ref, n) =>
    if th.waitOk then x
    else setTh x t { th with waitN := waitLevel x t n, waitSrc := ref, waitOk := decide (waitLevel x t n ≤ seenGauge x ref) }

/-- One thread considered: its state as its next stitch leaves it. -/
def considerThread (d : Dev) (c t : Nat) : Dev :=
  let x := getCell d c
  match verdict x t with
  | .skip => d
  | .fault st => chargeFault d c t st 0
  | .wait _ _ => setCell d c (let x := noteWait x t; setTh x t { getTh x t with st := .wait, stallOn := 0 })
  | .stall 4 => modTh d c t (fun th => { th with st := .stall, stallOn := 4 })
  | .stall k => setCell d c (let x := noteWait x t; setTh x t { getTh x t with st := .stall, stallOn := k })
  | .go => setCell d c (let x := noteWait x t; setTh x t { getTh x t with st := .run, stallOn := 0 })

/-- R38: the rotating order F, B, U, S after the thread that issued last. -/
def rotation (last : ThreadId) : List Nat := [1, 2, 3, 4].map (fun k => (last.val + k) % 4)

/-! ## Breakpoints (R441) -/

/-- Whether comparator k covers cell c. -/
def bpCovers (d : Dev) (k c : Nat) : Bool :=
  let u := fget d (DBG_BP_UNIT k)
  match fget d (DBG_BP_SCOPE k) with
  | 0 => u == c
  | 1 => u == regionOf c
  | _ => true

/-- Commands of a stitch that comparator k matches. -/
def bpMatches (d : Dev) (k c : Nat) (s : Stitch) : Nat :=
  let cls := fget d (DBG_BP_CLASS k)
  let one := fun (b : Bool) (q : Nat) => if b && (cls == q || cls == 3) then 1 else 0
  if fbit d (DBG_BP_ARMED k) && bpCovers d k c &&
      tagMatch s.tag (fget d (DBG_BP_CNT_TAG_VAL k)) (fget d (DBG_BP_TAG_MASK k)) then
    one s.mtx.isSome 0 + one s.ele.isSome 1 + one s.dma.isSome 2
  else 0

/-- COUNT of comparator k; 0 is stored as 1. -/
def bpCount (d : Dev) (k : Nat) : Nat := max 1 (fget d (DBG_BP_COUNT k))

/-- Comparators that hit on the issue of a stitch. -/
def bpHits (d : Dev) (c : Nat) (s : Stitch) : List Nat :=
  if (fget d SEC_DBG_PERMS_PERMS).testBit 0 then
    (List.range 8).filter (fun k =>
      decide (0 < bpMatches d k c s ∧ bpCount d k ≤ fget d (DBG_BP_CNT_MATCHES k) + bpMatches d k c s))
  else []

/-- Every thread of the device in RUN, STALL or WAIT enters BREAK. -/
def breakAll (d : Dev) : Dev :=
  { d with cells := d.cells.map (fun e => (e.1, { e.2 with threads := e.2.threads.map (fun p =>
      (p.1, if p.2.st = .run ∨ p.2.st = .stall ∨ p.2.st = .wait then { p.2 with st := .brk, stallOn := 0 } else p.2)) })) }

/-- A comparator that hits: disarmed, HIT set, traced, and the trace stopped if STOP_TRC is set; `n` further matches. -/
def bpHit (d : Dev) (k n src sub tag : Nat) : Dev :=
  let d := fcount d (DBG_BP_CNT_MATCHES k) n
  let d := fset d (DBG_BP_ARMED k) 0
  let d := fset d DBG_STATUS_BP_HIT ((fget d DBG_STATUS_BP_HIT).lor (2 ^ k))
  let d := traceEv d 6 0x50 tag src sub .ok (0, 0)
  if fbit d (DBG_BP_STOP_TRC k) then fset d DBG_TRC_STATUS_RUNNING 0 else d

/-- Matches of a stitch that issues are counted. -/
def bpCountAll (d : Dev) (c : Nat) (s : Stitch) : Dev :=
  if (fget d SEC_DBG_PERMS_PERMS).testBit 0 then
    (List.range 8).foldl (fun d k => fcount d (DBG_BP_CNT_MATCHES k) (bpMatches d k c s)) d
  else d

/-- A stitch stopped before it issues: each comparator that hits, the thread in BREAK, and with ACTION DEVICE every other
thread. -/
def bpStop (d : Dev) (c t : Nat) (s : Stitch) (hits : List Nat) : Dev :=
  let every := hits.any (fun k => fbit d (DBG_BP_ACTION k))
  let d := hits.foldl (fun d k => bpHit d k (bpMatches d k c s) c t s.tag) d
  let d := modTh d c t (fun th => { th with st := .brk, stallOn := 0 })
  if every then breakAll d else d

/-! ## The actions of a stitch (R41) -/

/-- Row 2. -/
def actScalar (d : Dev) (c t : Nat) (sw : Word) (a : ScalarAct) : Dev :=
  modTh d c t (fun th => setX th a.d (scalarVal a.op (srcVal th sw a.a) (srcVal th sw a.b) (srcVal th sw a.c)))

/-- A scalar load noted as issued, with its result if it has one already (R43). -/
def noteLoad (d : Dev) (c t : Nat) (reg : Fin 32) (n : Nat) (st : LoadState) : Dev :=
  modCell d c (fun x =>
    let th := getTh x t
    setTh { x with loadId := x.loadId + 1 } t
      { th with loads := th.loads ++ [{ id := x.loadId, reg := reg, bytes := n, st := st }] })

/-- A request put on the far-cache path (R188). -/
def farAsk (d : Dev) (q : FarReq) : Dev := { d with far := { d.far with queue := d.far.queue ++ [q] } }

/-- One part of a load has come: its bytes at their place, or its status. -/
def loadPart (s : LoadState) (place v : Nat) (st : Status) : LoadState :=
  match s with
  | .waiting left acc st0 =>
    let st1 := if st0 = .ok then st else st0
    let acc := acc + v * 2 ^ (8 * place)
    if left ≤ 1 then (if st1 = .ok then .ready acc else .failed st1) else .waiting (left - 1) acc st1
  | s => s

/-- A part of scalar load `id` of thread t has come. -/
def loadBack (d : Dev) (c t id place v : Nat) (st : Status) : Dev :=
  modTh d c t (fun th => { th with loads := th.loads.map (fun l => if l.id = id then { l with st := loadPart l.st place v st } else l) })

/-- One part, within a 128 B line, of a scalar access: the cell's own near memory is served directly (R145), any other
address takes the far-cache path. The result is a status that faults the thread. -/
def memPart (d : Dev) (e : EccHits) (c : CellId) (t : ThreadId) (isStore : Bool) (id a v place n : Nat) : Dev × Status :=
  let need : Need := if isStore then .store else .load
  match translate d need a with
  | .refused _ _ => (d, .xltFault)
  | .ok l =>
    let own := decide (l.node = nodeId d) && (match placeOf l.addr with
      | .sp k _ => k == c.val
      | .csram k _ => k == c.val
      | .cdram k _ => k == c.val
      | _ => false)
    if own then
      match memStatus d l.addr with
      | .ok =>
        if isStore then
          let (d, held) := agentStore d l.addr (leBytes n v) false (.store c t)
          (modTh d c t (fun th => { th with openStores := th.openStores + held }), .ok)
        else
          let (d, bs, bad) := agentLoad d e l.addr n
          (loadBack d c t id place (leNat bs) (if bad then .poisoned else .ok), .ok)
      | st => (d, st)
    else
      let d := farAsk d
        { kind := if isStore then .store else .load, cell := c, thread := t, id := id, dst := place, node := l.node,
          addr := l.addr, bytes := n, data := v, page := l.page, psize := l.size, cache := l.attr.cache, pf := l.attr.pf }
      (if isStore then modTh d c t (fun th => { th with openStores := th.openStores + 1 }) else d, .ok)

/-- Row 3: one scalar load or store. The result is the status that faults the thread at issue: a refused translation
(R186), or a stopped or retired near memory of the cell (R151, R404). -/
def actMem (d : Dev) (e : EccHits) (c : CellId) (t : ThreadId) (sw : Word) (m : MemAct) (tag : Nat) : Dev × Status :=
  let th := thread d c t
  let n := 2 ^ m.size.val
  let a := (addrVal th sw m.addr).toNat
  let need : Need := if m.store then .store else .load
  let d := countWalk d
  match checkRange d need a n with
  | some (p, cause, level) => (recordRefusal d p cause level (needReq need) tag c, .xltFault)
  | none =>
    let id := (getCell d c).loadId
    let v := (xreg th m.reg).toNat % 2 ^ (8 * n)
    let parts := cutAt 128 a n
    let d := if m.store then d else noteLoad d c t m.reg n (.waiting parts.length 0 .ok)
    parts.foldl (fun (d, st) p =>
      if st = .ok then memPart d e c t m.store id (a + p.1) (v / 2 ^ (8 * p.1) % 2 ^ (8 * p.2)) p.1 p.2 else (d, st)) (d, .ok)

/-- Row 4: one address generator action. A setup carried by a repeated stitch acts as a step after the first repetition
(R40). -/
def actGen (d : Dev) (c t : Nat) (sw : Word) (first : Bool) (a : AgAct) : Dev :=
  modTh d c t (fun th =>
    let put := fun (g : Nat) (v : AddrGen) => { th with gens := smSet (fun _ => addrGenReset) th.gens g v }
    match a with
    | .setup g base counts strides wrap =>
      if first then
        put g (genSetup (srcVal th sw base) (counts.map (fun s => (srcVal th sw s).toNat)) (strides.map (srcVal th sw)) wrap)
      else put g (genStep (genOf th g))
    | .step g => put g (genStep (genOf th g)))

/-- A command issued: its thread has one more outstanding, its tag is the last issued, and the trace sees it. -/
def noteIssue (d : Dev) (c t tag ev : Nat) (ext : Nat × Nat) : Dev :=
  let d := modTh d c t (fun th => { th with openCmds := th.openCmds + 1, lastTag := tag })
  traceEv d 0 ev tag c t .ok ext

/-- Row 5. -/
def actMtx (d : Dev) (c : CellId) (t : ThreadId) (sw : Word) (tag : Nat) (m : MtxCmd AddrSrc) : Dev :=
  let th := thread d c t
  let k := mtxRead (fun a => (addrVal th sw a).toNat) m tag
  noteIssue (modCell d c (fun x => { x with mq := x.mq ++ [{ thread := t, cmd := k }] })) c t tag 0x01 (k.a, k.kCmd)

/-- Row 6. A command with a summary source is one that a summary read waits for (R133). -/
def actEle (d : Dev) (c : CellId) (t : ThreadId) (sw : Word) (tag : Nat) (m : EleCmd AddrSrc) : Dev :=
  let th := thread d c t
  let k := eleRead (fun a => (addrVal th sw a).toNat) m tag
  let d := modCell d c (fun x => { x with eq := x.eq ++ [{ thread := t, cmd := k }] })
  let d := if k.summary.isSome then modTh d c t (fun th => { th with sumWait := th.sumWait + 1 }) else d
  noteIssue d c t tag 0x02 (k.e.headD 0, k.count)

/-- Row 7. -/
def actDma (d : Dev) (c : CellId) (t : ThreadId) (sw : Word) (tag : Nat) (m : DmaCmd AddrSrc) : Dev :=
  let th := thread d c t
  let k := dmaRead (fun a => (addrVal th sw a).toNat) m tag
  noteIssue (modCell d c (fun x => { x with dq := x.dq ++ [{ thread := t, cmd := k }] })) c t tag 0x03 (k.src, k.len)

/-- Row 8: the gauge updates of one stitch. Those that name one gauge of the cell reach it together (R52). -/
def actGauges (d : Dev) (c : CellId) (t : ThreadId) (sw : Word) (us : List (GaugeRef × Bool × Src)) : Dev :=
  let th := thread d c t
  let ups := us.map (fun (r, set, s) =>
    ({ patch := r.patch, gauge := r.gauge, src := .stitch t, cell := c, node := nodeId d,
       op := if set then .set (srcVal th sw s).toNat else .add (srcVal th sw s).toNat } : GaugeUpd))
  let d := ((us.filter (fun u => u.1.patch.val == 0)).map (fun u => u.1.gauge)).dedup.foldl (fun d g =>
    applyCellGauge d c g (ups.filter (fun u => u.patch == 0 && u.gauge == g.val))) d
  (ups.filter (fun u => u.patch != 0)).foldl sendPatchGauge d

/-- Row 10, and the advance of the stitch pointer (R42, R44, R46). `start` is the cell at the start of the cycle. -/
def actControl (d : Dev) (start : Cell) (c t : Nat) (sw : Word) (k : Option Control) (tag : Nat) : Dev :=
  let th := thread d c t
  let goto := fun (n : Nat) => modTh d c t (fun th => { th with pc := n })
  let next := th.pc + 1
  match k with
  | none => goto next
  | some (.jump n) => goto n
  | some (.loopBack r n) =>
    let v := xreg th r - 1
    let d := modTh d c t (fun th => setX th r v)
    modTh d c t (fun th => { th with pc := (if v = 0 then next else n) })
  | some (.call n) =>
    if 4 ≤ th.rstack.length then chargeFault d c t .aborted tag
    else modTh d c t (fun th => { th with pc := n, rstack := next :: th.rstack })
  | some .ret =>
    match th.rstack with
    | [] => chargeFault d c t .aborted tag
    | n :: rest => modTh d c t (fun th => { th with pc := n, rstack := rest })
  | some (.branch test n) => goto (if branchTest start (getCell d c) t sw test then n else next)
  | some .halt => tryArrive (modTh d c t (fun th => { th with st := .idle, pc := next }))
  | some (.barrier drain) =>
    if drain && decide (0 < th.openCmds) then
      modTh d c t (fun th => { th with st := .stall, stallOn := 6, draining := true, pc := next })
    else tryArrive (modTh d c t (fun th => { th with st := .barrier, pc := next }))

/-- R41: one issue of a stitch, its actions in the order of Table 3-4. A status that faults the thread takes effect after
the other actions of the stitch. -/
def issueStitch (d : Dev) (e : EccHits) (c : CellId) (t : ThreadId) (s : Stitch) : Dev :=
  let start := getCell d c
  let sw := thrStatusWord start t
  let first := decide ((getTh start t).repDone = 0)
  let last := decide (s.rept ≤ (getTh start t).repDone + 1)
  let d := modCell d c (fun x => setTh { x with lastIssue := t } t
    { getTh x t with waitOk := false, repDone := if last then 0 else (getTh x t).repDone + 1 })
  let d := match s.scalar with | some a => actScalar d c t sw a | none => d
  let (d, st) := match s.mem with | some m => actMem d e c t sw m s.tag | none => (d, .ok)
  let d := (s.gens.take 4).foldl (fun d a => actGen d c t sw first a) d
  let d := match s.mtx with | some m => actMtx d c t sw s.tag m | none => d
  let d := match s.ele with | some m => actEle d c t sw s.tag m | none => d
  let d := match s.dma with | some m => actDma d c t sw s.tag m | none => d
  let d := actGauges d c t sw (s.gauges.take 2)
  let d := match s.fence with
    | some f => modTh d c t (fun th => { th with fence := some f })
    | none => d
  let d := if last then actControl d start c t sw s.control s.tag else d
  if st = .ok then d else chargeFault d c t st s.tag

/-- STITCH_ISSUE (R36 to R39): one cycle of a cell's control core. Every thread is considered; the first in rotation whose
stitch can issue issues, unless a breakpoint stops it. -/
def stitchIssue (d : Dev) (c : CellId) (e : EccHits) : Dev :=
  if !cellRuns d c then d else
    let d := [0, 1, 2, 3].foldl (fun d t => considerThread d c t) d
    let x := getCell d c
    match (rotation x.lastIssue).find? (fun t => decide (verdict x t = .go)) with
    | none => d
    | some t =>
      let s := stitchAt x (getTh x t).pc
      let hits := bpHits d c s
      if hits.isEmpty then issueStitch (bpCountAll d c s) e c (Fin.ofNat 4 t) s
      else bpStop d c t s hits

/-! ## Events of a thread -/

/-- GAUGE_WAIT_SATISFIED (R35, R36, R54): a thread in WAIT whose wait is satisfied goes on, to STALL while a stall
condition of its stitch remains. -/
def gaugeWaitSatisfied (d : Dev) (c : CellId) (t : ThreadId) : Dev :=
  let th := thread d c t
  if th.st = .wait && th.waitOk then
    let d := modTh d c t (fun th => { th with st := .run })
    considerThread d c t
  else d

/-- SCALAR_LOAD_RETURN (R43, R147): a scalar load whose result has come writes its X register, or faults its thread. The
high bits after a load of fewer than 8 bytes are not stated (log entry 5). -/
def scalarLoadReturn (d : Dev) (c : CellId) (t : ThreadId) (id : Nat) : Dev :=
  let th := thread d c t
  match th.loads.find? (fun l => l.id == id) with
  | none => d
  | some l =>
    let rest := th.loads.filter (fun l => l.id != id)
    match l.st with
    | .waiting _ _ _ => d
    | .ready v =>
      let (k, d) := takeFree d
      let w := v % 2 ^ (8 * l.bytes) + (if l.bytes = 8 then 0 else Config.loadHigh k v % 2 ^ 64 / 2 ^ (8 * l.bytes) * 2 ^ (8 * l.bytes))
      modTh d c t (fun th => setX { th with loads := rest } l.reg (BitVec.ofNat 64 w))
    | .failed st => chargeFault (modTh d c t (fun th => { th with loads := rest })) c t st 0

/-- DRAIN_COMPLETE (R44, R233): a DRAIN barrier's thread, its commands all complete, enters BARRIER. -/
def drainComplete (d : Dev) (c : CellId) (t : ThreadId) : Dev :=
  let th := thread d c t
  if th.st = .stall && th.draining && decide (th.openCmds = 0) then
    tryArrive (modTh d c t (fun th => { th with st := .barrier, stallOn := 0, draining := false }))
  else d

/-- FENCE_REL_PERFORMED (R199): every earlier store and command of the thread has been performed at its home. -/
def fenceRelPerformed (d : Dev) (c : CellId) (t : ThreadId) : Dev :=
  let x := getCell d c
  let th := getTh x t
  match th.fence with
  | some (false, _) =>
    if th.openStores = 0 && th.openCmds = 0 && x.held.all (fun h => decide (h.who ≠ .engine)) then
      modTh d c t (fun th => { th with fence := none })
    else d
  | _ => d

/-- Devices of the gang patch that holds this device; the device alone without one (R197). -/
def gangNodes (d : Dev) : List Nat :=
  match d.pat.active with
  | none => [nodeId d]
  | some a => match a.body.patches.find? (fun p => decide (p.level = .gang) && p.nodes.contains (nodeId d)) with
    | some p => p.nodes
    | none => [nodeId d]

/-- FENCE_ACQ_PERFORMED (R200, Table 10-7): at gang or hall scope the lines homed on other devices of the scope are
invalidated, and fills requested before are to be discarded. -/
def fenceAcqPerformed (d : Dev) (c : CellId) (t : ThreadId) : Dev :=
  match (thread d c t).fence with
  | some (true, scope) =>
    let d := modTh d c t (fun th => { th with fence := none })
    let hit := fun (node : Nat) => decide (node ≠ nodeId d) &&
      (decide (scope = .hall) || (gangNodes d).contains node)
    if scope = .gang ∨ scope = .hall then
      let far := { d.far with
        lines := smKeep (fun k => !hit (k / 2 ^ 41)) d.far.lines,
        misses := d.far.misses.map (fun m => if hit m.node then { m with discard := true } else m) }
      fcount { d with far := far } FAR_ACQ_ACQUIRES 1
    else d
  | _ => d

end Sys2Proof.Machine
end

