-- ==== Sys2Proof/Machine/Dma.lean ====
section
/-! DEFINITION. DMA commands (R48, R56, R186, R195, R196, R480): a tag reads every source byte of a transfer once, then
writes the destination. -/
namespace Sys2Proof.Machine

/-- Pieces of a transfer, by the addresses of its source or destination; bytes one at a time under a stride, whose
offsets the manual does not give (log entry 6). -/
def dmaPieces (t : Transfer) (blk base : Nat) : List (Nat × Nat) :=
  if t.stride = 0 then cutAt blk base t.len else (List.range t.len).map (fun i => (i, 1))

/-- Input address of byte i of the source (side 0) or the destination (side 1). -/
def dmaAt (t : Transfer) (side i : Nat) : Nat :=
  (if side = 0 then t.src else t.dst) + (if t.stride = 0 then i else Config.dmaStride (2 * t.stride + side) i)

/-- DMA tag n of a cell. -/
def dmaTag (d : Dev) (c n : Nat) : Option DmaTag := smGet (fun _ => none) (getCell d c).tags n

/-- A DMA tag changed. -/
def modTag (d : Dev) (c n : Nat) (f : DmaTag → DmaTag) : Dev :=
  modCell d c (fun x => match smGet (fun _ => none) x.tags n with
    | some t => { x with tags := smSet (fun _ => none) x.tags n (some (f t)) }
    | none => x)

/-- A failure noted; the first stays. -/
def failTag (d : Dev) (c n : Nat) (st : Status) : Dev :=
  modTag d c n (fun t => if t.status = .ok then { t with status := st } else t)

/-- A request of a tag opened. -/
def openReq (d : Dev) (c n : Nat) : Dev := modTag d c n (fun t => { t with openReq := t.openReq + 1 })

/-- Source bytes that have come. -/
def putGot (t : DmaTag) (i : Nat) (bytes : List Byte) (bad : Bool) : DmaTag :=
  { t with got := (bytes.zipIdx).foldl (fun m p => smInsert m (i + p.2) p.1) t.got,
           gotBad := if bad then t.gotBad ++ (List.range bytes.length).map (i + ·) else t.gotBad }

/-- A check of a target on this device (R155): the status of an access by cell c to a near memory of another cell, with the
refusal recorded. -/
def targetCheck (d : Dev) (c a n : Nat) (write : Bool) (req tag : Nat) (input : Nat) : Dev × Status :=
  if ownerOk d (.cell c) a n write then (d, rangeStatus d a n)
  else (recordRefusal (countDeny d a) input 5 0xFF req tag c, .xltFault)

/-- Whether a piece goes through the far cache (Table 10-5). -/
def dmaCached (flag : Bool) (l : Leaf) : Bool := flag && l.attr.cache && isTier l.addr

/-- One source piece read, or asked for. -/
def dmaReadPiece (d : Dev) (e : EccHits) (c n : Nat) (t : Transfer) (i k : Nat) : Dev :=
  match dmaTag d c n with
  | none => d
  | some tg =>
    if tg.status ≠ .ok then d else
      let a := dmaAt t 0 i
      match translate d .dmaRead a with
      | .refused _ _ => failTag d c n .xltFault
      | .ok l =>
        if dmaCached t.cache l then
          openReq (farAsk d { kind := .dmaRead, cell := Fin.ofNat 4096 c, thread := tg.entry.thread, id := n, dst := i,
                              node := l.node, addr := l.addr, bytes := k, data := 0, page := l.page, psize := l.size,
                              cache := true, pf := l.attr.pf }) c n
        else if l.node ≠ nodeId d then
          openReq (sendRequest d (.dmaRead (Fin.ofNat 4096 c) n i) l.node l.addr k (.rd l.addr k) 12) c n
        else
          match targetCheck d c l.addr k false 3 tg.entry.cmd.done.tag a with
          | (d, .ok) =>
            let (d, bs, bad) := agentLoad d e l.addr k
            modTag d c n (fun t => putGot t i bs bad)
          | (d, st) => failTag d c n st

/-- The VC that the NETWORK section gives the issuing thread's STAGE patch, VC12 without one (R260). -/
def stageVc (d : Dev) (c : Nat) : Nat :=
  match d.pat.active with
  | none => 12
  | some a =>
    match a.body.patches.find? (fun p => decide (p.level = .stage) && p.cells.any (fun k => k.val == c)), a.body.net with
    | some p, some net => match net.stageVc.find? (fun e => e.1 == p.num) with
      | some e => e.2
      | none => 12
    | _, _ => 12

/-- One destination piece written, or sent. -/
def dmaWritePiece (d : Dev) (c n : Nat) (t : Transfer) (i k : Nat) : Dev :=
  match dmaTag d c n with
  | none => d
  | some tg =>
    if tg.status ≠ .ok then d else
      let a := dmaAt t 1 i
      let bytes := (List.range k).map (fun j => smGet (fun _ => (0 : Byte)) tg.got (i + j))
      let bad := (List.range k).any (fun j => tg.gotBad.contains (i + j))
      match translate d .dmaWrite a with
      | .refused _ _ => failTag d c n .xltFault
      | .ok l =>
        if dmaCached t.cache l && !bad then
          openReq (farAsk d { kind := .dmaWrite, cell := Fin.ofNat 4096 c, thread := tg.entry.thread, id := n, dst := i,
                              node := l.node, addr := l.addr, bytes := k, data := leNat bytes, page := l.page, psize := l.size,
                              cache := true, pf := l.attr.pf }) c n
        else if l.node ≠ nodeId d then
          openReq (sendRequest d (.dmaWrite (Fin.ofNat 4096 c) n) l.node l.addr k (.wr l.addr bytes bad) (stageVc d c)) c n
        else
          match targetCheck d c l.addr k true 4 tg.entry.cmd.done.tag a with
          | (d, .ok) =>
            let (d, held) := agentStore d l.addr bytes bad (.dma c n)
            if held = 0 then d else modTag d c n (fun t => { t with held := t.held + held })
          | (d, st) => failTag d c n st

/-- A destination that a command leaves undefined (R56, R186): each byte of it that lies on this device, in memory that
answers and admits the command, takes a free value. -/
def scrambleDst (d : Dev) (c : Nat) (t : Transfer) : Dev :=
  (List.range t.len).foldl (fun d i =>
    match translate d .dmaWrite (dmaAt t 1 i) with
    | .refused _ _ => d
    | .ok l =>
      if l.node = nodeId d && ownerOk d (.cell c) l.addr 1 true && decide (memStatus d l.addr = .ok) then
        let (k, d) := takeFree d
        (agentStore d l.addr [BitVec.ofNat 8 (Config.free k)] false .engine).1
      else d) d

/-- The end of a transfer (R196): poisoned data ends the list with POISONED, a failure ends it with its status and leaves the
destination undefined. -/
def dmaEnd (d : Dev) (c n : Nat) : Dev :=
  match dmaTag d c n with
  | none => d
  | some tg =>
    match tg.cur with
    | none => d
    | some t =>
      let d := if tg.status = .ok then d else scrambleDst d c t
      let st := if tg.status = .ok && !tg.gotBad.isEmpty then .poisoned else tg.status
      modTag d c n (fun g => { g with status := st, cur := none, got := [], gotBad := [], writing := false,
                                      todo := if st = .ok then g.todo else [] })

/-- A tag whose open requests have all ended goes on: from reading to writing, and from writing to the end. -/
def dmaTurn (d : Dev) (c n : Nat) : Dev :=
  match dmaTag d c n with
  | none => d
  | some tg =>
    match tg.cur with
    | none => d
    | some t =>
      if 0 < tg.openReq then d
      else if tg.writing || decide (tg.status ≠ .ok) then dmaEnd d c n
      else
        let d := modTag d c n (fun g => { g with writing := true })
        let d := (dmaPieces t 64 t.dst).foldl (fun d p => dmaWritePiece d c n t p.1 p.2) d
        match dmaTag d c n with
        | some g => if g.openReq = 0 then dmaEnd d c n else d
        | none => d

/-- R186: every page of a transfer checked at the requester, before any byte moves. -/
def dmaCheck (d : Dev) (t : Transfer) : Option (Nat × Nat × Nat × Nat) :=
  let side := fun (k : Nat) (n : Need) =>
    if t.stride = 0 then checkRange d n (dmaAt t k 0) t.len
    else (List.range t.len).foldl (fun r i => match r with
      | some x => some x
      | none => checkRange d n (dmaAt t k i) 1) none
  match side 0 .dmaRead with
  | some (a, c, l) => some (a, c, l, 3)
  | none => match side 1 .dmaWrite with
    | some (a, c, l) => some (a, c, l, 4)
    | none => none

/-- One transfer started by a tag (R186, R196, R480). -/
def startTransfer (d : Dev) (e : EccHits) (c n : Nat) (t : Transfer) : Dev :=
  match dmaTag d c n with
  | none => d
  | some tg =>
    if t.bad then modTag d c n (fun g => { g with status := .aborted, todo := [] })
    else if t.len = 0 then d
    else
      let d := countWalk d
      match dmaCheck d t with
      | some (a, cause, level, req) =>
        let d := recordRefusal d a cause level req tg.entry.cmd.done.tag c
        modTag d c n (fun g => { g with status := .xltFault, todo := [] })
      | none =>
        let d := modTag d c n (fun g => { g with cur := some t, got := [], gotBad := [], writing := false })
        let d := (dmaPieces t 128 t.src).foldl (fun d p => dmaReadPiece d e c n t p.1 p.2) d
        dmaTurn d c n

/-- One block of a descriptor list read, or asked for (R196). -/
def listPiece (d : Dev) (e : EccHits) (c n base i k : Nat) : Dev :=
  match dmaTag d c n with
  | none => d
  | some tg =>
    if tg.status ≠ .ok then d else
      match translate d .fetch (base + i) with
      | .refused _ _ => failTag d c n .xltFault
      | .ok l =>
        if l.node ≠ nodeId d then
          openReq (sendRequest d (.dmaList (Fin.ofNat 4096 c) n i) l.node l.addr k (.rd l.addr k) 12) c n
        else
          match targetCheck d c l.addr k false 7 tg.entry.cmd.done.tag (base + i) with
          | (d, .ok) =>
            let (d, bs, bad) := agentLoad d e l.addr k
            if bad then failTag d c n .poisoned
            else modTag d c n (fun t => { t with list := (bs.zipIdx).foldl (fun m p => smInsert m (i + p.2) p.1) t.list })
          | (d, st) => failTag d c n st

/-- A whole list asked for at dispatch; a malformed command reads none (R480). -/
def startList (d : Dev) (e : EccHits) (c n : Nat) (m : DmaCmd Nat) : Dev :=
  if m.src % 64 ≠ 0 ∨ m.count < 1 ∨ 4096 < m.count then failTag d c n .aborted
  else
    let d := countWalk d
    match checkRange d .fetch m.src (32 * m.count) with
    | some (a, cause, level) => failTag (recordRefusal d a cause level 7 m.done.tag c) c n .xltFault
    | none =>
      let d := modTag d c n (fun g => { g with listN := m.count })
      (cutAt 128 m.src (32 * m.count)).foldl (fun d p => listPiece d e c n m.src p.1 p.2) d

/-- DMA_DISPATCH (R48, R49): the oldest entry of the queue takes the lowest free tag of the eight; a single transfer starts,
a list is read. -/
def dmaDispatch (d : Dev) (c : CellId) (e : EccHits) : Dev :=
  let x := getCell d c
  match x.dq, [0, 1, 2, 3, 4, 5, 6, 7].find? (fun n => (smGet (fun _ => (none : Option DmaTag)) x.tags n).isNone) with
  | en :: rest, some n =>
    if !cellRuns d c then d else
      let tg : DmaTag := { entry := en, seq := (x.dmaSeq + 1) % 2 ^ 32, list := [], listN := 0, todo := [], cur := none,
                           got := [], gotBad := [], writing := false, openReq := 0, held := 0, status := .ok }
      let d := setCell d c { x with dq := rest, dmaSeq := (x.dmaSeq + 1) % 2 ^ 32,
                                    tags := smSet (fun _ => none) x.tags n (some tg) }
      let m := en.cmd
      if m.list then startList d e c n m
      else startTransfer d e c n
        { src := m.src, dst := m.dst, len := m.len, stride := m.stride, cache := m.cache, bad := decide (2 ^ 32 ≤ m.len) }
  | _, _ => d

/-- A descriptor of 32 B (R196). -/
def parseDesc (m : SMap Byte) (k : Nat) : Transfer :=
  let b := fun (i n : Nat) => leNat ((List.range n).map (fun j => smGet (fun _ => (0 : Byte)) m (32 * k + i + j)))
  { src := b 0 8, dst := b 8 8, len := b 16 4, stride := 0, cache := b 20 1 % 2 == 1,
    bad := decide (b 20 1 / 2 ≠ 0) || decide (b 21 11 ≠ 0) }

/-- DMA_DESCRIPTOR (R196): a tag with nothing in progress performs the next descriptor of its list. -/
def dmaDescriptor (d : Dev) (c : CellId) (n : Fin 8) (e : EccHits) : Dev :=
  match dmaTag d c n with
  | none => d
  | some tg =>
    if tg.cur.isSome || decide (0 < tg.openReq) || decide (tg.status ≠ .ok) || !cellRuns d c then d else
      let tg := if 0 < tg.listN then
          { tg with todo := (List.range tg.listN).map (parseDesc tg.list), listN := 0, list := [] } else tg
      match tg.todo with
      | [] => d
      | t :: rest =>
        startTransfer (modTag d c n (fun _ => { tg with todo := rest })) e c n t

/-- DMA_COMPLETE (R56): a tag with nothing left to do completes; its gauge receives its increment, whatever its status. -/
def dmaComplete (d : Dev) (c : CellId) (n : Fin 8) : Dev :=
  match dmaTag d c n with
  | none => d
  | some tg =>
    let idle := tg.cur.isNone && decide (tg.openReq = 0) && decide (tg.held = 0)
    let over_ := decide (tg.status ≠ .ok) || (decide (tg.listN = 0) && tg.todo.isEmpty)
    if idle && over_ then
      let m := tg.entry.cmd
      let d := modCell d c (fun x => { x with tags := smSet (fun _ => none) x.tags n none })
      let d := noteDone d c tg.entry.thread m.done.tag tg.status (m.src, m.len)
      completeGauge (closeCmd d c tg.entry.thread) c m.done .dma
    else d

end Sys2Proof.Machine
end

