-- ==== Sys2Proof/Machine/FarCache.lean ====
section
/-! DEFINITION. The far-cache path (R187 to R194, R155): requests to near memories, lookups, miss registers, prefetch
streams and fills, and what a request that ends does to its issuer. -/
namespace Sys2Proof.Machine

/-- A part of a GATHER lane has come. -/
def laneBack (d : Dev) (c lane place v : Nat) (st : Status) : Dev :=
  modCell d c (fun x => match x.erun with
    | some r => { x with erun := some { r with lanes := r.lanes.map (fun l =>
        if l.1 = lane then (l.1, loadPart l.2 place v st) else l) } }
    | none => x)

/-- A scalar store has been performed, or has failed and faults its thread (R186). -/
def storeBack (d : Dev) (c t : Nat) (st : Status) : Dev :=
  let d := modTh d c t (fun th => { th with openStores := th.openStores - 1 })
  if st = .ok then d else chargeFault d c t st 0

/-- Source bytes of a DMA tag have come, or its status. -/
def dmaReadBack (d : Dev) (c n place : Nat) (st : Status) (bytes : List Byte) (bad : Bool) : Dev :=
  let d := modTag d c n (fun t => { (if st = .ok then putGot t place bytes bad else t) with openReq := t.openReq - 1 })
  dmaTurn (if st = .ok then d else failTag d c n st) c n

/-- A write of a DMA tag has been performed, or has failed. -/
def dmaWriteBack (d : Dev) (c n : Nat) (st : Status) : Dev :=
  let d := modTag d c n (fun t => { t with openReq := t.openReq - 1 })
  dmaTurn (if st = .ok then d else failTag d c n st) c n

/-- A request of the far-cache path ends at its issuer. -/
def finishFar (d : Dev) (q : FarReq) (st : Status) (bytes : List Byte) (bad : Bool) : Dev :=
  let st1 := if st = .ok && bad then .poisoned else st
  match q.kind with
  | .load => loadBack d q.cell q.thread q.id q.dst (leNat bytes) st1
  | .gather => laneBack d q.cell q.id q.dst (leNat bytes) st1
  | .store => storeBack d q.cell q.thread st
  | .dmaRead => dmaReadBack d q.cell q.id q.dst st bytes bad
  | .dmaWrite => dmaWriteBack d q.cell q.id st

/-- Whether a request writes. -/
def farWrites (q : FarReq) : Bool := decide (q.kind = .store ∨ q.kind = .dmaWrite)

/-- REQ code of a request (Table 10-10). -/
def farReqCode (q : FarReq) : Nat :=
  match q.kind with | .load => 0 | .store => 1 | .gather => 2 | .dmaRead => 3 | .dmaWrite => 4

/-- Input address of a request. -/
def farInput (q : FarReq) : Nat := q.page + q.addr % pageBytes q.psize

/-- Element i of the request queue taken out. -/
def dropReq (d : Dev) (i : Nat) : Dev := { d with far := { d.far with queue := d.far.queue.eraseIdx i } }

/-- Whether a node-local address is in a near memory. -/
def isNear (a : Nat) : Bool :=
  match placeOf a with
  | .sp _ _ => true
  | .csram _ _ => true
  | .cdram _ _ => true
  | _ => false

/-- A request performed at its home on this device, uncached and snooped (R188, R189). -/
def serveHome (d : Dev) (q : FarReq) (e : EccHits) : Dev :=
  match rangeStatus d q.addr q.bytes with
  | .ok =>
    if farWrites q then
      let (d, held) := agentStore d q.addr (leBytes q.bytes q.data) false (.store q.cell q.thread)
      if held = 0 then finishFar d q .ok [] false
      else modTh d q.cell q.thread (fun th => { th with openStores := th.openStores + held - 1 })
    else
      let (d, bs, bad) := agentLoad d e q.addr q.bytes
      finishFar d q .ok bs bad
  | st => finishFar d q st [] false

/-- FOREIGN_REQUEST (R155): request i reaches the port of the cell whose near memory it names, is checked there and is
served, or refused with XLT_FAULT. -/
def foreignRequest (d : Dev) (i : Nat) (e : EccHits) : Dev :=
  match d.far.queue[i]? with
  | none => d
  | some q =>
    if q.node = nodeId d && isNear q.addr then
      let d := dropReq d i
      if ownerOk d (.cell q.cell) q.addr q.bytes (farWrites q) then serveHome d q e
      else
        let d := recordRefusal (countDeny d q.addr) (farInput q) 5 0xFF (farReqCode q) 0 q.cell
        finishFar d q .xltFault [] false
    else d

/-! ## Prefetch streams (R192 to R194) -/

/-- Whether a line is present or on its way. -/
def lineKnown (d : Dev) (node line : Nat) : Bool :=
  (getLine d node (128 * line)).isSome || d.far.misses.any (fun m => m.node == node && m.line == line)

/-- MISS_INUSE, and MISS_HWM where it is exceeded (Table 10-12). -/
def noteMisses (d : Dev) : Dev :=
  let n := d.far.misses.length
  let d := fset d FAR_STATUS_MISS_INUSE n
  fset d FAR_STATUS_MISS_HWM (max n (fget d FAR_STATUS_MISS_HWM))

/-- A miss register taken for a line; a line of another device is read there (R190, R260). -/
def takeMiss (d : Dev) (node line : Nat) (q : List FarReq) (pf : Bool) : Dev :=
  let m : MissReg := { node := node, line := line, waiting := q, prefetch := pf, discard := false, promoted := false, data := none }
  let d := noteMisses { d with far := { d.far with misses := d.far.misses ++ [m] } }
  if node = nodeId d then d
  else sendRequest d (.fill node line) node (128 * line) 128 (.rd (128 * line) 128) 12

/-- A stream after an access to line L (R192): an access to the line it last saw leaves it (log entry 40). -/
def trainStream (s : Stream) (line : Int) : Stream :=
  let step := line - s.line
  if step = 0 then s
  else if 3 ≤ s.seen then { s with line := line }
  else if s.seen = 2 && decide (step = s.stride) then { s with line := line, seen := 3 }
  else if 1 ≤ step.natAbs ∧ step.natAbs ≤ 64 then { s with line := line, stride := step, seen := 2 }
  else { s with line := line, stride := 0, seen := 1 }

/-- The lines ahead of line L that a confirmed stream requests, nearest first; the stream is retired, and FAR_PF_DROP grows,
when one lies outside its page (R193). The second component says whether the stream lives on. -/
def askAhead (d : Dev) (s : Stream) (lo hi : Nat) : Nat → Int → List Int → Dev × List Int × Bool
  | 0, _, asked => (d, asked, true)
  | n + 1, line, asked =>
    let next := line + s.stride
    if next < lo ∨ (hi : Int) ≤ next then (fcount d FAR_PF_DROP_DROPS 1, asked, false)
    else if asked.contains next then askAhead d s lo hi n next asked
    else
      let d := if lineKnown d s.node next.toNat then d
        else fcount (takeMiss d s.node next.toNat [] true) FAR_PF_ISSUED 1
      askAhead d s lo hi n next (asked ++ [next])

/-- A demand access trains its thread's stream of its page, the 1,024 streams kept by last use (R192). -/
def trainPrefetch (d : Dev) (q : FarReq) : Dev :=
  if !(q.kind = .load || q.kind = .gather) || !q.pf || !q.cache || !isTier q.addr || !fbit d FAR_PF_CFG_EN then d else
    let same := fun (s : Stream) => s.cell == q.cell && s.thread == q.thread && s.page == q.page && s.node == q.node
    let rest := d.far.streams.filter (fun s => !same s)
    let line : Int := (q.addr / 128 : Nat)
    let s := match d.far.streams.find? same with
      | some s => trainStream s line
      | none => { cell := q.cell, thread := q.thread, node := q.node, page := q.page, psize := q.psize, line := line,
                  stride := 0, seen := 1, asked := [] }
    let base := q.addr - q.addr % pageBytes q.psize
    let (d, asked, live) := if 3 ≤ s.seen then
        askAhead d s (base / 128) ((base + pageBytes q.psize) / 128) (fget d FAR_PF_CFG_DEPTH) line s.asked
      else (d, s.asked, true)
    let streams := if live then { s with asked := asked } :: rest else rest
    { d with far := { d.far with streams := streams.take 1024 } }

/-! ## Lookups (R188 to R190) -/

/-- Bytes written into a line; a line of this device becomes dirty, and a granule written whole loses its poison (R147). -/
def writeLine (d : Dev) (node a : Nat) (bytes : List Byte) : Dev :=
  match getLine d node a with
  | none => d
  | some l =>
    let l := { l with dirty := l.dirty || decide (node = nodeId d),
                      bytes := bytes.zipIdx.foldl (fun m p => smInsert m (a % 128 + p.2) p.1) l.bytes }
    let d := setLine d node a (some l)
    if node = nodeId d then
      (granules a bytes.length).foldl (fun d g =>
        if a ≤ 64 * g ∧ 64 * g + 64 ≤ a + bytes.length then setGran d g false else d) d
    else d

/-- Bytes of a present line: of this device as a coherent read gives them, of another as the line holds them. -/
def readLine (d : Dev) (node a n : Nat) : List Byte :=
  if node = nodeId d then cohBytes d a n
  else match getLine d node a with
    | some l => (List.range n).map (fun i => smGet (fun _ => 0) l.bytes (a % 128 + i))
    | none => []

/-- A request served by a line that is present. -/
def serveLine (d : Dev) (q : FarReq) : Dev :=
  if farWrites q then finishFar (writeLine d q.node q.addr (leBytes q.bytes q.data)) q .ok [] false
  else
    let bad := decide (q.node = nodeId d) && isPoison d q.addr q.bytes
    finishFar d q .ok (readLine d q.node q.addr q.bytes) bad

/-- A request served at its home on another device (R188, R260). -/
def sendHome (d : Dev) (q : FarReq) : Dev :=
  let rd := MsgBody.rd q.addr q.bytes
  let wr := MsgBody.wr q.addr (leBytes q.bytes q.data) false
  match q.kind with
  | .load => sendRequest d (.load q.cell q.thread q.id q.dst) q.node q.addr q.bytes rd 12
  | .gather => sendRequest d (.gather q.cell q.id q.dst) q.node q.addr q.bytes rd 12
  | .dmaRead => sendRequest d (.dmaRead q.cell q.id q.dst) q.node q.addr q.bytes rd 12
  | .store => sendRequest d (.store q.cell q.thread) q.node q.addr q.bytes wr 12
  | .dmaWrite => sendRequest d (.dmaWrite q.cell q.id) q.node q.addr q.bytes wr (stageVc d q.cell)

/-- FAR_CACHE_REQUEST (R188 to R190, Table 10-5): request i, to a tier or to another device, reaches its slice. A miss that
finds every miss register in use waits. -/
def farCacheRequest (d : Dev) (i : Nat) (e : EccHits) : Dev :=
  match d.far.queue[i]? with
  | none => d
  | some q =>
    if q.node = nodeId d && isNear q.addr then d
    else if !q.cache || !isTier q.addr then
      if q.node = nodeId d then serveHome (dropReq d i) q e else sendHome (dropReq d i) q
    else
      let line := q.addr / 128
      let present := (getLine d q.node q.addr).isSome
      if farWrites q && decide (q.node ≠ nodeId d) then
        let d := dropReq d i
        sendHome (if present then writeLine (fcount d FAR_CTR_HITS 1) q.node q.addr (leBytes q.bytes q.data) else d) q
      else if present then
        trainPrefetch (serveLine (fcount (dropReq d i) FAR_CTR_HITS 1) q) q
      else if d.far.misses.any (fun m => m.node == q.node && m.line == line) then
        let d := fcount (dropReq d i) FAR_CTR_MISSES 1
        trainPrefetch { d with far := { d.far with misses := d.far.misses.map (fun m =>
          if m.node == q.node && m.line == line then { m with waiting := m.waiting ++ [q] } else m) } } q
      else if 4096 ≤ d.far.misses.length then d
      else trainPrefetch (takeMiss (fcount (dropReq d i) FAR_CTR_MISSES 1) q.node line [q] false) q

/-- A miss register whose home has answered is freed; its line is installed, unless the answer is a failure or an acquire has
made the fill one to discard (R190, R194, R200), and the requests that wait are served. -/
def fillLine (d : Dev) (i : Nat) (m : MissReg) (st : Status) (bytes : List Byte) : Dev :=
  let d := noteMisses { d with far := { d.far with misses := d.far.misses.eraseIdx i } }
  let own := decide (m.node = nodeId d)
  let poor := own && isPoison d (128 * m.line) 128
  if st ≠ .ok then
    let d := if m.prefetch then fcount d FAR_PF_FAILED 1 else d
    m.waiting.foldl (fun d q => finishFar d q st [] false) d
  else if m.prefetch && poor then
    m.waiting.foldl (fun d q => serveHome d q { corrected := [], uncorrectable := [] }) (fcount d FAR_PF_FAILED 1)
  else
    let l : FarLine := { dirty := false, bytes := if own then [] else bytes.zipIdx.foldl (fun s p => smInsert s p.2 p.1) [] }
    let d := setLine d m.node (128 * m.line) (some l)
    let d := m.waiting.foldl serveLine d
    if m.discard then fcount (setLine d m.node (128 * m.line) none) FAR_ACQ_FILLS_DISCARDED 1 else d

/-- The victim of a replacement, which the manual leaves open (R187), is written back and dropped. -/
def evict (d : Dev) (v : Option (Nat × Nat)) : Dev :=
  match v with
  | some (node, line) => writeBack d node line
  | none => d

/-- FAR_CACHE_FILL (R190): the fill of miss register i, asked for by a demand access, returns. -/
def farCacheFill (d : Dev) (i : Nat) (victim : Option (Nat × Nat)) : Dev :=
  match d.far.misses[i]? with
  | some m => match m.data with
    | some (st, bytes) => if m.prefetch then d else fillLine (evict d victim) i m st bytes
    | none => d
  | none => d

/-- PREFETCH_FILL (R194): the fill of a prefetch returns; a failed one installs nothing. -/
def prefetchFill (d : Dev) (i : Nat) (victim : Option (Nat × Nat)) : Dev :=
  match d.far.misses[i]? with
  | some m => match m.data with
    | some (st, bytes) => if m.prefetch then fillLine (evict d victim) i m st bytes else d
    | none => d
  | none => d

/-! ## Registers (R181, R204) -/

/-- A write of XLT_PROBE_ADDR starts a lookup. -/
def xltProbeAddrWrite (d : Dev) (v : Word) : Dev :=
  { fset (rset d XLT_PROBE_ADDR v) XLT_PROBE_RES_DONE 0 with probing := true }

/-- Attributes as XLT_PROBE_RES.ATTR holds them: R in the highest bit. -/
def attrCode (p : PageAttr) : Nat :=
  let b := fun (x : Bool) (k : Nat) => if x then 2 ^ k else 0
  b p.r 6 + b p.w 5 + b p.x 4 + b p.pf 3 + b p.cache 2 + b p.remote 1 + b p.hostvis 0

/-- XLT_PROBE_DONE: the lookup that was started finishes (Table 10-11). -/
def xltProbeDone (d : Dev) : Dev :=
  if !d.probing then d else
    let a := (rget d XLT_PROBE_ADDR).toNat
    let d := { countWalk d with probing := false }
    match lookup d a with
    | .none _ => rset d XLT_PROBE_RES (BitVec.ofNat 64 (2 ^ 63 + 3 * 2 ^ 60))
    | .leaf l _ => rset d XLT_PROBE_RES (BitVec.ofNat 64 (2 ^ 63 + 2 ^ 62 + l.size * 2 ^ 60 + attrCode l.attr * 2 ^ 53 +
        l.node * 2 ^ 32 + l.addr / 2 ^ 16 % 2 ^ 32))

/-- FAR_CTR_CLR. -/
def farCtrClr (d : Dev) (v : Word) : Dev :=
  if v.toNat % 2 = 1 then
    fset (rset (rset (rset (rset (rset d FAR_CTR 0) FAR_PF 0) FAR_PF_DROP 0) FAR_ACQ 0) XLT_CTR 0) FAR_STATUS_MISS_HWM 0
  else d

end Sys2Proof.Machine
end

