-- ==== Sys2Proof/Machine/HostBase.lean ====
section
/-! DEFINITION. Ring commands between acceptance and commit (R329 to R342): finding one, ending its work, writing its final
status. -/
namespace Sys2Proof.Machine

/-- Command of ring k with a SEQ, if it is accepted and not posted. -/
def findCmd (d : Dev) (k seq : Nat) : Option HostCmd := (getRing d k).cmds.find? (fun c => c.seq == seq)

/-- A command changed. -/
def modCmd (d : Dev) (k seq : Nat) (f : HostCmd → HostCmd) : Dev :=
  modRing d k (fun r => { r with cmds := r.cmds.map (fun c => if c.seq = seq then f c else c) })

/-- Every command that is accepted and not posted, with its ring. -/
def allCmds (d : Dev) : List (Nat × HostCmd) :=
  (List.range 32).flatMap (fun k => (getRing d k).cmds.map (fun c => (k, c)))

/-- Whether a command may start: no breakpoint holds it, it has no final status, and a FENCE command stands first (R330, R441). -/
def mayStart (r : Ring) (c : HostCmd) : Bool :=
  !c.brk && !c.ended && c.final.isNone && (!c.fence || (r.cmds.headD c).seq == c.seq)

/-- The command of ring k that starts next, in SEQ order (R332): the oldest that has not started, if it may. -/
def nextCmd (d : Dev) (k : Nat) : Option HostCmd :=
  match (getRing d k).cmds.find? (fun c => !c.started && !c.ended && c.final.isNone) with
  | some c => if mayStart (getRing d k) c then some c else none
  | none => none

/-- A command's work ends with a status, DETAIL and RESULT (R340). -/
def markOver (d : Dev) (k seq : Nat) (st : Status) (detail result : Nat) : Dev :=
  modCmd d k seq (fun c => if c.ended then c else { c with ended := true, status := st, detail := detail, result := result })

/-- The same for a command that a register write may have stood for. -/
def markOverOpt (d : Dev) (key : Option (Nat × Nat)) (st : Status) (detail result : Nat) : Dev :=
  match key with
  | some (k, seq) => markOver d k seq st detail result
  | none => d

/-- The final status, written once (R340), and its trace and tag counters. -/
def writeFinal (d : Dev) (k seq : Nat) (st : Status) (detail result edge : Nat) : Dev :=
  match findCmd d k seq with
  | none => d
  | some c =>
    if c.final.isSome then d else
      let d := modCmd d k seq (fun c => { c with ended := true, final := some (st, detail, result, edge) })
      countTag (traceEv d 2 0x11 c.tag (0x1020 + k / 16) (k % 16 + 16 * (k / 16)) st (0, 0)) 2 c.tag st

/-- A gauge reference whose cell is retired, or whose patch the Pattern in effect does not define (R336). -/
def grefBad (d : Dev) (g : Gref) : Bool :=
  if g.patch = 0 then (getCell d g.cell).retired else (patchDef d g.patch).isNone

/-- The gauge of a reference. -/
def grefRef (g : Gref) : GaugeRef := ⟨Fin.ofNat 256 g.patch, Fin.ofNat 64 g.gauge⟩

/-- The completion add of a reference, from the host (R336, R337). -/
def grefAdd (d : Dev) (g : Gref) (n : Nat) (src : GaugeSource) : Dev :=
  if n = 0 then d else updateGauge d g.cell (grefRef g) src (.add n)

/-- The value of a gauge as the device holds it: the cell's own, or at a home here, or the cell's copy. -/
def grefValue (d : Dev) (g : Gref) : Nat :=
  if g.patch = 0 then cellGauge (getCell d g.cell) g.gauge
  else match patchDef d g.patch with
    | some p => if p.home = nodeId d then homeGauge d (patchKey g.patch g.gauge) else seenGauge (getCell d g.cell) (grefRef g)
    | none => 0

/-- Bytes that the part reads whole at an input address: refused, ended with another status, or read, with poison met. -/
inductive Fetched where
  | refused
  | failed (st : Status)
  | bytes (bs : List Byte) (bad : Bool)
  deriving DecidableEq, Repr

/-- One piece of such a read, within a granule. `far` gives what other devices answer, by input address. -/
def fetchPiece (need : Need) (far : SMap Byte) (a n : Nat) (d : Dev) (f : Fetched) (e : EccHits) : Dev × Fetched :=
  match f, translate d need a with
  | .bytes bs bad, .ok l =>
    if l.node = nodeId d then
      let st := memStatus d l.addr
      if st ≠ .ok then (d, .failed st) else
        let (d, got, p) := agentLoad d e l.addr n
        (d, .bytes (bs ++ got) (bad || p))
    else
      let got := (List.range n).filterMap (fun i => if smHas far (a + i) then some (smGet (fun _ => 0) far (a + i)) else none)
      if got.length = n then (d, .bytes (bs ++ got) bad) else (d, .failed .retiredResource)
  | _, _ => (d, f)

/-- A range read whole (R186, R195): every page is checked before any byte moves, and a refusal is recorded. -/
def fetchRange (d : Dev) (e : EccHits) (need : Need) (far : SMap Byte) (a n tag source : Nat) : Dev × Fetched :=
  let d := countWalk d
  match checkRange d need a n with
  | some (p, c, l) => (recordRefusal d p c l (needReq need) tag source, .refused)
  | none => (cutAt 64 a n).foldl (fun (d, f) p => fetchPiece need far (a + p.1) p.2 d f e) (d, .bytes [] false)

end Sys2Proof.Machine
end

