-- ==== Sys2Proof/Machine/Siz.lean ====
section
/-! DEFINITION. The size table (R219, R220): the device's counts, the patches within it, and the sums of wider patches. -/
namespace Sys2Proof.Machine

/-- Whether region r has been brought up and is switched on. -/
def rgnCounts (d : Dev) (r : Nat) : Bool := d.rgnUp.testBit r

/-- Whether cell c counts: its region is up and it is not retired. -/
def cellCounts (d : Dev) (c : Nat) : Bool := rgnCounts d (regionOf c) && !(getCell d c).retired

/-- The counts of a number of cells: cells, regions, scratchpad, column SRAM, column DRAM, HBM, DDR, ports, lanes. -/
def cellFigures (cells regions : Nat) : List Nat :=
  [cells, regions, cells * 2 ^ 18, cells * 2 ^ 19, cells * 2 ^ 23, 0, 0, 0, 0]

/-- Number of set bits. -/
def popCount (wid n : Nat) : Nat := (List.range wid).foldl (fun k i => if n.testBit i then k + 1 else k) 0

/-- Whether a Trafort port is in service: UP or RECONFIG. -/
def portUp (d : Dev) (p : Nat) : Bool :=
  fget d (TRF_PORT_STATUS_STATE p) == 3 || fget d (TRF_PORT_STATUS_STATE p) == 4

/-- Cells that are retired, of regions that count. -/
def retiredCells (d : Dev) : Nat := (d.cells.filter (fun e => e.2.retired && rgnCounts d (regionOf e.1))).length

/-- The device's counts (R219). -/
def sizDevice (d : Dev) : List Nat :=
  let regions := popCount 64 d.rgnUp
  let cells := 64 * regions - retiredCells d
  let ports := (List.range 12).filter (portUp d)
  let lanes := (ports.map (fun p => popCount 8 (fget d (TRF_PORT_STATUS_IN_SERVICE p)))).sum
  let hbm := if fbit d HBM_TIER_STATUS_FIXED then fget d HBM_TIER_STATUS_CAP_GIB * 2 ^ 30 else 0
  let ddr := if fbit d DDR_TIER_STATUS_FIXED then fget d DDR_TIER_STATUS_CAP_GIB * 2 ^ 30 else 0
  [cells, regions, cells * 2 ^ 18, cells * 2 ^ 19, cells * 2 ^ 23, hbm, ddr, ports.length, lanes]

/-- Counts written into entry k. -/
def sizWrite (d : Dev) (k : Nat) (v : List Nat) : Dev :=
  let g := fun (i : Nat) => v.getD i 0
  let put := fun (d : Dev) (off n : Nat) => rset d off (BitVec.ofNat 64 n)
  let d := put d (SIZ_CELLS k) (g 0 * 2 ^ 32 + g 1)
  let d := put (put (put d (SIZ_SP k) (g 2)) (SIZ_CSRAM k) (g 3)) (SIZ_CDRAM k) (g 4)
  put (put (put d (SIZ_HBM k) (g 5)) (SIZ_DDR k) (g 6)) (SIZ_LINKS k) (g 7 * 2 ^ 32 + g 8)

/-- Counts of entry k as it stands. -/
def sizRead (d : Dev) (k : Nat) : List Nat :=
  [fget d (SIZ_CELLS_CELLS k), fget d (SIZ_CELLS_REGIONS k), fget d (SIZ_SP_BYTES k), fget d (SIZ_CSRAM_BYTES k),
    fget d (SIZ_CDRAM_BYTES k), fget d (SIZ_HBM_BYTES k), fget d (SIZ_DDR_BYTES k), fget d (SIZ_LINKS_PORTS k),
    fget d (SIZ_LINKS_LANES k)]

/-- Whether a patch lies within one device. -/
def patchLocal (p : PatchDef) : Bool := !p.cells.isEmpty || decide (p.level = .region) || decide (p.level = .device)

/-- Counts of a patch within the device (R219): of its cells, of its region, or of the device. -/
def patchFigures (d : Dev) (p : PatchDef) : List Nat :=
  match p.level with
  | .device => sizDevice d
  | l =>
    let cells := p.cells.filter (fun c => cellCounts d c)
    let regions := if l = .region then (p.cells.map (fun c => regionOf c)).dedup.filter (rgnCounts d) else []
    cellFigures cells.length regions.length

/-- Patches of the Pattern in effect, patch 1 among them. -/
def patchList (d : Dev) : List PatchDef :=
  match d.pat.active with
  | none => []
  | some a =>
    if a.body.patches.any (fun p => p.num == 1) then a.body.patches
    else match patchDef d 1 with
      | some p => p :: a.body.patches
      | none => a.body.patches

/-- Code of a level (Table 11-9). -/
def levelCode : PatchLevel → Nat
  | .region => 1 | .device => 2 | .gang => 3 | .rack => 4 | .hall => 5 | .stage => 6

/-- A management message routed to a device (R255). -/
def sendMgmt (d : Dev) (dest : Nat) (m : MgmtMsg) : Dev :=
  let msg : Msg := { body := .mgmt m, vc := 14, dest := dest, src := nodeId d, rid := 0, hops := 0 }
  if dest = nodeId d then { d with inbox := d.inbox ++ [msg] } else { d with toRoute := d.toRoute ++ [msg] }

/-- Sum of lists of counts, place by place. -/
def addFigures (a b : List Nat) : List Nat := (List.range 9).map (fun i => a.getD i 0 + b.getD i 0)

/-- Order 8 of Table 12-4, and SIZ_IDLE_UPDATE: entry 0, the patches within the device, sums that have come; then the
device's figures to the homes of its wider patches (R220). -/
def sizUpdate (d : Dev) (send : Bool) : Dev :=
  let d := sizWrite d 0 (sizDevice d)
  let d := (patchList d).foldl (fun d p => if patchLocal p then sizWrite d p.num (patchFigures d p) else d) d
  let d := d.pat.sums.foldl (fun d s => sizWrite d s.1 s.2) d
  let d := { d with pat := { d.pat with sums := [] } }
  if send then
    ((patchList d).filter (fun p => !patchLocal p && p.nodes.contains (nodeId d))).foldl (fun d p =>
      sendMgmt d p.home (.sizReport p.num (sizRead d 0))) d
  else d

/-- The element of the inbox that satisfies `p`, taken out. -/
def takeMsg (d : Dev) (p : Msg → Bool) : Option (Msg × Dev) :=
  match d.inbox.find? p with
  | none => none
  | some m => some (m, { d with inbox := d.inbox.erase m })

/-- SIZ_REPORT (R220): a home takes a member's figures and returns the sums to the members. -/
def sizReport (d : Dev) : Dev :=
  match takeMsg d (fun m => match m.body with | .mgmt (.sizReport _ _) => true | _ => false) with
  | none => d
  | some (m, d) =>
    match m.body with
    | .mgmt (.sizReport k words) =>
      match patchDef d k with
      | none => d
      | some p =>
        if p.home ≠ nodeId d then d else
          let key := k * 65536 + m.src
          let reps := d.pat.siz.filter (fun e => e.1 != key) ++ [(key, words)]
          let d := { d with pat := { d.pat with siz := reps } }
          let sum := (reps.filter (fun e => e.1 / 65536 == k)).foldl (fun s e => addFigures s e.2) []
          p.nodes.foldl (fun d n => sendMgmt d n (.sizSum k sum)) d
    | _ => d

/-- SIZ_SUM (R220): a member takes a wider patch's sums; its entry changes on the next edge. -/
def sizSum (d : Dev) : Dev :=
  match takeMsg d (fun m => match m.body with | .mgmt (.sizSum _ _) => true | _ => false) with
  | none => d
  | some (m, d) =>
    match m.body with
    | .mgmt (.sizSum k words) =>
      { d with pat := { d.pat with sums := d.pat.sums.filter (fun s => s.1 != k) ++ [(k, words)] } }
    | _ => d

/-- SIZ_IDLE_UPDATE (R220): while no tide runs, the entries take their changes. -/
def sizIdleUpdate (d : Dev) : Dev := if tideState d = 1 then d else sizUpdate d true

end Sys2Proof.Machine
end

