-- ==== Sys2Proof/Machine/Tier.lean ====
section
/-! DEFINITION. The HBM and DDR tiers (R159 to R178, R383): requests, rinse, temperatures, windows, the unit lists, and the
traffic generators. A channel of either tier is named by `ddr` and its number. -/
namespace Sys2Proof.Machine

/-! ## Channels of either tier -/

/-- Registers of a channel. -/
def chState (ddr : Bool) (ch : Nat) : Fld := if ddr then DDR_CH_STATUS_STATE ch else HBM_CH_STATUS_STATE ch
def chRefresh (ddr : Bool) (ch : Nat) : Fld := if ddr then DDR_CH_STATUS_REFRESH ch else HBM_CH_STATUS_REFRESH ch
def chTemp (ddr : Bool) (ch : Nat) : Fld := if ddr then DDR_CH_STATUS_TEMP ch else HBM_CH_STATUS_TEMP ch
def chReason (ddr : Bool) (ch : Nat) : Fld := if ddr then DDR_CH_STATUS_REASON ch else HBM_CH_STATUS_REASON ch
def chRetries (ddr : Bool) (ch : Nat) : Fld := if ddr then DDR_CH_ECC_RETRIES ch else HBM_CH_ECC_RETRIES ch
def chOos (ddr : Bool) (ch : Nat) : Fld := if ddr then DDR_CH_CTL_OOS ch else HBM_CH_CTL_OOS ch
def tgCfg (ddr : Bool) (ch : Nat) : Nat := if ddr then DDR_TG_CFG ch else HBM_TG_CFG ch
def tgSeed (ddr : Bool) (ch : Nat) : Nat := if ddr then DDR_TG_SEED ch else HBM_TG_SEED ch
def tgRes (ddr : Bool) (ch : Nat) : Nat := if ddr then DDR_TG_RES ch else HBM_TG_RES ch
def tgFirstAddr (ddr : Bool) (ch : Nat) : Nat := if ddr then DDR_FIRST_ADDR ch else HBM_FIRST_ADDR ch
def tgFirstBits (ddr : Bool) (ch : Nat) : Nat := if ddr then DDR_FIRST_BITS ch else HBM_FIRST_BITS ch

/-- Number of channels of a tier. -/
def chCount (ddr : Bool) : Nat := if ddr then 8 else 192

/-- The channel's state settled after a change of what holds of it (R173). -/
def chSettle (d : Dev) (ddr : Bool) (ch : Nat) : Dev := if ddr then ddrSettle d ch else hbmSettle d ch

/-- A channel retired for the session. -/
def chRetire (d : Dev) (ddr : Bool) (ch reason : Nat) : Dev := if ddr then retireDdr d ch reason else retireHbm d ch reason

/-- Units of a tier, its base, and the bytes of a unit. -/
def tierUnits (d : Dev) (ddr : Bool) : List Nat := if ddr then d.ddrList else d.hbmList
def tierBase (ddr : Bool) : Nat := if ddr then ddrBase else 0
def unitBytes (ddr : Bool) : Nat := if ddr then 2 ^ 37 else 2 ^ 31

/-- The units of a channel: the two pseudo-channels of an HBM channel, a DDR channel itself. -/
def chUnits (ddr : Bool) (ch : Nat) : List Nat :=
  if ddr then [ch] else [64 * (ch / 32) + 2 * (ch % 32), 64 * (ch / 32) + 2 * (ch % 32) + 1]

/-- Node-local address of an offset within a unit: the inverse of R161. -/
def unitAddr (d : Dev) (ddr : Bool) (u off : Nat) : Option Nat :=
  let us := tierUnits d ddr
  let n := us.length
  let k := us.findIdx (fun x => x == u)
  if k < n then
    let row := off / 256
    some (tierBase ddr + (row * n + (k + n - foldRow row % n) % n) * 256 + off % 256)
  else none

/-- Node-local address of an offset within a channel, its units in order. -/
def chAddr (d : Dev) (ddr : Bool) (ch off : Nat) : Option Nat :=
  match (chUnits ddr ch)[off / unitBytes ddr]? with
  | some u => unitAddr d ddr u (off % unitBytes ddr)
  | none => none

/-- The channel of a node-local address of a tier. -/
def chOf (d : Dev) (a : Nat) : Option (Bool × Nat) :=
  match placeOf a with
  | .hbm o => some (false, hbmChan (placeUnit d.hbmList o).1)
  | .ddr o => some (true, (placeUnit d.ddrList o).1)
  | _ => none

/-! ## Requests (R164, R165, R171) -/

/-- Whether a miss is latency-critical (R165): a thread is in STALL on it, or it was promoted. -/
def isCritical (d : Dev) (m : MissReg) : Bool :=
  m.promoted || m.waiting.any (fun q => decide (q.kind = .load) &&
    (let th := thread d q.cell q.thread
     th.st = .stall && decide (th.stallOn = 4)))

/-- Whether a miss register waits for the tier of this device. -/
def waitsTier (d : Dev) (m : MissReg) : Bool := m.data.isNone && decide (m.node = nodeId d)

/-- TIER_REQUEST (R164, R167, R171): the tier serves the read of miss register i. A latency-critical read of the same channel
goes first. `retries` attempts failed their parity or CRC before, and `hard` says that the error stayed through 3 retries
and 3 retrainings. -/
def tierRequest (d : Dev) (i retries : Nat) (hard : Bool) (e : EccHits) : Dev :=
  match d.far.misses[i]? with
  | none => d
  | some m =>
    let a := 128 * m.line
    let ch := chOf d a
    let first := isCritical d m || !d.far.misses.any (fun k => waitsTier d k && isCritical d k && chOf d (128 * k.line) == ch)
    if !waitsTier d m || !first then d else
      let answer := fun (d : Dev) (st : Status) =>
        { d with far := { d.far with misses := d.far.misses.set i { m with data := some (st, []) } } }
      match memStatus d a with
      | .ok =>
        let d := match ch with
          | some (t, k) =>
            let d := fcount d (chRetries t k) retries
            if hard then chRetire d t k 6 else d
          | none => d
        if hard then answer d .retiredResource else answer (eccRead d e a 128) .ok
      | st => answer d st

/-- REQUEST_PROMOTE (R165): a weighted request that has waited 4 µs becomes latency-critical; a prefetch never does. -/
def requestPromote (d : Dev) (i : Nat) : Dev :=
  match d.far.misses[i]? with
  | none => d
  | some m => if waitsTier d m && !m.prefetch then
      { d with far := { d.far with misses := d.far.misses.set i { m with promoted := true } } } else d

/-! ## Rinse (R168) -/

/-- TIER_RINSE_TICK: the next 256 B granule of a channel in service is rinsed. -/
def tierRinseTick (d : Dev) (ddr : Bool) (ch : Nat) (e : EccHits) : Dev :=
  if chCount ddr ≤ ch || decide (fget d (chState ddr ch) ≠ 2) then d else
    let key := if ddr then 192 + ch else ch
    let total := (chUnits ddr ch).length * unitBytes ddr / 256
    let p := smGet (fun _ => 0) d.tierPos key
    let d := { d with tierPos := smSet (fun _ => 0) d.tierPos key ((p + 1) % total) }
    match chAddr d ddr ch (256 * p) with
    | some a => eccRead d e a 256
    | none => d

/-! ## Temperatures (R169, R170, R383) -/

/-- A step that rises when its lower bound is reached and falls when the temperature is 3 °C below it. `up t` and `hold t`
are the steps that a temperature reaches and that it keeps. -/
def stepBy (up hold cur : Nat) : Nat := max up (min cur hold)

/-- Table 9-3, HBM: refresh step of a stack, 3 stopped. -/
def hbmStep (cur t : Nat) : Nat :=
  stepBy (if 105 < t then 3 else if 95 ≤ t then 2 else if 85 ≤ t then 1 else 0)
    (if 102 ≤ t then 3 else if 92 < t then 2 else if 82 < t then 1 else 0) cur

/-- Table 9-3, DDR: refresh step of a module, 3 stopped. -/
def ddrStep (cur t : Nat) : Nat :=
  let cur := if cur = 3 then 2 else cur
  let n := stepBy (if 95 < t then 2 else if 85 ≤ t then 1 else 0) (if 92 ≤ t then 2 else if 82 < t then 1 else 0) cur
  if n = 2 then 3 else n

/-- Table 20-4: row of a stack, 0 for no limit, 1 to 3 for 48, 32 and 16. -/
def hbmRow (cur t : Nat) : Nat :=
  stepBy (if 103 ≤ t then 3 else if 100 ≤ t then 2 else if 95 ≤ t then 1 else 0)
    (if 100 < t then 3 else if 97 < t then 2 else if 92 < t then 1 else 0) cur

/-- The limit of a row and the row of a limit. -/
def rowLimit (r : Nat) : Nat := if r = 0 then 64 else if r = 1 then 48 else if r = 2 then 32 else 16
def limitRow (v : Nat) : Nat := if v = 64 then 0 else if v = 48 then 1 else if v = 32 then 2 else 3

/-- HBM_TEMP_READ (R169, R170, R383): the temperature of a stack, in °C. -/
def hbmTempRead (d : Dev) (s : Fin 6) (t : Nat) : Dev :=
  let d := (List.range 32).foldl (fun d k =>
    let ch := 32 * s.val + k
    let d := fset d (chTemp false ch) (min t 255)
    hbmSettle (fset d (chRefresh false ch) (hbmStep (fget d (chRefresh false ch)) t)) ch) d
  let lim : Fld := ⟨HBM_THROTTLE, 7 * s.val, 7⟩
  let old := limitRow (fget d lim)
  let row := hbmRow old t
  if row = old then d else
    raiseBoth (fcount (fset d lim (rowLimit row)) THM_CTR_LEVEL_CHANGES 1) 20

/-- DDR_TEMP_READ (R169, R170): the hotter sensor of a module, in °C. -/
def ddrTempRead (d : Dev) (k : Fin 8) (t : Nat) : Dev :=
  let d := fset d (chTemp true k) (min t 255)
  ddrSettle (fset d (chRefresh true k) (ddrStep (fget d (chRefresh true k)) t)) k

/-- CE_WINDOW_EXPIRE (R171): a channel's 10 s window of corrected errors ends. -/
def ceWindowExpire (d : Dev) (ddr : Bool) (ch : Nat) : Dev :=
  { d with ceWin := smSet (fun _ => 0) d.ceWin (if ddr then 192 + ch else ch) 0 }

/-! ## The unit lists (R162, R163) -/

/-- TIER_LIST_FIX: once every stack or channel of a tier has settled, its list of units and its capacity are fixed; a list
that stands from a start whose polders have stayed powered stays. -/
def tierListFix (d : Dev) (ddr : Bool) : Dev :=
  let good := fun (ch : Nat) => let st := fget d (chState ddr ch); st == 2 || st == 3 || st == 4
  if ddr then
    if fbit d DDR_TIER_STATUS_FIXED || fget d ⟨KPR_SETTLED, 16, 8⟩ != 0xFF then d else
      let us := if d.ddrList.isEmpty then (List.range 8).filter good else d.ddrList
      let d := fset { d with ddrList := us } DDR_TIER_STATUS_FIXED 1
      let d := fset (fset d DDR_TIER_STATUS_N_UNITS us.length) DDR_TIER_STATUS_CAP_GIB (128 * us.length)
      countInService (rsetBit d KPR_SETTLED 24 true)
  else
    if fbit d HBM_TIER_STATUS_FIXED || fget d ⟨KPR_SETTLED, 8, 6⟩ != 0x3F then d else
      let us := if d.hbmList.isEmpty then (List.range 384).filter (fun u => good (hbmChan u)) else d.hbmList
      let d := fset { d with hbmList := us } HBM_TIER_STATUS_FIXED 1
      let d := fset (fset d HBM_TIER_STATUS_N_UNITS us.length) HBM_TIER_STATUS_CAP_GIB (2 * us.length)
      countInService (rsetBit d KPR_SETTLED 15 true)

/-! ## Channel control and traffic generators (R175 to R177) -/

/-- The control-owner port. -/
def ownerPort (d : Dev) : Nat := fget d HIF_CTRL_OWNER

/-- Whether a writer may write what only the control-owner port and the keeper can; `none` is the keeper. -/
def ownerWrites (d : Dev) (by_ : Option PciePort) : Bool :=
  match by_ with
  | none => true
  | some p => p.val == ownerPort d

/-- HBM_CH_CTL_WRITE (R175): OOS takes a channel out of service or returns it. -/
def hbmChCtlWrite (d : Dev) (by_ : Option PciePort) (ddr : Bool) (ch : Nat) (v : Word) : Dev :=
  if chCount ddr ≤ ch || !ownerWrites d by_ then d
  else chSettle (fset d (chOos ddr ch) (v.toNat % 2)) ddr ch

/-- TG_START (R175 to R177). -/
def tgStart (d : Dev) (by_ : Option PciePort) (ddr : Bool) (ch : Nat) (v : Word) : Dev :=
  let r := tgRes ddr ch
  if chCount ddr ≤ ch || !ownerWrites d by_ || v.toNat % 2 = 0 || fbit d ⟨r, 62, 1⟩ then d
  else if fget d (chState ddr ch) ≠ 3 then raiseBoth (rset d r (BitVec.ofNat 64 (2 ^ 63 + 3 * 2 ^ 60))) 23
  else rset d r (BitVec.ofNat 64 (2 ^ 62))

/-- Fields of the generator's configuration. -/
def tgMode (d : Dev) (ddr : Bool) (ch : Nat) : Nat := bitsOf (rget d (tgCfg ddr ch)) 60 4
def tgPat (d : Dev) (ddr : Bool) (ch : Nat) : Nat := bitsOf (rget d (tgCfg ddr ch)) 58 2

/-- First and last granule of a run, and its step (R176, Table 9-11). -/
def tgRange (d : Dev) (ddr : Bool) (ch : Nat) : Nat × Nat × Nat :=
  let start := if tgPat d ddr ch = 3 then 0 else bitsOf (rget d (tgSeed ddr ch)) 35 29
  (start, bitsOf (rget d (tgCfg ddr ch)) 0 29, max 1 (bitsOf (rget d (tgCfg ddr ch)) 29 16))

/-- One byte of the pattern at a channel offset: the user word, or a pattern whose bytes the manual does not spell out (log
entry 42). -/
def tgByte (d : Dev) (ddr : Bool) (ch off : Nat) : Byte :=
  let seed := (rget d (tgSeed ddr ch)).toNat
  if tgPat d ddr ch = 3 then BitVec.ofNat 8 (seed / 2 ^ (8 * (off % 8)))
  else BitVec.ofNat 8 (Config.tgPattern (tgPat d ddr ch) seed off)

/-- A 256 B granule of a channel written with the pattern and without poison. -/
def tgWrite (d : Dev) (ddr : Bool) (ch g : Nat) : Dev :=
  match chAddr d ddr ch (256 * g) with
  | some a => storeNow d a ((List.range 256).map (fun i => tgByte d ddr ch (256 * g + i))) false
  | none => d

/-- TG_RUN_END (R176, R177): a run ends; `errs` lists the failing granules in order, each with its channel offset and its
differing bits folded to 64. READ_CHECK leaves the contents, the other modes leave the pattern and no poison. -/
def tgRunEnd (d : Dev) (ddr : Bool) (ch : Nat) (errs : List (Nat × Nat)) : Dev :=
  let r := tgRes ddr ch
  if chCount ddr ≤ ch || !fbit d ⟨r, 62, 1⟩ then d else
    let (lo, hi, step) := tgRange d ddr ch
    let d := if tgMode d ddr ch = 1 then d else
      ((List.range ((hi + 1 - lo + step - 1) / step)).map (fun k => lo + k * step)).foldl (fun d g => tgWrite d ddr ch g) d
    let n := min errs.length (2 ^ 32 - 1)
    let d := match errs with
      | [] => d
      | (o, b) :: _ => rset (rset d (tgFirstAddr ddr ch) (BitVec.ofNat 64 o)) (tgFirstBits ddr ch) (BitVec.ofNat 64 b)
    raiseBoth (rset d r (BitVec.ofNat 64 (2 ^ 63 + (if errs.isEmpty then 0 else 2 ^ 60) + n))) 23

end Sys2Proof.Machine
end

