-- ==== Sys2Proof/Machine/Pattern.lean ====
section
/-! DEFINITION. Pattern images and the stage (R205 to R214, R216): the container, the load checks of Table 11-5, the stage
actions of Table 11-6, and the gathering of agreement for a switch. -/
namespace Sys2Proof.Machine

/-! ## The container (R205 to R207) -/

/-- The n bytes of a byte string from an offset. -/
def bytesFrom (bs : List Byte) (o n : Nat) : List Byte := (bs.drop o).take n

/-- A little-endian field of a byte string. -/
def leAt (bs : List Byte) (o n : Nat) : Nat := leNat (bytesFrom bs o n)

/-- A big-endian number of bytes (R207). -/
def beNat (bs : List Byte) : Nat := bs.foldl (fun v b => 256 * v + b.toNat) 0

/-- Whether the n bytes from an offset are zero. -/
def zeroAt (bs : List Byte) (o n : Nat) : Bool := (bytesFrom bs o n).all (fun b => b == 0)

/-- A section table entry (R206). -/
structure PatSect where
  typ    : Nat
  flags  : Nat
  off    : Nat
  len    : Nat
  crc    : Nat
  target : Nat
  resv   : Nat
  deriving DecidableEq, Repr

/-- Entry i of the section table. -/
def patSect (bs : List Byte) (i : Nat) : PatSect :=
  let o := 256 + 32 * i
  { typ := leAt bs o 2, flags := leAt bs (o + 2) 2, off := leAt bs (o + 4) 4, len := leAt bs (o + 8) 4,
    crc := leAt bs (o + 12) 4, target := leAt bs (o + 16) 8, resv := leAt bs (o + 24) 8 }

/-- The section table. -/
def patSects (bs : List Byte) : List PatSect := (List.range (leAt bs 8 2)).map (patSect bs)

/-- Header and requirements block as Tables 11-1 and 11-2 give them; GENERATION has a reason of its own. -/
def patHeaderOk (bs : List Byte) (len : Nat) : Bool :=
  decide (256 ≤ bs.length) && bytesFrom bs 0 4 == [0x53, 0x4C, 0x50, 0x54] && leAt bs 4 2 == 1 && leAt bs 6 2 == 128 &&
  decide (3 ≤ leAt bs 8 2) && decide (leAt bs 8 2 ≤ 64) && decide (leAt bs 10 2 < 4) && leAt bs 12 4 == len &&
  decide (len ≤ 512 * 2 ^ 20) && zeroAt bs 18 2 && decide (1 ≤ leAt bs 48 4) && decide (leAt bs 48 4 ≤ 65536) &&
  zeroAt bs 52 12 && zeroAt bs 112 16 && zeroAt bs 192 64 && decide (256 + 32 * leAt bs 8 2 ≤ len)

/-- Sections of one type. -/
def sectsOf (ss : List PatSect) (t : Nat) : List PatSect := ss.filter (fun s => s.typ == t)

/-- Whether a number of sections of each type is one of Table 11-3. -/
def sectCountsOk (ss : List PatSect) : Bool :=
  let n := fun (t : Nat) => (sectsOf ss t).length
  ss.all (fun s => (decide (1 ≤ s.typ) && decide (s.typ ≤ 9)) || s.typ == 0xFF) &&
  decide (1 ≤ n 1) && decide (n 1 ≤ 64) && decide (n 2 ≤ 64) && n 3 == 1 && decide (n 4 ≤ 1) && decide (n 5 ≤ 1) && n 6 == 1 &&
  decide (n 7 ≤ 1) && decide (n 8 ≤ 1) && decide (n 9 ≤ 1) && decide (n 255 ≤ 1)

/-- Whether no two masks of a list share a bit. -/
def masksApart : List Nat → Bool
  | [] => true
  | m :: t => t.all (fun k => m.land k == 0) && masksApart t

/-- The section table as R206 gives it: bodies on 64 B boundaries within the image, rising, apart; SIGNATURE last; TARGET zero
where Table 11-3 says so; SIGNED set if and only if there is a SIGNATURE. -/
def sectTableOk (bs : List Byte) (len : Nat) : Bool :=
  let ss := patSects bs
  let start := 256 + 32 * leAt bs 8 2
  ss.all (fun s => s.flags == 0 && s.resv == 0 && s.off % 64 == 0 && decide (start ≤ s.off) && decide (s.off + s.len ≤ len) &&
    (decide (s.typ ≤ 2) || s.target == 0)) &&
  (ss.zip ss.tail).all (fun p => decide (p.1.off < p.2.off) && decide (p.1.off + p.1.len ≤ p.2.off) && p.1.typ != 0xFF) &&
  sectCountsOk ss && masksApart ((sectsOf ss 1).map (fun s => s.target)) && masksApart ((sectsOf ss 2).map (fun s => s.target)) &&
  ((sectsOf ss 0xFF).length == leAt bs 10 2 % 2)

/-- Regions that the sections of a type target. -/
def patTargets (bs : List Byte) (t : Nat) : Nat := (sectsOf (patSects bs) t).foldl (fun m s => m.lor s.target) 0

/-- Whether every section's CRC is right (R206). -/
def sectCrcsOk (bs : List Byte) : Bool :=
  (patSects bs).all (fun s => s.typ == 0xFF || s.crc == crc32 (bytesFrom bs s.off s.len))

/-! ## What the bodies must keep (R216, R224, R254, R265 to R268, R287, R288) -/

/-- TIDE ranges (R224). -/
def tideSecOk (t : TideSec) : Bool :=
  decide (8000 ≤ t.period) && decide (t.period ≤ 16000000) && decide (t.stretch ≤ 16000000) && decide (1000 ≤ t.lead) &&
  decide (t.lead ≤ 500000) && decide (2 * t.lead ≤ t.period)

/-- Rank of a level in the nesting REGION, DEVICE, GANG, RACK, HALL; a STAGE patch nests below the device or its gang. -/
def levelRank : PatchLevel → Nat
  | .region => 1 | .stage => 1 | .device => 2 | .gang => 3 | .rack => 4 | .hall => 5

/-- Whether a patch spans devices. -/
def patchWide (p : PatchDef) : Bool := !p.nodes.isEmpty && decide (p.level ≠ .device)

/-- The parent R216 gives a patch: of the nearest higher level that is defined and contains every member, 0 if none is. -/
def rightParent (self : Nat) (ps : List PatchDef) (p : PatchDef) : Nat :=
  let nodes := if patchWide p then p.nodes else [self]
  let holds := fun (q : PatchDef) => q.num != p.num && decide (2 ≤ levelRank q.level) && decide (levelRank p.level < levelRank q.level) &&
    (if q.level = .device then !patchWide p else nodes.all (fun n => q.nodes.contains n))
  let above := ps.filter holds
  (above.foldl (fun (b : Option PatchDef) q => match b with
    | none => some q
    | some b => if levelRank q.level < levelRank b.level then some q else some b) none).elim 0 (fun q => q.num)

/-- The rules of R216 over the patches of an image, patch 1 among them. -/
def patchesOk (self : Nat) (defs : List PatchDef) : Bool :=
  let one : PatchDef := { num := 1, level := .device, parent := 0, cells := [], nodes := [self], home := self, base := 0, len := 0 }
  let ps := if defs.any (fun p => p.num == 1) then defs else one :: defs
  let stages := ps.filter (fun p => decide (p.level = .stage))
  decide ((ps.map (fun p => p.num)).Nodup) &&
  ps.all (fun p => decide (1 ≤ p.num) && decide (p.num ≤ 255) && decide ((p.num = 1) ↔ (p.level = .device)) &&
    (p.num == 1 || p.parent == rightParent self ps p) &&
    (p.level != .region || (!p.cells.isEmpty && p.nodes.isEmpty && p.parent == 1 &&
      (cellsOf (regionOf (p.cells.headD 0))).all (fun c => p.cells.contains (Fin.ofNat 4096 c)) && p.cells.length == 64)) &&
    (p.level != .stage || p.parent == 1 || ps.any (fun q => q.num == p.parent && decide (q.level = .gang))) &&
    (levelRank p.level < 3 || p.nodes.contains self)) &&
  stages.all (fun p => stages.all (fun q => p.num == q.num || p.cells.all (fun c => !q.cells.contains c)))

/-- Virtual channels that the image assigns: to STAGE patches and to collective groups (R253, R260, R265). -/
def usedVcs (b : PatBody) : List Nat :=
  (match b.net with | some n => n.stageVc.map (fun x => x.2) | none => []) ++
  (match b.coll with | some c => c.groups.map (fun g => g.vc) | none => [])

/-- NETWORK rules (R254). -/
def netOk (b : PatBody) : Bool :=
  match b.net with
  | none => (usedVcs b).isEmpty
  | some n =>
    let w := fun (v : Nat) => n.weights.getD v 0
    let s := fun (v : Nat) => n.shares.getD v 0
    n.weights.all (fun x => decide (x ≤ 15)) && decide ((List.range 16).foldl (fun t v => t + s v) 0 ≤ 4096) &&
    [12, 13, 14, 15].all (fun v => decide (64 ≤ s v)) && decide (1 ≤ w 12) && decide (1 ≤ w 13) &&
    (List.range 12).all (fun v => if (usedVcs b).contains v then decide (1 ≤ w v) && decide (1 ≤ s v) else w v == 0 && s v == 0) &&
    (usedVcs b).all (fun v => decide (v < 12)) &&
    n.routes.all (fun r => decide (1 ≤ r.2.length) && decide (r.2.length ≤ 4) && r.2.all (fun p => decide (p < 12)))

/-- A layout as R266 gives it: 2 to 65,536 distinct members; in a TREE a parent of each member but the root, and at most 4
children; at most one edge in each direction between two devices. -/
def layoutOk (l : Layout) : Bool :=
  let n := layoutSize l
  let up := fun (r : Nat) => upRank l r
  let node := fun (r : Nat) => (l.members.getD r (0, 0)).1
  let edges := (List.range n).filterMap (fun r => (up r).map (fun u => (node r, node u)))
  decide (2 ≤ n) && decide (n ≤ 65536) && decide (l.members.Nodup) &&
  (!l.tree || ((List.range n).all (fun r => r == 0 || match up r with | some u => decide (u < n ∧ u ≠ r) | none => false) &&
    (List.range n).all (fun r => decide ((dnRanks l r).length ≤ 4)) &&
    (List.range n).all (fun r => ((List.range n).foldl (fun (x : Option Nat) _ => x.bind up) (some r)).isNone))) &&
  decide ((edges.filter (fun e => e.1 != e.2)).Nodup)

/-- Table 14-1: kinds, modes and layouts. -/
def slotOk (c : CollSec) (s : SlotDef) : Bool :=
  match c.groups.find? (fun g => g.num == s.group) with
  | none => false
  | some g =>
    let lay := g.layouts
    decide (1 ≤ s.n) && decide (s.n ≤ 2 ^ 28) && decide (1 ≤ s.gauges.inc) && decide (s.gauges.inc ≤ 255) &&
    decide (1 ≤ s.gauges.step) && decide (s.gauges.step < 4096) &&
    (match s.kind with
    | .reduce | .allReduce => !s.compressed || lay.all (fun l => !l.tree)
    | .reduceScatter => lay.all (fun l => !l.tree)
    | .allGather | .broadcast => !s.compressed)

/-- Shard sets (R287, R288): on a group with a layout 0, arrays aligned and in this device. -/
def setOk (d : Dev) (b : PatBody) (c : CollSec) (s : SetDef) : Bool :=
  (match c.groups.find? (fun g => g.num == s.group) with | some g => !g.layouts.isEmpty | none => false) &&
  decide (1 ≤ s.p) && decide (s.p ≤ 2 ^ 40) &&
  s.addrs.all (fun a => a % 64 == 0 && (a == 0 || match walkMap b.map a with
    | .leaf l _ => decide (l.node = nodeId d)
    | .none _ => false))

/-- COLLECTIVE rules (R265 to R268, R287, R288). -/
def collOk (d : Dev) (b : PatBody) : Bool :=
  match b.coll with
  | none => true
  | some c =>
    decide ((c.groups.map (fun g => g.num)).Nodup) && decide ((c.groups.map (fun g => g.vc)).Nodup) &&
    decide ((c.slots.map (fun g => g.num)).Nodup) && decide ((c.sets.map (fun g => g.num)).Nodup) &&
    c.groups.all (fun g => decide (g.vc < 12) && b.net.isSome && decide (1 ≤ g.layouts.length) && decide (g.layouts.length ≤ 4) &&
      g.layouts.all layoutOk) &&
    c.slots.all (slotOk c) && c.sets.all (setOk d b c)

/-- Whether the bodies keep the rules that make an image malformed where it breaks them. -/
def bodyOk (d : Dev) (b : PatBody) : Bool :=
  tideSecOk b.tide && patchesOk (nodeId d) b.patches && netOk b && collOk d b && decide (1 ≤ b.slots) && decide (b.slots ≤ 64)

/-! ## The map's size and its leaves (R182) -/

/-- Units of 256 B of the translation store that a map takes. -/
def mapUnits (m : XltMap) : Nat := 2048 + 16 * (m.l1.length + m.l2.length + m.l3.length) + m.l4.length

/-- First address and size of the range of Table 10-1 that holds an address. -/
def rangeOfAddr (a : Nat) : Option (Nat × Nat) :=
  match placeOf a with
  | .hbm _ => some (0, 0x00C000000000)
  | .ddr _ => some (ddrBase, ddrBase)
  | .cdram _ _ => some (cdramBase, 0x800000000)
  | .csram _ _ => some (csramBase, 0x80000000)
  | .sp _ _ => some (spBase, 0x40000000)
  | .regs _ => some (regBase, 0x4000000)
  | .reserved => none

/-- Whether a leaf's page is aligned and lies wholly within one range. -/
def leafOk (size base : Nat) : Bool :=
  base % size == 0 && match rangeOfAddr base with
  | some (lo, n) => decide (base + size ≤ lo + n)
  | none => false

/-- R182 over a map. -/
def mapOk (m : XltMap) : Bool :=
  let leaves := fun (size : Nat) (tabs : List (Nat × List (Nat × XltEntry))) =>
    tabs.all (fun t => t.2.all (fun e => match e.2 with | .leaf b _ => leafOk size b | _ => true))
  decide (mapUnits m ≤ 65536) && leaves (pageBytes 2) m.l2 && leaves (pageBytes 1) m.l3 && leaves (pageBytes 0) m.l4

/-! ## The load checks (R209) -/

/-- A SIGNATURE body (Table 11-4) over signed bytes: its chain, r and s, if it is well formed. -/
def parseSig (bs : List Byte) : Option (List Byte × Nat × Nat) :=
  let n := leAt bs 4 4
  if leAt bs 0 2 = 1 ∧ 1 ≤ leAt bs 2 2 ∧ leAt bs 2 2 ≤ 4 ∧ 104 + n ≤ bs.length then
    some (bytesFrom bs 8 n, beNat (bytesFrom bs (8 + n) 48), beNat (bytesFrom bs (56 + n) 48))
  else none

/-- Anchors that hold a role: 0 PATTERN, 1 DEBUG (R420). -/
def anchorsWith (d : Dev) (role : Nat) : List Nat :=
  Config.romAnchor 0 :: d.sec.anchors.filterMap (fun e => match e.2 with
    | some a => if a.roles.testBit role then some (Config.sha384 a.cert) else none
    | none => none)

/-- Whether a SIGNATURE body verifies over bytes under one of some anchors (R207, R421). -/
def sigVerifies (anchors : List Nat) (covered sig : List Byte) : Bool :=
  match parseSig sig with
  | none => false
  | some (chain, r, s) => anchors.any (fun a => Config.chainOk a chain covered r s)

/-- The bytes a signature covers: up to the SIGNATURE body, or all of an unsigned image. -/
def coveredBytes (bs : List Byte) : List Byte :=
  match (sectsOf (patSects bs) 0xFF).head? with
  | some s => bs.take s.off
  | none => bs

/-- Reason 3 or none. -/
def patSigOk (d : Dev) (bs : List Byte) : Bool :=
  match (sectsOf (patSects bs) 0xFF).head? with
  | some s => sigVerifies (anchorsWith d 0) (bs.take s.off) (bytesFrom bs s.off s.len)
  | none => true

/-- Minima of Table 11-2 in the order of the counts of SIZ entry 0. -/
def patMinima (bs : List Byte) : List Nat :=
  [leAt bs 128 4, leAt bs 132 2, leAt bs 136 8, leAt bs 144 8, leAt bs 152 8, leAt bs 160 8, leAt bs 168 8, leAt bs 176 4,
    leAt bs 180 4]

/-- Reason 6: minima against SIZ entry 0. -/
def minimaMet (d : Dev) (mins : List Nat) : Bool :=
  (mins.zip (sizRead d 0)).all (fun p => decide (p.1 ≤ p.2))

/-- Reason 7: no thread window for a retired cell. -/
def noRetiredWindow (d : Dev) (b : PatBody) : Bool :=
  b.cells.all (fun c => !(getCell d c.1).retired || c.2.windows.all (fun w => w.2.1 == 0))

/-- Reason 10: column ranges of a cell apart, windows within stitch memory. -/
def rangesApart : List ColRange → Bool
  | [] => true
  | r :: t => t.all (fun q => q.kind != r.kind || decide (q.base + q.len ≤ r.base) || decide (r.base + r.len ≤ q.base)) && rangesApart t

/-- Bodies limited to what the image's sections cover (Table 11-3). -/
def coverBody (bs : List Byte) (b : PatBody) : PatBody :=
  let has := fun (t : Nat) => !(sectsOf (patSects bs) t).isEmpty
  { b with cells := b.cells.filter (fun c => (patTargets bs 1).testBit (regionOf c.1)),
           columns := b.columns.filter (fun c => (patTargets bs 2).testBit (regionOf c.1)),
           net := if has 4 then b.net else none, patches := if has 5 then b.patches else [],
           mem := if has 7 then b.mem else none, coll := if has 8 then b.coll else none,
           slots := if has 9 then b.slots else 1, needs := if has 9 then b.needs else [],
           other := if has 9 then b.other else [] }

/-- Table 11-5 from reason 1 onward: the first check that refuses the image, with its status. -/
def loadVerdict (d : Dev) (bs : List Byte) (len : Nat) (body : Option PatBody) : Option (Nat × Status) :=
  if !(patHeaderOk bs len && sectTableOk bs len) then some (1, .securityDenied)
  else match body.map (coverBody bs) with
  | none => some (1, .securityDenied)
  | some b =>
    if !bodyOk d b then some (1, .securityDenied)
    else if leAt bs 16 2 ≠ 7 then some (5, .securityDenied)
    else if !sectCrcsOk bs then some (2, .securityDenied)
    else if leAt bs 10 2 % 2 = 0 ∧ !(fget d SEC_DBG_PERMS_PERMS).testBit 3 then some (4, .securityDenied)
    else if !patSigOk d bs then some (3, .securityDenied)
    else if (leAt bs 184 8).land (rget d KPR_READY).toNat ≠ leAt bs 184 8 ∨
        ((patTargets bs 1).lor (patTargets bs 2)).land (rget d KPR_RGN_READY).toNat ≠ (patTargets bs 1).lor (patTargets bs 2) then
      some (8, .notReady)
    else if !minimaMet d (patMinima bs) then some (6, .retiredResource)
    else if !noRetiredWindow d b then some (7, .retiredResource)
    else if !mapOk b.map then some (9, .securityDenied)
    else if !(b.columns.all (fun c => rangesApart c.2 && decide (c.2.length ≤ 8)) &&
        b.cells.all (fun c => c.2.windows.all (fun w => decide (w.1 + w.2.1 ≤ 2048)))) then some (10, .securityDenied)
    else none

/-- The image as it is staged. -/
def stageImage (bs : List Byte) (b : PatBody) : PatImage :=
  { id := leAt bs 24 16, version := leAt bs 20 4, job := leAt bs 40 8, gang := (leAt bs 10 2).testBit 1, nodes := leAt bs 48 4,
    digest := leAt bs 64 48, minima := patMinima bs, signed := (leAt bs 10 2).testBit 0, sum := Config.sha384 (coveredBytes bs),
    edge := 0, body := coverBody bs b }

/-! ## The stage (R210 to R212) -/

/-- The staged image discarded: EMPTY. -/
def emptyStage (d : Dev) : Dev :=
  let d := fset (fset d PAT_STATUS_STAGE 0) PAT_STATUS_GANG 0
  let d := rset (rset d (PAT_STAGED_ID 0) 0) (PAT_STAGED_ID 1) 0
  { d with pat := { d.pat with staged := none, loading := none, loadCmd := none, swCmd := none, due := 0 },
           tide := { d.tide with sentReady := false, withdrawn := false } }

/-- LOAD (Table 11-6): starts a load from EMPTY or STAGED. The flag says whether it had an effect. -/
def startLoad (d : Dev) (addr len : Nat) (key : Option (Nat × Nat)) : Dev × Bool :=
  if patStage d = 0 ∨ patStage d = 2 then
    let d := fset (emptyStage d) PAT_STATUS_STAGE 1
    ({ d with pat := { d.pat with loading := some (addr, len), loadCmd := key } }, true)
  else (d, false)

/-- Whether the tide delivers edges. -/
def tideRuns (d : Dev) : Bool := tideState d == 1

/-- The edge a request that names E uses (R114, R212, R359): the next edge if E is 0 or has passed. -/
def edgeUsed (d : Dev) (e : Nat) : Nat :=
  let n := (rget d TID_COUNT).toNat
  if e ≤ n then n + 1 else e

/-- SWITCH (Table 11-6, R212): schedules the staged image at edge E. -/
def startSwitch (d : Dev) (e : Nat) (key : Option (Nat × Nat)) : Dev × Bool :=
  if patStage d = 2 then
    let due := edgeUsed d e
    let d := rset (fset d PAT_STATUS_STAGE 3) PAT_SWITCH_DONE (BitVec.ofNat 64 due)
    ({ d with pat := { d.pat with due := due, swCmd := key }, tide := { d.tide with sentReady := false, withdrawn := false } }, true)
  else (d, false)

/-- A switch that fails (R214): reason 15, 16 or 17, the stage STAGED again or EMPTY, and its command's status, committed at the
edge. -/
def patFail (d : Dev) (reason : Nat) (st : Status) (toEmpty : Bool) (edge : Nat) : Dev :=
  let key := d.pat.swCmd
  let d := fset (fset d PAT_STATUS_REASON reason) PAT_STATUS_LAST_STATUS (statusCode st)
  let d := raiseBoth (fcount d PAT_STATUS_FAILURES 1) 18
  let d := match key with
    | some (k, seq) => writeFinal d k seq st reason (rget d PAT_SWITCH_DONE).toNat edge
    | none => d
  if toEmpty then emptyStage d
  else
    let d := fset d PAT_STATUS_STAGE 2
    { d with pat := { d.pat with swCmd := none, due := 0 }, tide := { d.tide with sentReady := false, withdrawn := false } }

/-- A message up the tide tree on VC14 (R213, R255); a MASTER or ROOT keeps it. -/
def tideUp (d : Dev) (m : MgmtMsg) : Dev :=
  let up := fget d TID_CFG_UP_PORT
  if up < 12 then sendSide d up (.mgmt m) 14 else d

/-- A scheduled switch withdrawn (R214). While the tide runs it fails at its edge, and the master hears of it; else at once. -/
def withdrawSwitch (d : Dev) : Dev :=
  if patStage d ≠ 3 then d
  else if !tideRuns d then patFail d 16 .aborted true 0
  else
    let (job, id, digest) := readyFigures d
    let d := { d with tide := { d.tide with withdrawn := true } }
    if tideRole d = 0 then tideUp d (.withdraw job id digest) else d

/-- DISCARD (Table 11-6). -/
def discardStage (d : Dev) : Dev × Bool :=
  match patStage d with
  | 1 =>
    let d := markOverOpt d d.pat.loadCmd .aborted 0 0
    (fset (emptyStage d) PAT_STATUS_REASON 0, true)
  | 2 => (emptyStage d, true)
  | 3 => (withdrawSwitch d, true)
  | _ => (d, false)

/-- PAT_CTL_LOAD (R208, R210): a write of PAT_CTL.LOAD. -/
def patCtlLoad (d : Dev) (by_ : Option PciePort) : Dev :=
  if ownerWrites d by_ then
    (startLoad d (rget d PAT_LOAD_ADDR).toNat (fget d PAT_LOAD_LEN_LEN) none).1
  else d

/-- PAT_CTL_SWITCH (R208, R212). -/
def patCtlSwitch (d : Dev) (by_ : Option PciePort) : Dev :=
  if ownerWrites d by_ then (startSwitch d (rget d PAT_SWITCH_EDGE).toNat none).1 else d

/-- PAT_CTL_DISCARD (R208, R210). -/
def patCtlDiscard (d : Dev) (by_ : Option PciePort) : Dev :=
  if ownerWrites d by_ then (discardStage d).1 else d

/-- A load refused (R209). -/
def loadRefused (d : Dev) (reason : Nat) (st : Status) : Dev :=
  let d := markOverOpt d d.pat.loadCmd st reason 0
  let d := fset (fset (emptyStage d) PAT_STATUS_REASON reason) PAT_STATUS_LAST_STATUS (statusCode st)
  raiseBoth (fcount d PAT_STATUS_FAILURES 1) 18

/-- PAT_LOAD_DONE (R209): the read of the image ends and its checks are made in the order of Table 11-5. `body` is what the
private bodies say, none where they say nothing well formed; `far` what other devices answer. -/
def patLoadDone (d : Dev) (body : Option PatBody) (far : List (Nat × Byte)) (e : EccHits) : Dev :=
  match d.pat.loading with
  | none => d
  | some (addr, len) =>
    match fetchRange d e .fetch far addr len 0 0xFFFF with
    | (d, .refused) => loadRefused d 11 .xltFault
    | (d, .failed st) => loadRefused d 11 st
    | (d, .bytes bs bad) =>
      if bad then loadRefused d 12 .poisoned else
        match loadVerdict d bs len body, body with
        | some (reason, st), _ => loadRefused d reason st
        | none, none => d
        | none, some b =>
          let i := stageImage bs b
          let d := markOverOpt d d.pat.loadCmd .ok 0 0
          let d := fset (fset (fset d PAT_STATUS_STAGE 2) PAT_STATUS_REASON 0) PAT_STATUS_LAST_STATUS 0
          let d := fset d PAT_STATUS_GANG (if i.gang then 1 else 0)
          let d := rset (rset d (PAT_STAGED_ID 0) (BitVec.ofNat 64 i.id)) (PAT_STAGED_ID 1) (BitVec.ofNat 64 (i.id / 2 ^ 64))
          raiseBoth { d with pat := { d.pat with loading := none, loadCmd := none, staged := some i } } 18

/-! ## Agreement on a switch (R213, R214) -/

/-- R47: every thread of a cell in BARRIER or IDLE, every queue and engine empty, no DMA tag assigned. -/
def cellQuiet (x : Cell) : Bool :=
  x.threads.all (fun t => thArrived t.2) && x.mq.isEmpty && x.eq.isEmpty && x.dq.isEmpty && x.mrun.isNone && x.mchain.isEmpty &&
  x.redo.isEmpty && x.erun.isNone && (tagsInUse x).isEmpty

/-- R213: the device is quiesced. -/
def quiesced (d : Dev) : Bool :=
  d.cells.all (fun e => cellQuiet e.2) && d.clv.insts.isEmpty && d.clv.chains.isEmpty && d.clv.setRuns.isEmpty &&
  match d.pat.staged with
  | some i => minimaMet d i.minima && noRetiredWindow d i.body
  | none => false

/-- A ready message kept by a tide master. -/
def keepReady (d : Dev) (node job id digest : Nat) : Dev :=
  { d with tide := { d.tide with ready := d.tide.ready.filter (fun r => r.1 != node) ++ [(node, job, id, digest)] } }

/-- SWITCH_READY (R213): a device with a scheduled switch becomes quiesced, and its tide master hears of it. -/
def switchReady (d : Dev) : Dev :=
  if patStage d = 3 ∧ !d.tide.sentReady ∧ !d.tide.withdrawn ∧ quiesced d then
    let (job, id, digest) := readyFigures d
    let d := { d with tide := { d.tide with sentReady := true } }
    if tideRole d = 0 then tideUp d (.ready job id digest) else tryArrive (keepReady d (nodeId d) job id digest)
  else d

/-- READY_MESSAGE (R214): a tide master takes a ready message; a FOLLOWER passes it up the tree (R255). -/
def readyMessage (d : Dev) : Dev :=
  match takeMsg d (fun m => match m.body with | .mgmt (.ready _ _ _) => true | _ => false) with
  | none => d
  | some (m, d) =>
    match m.body with
    | .mgmt (.ready job id digest) =>
      if tideRole d = 0 then
        let up := fget d TID_CFG_UP_PORT
        if up < 12 then modPort d up (fun q => { q with side := q.side ++ [m] }) else d
      else tryArrive (keepReady d m.src job id digest)
    | _ => d

/-- SWITCH_WITHDRAWAL (R214): a tide master hears of a withdrawal, so the edge is delivered without the flag; a FOLLOWER
passes it up the tree. -/
def switchWithdrawal (d : Dev) : Dev :=
  match takeMsg d (fun m => match m.body with | .mgmt (.withdraw _ _ _) => true | _ => false) with
  | none => d
  | some (m, d) =>
    if tideRole d = 0 then
      let up := fget d TID_CFG_UP_PORT
      if up < 12 then modPort d up (fun q => { q with side := q.side ++ [m] }) else d
    else tryArrive { d with tide := { d.tide with heardWithdraw := true } }

end Sys2Proof.Machine
end

