-- ==== Sys2Proof/Machine/SecBase.lean ====
section
/-! DEFINITION. Sessions, IDE streams and the lifecycle state (R422, R425, R427, R430), which resets and stops change too. -/
namespace Sys2Proof.Machine

/-- Lifecycle state (Table 23-1): 0 MANUFACTURE, 1 SECURED, 2 DEBUG, 3 RETIRED. -/
def lifecycle (d : Dev) : Nat := fget d SEC_STATUS_LIFECYCLE

/-- Number of sessions of a transport: 0 and 1 the DOE of port A and B, 2 MCTP. -/
def sessionsOf (d : Dev) (via : Nat) : Nat := (d.sec.sessions.filter (fun s => s.via == via)).length

/-- SEC_SPDM_STATUS follows the sessions. -/
def noteSessions (d : Dev) : Dev :=
  rset d SEC_SPDM_STATUS (BitVec.ofNat 64 (sessionsOf d 2 * 65536 + sessionsOf d 1 * 256 + sessionsOf d 0))

/-- Every session of some transports ended. -/
def endSessions (d : Dev) (gone : Nat → Bool) : Dev :=
  noteSessions { d with sec := { d.sec with sessions := d.sec.sessions.filter (fun s => !gone s.via) } }

/-- Every IDE stream of a port leaves the Secure state. -/
def endIde (d : Dev) (p : Nat) : Dev := fset d (HIF_LINK_IDE_SECURE p) 0

/-- A change of lifecycle state (R427). -/
def lifecycleChange (d : Dev) (st perms : Nat) : Dev :=
  let d := fset d SEC_STATUS_LIFECYCLE st
  let d := rset d SEC_DBG_PERMS (BitVec.ofNat 64 perms)
  raiseBoth (endIde (endIde (endSessions d (fun _ => true)) 0) 1) 27

/-- The end of a debug session (R425): SECURED, no permission. -/
def endDebug (d : Dev) : Dev := if lifecycle d = 2 then lifecycleChange d 1 0 else d

end Sys2Proof.Machine
end

