-- ==== Sys2Proof/Machine/Sluice.lean ====
section
/-! DEFINITION. Sluice queues (R300 to R310): pointers, credits, the consumer's operations, watermarks and the flow pins. -/
namespace Sys2Proof.Machine

/-- Sluice i. -/
def getSlc (d : Dev) (i : Nat) : Sluice := smGet (fun _ => sluiceReset) d.slc i

/-- Sluice i replaced. -/
def setSlc (d : Dev) (i : Nat) (s : Sluice) : Dev := { d with slc := smSet (fun _ => sluiceReset) d.slc i s }

/-- Entries of sluice i (Table 16-1). -/
def slcCap (i : Nat) : Nat := 2 ^ sluiceLog2 i

/-- a − b modulo 2C. -/
def slcDiff (c a b : Nat) : Nat := (a + 2 * c - b) % (2 * c)

/-- Occupancy O, credits, readable entries and held entries (R302, R307). -/
def slcOcc (c : Nat) (s : Sluice) : Nat := slcDiff c s.w s.lSync
def slcCredits (c : Nat) (s : Sluice) : Nat := c - slcOcc c s
def slcAvail (c : Nat) (s : Sluice) : Nat := slcDiff c s.wSync s.r
def slcHeld (c : Nat) (s : Sluice) : Nat := slcDiff c s.r s.l

/-- Whether the polders of a sluice's producer and consumer are on: P76 and P77 for the PCIe ports, P72 to P75 for the Trafort
ports. -/
def slcPowered (d : Dev) (i : Nat) : Bool :=
  if i ≤ 3 then rbit d PWR_POLDER_ON_HI (12 + i % 2)
  else if i ≤ 39 then rbit d PWR_POLDER_ON_HI (8 + (i - 4) % 12 / 3)
  else if i = 40 ∨ i = 43 then rbit d PWR_POLDER_ON_HI 12
  else if i = 41 ∨ i = 44 then rbit d PWR_POLDER_ON_HI 13
  else true

/-- Levels of FLOW_LO_N and FLOW_HI_N, asserted or not, as a number: bit 1 LO, bit 0 HI (R308). -/
def flowPins (d : Dev) : Nat :=
  let i := fget d SLC_PINSEL_SEL
  if 46 ≤ i || !slcPowered d i then 0
  else (if (getSlc d i).lo then 2 else 0) + (if (getSlc d i).hi then 1 else 0)

/-- The flow pins follow what they report (R308). -/
def pinsFollow (d : Dev) : Dev :=
  let old := (rget d SLC_PIN_STATUS).toNat
  let new := flowPins d
  let d := if old.testBit 0 = new.testBit 0 then d else emit d (.pin "FLOW_HI_N" (!new.testBit 0))
  let d := if old.testBit 1 = new.testBit 1 then d else emit d (.pin "FLOW_LO_N" (!new.testBit 1))
  if old = new then d else rset d SLC_PIN_STATUS (BitVec.ofNat 64 new)

/-- HI and LO follow the occupancy of a sluice, each change counted, and an event where the flow pins show it (R307, R319). -/
def slcMarks (d : Dev) (i : Nat) : Dev :=
  let s := getSlc d i
  let o := slcOcc (slcCap i) s
  let hi := if s.hi then decide (fget d (SLC_WM_HI_CLR i) < o) else decide (fget d (SLC_WM_HI_SET i) ≤ o)
  let lo := if s.lo then decide (o < fget d (SLC_WM_LO_CLR i)) else decide (o ≤ fget d (SLC_WM_LO_SET i))
  let n := (if hi = s.hi then 0 else 1) + (if lo = s.lo then 0 else 1)
  if n = 0 then d else
    let d := fcount (setSlc d i { s with hi := hi, lo := lo }) (SLC_CTR_WM_CHANGES i) n
    pinsFollow (if fget d SLC_PINSEL_SEL = i then raiseBoth d 25 else d)

/-- A producer's write, spending a credit it holds (R303). -/
def slcPut (d : Dev) (i : Nat) (entry : List Byte) : Dev :=
  let c := slcCap i
  let s := getSlc d i
  if slcCredits c s = 0 then d else
    slcMarks (setSlc d i { s with w := (s.w + 1) % (2 * c), data := smSet (fun _ => []) s.data (s.w % c) entry }) i

/-- Whether the host produces into sluice i (R303). -/
def slcHost (i : Nat) : Bool := decide (i ≤ 3) || i == 40 || i == 41

/-- A write by the host: without credit it is discarded and counted, else it is made (R303). -/
def slcHostPut (d : Dev) (i : Nat) (entry : List Byte) : Dev :=
  if slcCredits (slcCap i) (getSlc d i) = 0 then fcount (fset d (SLC_STATUS_DROPPED i) 1) (SLC_CTR_DROPS i) 1
  else slcPut d i entry

/-- The entry that the next read returns, if one is readable (R304). -/
def slcFront (d : Dev) (i : Nat) : Option (List Byte) :=
  let c := slcCap i
  let s := getSlc d i
  if slcAvail c s = 0 then none else some (smGet (fun _ => []) s.data (s.r % c))

/-- A read moves R past one readable entry (R304). -/
def slcTake (d : Dev) (i : Nat) : Dev :=
  let c := slcCap i
  let s := getSlc d i
  if slcAvail c s = 0 then d else setSlc d i { s with r := (s.r + 1) % (2 * c) }

/-- RELEASE n (R305): the n oldest held entries are freed, every one if there are fewer; the mark goes if L passes it. -/
def slcRelease (d : Dev) (i n : Nat) : Dev :=
  let c := slcCap i
  let s := getSlc d i
  let k := min n (slcHeld c s)
  let d := if slcHeld c s < n then fcount d (SLC_CTR_BAD_OPS i) 1 else d
  let mark := match s.mark with
    | some m => if slcDiff c m s.l < k then none else some m
    | none => none
  setSlc d i { s with l := (s.l + k) % (2 * c), mark := mark,
                      data := (List.range k).foldl (fun m j => smSet (fun _ => []) m ((s.l + j) % c) []) s.data }

/-- REWIND (R305): R returns to the mark, or to L. -/
def slcRewind (d : Dev) (i : Nat) : Dev :=
  let s := getSlc d i
  fcount (setSlc d i { s with r := s.mark.getD s.l }) (SLC_CTR_REWINDS i) 1

/-- Response entries that wait for a response mailbox enter it while it has credit. -/
def respFlush (d : Dev) (i : Nat) : Dev :=
  (d.kpr.outbox.filter (fun e => e.1 == i)).foldl (fun d e =>
    if slcCredits (slcCap i) (getSlc d i) = 0 then d
    else slcPut { d with kpr := { d.kpr with outbox := d.kpr.outbox.erase e } } i e.2) d

/-- A keeper response entry: into its mailbox in order, once there is credit (R303, R410). -/
def respPut (d : Dev) (i : Nat) (entry : List Byte) : Dev :=
  respFlush { d with kpr := { d.kpr with outbox := d.kpr.outbox ++ [(i, entry)] } } i

/-- A synchroniser of sluice i delivers W to the consumer side, or L to the producer side (R301, R302). -/
def slcSync (d : Dev) (i : Nat) (release : Bool) : Dev :=
  let s := getSlc d i
  if release then respFlush (slcMarks (setSlc d i { s with lSync := s.l }) i) i else setSlc d i { s with wSync := s.w }

/-- A sluice emptied (R309): every entry written and not released is discarded and counted. -/
def slcEmpty (d : Dev) (i : Nat) : Dev :=
  let s := getSlc d i
  pinsFollow (setSlc (fcount d (SLC_CTR_DISCARDED i) (slcDiff (slcCap i) s.w s.l)) i sluiceReset)

/-- A Trafort transmit sluice takes one flit of 4 entries, which its consumer reads (R300). -/
def slcFlit (d : Dev) (p : Nat) : Dev :=
  let i := 4 + p
  let d := (List.range 4).foldl (fun d _ => slcPut d i []) d
  (List.range 4).foldl (fun d _ => slcTake d i) (slcSync d i false)

/-- A held flit read again after a rewind (R306). -/
def slcFlitAgain (d : Dev) (p : Nat) : Dev := (List.range 4).foldl (fun d _ => slcTake d (4 + p)) d

/-- Flits acknowledged free their entries (R306); those that a rewind went back over are passed first. -/
def slcFlitsFreed (d : Dev) (p n : Nat) : Dev :=
  if n = 0 then d else
    let i := 4 + p
    let d := (List.range (4 * n - slcHeld (slcCap i) (getSlc d i))).foldl (fun d _ => slcTake d i) d
    slcSync (slcRelease d i (4 * n)) i true

/-! ## Commands -/

/-- SLUICE_WRITE (R303): a producer writes an entry; the host's write without credit is discarded. -/
def sluiceWrite (d : Dev) (i : Fin 46) (entry : List Byte) : Dev :=
  if slcHost i then slcHostPut d i entry else slcPut d i entry

/-- SLUICE_READ (R304, Table 16-2): one entry with its status word, or zero with V = 0. -/
def sluiceRead (d : Dev) (i : Fin 46) : Dev :=
  let c := slcCap i
  let s := getSlc d i
  let v := slcFront d i
  let d := slcTake d i
  let t := getSlc d i
  let word := (if v.isSome then 2 ^ 63 else 0) + (if s.mark.isSome then 2 ^ 62 else 0) + slcAvail c t * 2 ^ 45 +
    slcHeld c t * 2 ^ 16 + s.r % c
  emit d (.sluice i word (v.getD (List.replicate 64 0)))

/-- SLUICE_MARK (R305): M becomes R, replacing a mark that is held. -/
def sluiceMark (d : Dev) (i : Fin 46) : Dev :=
  let s := getSlc d i
  setSlc d i { s with mark := some s.r }

/-- SLUICE_REWIND (R305). -/
def sluiceRewind (d : Dev) (i : Fin 46) : Dev := slcRewind d i

/-- SLUICE_RELEASE (R305). -/
def sluiceRelease (d : Dev) (i : Fin 46) (n : Nat) : Dev := slcRelease d i n

/-- SLUICE_POINTER_SYNC (R302). -/
def sluicePointerSync (d : Dev) (i : Fin 46) (release : Bool) : Dev := slcSync d i release

/-- SLC_PINSEL_WRITE (R308): only by the control-owner port and the keeper. -/
def slcPinselWrite (d : Dev) (by_ : Option PciePort) (v : Word) : Dev :=
  if ownerWrites d by_ then pinsFollow (fset d SLC_PINSEL_SEL (v.toNat % 64)) else d

/-- SLC_WM_WRITE (R307, R308): thresholds that keep LO_SET < LO_CLR ≤ HI_CLR < HI_SET ≤ C. -/
def slcWmWrite (d : Dev) (by_ : Option PciePort) (i : Fin 46) (v : Word) : Dev :=
  let hs := bitsOf v 39 13
  let hc := bitsOf v 26 13
  let lc := bitsOf v 13 13
  let ls := bitsOf v 0 13
  if ownerWrites d by_ && decide (ls < lc ∧ lc ≤ hc ∧ hc < hs ∧ hs ≤ slcCap i) then
    slcMarks (rset d (SLC_WM i) (BitVec.ofNat 64 (v.toNat % 2 ^ 52))) i
  else d

/-- SLC_CTR_CLR (R310). -/
def slcCtrClr (d : Dev) (v : Word) : Dev :=
  if v.toNat.testBit 0 then (List.range 46).foldl (fun d i => rset d (SLC_CTR i) 0) d else d

end Sys2Proof.Machine
end

