-- ==== Sys2Proof/Machine/PcieBase.lean ====
section
/-! DEFINITION. Accesses of a host to device memory: the BAR2 window (R317, R318), the data movement of COPY (R337) and the ingest
engine (R343, R344), with what a request of theirs to another device does when it ends. -/
namespace Sys2Proof.Machine

/-- No memory errors. -/
def noEcc : EccHits := { corrected := [], uncorrectable := [] }

/-- A check of a target on this device as the host (R155, R186): the status, with a refusal recorded under a REQ code, TAG and port. -/
def hostTarget (d : Dev) (port a n : Nat) (write : Bool) (input tag : Nat) : Dev × Status :=
  if ownerOk d .host a n write then (d, rangeStatus d a n)
  else (recordRefusal (countDeny d a) input 5 0xFF (if write then 6 else 5) tag port, .xltFault)

/-- Whether a write to this device meets a range that a matrix command reads, and so must wait (R64). -/
def writeWaits (d : Dev) (a n : Nat) : Bool :=
  match placeOf a with
  | .sp c _ => heldBy (getCell d c) c a n
  | _ => false

/-! ## BAR2 (R317, R318, Table 17-6) -/

/-- A BAR2 access of a port changed. -/
def modBar2 (d : Dev) (p id : Nat) (f : Bar2Op → Bar2Op) : Dev :=
  modPcie d p (fun q => { q with bar2 := q.bar2.map (fun o => if o.id = id then f o else o) })

/-- A BAR2 access of a port. -/
def findBar2 (d : Dev) (p id : Nat) : Option Bar2Op := (getPcie d p).bar2.find? (fun o => o.id == id)

/-- The next piece of an access performed, or sent to its home. -/
def bar2Piece (e : EccHits) (p id : Nat) (d : Dev) : Dev :=
  match findBar2 d p id with
  | none => d
  | some o =>
    match o.todo with
    | [] => d
    | (i, n) :: rest =>
      if o.waiting || decide (o.st ≠ .ok) then d else
        match translate d (if o.write then .barWrite else .barRead) (o.addr + i) with
        | .refused _ _ => modBar2 d p id (fun o => { o with st := .xltFault })
        | .ok l =>
          if l.node ≠ nodeId d then
            let body := if o.write then MsgBody.wr l.addr ((o.data.drop i).take n) o.ep else MsgBody.rd l.addr n
            modBar2 (sendRequest d (.bar2 (Fin.ofNat 2 p) id) l.node l.addr n body 12) p id (fun o => { o with waiting := true })
          else if o.write && writeWaits d l.addr n then d
          else
            match hostTarget d p l.addr n o.write (o.addr + i) 0 with
            | (d, .ok) =>
              if o.write then
                let (d, _) := agentStore d l.addr ((o.data.drop i).take n) o.ep .engine
                modBar2 d p id (fun o => { o with todo := rest })
              else
                let (d, bs, bad) := agentLoad d e l.addr n
                modBar2 d p id (fun o => { o with todo := rest, got := o.got ++ bs, bad := o.bad || bad })
            | (d, st) => modBar2 d p id (fun o => { o with st := st })

/-- An access that did not end in OK is recorded unless one is (Table 17-10). -/
def bar2Record (d : Dev) (p addr len : Nat) (write : Bool) (st : Status) : Dev :=
  if fbit d (HIF_BAR2_ERR_VALID p) then d else
    let d := rset d (HIF_BAR2_ERR_ADDR p) (BitVec.ofNat 64 addr)
    let d := fset (fset d (HIF_BAR2_ERR_VALID p) 1) (HIF_BAR2_ERR_WRITE p) (if write then 1 else 0)
    fset (fset d (HIF_BAR2_ERR_STATUS p) (statusCode st)) (HIF_BAR2_ERR_LENGTH p) len

/-- A read completes with Unsupported Request, or with Completer Abort. -/
def answerUr (d : Dev) (p : Nat) : Dev := emit (fcount d (HIF_PORT_CTR_UR p) 1) (.pcieUr p)
def answerCa (d : Dev) (p : Nat) : Dev := emit (fcount d (HIF_PORT_CTR_CA p) 1) (.pcieCa p)

/-- An access that has its outcome is answered and forgotten (Table 17-6). -/
def bar2End (d : Dev) (p id : Nat) : Dev :=
  match findBar2 d p id with
  | none => d
  | some o =>
    if o.waiting || (o.st = .ok && !o.todo.isEmpty) then d else
      let d := modPcie d p (fun q => { q with bar2 := q.bar2.filter (fun x => x.id != id) })
      let st := if o.st = .ok && o.bad then Status.poisoned else o.st
      let d := if st = .ok then d else bar2Record d p o.addr o.len o.write st
      if o.write then d
      else match st with
        | .ok => emit d (.pcieRead p st false o.got)
        | .poisoned => emit d (.pcieRead p st true o.got)
        | .xltFault => answerUr d p
        | .securityDenied => answerUr d p
        | _ => answerCa d p

/-- Every access of a port that may go on does: a read only once no earlier write waits (R317). -/
def bar2Pump (d : Dev) (p : Nat) (e : EccHits) : Dev :=
  (getPcie d p).bar2.foldl (fun d o =>
    let earlier := (getPcie d p).bar2.any (fun x => x.write && decide (x.id < o.id))
    if !o.write && earlier then d
    else bar2End (o.todo.foldl (fun d _ => bar2Piece e p o.id d) d) p o.id) d

/-- Both ports' accesses that waited for a matrix command go on. -/
def bar2Wake (d : Dev) : Dev := bar2Pump (bar2Pump d 0 noEcc) 1 noEcc

/-- A request of a BAR2 access to another device has ended. -/
def bar2Back (d : Dev) (p id : Nat) (st : Status) (bytes : List Byte) (bad : Bool) : Dev :=
  let d := modBar2 d p id (fun o =>
    if st = .ok then { o with waiting := false, todo := o.todo.tail, got := o.got ++ bytes, bad := o.bad || bad }
    else { o with waiting := false, st := st })
  bar2Pump d p noEcc

/-- A BAR2 access that has been accepted (R317): every page is checked, a refusal recorded under R186; then it is queued. -/
def bar2Start (d : Dev) (p off n : Nat) (write : Bool) (data : List Byte) (ep : Bool) (e : EccHits) : Dev :=
  let base := (rget d (HIF_BAR2_BASE p)).toNat / 2 ^ 30 * 2 ^ 30
  let a := (base + off) % 2 ^ 64
  let need : Need := if write then .barWrite else .barRead
  let d := countWalk d
  let (d, st) := match checkRange d need a n with
    | some (x, cause, level) => (recordRefusal d x cause level (needReq need) 0 p, Status.xltFault)
    | none => (d, Status.ok)
  let id := (getPcie d p).bar2No
  let o : Bar2Op := { id := id, write := write, addr := a, len := n, todo := cutAt (if write then 64 else 128) a n, data := data, ep := ep,
                      got := [], bad := false, st := st, waiting := false }
  bar2Pump (modPcie d p (fun q => { q with bar2 := q.bar2 ++ [o], bar2No := id + 1 })) p e

/-! ## COPY (R337) -/

/-- What a COPY names. -/
def copyArgs (c : HostCmd) : Option (Nat × Nat × Nat × Bool × Gref) :=
  match c.op with
  | .copy host dev len toHost g => some (host, dev, len, toHost, g)
  | _ => none

/-- A failure of a COPY noted, the first standing. -/
def copyFail (d : Dev) (k seq : Nat) (st : Status) : Dev :=
  modCmd d k seq (fun c => if c.status = .ok then { c with status := st } else c)

/-- Bytes of a COPY moved. -/
def copyMoved (d : Dev) (k seq n : Nat) : Dev := modCmd d k seq (fun c => { c with result := c.result + n })

/-- A COPY that has begun and has no request open ends: what it read goes to host memory, in writes that carry EP where the source
was poisoned, and its work has ended. -/
def copyEnd (d : Dev) (k seq : Nat) : Dev :=
  match findCmd d k seq with
  | none => d
  | some c =>
    if !c.started || c.ended || decide (c.openReq ≠ 0) then d else
      match copyArgs c with
      | none => d
      | some (host, _, len, toHost, _) =>
        if toHost && decide (c.status = .ok) then
          let d := (cutAt 64 host len).foldl (fun d p =>
            let bs := (List.range p.2).map (fun i => smGet (fun _ => (0 : Byte)) c.got (p.1 + i))
            emit d (.hostWrite (k / 16) (host + p.1) ((List.range p.2).any (fun i => c.gotBad.contains (p.1 + i))) bs)) d
          markOver d k seq (if c.gotBad.isEmpty then .ok else .poisoned) 0 len
        else markOver d k seq c.status 0 c.result

/-- Bytes that a COPY to the host has read. -/
def copyGot (d : Dev) (k seq i : Nat) (bytes : List Byte) (bad : Bool) : Dev :=
  modCmd d k seq (fun c => { c with
    got := bytes.zipIdx.foldl (fun m p => smInsert m (i + p.2) p.1) c.got
    gotBad := if bad then c.gotBad ++ (List.range bytes.length).map (i + ·) else c.gotBad })

/-- A request of a COPY to another device has ended. -/
def copyBack (d : Dev) (k seq i n : Nat) (read : Bool) (st : Status) (bytes : List Byte) (bad : Bool) : Dev :=
  let d := modCmd d k seq (fun c => { c with openReq := c.openReq - 1 })
  let d := if st ≠ .ok then copyFail d k seq st
    else if read then copyGot d k seq i bytes bad else copyMoved d k seq n
  copyEnd d k seq

/-- One piece of a COPY: read for the host, or written with the host's bytes. -/
def copyPiece (d : Dev) (e : EccHits) (k seq tag dev i n : Nat) (toHost : Bool) (bytes : List Byte) (bad : Bool) : Dev :=
  match findCmd d k seq with
  | none => d
  | some c =>
    if c.status ≠ .ok then d else
      let p := k / 16
      match translate d (if toHost then .barRead else .barWrite) (dev + i) with
      | .refused _ _ => copyFail d k seq .xltFault
      | .ok l =>
        if l.node ≠ nodeId d then
          let (use, body) := if toHost then (RidUse.copyRead (Fin.ofNat 2 p) k seq i, MsgBody.rd l.addr n)
            else (RidUse.copyWrite (Fin.ofNat 2 p) k seq, MsgBody.wr l.addr bytes bad)
          modCmd (sendRequest d use l.node l.addr n body 12) k seq (fun c => { c with openReq := c.openReq + 1 })
        else
          match hostTarget d p l.addr n (!toHost) (dev + i) tag with
          | (d, .ok) =>
            if toHost then
              let (d, bs, poor) := agentLoad d e l.addr n
              copyGot d k seq i bs poor
            else copyMoved (agentStore d l.addr bytes bad .engine).1 k seq n
          | (d, st) => copyFail d k seq st

/-- Whether a COPY to the device must wait for a matrix command that reads its destination (R64). -/
def copyHeld (d : Dev) (dev len : Nat) : Bool :=
  (cutAt 64 dev len).any (fun p => match translate d .barWrite (dev + p.1) with
    | .ok l => l.node == nodeId d && writeWaits d l.addr p.2
    | .refused _ _ => false)

/-- A COPY performed (R337): its GREF and every page are checked first. `host` is what host memory holds, none where its read
fails, with the places that came poisoned. -/
def copyRun (d : Dev) (e : EccHits) (k : Nat) (c : HostCmd) (host : Option (List Byte)) (hostBad : List Nat) : Dev :=
  match copyArgs c with
  | none => d
  | some (_, dev, len, toHost, g) =>
    if grefBad d g then markOver d k c.seq .retiredResource 0 0
    else if !toHost && copyHeld d dev len then d
    else
      let need : Need := if toHost then .barRead else .barWrite
      let d := modCmd (countWalk d) k c.seq (fun c => { c with started := true })
      match checkRange d need dev len with
      | some (x, cause, level) => markOver (recordRefusal d x cause level (needReq need) c.tag (k / 16)) k c.seq .xltFault 0 0
      | none =>
        if toHost then
          copyEnd ((cutAt 128 dev len).foldl (fun d p => copyPiece d e k c.seq c.tag dev p.1 p.2 true [] false) d) k c.seq
        else match host with
          | none => markOver d k c.seq .retiredResource 0 0
          | some bs =>
            let d := (cutAt 64 dev len).foldl (fun d p =>
              copyPiece d e k c.seq c.tag dev p.1 p.2 false ((bs.drop p.1).take p.2)
                (hostBad.any (fun b => decide (p.1 ≤ b ∧ b < p.1 + p.2)))) d
            let d := if hostBad.isEmpty then d else
              modCmd d k c.seq (fun c => if c.status = .ok then { c with status := .poisoned } else c)
            copyEnd d k c.seq

/-! ## Ingest (R343, R344) -/

/-- The engine of a port stops: its status, and HIF_EVENT bit 16. -/
def ingestStop (d : Dev) (p : Nat) (st : Status) : Dev :=
  raiseEvent (fset d (HIF_INGEST_STATUS_ERR p) (statusCode st)) p 16

/-- A batch whose writes are visible: the fill gauge receives its size, its sluice entries are released, and what was read beyond
it is read again. -/
def ingestEnd (d : Dev) (p : Nat) : Dev :=
  let q := getPcie d p
  if q.ingestOpen ≠ 0 then d else
    let n := q.ingestN
    let d := modPcie d p (fun q => { q with ingestN := 0, ingestK := q.ingestK + n })
    let d := if n = 0 then d else slcRelease (grefAdd (fwrap d (HIF_INGEST_STATUS_DELIVERED p) n) q.fill n .host) (2 + p) n
    let s := getSlc d (2 + p)
    setSlc d (2 + p) { s with r := s.l }

/-- Entry i of a batch written. -/
def ingestEntry (d : Dev) (p : Nat) (i : Nat) (entry : List Byte) : Dev :=
  let q := getPcie d p
  let base := (rget d (HIF_INGEST_BASE p)).toNat
  let a := (base + 64 * ((q.ingestK + i) % 2 ^ fget d (HIF_INGEST_CFG_LOG2 p))) % 2 ^ 64
  let fault := fget d (HIF_INGEST_STATUS_ERR p) != 0
  if fault || decide (q.ingestN < i) then d else
    let took := fun (d : Dev) => modPcie (slcTake d (2 + p)) p (fun q => { q with ingestN := i + 1 })
    match translate d .dmaWrite a with
    | .refused cause level => ingestStop (recordRefusal d a cause level (needReq .dmaWrite) 0 (0x1010 + p)) p .xltFault
    | .ok l =>
      if l.node ≠ nodeId d then
        let d := sendRequest d (.ingest (Fin.ofNat 2 p) i) l.node l.addr 64 (.wr l.addr entry false) 12
        took (modPcie d p (fun q => { q with ingestOpen := q.ingestOpen + 1 }))
      else if writeWaits d l.addr 64 then d
      else
        match hostTarget d p l.addr 64 true a 0 with
        | (d, .ok) => took (agentStore d l.addr entry false .engine).1
        | (d, st) => ingestStop d p st

/-- A write of a batch to another device has ended. -/
def ingestBack (d : Dev) (p i : Nat) (st : Status) : Dev :=
  let d := modPcie d p (fun q => { q with ingestOpen := q.ingestOpen - 1, ingestN := if st = .ok then q.ingestN else min i q.ingestN })
  ingestEnd (if st = .ok then d else ingestStop d p st) p

/-- INGEST_BATCH (R343): up to n entries, at most 64, that the consumed gauge leaves room for. -/
def ingestBatch (d : Dev) (p : PciePort) (n : Nat) : Dev :=
  let q := getPcie d p
  if !fbit d (HIF_INGEST_CFG_VALID p) || fget d (HIF_INGEST_STATUS_ERR p) != 0 || decide (q.ingestOpen ≠ 0) then d else
    let room := grefValue d q.consumed + 2 ^ fget d (HIF_INGEST_CFG_LOG2 p) - q.ingestK
    let m := min (min n 64) (min room (slcAvail (slcCap (2 + p)) (getSlc d (2 + p))))
    ingestEnd ((List.range m).foldl (fun d i => match slcFront d (2 + p) with
      | some entry => ingestEntry d p i entry
      | none => d) d) p

end Sys2Proof.Machine
end

