-- ==== Sys2Proof/Machine/Formats.lean ====
section
/-! DEFINITION. Arrays of number formats in a scratchpad (R97, R98), and the arithmetic of one element with the free
values that the manual's error bounds leave (R83, R124). -/
namespace Sys2Proof.Machine

/-- Width of one stored element in bits. -/
def storeWidth : StoreFmt → Nat
  | .plain f => fmtWidth f
  | .block f => fmtWidth f
  | .i32 => 32

/-- Bytes of an array of n elements. -/
def storeBytes (f : StoreFmt) (n : Nat) : Nat := (n * storeWidth f + 7) / 8

/-- The element format of a storage format. -/
def storeElem : StoreFmt → Option FloatFmt
  | .plain f => some f
  | .block f => some f
  | .i32 => none

/-- Whether it is a block form. -/
def isBlock : StoreFmt → Bool
  | .block _ => true
  | _ => false

/-- w bits at bit offset o from address a, little-endian (R97). -/
def rdBits (d : Dev) (a o w : Nat) : Nat :=
  rdNat d (a + o / 8) ((o % 8 + w + 7) / 8) / 2 ^ (o % 8) % 2 ^ w

/-- w bits written at bit offset o from address a; the other bits of the bytes stay (R478). -/
def wrBits (d : Dev) (a o w v : Nat) : Dev :=
  let n := (o % 8 + w + 7) / 8
  let old := rdNat d (a + o / 8) n
  let new := old - old / 2 ^ (o % 8) % 2 ^ w * 2 ^ (o % 8) + v % 2 ^ w * 2 ^ (o % 8)
  store d (a + o / 8) (leBytes n new) false

/-- Encoding of element i of an array at address a. -/
def rdEnc (d : Dev) (a : Nat) (f : StoreFmt) (i : Nat) : Nat := rdBits d a (i * storeWidth f) (storeWidth f)

/-- Value of element i of an array, with its block's scale byte from the scale array at sa (R89, R97). -/
def rdNum (d : Dev) (a sa : Nat) (f : StoreFmt) (i : Nat) : Num :=
  match f with
  | .plain x => decodeNum x (rdEnc d a f i)
  | .block x => decodeBlockElem x (rdNat d (sa + i / 32) 1) (rdEnc d a f i)
  | .i32 => numOfInt (toSigned 32 (rdEnc d a f i)) 0

/-- A list of encodings packed as a little-endian bit string (R97). -/
def packEncs (w : Nat) (es : List Nat) : List Byte :=
  leBytes ((es.length * w + 7) / 8) (es.foldr (fun e n => e % 2 ^ w + 2 ^ w * n) 0)

/-- An array of encodings written at a, poisoned or not. -/
def wrEncs (d : Dev) (a w : Nat) (es : List Nat) (bad : Bool) : Dev := store d a (packEncs w es) bad

/-- Writing exact values as an array (R93, R97, R99): a block form pads its last block with +0 and writes one scale byte
per block at sa; `mode` gives each element its rounding. -/
def wrNums (d : Dev) (a sa : Nat) (f : StoreFmt) (xs : List Num) (mode : Nat → Rnd) (bad : Bool) : Dev :=
  match f with
  | .plain x => wrEncs d a (fmtWidth x) (xs.mapIdx (fun i v => encodeNum x false (mode i) v)) bad
  | .block x =>
    let bl := (blocksOf 32 xs).mapIdx (fun b v =>
      let (s, es) := writeBlock x v (fun i => mode (32 * b + i))
      (s, es ++ List.replicate (32 - es.length) 0))
    let d := wrEncs d a (fmtWidth x) (bl.flatMap (fun p => p.2)) bad
    store d sa (bl.map (fun p => BitVec.ofNat 8 p.1)) bad
  | .i32 => d

/-- Whether a plain narrow output loses a NaN (R95). -/
def losesNan (f : StoreFmt) (xs : List Num) : Bool :=
  match f with
  | .plain x => xs.any (nanLost x)
  | _ => false

/-- The number of a unary function in the free values. -/
def unCode : FUn → Nat
  | .abs => 16 | .neg => 17 | .sqrt => 18 | .rcp => 19 | .rsqrt => 20 | .exp => 21 | .exp2 => 22 | .log => 23 | .log2 => 24

/-- An encoding whose error is at most `u` units in the last place of the exact value x (R83, R124): which of them the
fixed algorithm gives is a free value. The candidates are the truncated encoding plus an offset. -/
def ulpResult (f : FloatFmt) (u code key : Nat) (x : Num) : Nat :=
  match x with
  | .fin neg m e =>
    let t := roundMag f (.stoch 0) m e
    let exact := decide (encodeNum f false .nearest x = encodeNum f false .up x) && decide (roundMag f .up m e = t)
    let lo : Int := if exact then -(u : Int) else 1 - (u : Int)
    let hi : Int := u
    let k := lo + Config.ulpPick code key t % (hi - lo + 1)
    let mag := min (((t : Int) + k).toNat) (fmtInf f)
    withSign f neg mag
  | y => encodeNum f false .nearest y

/-- Activations of Table 4-8 on a W32 encoding (R83). Codes 0, 1 and 11 are exact; 2 and 3 are within the stated error of
their exact value; the others, and the values of a NaN or an infinity where the manual states none, are free values, a
NaN giving a NaN (R92). -/
def activate (code param x : Nat) : Nat :=
  let v := decodeNum .w32 x
  let p := decodeNum .w32 param
  let zero : Num := .fin false 0 0
  match v with
  | .nan => fmtNan .w32
  | _ =>
    if code = 0 then encodeNum .w32 false .nearest v
    else if code = 1 then encodeNum .w32 false .nearest (if numLt v zero then zero else v)
    else if code = 2 then
      (if numLt v zero then ulpResult .w32 2 2 (x * 2 ^ 32 + param) (numMul v p) else encodeNum .w32 false .nearest v)
    else if code = 3 then
      (if numLt v zero then 0 else ulpResult .w32 2 3 x (numMul v v))
    else if code = 11 then
      encodeNum .w32 false .nearest
        (if numIsNan p then .nan else if numLt (numAbs p) (numAbs v) then
          (match numAbs p with | .fin _ m e => .fin (numSign v) m e | .inf _ => .inf (numSign v) | y => y) else v)
    else Config.funCorner code param x % 2 ^ 32

end Sys2Proof.Machine
end

