-- ==== Sys2Proof/Machine/Matrix.lean ====
section
/-! DEFINITION. The matrix engine's arithmetic (R58 to R85, R116, R117): contributions, anchors, repeats, skipping, the
finisher, and what a tile in long form holds. -/
namespace Sys2Proof.Machine

/-- m of a shape (Table 4-3). -/
def shapeM : Shape → Nat
  | .s8x32 => 8 | .s16x16 => 16 | .s16x32 => 16 | .s32x16 => 32 | .s32x32 => 32 | .s32x64 => 32 | .s64x32 => 64
  | .s64x64 => 64

/-- n of a shape (Table 4-3). -/
def shapeN : Shape → Nat
  | .s8x32 => 32 | .s16x16 => 16 | .s16x32 => 32 | .s32x16 => 16 | .s32x32 => 32 | .s32x64 => 64 | .s64x32 => 32
  | .s64x64 => 64

/-- Slot groups of a shape in a mode (Table 4-3). -/
def groupCount (short : Bool) (s : Shape) : Nat := (if short then 24576 else 4096) / (shapeM s * shapeN s)

/-- The kind of an operand element: narrow (FP4, FP6, FP8), BF16, or none of them. -/
def operandKind : StoreFmt → Nat
  | .plain .e2m1 | .plain .e2m3 | .plain .e3m2 | .plain .e4m3 | .plain .e5m2 => 1
  | .block .e2m1 | .block .e2m3 | .block .e3m2 | .block .e4m3 | .block .e5m2 => 1
  | .plain .bf16 => 2
  | _ => 0

/-- Whether the operand pair is one of Table 4-1, or in L6 mode one of Table 6-4. -/
def pairOk (short : Bool) (a b : StoreFmt) : Bool :=
  let l6 := fun (f : StoreFmt) => decide (f = .plain .e2m1 ∨ f = .plain .e4m3 ∨ f = .plain .e5m2 ∨ f = .plain .bf16)
  operandKind a != 0 && operandKind a == operandKind b && (!short || (l6 a && l6 b))

/-- Blocks of a reduction (R61). -/
def nBlocks (kTotal : Nat) : Nat := (kTotal + 31) / 32

/-- One block of a row of A or a column of B: 32 values, zero beyond the command (R61). -/
def operandBlock (d : Dev) (base scale : Nat) (f : StoreFmt) (kCmd line b : Nat) : List Num :=
  let nb := (kCmd + 31) / 32
  (List.range 32).map (fun k =>
    let i := 32 * b + k
    if i < kCmd then
      match f with
      | .plain x => decodeNum x (rdEnc d base f (line * kCmd + i))
      | .block x => decodeBlockElem x (rdNat d (scale + line * nb + b) 1) (rdEnc d base f (line * kCmd + i))
      | .i32 => .nan
    else .fin false 0 0)

/-- The flags of one product (R67): NaN 4, +INF 2, −INF 1. -/
def productFlags (x : Num) : Nat :=
  match x with
  | .nan => 4
  | .inf s => if s then 1 else 2
  | _ => 0

/-- R65: the exact sum of a block's finite products, and the flags of the others. -/
def blockSum (a b : List Num) : Num × Nat :=
  (a.zip b).foldl (fun (s, fl) (x, y) =>
    match numMul x y with
    | .fin n m e => (numAdd s (.fin n m e), fl)
    | z => (s, fl.lor (productFlags z))) (.fin false 0 0, 0)

/-- R65: a block contribution on the grid 2^(anchor − 191), rounded once to nearest even. -/
def onGrid (anchor : Int) (x : Num) : Int :=
  match x with
  | .fin s m e =>
    let i : Int := if s then -(m : Int) else m
    let g := anchor - 191
    if g ≤ e then i * ((2 ^ (e - g).toNat : Nat) : Int) else roundHalfEven i (g - e).toNat
  | _ => 0

/-- R70: the excess of a contribution over the ceiling 2^(A − 2 − ceil(log2 NB)), 0 when it does not overflow. -/
def excessOf (nb : Nat) (c : Int) : Nat :=
  let lim := 189 - ceilLog2 nb
  let a := c.natAbs
  if a ≤ 2 ^ lim then 0 else ceilLog2 a - lim

/-- What one pass gives: slot sums and flags, the largest excess, and the largest finite magnitudes of A and B. -/
structure Pass where
  sums   : List Int
  flags  : List Nat
  excess : Nat
  maxA   : Num
  maxB   : Num
  deriving DecidableEq, Repr

/-- One pass over a command's blocks at an anchor, leaving out the blocks of `skip` (R65, R80). -/
def mmaPass (d : Dev) (c : Nat) (cmd : MtxCmd Nat) (anchor : Int) (skip : List Nat) : Pass :=
  let m := shapeM cmd.shape
  let n := shapeN cmd.shape
  let nb := nBlocks cmd.kTotal
  let bs := (List.range ((cmd.kCmd + 31) / 32)).filter (fun b => !skip.contains b)
  let rows := (List.range m).map (fun i => bs.map (fun b =>
    operandBlock d (spAddr c cmd.a) (spAddr c cmd.aScale) cmd.aFmt cmd.kCmd i b))
  let cols := (List.range n).map (fun j => bs.map (fun b =>
    operandBlock d (spAddr c cmd.b) (spAddr c cmd.bScale) cmd.bFmt cmd.kCmd j b))
  let cells := rows.flatMap (fun r => cols.map (fun q =>
    (r.zip q).foldl (fun (s, fl, ex) (a, b) =>
      let (x, f) := blockSum a b
      let k := onGrid anchor x
      (s + k, fl.lor f, max ex (excessOf nb k))) ((0 : Int), 0, 0)))
  { sums := cells.map (fun x => x.1), flags := cells.map (fun x => x.2.1),
    excess := cells.foldl (fun e x => max e x.2.2) 0,
    maxA := numMaxFinite (rows.flatMap (fun r => r.flatMap id)),
    maxB := numMaxFinite (cols.flatMap (fun r => r.flatMap id)) }

/-- R69 without its limits: the anchor two magnitudes ask for; −1,024 if either is zero. -/
def anchorFor (ma mb : Num) (kTotal : Nat) : Int :=
  if numIsZero ma || numIsZero mb then -1024
  else numCeilLog2 (numMul ma mb) + (ceilLog2 kTotal : Int) + 2

/-- An anchor clamped to −1,024 … 1,023. -/
def clampAnchor (a : Int) : Int := min (max a (-1024)) 1023

/-- The anchor a command starts at (R69, R71); none when a PRESS anchor cannot be formed. -/
def startAnchor (d : Dev) (c : Nat) (cmd : MtxCmd Nat) : Option Int :=
  match cmd.anchor with
  | .fixed => some 80
  | .explicit => some (toSigned 64 cmd.anchorV)
  | .predict =>
    if fbit d (MTX_PRED_VALID c cmd.entry) then some (toSigned 16 (fget d (MTX_PRED_ANCHOR c cmd.entry)))
    else some (toSigned 64 cmd.anchorV)
  | .press =>
    match decodeNum .w32 (rdNat d (spAddr c cmd.aRec) 4), decodeNum .w32 (rdNat d (spAddr c cmd.bRec) 4) with
    | .fin s m e, .fin t n f =>
      let a := anchorFor (.fin s m e) (.fin t n f) cmd.kTotal
      if 1023 < a then none else some (max a (-1024))
    | _, _ => none

/-- The code of an anchor source in MTX_ANCHOR_LAST (Table 4-14). -/
def sourceCode : AnchorSrc → Nat
  | .press => 0 | .predict => 1 | .fixed => 2 | .explicit => 3

/-- R81: the blocks of a command whose skip would be right: the A sub-tile all zero and no infinity or NaN in the B block. -/
def zeroBlocks (d : Dev) (c : Nat) (cmd : MtxCmd Nat) : List Nat :=
  (List.range ((cmd.kCmd + 31) / 32)).filter (fun b =>
    (List.range (shapeM cmd.shape)).all (fun i =>
      (operandBlock d (spAddr c cmd.a) (spAddr c cmd.aScale) cmd.aFmt cmd.kCmd i b).all numIsZero) &&
    (List.range (shapeN cmd.shape)).all (fun j =>
      (operandBlock d (spAddr c cmd.b) (spAddr c cmd.bScale) cmd.bFmt cmd.kCmd j b).all numIsFin))

/-! ## Short mode (R85, R117) -/

/-- One FP32 rounding. -/
def fp32 (x : Num) : Num := roundTo .fp32 x

/-- R117: the FP32 value of one block, products and pairwise sums each rounded. -/
def l6Block (a b : List Num) : Num :=
  pairTree (fun x y => fp32 (numAdd x y)) (.fin false 0 0) 5 ((a.zip b).map (fun p => fp32 (numMul p.1 p.2)))

/-- R117: a slot's FP32 encoding after the blocks of one command. -/
def l6Slot (slot : Nat) (bs : List (List Num × List Num)) : Nat :=
  bs.foldl (fun s p => encodeNum .fp32 false .nearest (numAdd (decodeNum .fp32 s) (l6Block p.1 p.2))) slot

/-! ## Slot groups -/

/-- Slot group g of a cell. -/
def getGroup (x : Cell) (g : Nat) : Option Group := smGet (fun _ => none) x.groups g

/-- Slot group g replaced or closed. -/
def setGroup (x : Cell) (g : Nat) (v : Option Group) : Cell :=
  { x with groups := smSet (fun _ => none) x.groups g v }

/-- An open group with all slots zero. -/
def freshGroup (cmd : MtxCmd Nat) (anchor : Int) : Group :=
  { shape := cmd.shape, kTotal := cmd.kTotal, anchor := anchor, anchor0 := anchor, source := cmd.anchor, slots := [],
    flags := [], blocks := 0, poisoned := false, chain := decide (cmd.chain ≠ .none), excess := 0, aObs := -1024 }

/-- Slot k of a group. -/
def slotOf (g : Group) (k : Nat) : Nat := smGet (fun _ => 0) g.slots k

/-- Flags of slot k. -/
def flagOf (g : Group) (k : Nat) : Nat := smGet (fun _ => 0) g.flags k

/-- R65: sums added into the slots mod 2^192, flags ORed (R67). -/
def addSums (g : Group) (sums : List Int) (flags : List Nat) : Group :=
  let go := fun (g : Group) (e : (Int × Nat) × Nat) =>
    let v := ofSigned 192 ((slotOf g e.2 : Int) + e.1.1)
    { g with slots := smSet (fun _ => 0) g.slots e.2 v,
             flags := smSet (fun _ => 0) g.flags e.2 ((flagOf g e.2).lor e.1.2) }
  (sums.zip flags).zipIdx.foldl go g

/-- The exact value of a slot with its flags (R67): NaN, an infinity, or s × 2^(A − 191). -/
def slotNum (short : Bool) (g : Group) (k : Nat) : Num :=
  if short then decodeNum .fp32 (slotOf g k) else
    let f := flagOf g k
    if f.testBit 2 || (f.testBit 1 && f.testBit 0) then .nan
    else if f.testBit 1 then .inf false
    else if f.testBit 0 then .inf true
    else numOfInt (toSigned 192 (slotOf g k)) (g.anchor - 191)

/-! ## Long-form tiles (R76) -/

/-- Bytes of a long-form tile of a shape. -/
def tileBytes (s : Shape) : Nat := 32 + 28 * (shapeM s * shapeN s)

/-- A group as a long-form tile with a raised target and RERUN. -/
def tileOf (g : Group) (tag : Nat) (aObs : Int) (tOff : Nat) (rerun : Bool) : List Byte :=
  let head := leBytes 2 tag ++ leBytes 1 (shapeM g.shape) ++ leBytes 1 (shapeN g.shape) ++ leBytes 2 (ofSigned 16 aObs) ++
    leBytes 2 0 ++ leBytes 8 g.kTotal ++ leBytes 16 0
  head ++ (List.range (shapeM g.shape * shapeN g.shape)).flatMap (fun k =>
    leBytes 24 (slotOf g k) ++ leBytes 2 (ofSigned 16 g.anchor) ++
      leBytes 2 (tOff * 16 + (if rerun then 8 else 0) + flagOf g k))

/-- A long-form tile read back: M, N, A_OBS, K_TOTAL, ANCHOR, T_OFF, RERUN, sums and flags. -/
structure Tile where
  m : Nat
  n : Nat
  aObs : Int
  kTotal : Nat
  anchor : Int
  tOff : Nat
  rerun : Bool
  sums : List Int
  flags : List Nat
  deriving DecidableEq, Repr

/-- Reading a tile of a shape from its bytes (Table 4-5). The anchor, target and RERUN bit are those of element 0. -/
def readTile (s : Shape) (bs : List Byte) : Tile :=
  let at_ := fun (o n : Nat) => leNat ((bs.drop o).take n)
  let cnt := shapeM s * shapeN s
  let ctl := fun k => at_ (32 + 28 * k + 26) 2
  { m := at_ 2 1, n := at_ 3 1, aObs := toSigned 16 (at_ 4 2), kTotal := at_ 8 8,
    anchor := toSigned 16 (at_ 56 2), tOff := ctl 0 / 16, rerun := (ctl 0).testBit 3,
    sums := (List.range cnt).map (fun k => toSigned 192 (at_ (32 + 28 * k) 24)),
    flags := (List.range cnt).map (fun k => ctl k % 8) }

/-! ## The finisher (R82 to R84, R477) -/

/-- Values of finisher steps 1 and 2 for output (i, j): scales multiplied and bias added, exactly, or each rounded to
FP32 in L6 mode (R85). -/
def finishValue (d : Dev) (c : Nat) (short : Bool) (o : FinOpts Nat) (v : Num) (i j : Nat) : Num :=
  let r := fun (x : Num) => if short then fp32 x else x
  let w := fun (a k : Nat) => decodeNum .w32 (rdNat d (spAddr c (a + 4 * k)) 4)
  let v := match o.tScale with | some s => r (numMul v (decodeNum .w32 (s % 2 ^ 32))) | none => v
  let v := match o.rowScale with | some a => r (numMul v (w a i)) | none => v
  let v := match o.colScale with | some a => r (numMul v (w a j)) | none => v
  let b := fun (a k : Nat) => if o.biasBf16 then decodeNum .bf16 (rdNat d (spAddr c (a + 2 * k)) 2) else w a k
  let v := match o.biasRow with | some a => r (numAdd v (b a i)) | none => v
  let v := match o.biasCol with | some a => r (numAdd v (b a j)) | none => v
  if numIsZero v then .fin false 0 0 else v

/-- Step 3: the activation, on the value rounded to W32. -/
def finishAct (o : FinOpts Nat) (v : Num) : Num :=
  if o.act = 0 then v
  else decodeNum .w32 (activate o.act (o.param % 2 ^ 32) (encodeNum .w32 false .nearest v))

/-- Columns a row of the output array takes: n, or whole blocks of 32 in a block form. -/
def outPitch (o : FinOpts Nat) (n : Nat) : Nat := if isBlock o.fmt then 32 * ((n + 31) / 32) else n

/-- The draw of finisher output (i, j) (R84, R113). -/
def finishMode (d : Dev) (c : Nat) (o : FinOpts Nat) (i j : Nat) : Rnd :=
  if o.stoch then
    .stoch (srDraw d.tide.seed.toNat (if (getCell d c).stepOff then 0 else d.tide.step) o.tensor (o.row0 + i) (o.col0 + j))
  else .nearest

/-- Steps 1 to 5 over a group (Table 4-6): outputs, then the records of R477. The result says whether a NaN was lost. -/
def finish (d : Dev) (c : Nat) (short : Bool) (g : Group) (cmd : MtxCmd Nat) (bad : Bool) : Dev × Bool :=
  let o := cmd.fin
  let m := shapeM g.shape
  let n := shapeN g.shape
  if o.longForm then
    (store d (spAddr c cmd.longOut) (tileOf g cmd.done.tag g.aObs 0 false) bad, false)
  else
    let vals := (List.range m).map (fun i => (List.range n).map (fun j =>
      finishAct o (finishValue d c short o (slotNum short g (i * n + j)) i j)))
    let pitch := outPitch o n
    let d1 := vals.zipIdx.foldl (fun d' (p : List Num × Nat) =>
      wrNums d' (spAddr c (o.out + storeBytes o.fmt (p.2 * pitch))) (spAddr c (o.outScale + p.2 * ((n + 31) / 32)))
        o.fmt p.1 (finishMode d c o p.2) bad) d
    let got := fun (i j : Nat) => rdNum d1 (spAddr c o.out) (spAddr c o.outScale) o.fmt (i * pitch + j)
    let outs := (List.range m).flatMap (fun i => (List.range n).map (fun j => got i j))
    let d2 := match o.maxRec with
      | some a => store d1 (spAddr c a) (leBytes 4 (encodeNum .w32 false .up (numMaxFinite outs))) bad
      | none => d1
    let d3 := match o.zeroRec with
      | some a => store d2 (spAddr c a) (packEncs 1 (outs.map (fun v => if numIsZero v then 1 else 0))) bad
      | none => d2
    (d3, vals.any (losesNan o.fmt))

end Sys2Proof.Machine
end

