-- ==== Sys2Proof/Machine/MtxOps.lean ====
section
/-! DEFINITION. The commands of the matrix engine (R58 to R87, R475 to R477): dispatch, the checks that make a command
invalid, one-command tiles with their repeats, groups, chain parts, and completion. -/
namespace Sys2Proof.Machine

/-! ## Ranges (R64, R98, R475) -/

/-- Whether the command is a part of a chain. -/
def isChain (m : MtxCmd Nat) : Bool := decide (m.chain ≠ .none)

/-- Whether the command is a one-command tile (R73). -/
def oneCommand (m : MtxCmd Nat) : Bool := decide (m.op = .mma) && m.start && m.last

/-- Whether the command runs the finisher, or writes a tile in long form in its place (R82, R77). -/
def writesTile (m : MtxCmd Nat) : Bool :=
  match m.op with
  | .finish => true
  | .mma => match m.chain with | .none => m.last | .head => true | _ => false
  | .chainAdd => match m.chain with | .none => m.last | _ => true

/-- Whether what it writes is a long-form tile. -/
def longOutput (m : MtxCmd Nat) : Bool :=
  match m.chain with
  | .none => m.fin.longForm
  | .head => true
  | .mid => true
  | .tail => m.fin.longForm

/-- Scratchpad ranges a command reads (R64): offset and length. -/
def readRanges (m : MtxCmd Nat) : List (Nat × Nat) :=
  match m.op with
  | .mma =>
    let nb := (m.kCmd + 31) / 32
    [(m.a, storeBytes m.aFmt (shapeM m.shape * m.kCmd)), (m.b, storeBytes m.bFmt (shapeN m.shape * m.kCmd))] ++
    (if isBlock m.aFmt then [(m.aScale, shapeM m.shape * nb)] else []) ++
    (if isBlock m.bFmt then [(m.bScale, shapeN m.shape * nb)] else []) ++
    (if m.anchor = .press then [(m.aRec, 64), (m.bRec, 64)] else [])
  | .chainAdd => [(m.longIn, tileBytes m.shape)]
  | .finish => []

/-- Further ranges the finisher reads. -/
def finReads (m : MtxCmd Nat) : List (Nat × Nat) :=
  let sz := if m.fin.biasBf16 then 2 else 4
  if writesTile m && !longOutput m then
    (m.fin.rowScale.toList.map (fun a => (a, 4 * shapeM m.shape))) ++
    (m.fin.colScale.toList.map (fun a => (a, 4 * shapeN m.shape))) ++
    (m.fin.biasRow.toList.map (fun a => (a, sz * shapeM m.shape))) ++
    (m.fin.biasCol.toList.map (fun a => (a, sz * shapeN m.shape)))
  else []

/-- Ranges a command writes. -/
def writeRanges (m : MtxCmd Nat) : List (Nat × Nat) :=
  if !writesTile m then [] else
  if longOutput m then [(m.longOut, tileBytes m.shape)] else
    let n := shapeN m.shape
    [(m.fin.out, storeBytes m.fin.fmt (shapeM m.shape * outPitch m.fin n))] ++
    (if isBlock m.fin.fmt then [(m.fin.outScale, shapeM m.shape * ((n + 31) / 32))] else []) ++
    (m.fin.maxRec.toList.map (fun a => (a, 4))) ++
    (m.fin.zeroRec.toList.map (fun a => (a, shapeM m.shape * n / 8)))

/-- Whether every array of a command starts on a 64 B boundary (R98); a long-form tile is no such array. -/
def basesOk (m : MtxCmd Nat) : Bool :=
  let reads := match m.op with | .mma => readRanges m | _ => []
  let writes := if longOutput m then [] else writeRanges m
  (reads ++ finReads m ++ writes).all (fun r => r.1 % 64 == 0)

/-- Whether every range lies in the scratchpad. -/
def rangesIn (rs : List (Nat × Nat)) : Bool := rs.all (fun r => decide (r.1 + r.2 ≤ spSize))

/-- Output formats of Table 4-7. -/
def outFmtOk (f : StoreFmt) : Bool :=
  match f with
  | .plain .w32 | .plain .fp32 | .plain .bf16 => true
  | .plain .e4m3 | .plain .e5m2 | .plain .e3m2 | .plain .e2m3 | .plain .e2m1 => true
  | .block .e4m3 | .block .e5m2 | .block .e3m2 | .block .e2m3 | .block .e2m1 => true
  | _ => false

/-! ## Invalid commands (R58, R71, R85, R275, R475, R476) -/

/-- Whether an operand format is plain FP4, FP6 or FP8, for FIXED. -/
def plainNarrow (f : StoreFmt) : Bool := operandKind f == 1 && !isBlock f

/-- Anchor rules of Table 4-4, in long mode. -/
def anchorOk (d : Dev) (c : Nat) (m : MtxCmd Nat) : Bool :=
  let inRange := fun (v : Int) => decide (-1024 ≤ v ∧ v ≤ 1023)
  match m.anchor with
  | .fixed => plainNarrow m.aFmt && plainNarrow m.bFmt
  | .explicit => inRange (toSigned 64 m.anchorV)
  | .predict => fbit d (MTX_PRED_VALID c m.entry) || inRange (toSigned 64 m.anchorV)
  | .press => true

/-- The role of a cell in the layout in force of group slot g (R275). -/
def roleOf (d : Dev) (g c : Nat) : Option ChainRole :=
  (layoutOf d g).bind (fun l => (rankOf d l c).map (fun r =>
    if r = 0 then ChainRole.tail else if (dnRanks l r).isEmpty then .head else .mid))

/-- Whether the slot group a command names serves it without START (R475). -/
def groupFits (x : Cell) (m : MtxCmd Nat) : Bool :=
  match getGroup x m.group with
  | none => false
  | some g => decide (g.shape = m.shape) && (decide (m.op ≠ .mma) || decide (g.kTotal = m.kTotal))

/-- Whether a command is an invalid matrix command, at its dispatch. -/
def mtxInvalid (d : Dev) (c : Nat) (m : MtxCmd Nat) : Bool :=
  let x := getCell d c
  let short := x.short
  let opBad := match m.op with
    | .mma => !pairOk short m.aFmt m.bFmt || (!short && !anchorOk d c m) ||
        decide (m.kTotal < m.kOff + m.kCmd) || m.kOff % 32 != 0 ||
        (m.kCmd % 32 != 0 && decide (m.kOff + m.kCmd < m.kTotal)) || decide (m.kCmd < 1 ∨ 32768 < m.kCmd) ||
        decide (m.kTotal < 1 ∨ 2 ^ 40 < m.kTotal) || (isChain m && !(m.start && m.last))
    | .chainAdd => isChain m && m.start
    | .finish => m.start || isChain m
  opBad || (!m.start && !(isChain m && decide (m.op = .mma)) && !groupFits x m) ||
    decide (groupCount short m.shape ≤ m.group) || (short && isChain m) ||
    (isChain m && decide (roleOf d m.slot c ≠ some m.chain)) ||
    !rangesIn (readRanges m ++ finReads m ++ writeRanges m) || !basesOk m ||
    (writesTile m && !longOutput m && (!outFmtOk m.fin.fmt || decide (11 < m.fin.act)))

/-- R476: a CHAIN_ADD with role NONE whose tile has another shape. -/
def tileMisfit (m : MtxCmd Nat) (t : Tile) : Bool :=
  decide (m.op = .chainAdd) && !isChain m && (t.m != shapeM m.shape || t.n != shapeN m.shape)

/-- R58: an invalid command makes no access, faults its thread with ABORTED and writes an INVALID_COMMAND record. -/
def refuseMtx (d : Dev) (c : Nat) (e : MtxEntry) : Dev :=
  closeCmd (chargeWith d c e.thread .aborted 0x02 e.cmd.done.tag 0 e.thread 0) c e.thread

/-! ## Starting a command -/

/-- R62: a command with START waits for the groups of another shape, and for a chain that holds its own group. -/
def startWaits (x : Cell) (m : MtxCmd Nat) : Bool :=
  m.start && ((x.groups.any (fun e => e.1 != m.group &&
      (match e.2 with | some g => decide (g.shape ≠ m.shape) | none => false))) ||
    x.mchain.any (fun r => r.entry.cmd.group == m.group))

/-- The next matrix command of a cell if its engine is idle: a re-run or a CHAIN_ADD whose tile is in place first, else the
queue head (R48, R77). -/
def mtxNext (x : Cell) (op : MtxOp) : Option (MtxEntry × Bool) :=
  if x.mrun.isSome then none else
  match x.redo, x.mq with
  | e :: _, _ => if e.cmd.op = op then some (e, true) else none
  | [], e :: _ => if e.cmd.op = op then some (e, false) else none
  | [], [] => none

/-- The entry leaves the list it was in. -/
def mtxTake (x : Cell) (again : Bool) : Cell :=
  if again then { x with redo := x.redo.tail } else { x with mq := x.mq.tail }

/-- Whether a read of any range of the command meets poison. -/
def rangesBad (d : Dev) (c : Nat) (rs : List (Nat × Nat)) : Bool := rs.any (fun r => isPoison d (spAddr c r.1) r.2)

/-- Memory errors met by the command's reads (R146). -/
def rangesEcc (d : Dev) (c : Nat) (e : EccHits) (rs : List (Nat × Nat)) : Dev :=
  rs.foldl (fun d r => eccRead d e (spAddr c r.1) r.2) d

/-- The run of a command as it starts. -/
def runOf (e : MtxEntry) (st : Status) (anchor0 anchor : Int) (aObs : Int) (excess passes : Nat) (zmap : List Nat) : MtxRun :=
  { entry := e, status := st, anchor0 := anchor0, anchor := anchor, source := e.cmd.anchor, aObs := aObs,
    excess := excess, zmap := zmap, passes := passes, closes := e.cmd.last && !isChain e.cmd,
    ranges := readRanges e.cmd ++ finReads e.cmd }

/-- Open groups and pending chains, as MTX_STATUS reports them. -/
def noteGroups (d : Dev) (c : Nat) : Dev :=
  let x := getCell d c
  let opened := (x.groups.filter (fun e => e.2.isSome)).length
  let waits := ((x.mchain.map (fun r => r.entry.cmd.group)).dedup).length
  fset (fset d (MTX_STATUS_GROUPS_OPEN c) opened) (MTX_STATUS_CHAINS_PENDING c) waits

/-- The engine busy with a run. -/
def engage (d : Dev) (c : Nat) (r : MtxRun) : Dev :=
  fset (noteGroups (modCell d c (fun x => { x with mrun := some r })) c) (MTX_STATUS_BUSY c) 1

/-- Outputs of a command that ends with its group (R82): written, poisoned if `bad`; POISONED if so or if a NaN is lost. -/
def writeOut (d : Dev) (c : Nat) (g : Group) (m : MtxCmd Nat) (bad : Bool) : Dev × Status :=
  let bad := bad || rangesBad d c (finReads m)
  let (d, lost) := finish d c (getCell d c).short g m bad
  (d, if bad || lost then .poisoned else .ok)

/-- R75, R69: outputs written poisoned without a pass, and ANCHOR_LIMIT. -/
def anchorLimit (d : Dev) (c : Nat) : Dev := fset d (MTX_STATUS_ANCHOR_LIMIT c) 1

/-! ## One-command tiles (R72 to R75, R80, R81) -/

/-- The outcome of the passes of a one-command tile: the last pass, its anchor, how many passes ran, whether a skip was
wrong, whether an overflow was repeated, and whether a raised anchor is beyond 1,023. -/
structure TileRun where
  pass    : Pass
  anchor  : Int
  passes  : Nat
  misses  : Bool
  raised  : Bool
  limit   : Bool
  skipped : Nat
  deriving DecidableEq, Repr

/-- An overflow repeat after a pass, if one is due (R74, R75). -/
def overflowRepeat (d : Dev) (c : Nat) (m : MtxCmd Nat) (skip : List Nat) (r : TileRun) : TileRun :=
  if r.pass.excess = 0 || r.limit then r else
    let a := r.anchor + r.pass.excess + 8
    if 1023 < a then { r with limit := true }
    else { r with pass := mmaPass d c m a skip, anchor := a, passes := r.passes + 1, raised := true,
                  skipped := r.skipped + skip.length }

/-- R74, R80, R81: every pass of a one-command tile at initial anchor `a`. -/
def tilePasses (d : Dev) (c : Nat) (m : MtxCmd Nat) (a : Int) (skip : List Nat) : TileRun :=
  let p := mmaPass d c m a skip
  let first : TileRun := { pass := p, anchor := a, passes := 1, misses := false, raised := false, limit := false,
                           skipped := skip.length }
  if skip.all (fun b => (zeroBlocks d c m).contains b) then overflowRepeat d c m skip first
  else
    let a1 := if p.excess = 0 then a else a + p.excess + 8
    if 1023 < a1 then { first with misses := true, limit := true }
    else
      overflowRepeat d c m []
        { first with pass := mmaPass d c m a1 [], anchor := a1, passes := 2, misses := true, raised := decide (p.excess ≠ 0) }

/-- Blocks that SKIP leaves out (R80): those of the entry's zero map among the first 1,024 blocks. -/
def skipList (x : Cell) (m : MtxCmd Nat) : List Nat :=
  if m.skip && oneCommand m && !isChain m && !x.short then
    (smGet (fun _ => []) x.zmaps m.entry.val).filter (fun b => decide (b < (m.kCmd + 31) / 32 ∧ b < 1024))
  else []

/-- A_obs of a command (R72): the anchor formula on the observed maxima of all its operands. -/
def observed (d : Dev) (c : Nat) (m : MtxCmd Nat) : Int :=
  let p := mmaPass d c m 0 []
  anchorFor p.maxA p.maxB m.kTotal

/-- Counters of a tile's passes. -/
def countTile (d : Dev) (c : Nat) (m : MtxCmd Nat) (r : TileRun) : Dev :=
  let d := fcount d (MTX_REPEAT_TILE_REPEATS c) (r.passes - 1)
  let d := fcount d (MTX_SKIP_BLOCKS_SKIPPED c) r.skipped
  let d := if r.misses then fcount d (MTX_SKIP_SKIP_MISSES c) 1 else d
  if r.raised && decide (m.anchor = .predict) then fcount d (MTX_PRED_MISSES c m.entry) 1 else d

/-- The group a pass leaves. -/
def passGroup (m : MtxCmd Nat) (a0 a : Int) (p : Pass) (blocks : Nat) (aObs : Int) : Group :=
  addSums { freshGroup m a with anchor0 := a0, blocks := blocks, excess := p.excess, aObs := aObs } p.sums p.flags

/-- A one-command tile outside a chain, in long mode. -/
def runTile (d : Dev) (c : Nat) (e : MtxEntry) (bad : Bool) : Dev :=
  let m := e.cmd
  let nb := (m.kCmd + 31) / 32
  match startAnchor d c m with
  | none =>
    let g := { freshGroup m (-1024) with poisoned := true }
    let (d, _) := writeOut (anchorLimit d c) c g m true
    engage (modCell d c (fun x => setGroup x m.group (some g))) c (runOf e .poisoned (-1024) (-1024) (observed d c m) 0 0 [])
  | some a =>
    let obs := observed d c m
    let r := tilePasses d c m a (skipList (getCell d c) m)
    let d := countTile d c m r
    let d := if r.limit then anchorLimit d c else d
    let g := passGroup m a r.anchor r.pass nb obs
    let bad := bad || r.limit || decide (nBlocks m.kTotal < nb)
    let (d, st) := writeOut d c g m bad
    engage (modCell d c (fun x => setGroup x m.group (some g))) c
      (runOf e st a r.anchor obs r.pass.excess r.passes (if m.skip then zeroBlocks d c m else []))

/-! ## Groups of several commands (R63, R70, R73) -/

/-- One MMA into a group, in long mode, of several commands. -/
def runPart (d : Dev) (c : Nat) (e : MtxEntry) (bad : Bool) : Dev :=
  let m := e.cmd
  let nb := (m.kCmd + 31) / 32
  let x := getCell d c
  let opened : Option Group := if m.start then (startAnchor d c m).map (freshGroup m) else getGroup x m.group
  match opened with
  | none =>
    let g := { freshGroup m (-1024) with poisoned := true }
    engage (modCell (anchorLimit d c) c (fun x => setGroup x m.group (some g))) c (runOf e .poisoned (-1024) (-1024) (-1024) 0 0 [])
  | some g =>
    let p := mmaPass d c m g.anchor []
    let many := decide (nBlocks g.kTotal < g.blocks + nb)
    let g := addSums { g with blocks := g.blocks + nb, poisoned := g.poisoned || bad || many || decide (p.excess ≠ 0) }
      p.sums p.flags
    let d := modCell d c (fun x => setGroup x m.group (some g))
    let (d, st) := if m.last then writeOut d c g m g.poisoned else (d, if many || bad then .poisoned else .ok)
    engage d c (runOf e st g.anchor0 g.anchor (-1024) p.excess 1 [])

/-- One MMA in short mode (R85, R117): no anchor, no repeat. -/
def runShort (d : Dev) (c : Nat) (e : MtxEntry) (bad : Bool) : Dev :=
  let m := e.cmd
  let nb := (m.kCmd + 31) / 32
  let x := getCell d c
  let g := if m.start then freshGroup m 0 else (getGroup x m.group).getD (freshGroup m 0)
  let many := decide (nBlocks g.kTotal < g.blocks + nb)
  let blk := fun (f : StoreFmt) (base sc line : Nat) => (List.range nb).map (fun b => operandBlock d (spAddr c base) (spAddr c sc) f m.kCmd line b)
  let g := (List.range (shapeM m.shape)).foldl (fun g i => (List.range (shapeN m.shape)).foldl (fun g j =>
    let k := i * shapeN m.shape + j
    let v := l6Slot (slotOf g k) ((blk m.aFmt m.a m.aScale i).zip (blk m.bFmt m.b m.bScale j))
    { g with slots := smSet (fun _ => 0) g.slots k v }) g) g
  let g := { g with blocks := g.blocks + nb, poisoned := g.poisoned || bad || many }
  let d := modCell d c (fun x => setGroup x m.group (some g))
  let (d, st) := if m.last then writeOut d c g m g.poisoned else (d, if many || bad then .poisoned else .ok)
  engage d c (runOf e st 0 0 (-1024) 0 1 [])

/-! ## Chain parts (R77, R275 to R277) -/

/-- A member's target for a chain: its anchor, raised past its own overflow (R77 step 1). -/
def chainTarget (g : Group) : Int := if g.excess = 0 then g.anchor else g.anchor + g.excess + 8

/-- The MMA of a chain part: one pass; the head writes its partial as a long-form tile. An anchor that cannot be formed asks
for a target above 1,023, so that the chain ends with POISONED (R69). -/
def runChainMma (d : Dev) (c : Nat) (e : MtxEntry) (bad : Bool) : Dev :=
  let m := e.cmd
  let nb := (m.kCmd + 31) / 32
  match layoutOf d m.slot, rankOf d ((layoutOf d m.slot).getD ⟨false, [], []⟩) c with
  | some _, some rank =>
    let (d, g) := match startAnchor d c m with
      | none => (anchorLimit d c, { freshGroup m (-1024) with poisoned := true, excess := 2040 })
      | some a =>
        let p := mmaPass d c m a []
        (d, { passGroup m a a p nb (observed d c m) with poisoned := bad || decide (nBlocks m.kTotal < nb) })
    let d := ensureChain d m.slot m.done.tag rank c (fget d (CLV_GRP_CFG_LAYOUT m.slot))
    let d := modCell d c (fun x => setGroup x m.group (some g))
    let d := if m.chain = .head then
        store d (spAddr c m.longOut) (tileOf g m.done.tag g.aObs (chainTarget g - g.anchor).toNat (decide (g.excess ≠ 0))) g.poisoned
      else d
    engage (clvBusy d) c (runOf e .ok g.anchor g.anchor g.aObs g.excess 1 [])
  | _, _ => d

/-- A chain CHAIN_ADD as it first dispatches: it posts its input address and waits, outside the engine, for its tile
(R276). -/
def postChainAdd (d : Dev) (c : Nat) (e : MtxEntry) : Dev :=
  let m := e.cmd
  match rankOf d ((layoutOf d m.slot).getD ⟨false, [], []⟩) c with
  | none => d
  | some rank =>
    let d := ensureChain d m.slot m.done.tag rank c (fget d (CLV_GRP_CFG_LAYOUT m.slot))
    let d := modChain d m.slot m.done.tag rank (fun ch => { ch with posted := some m.longIn })
    let d := modCell d c (fun x => { x with mchain := x.mchain ++ [runOf e .ok 0 0 (-1024) 0 0 []] })
    chainPost (clvBusy (noteGroups d c)) m.slot m.done.tag rank

/-- A chain CHAIN_ADD whose tile is in place (R77 step 3): the sum and flags are added unless a re-run is due; a middle
part writes the tile onward, the tail runs its finisher. -/
def runChainAdd (d : Dev) (c : Nat) (e : MtxEntry) : Dev :=
  let m := e.cmd
  match getGroup (getCell d c) m.group with
  | none => d
  | some g =>
    let t := readTile m.shape (rdBytes d (spAddr c m.longIn) (tileBytes m.shape))
    let bad := g.poisoned || rangesBad d c (readRanges m)
    let target := max (t.anchor + t.tOff) (chainTarget g)
    let rerun := t.rerun || decide (g.excess ≠ 0) || decide (g.anchor ≠ t.anchor)
    let aObs := max t.aObs g.aObs
    let g := if rerun then { g with aObs := aObs, poisoned := bad } else { addSums g t.sums t.flags with aObs := aObs, poisoned := bad }
    let d := modCell d c (fun x => setGroup x m.group (some g))
    let r := { runOf e .ok g.anchor0 target aObs (if rerun then 1 else 0) 1 [] with anchor := if rerun then target else g.anchor }
    if m.chain = .tail then
      if rerun then engage d c r
      else
        let (d, st) := writeOut d c g m bad
        engage d c { r with status := st }
    else
      let out := tileOf { g with anchor := t.anchor } m.done.tag aObs (target - t.anchor).toNat rerun
      engage (store d (spAddr c m.longOut) out bad) c r

/-! ## CHAIN_ADD outside a chain, and FINISH (R476, R82) -/

/-- CHAIN_ADD with role NONE. -/
def runAddTile (d : Dev) (c : Nat) (e : MtxEntry) (t : Tile) (bad : Bool) : Dev :=
  let m := e.cmd
  let x := getCell d c
  let short := x.short
  let enc := fun (g : Group) => if short then
      (List.range (shapeM m.shape * shapeN m.shape)).foldl (fun (g : Group) k =>
        let v := encodeNum .fp32 false .nearest (numAdd (decodeNum .fp32 (slotOf g k)) (numOfInt (t.sums.getD k 0) (t.anchor - 191)))
        { g with slots := smSet (fun _ => 0) g.slots k v }) g
    else addSums g t.sums t.flags
  let g0 : Group := if m.start then { freshGroup m t.anchor with kTotal := t.kTotal } else (getGroup x m.group).getD (freshGroup m t.anchor)
  let bar := t.rerun || (!m.start && !short && decide (g0.anchor ≠ t.anchor))
  let g := if bar then { g0 with poisoned := true } else { enc g0 with poisoned := g0.poisoned || bad }
  let d := modCell d c (fun x => setGroup x m.group (some g))
  let (d, st) := if m.last then writeOut d c g m g.poisoned else (d, if bar || bad then .poisoned else .ok)
  engage d c { runOf e st g.anchor g.anchor (-1024) 0 1 [] with source := .explicit }

/-- FINISH: the group through the finisher. -/
def runFinish (d : Dev) (c : Nat) (e : MtxEntry) : Dev :=
  match getGroup (getCell d c) e.cmd.group with
  | none => d
  | some g =>
    let (d, st) := writeOut d c g e.cmd g.poisoned
    engage d c { runOf e st g.anchor0 g.anchor (-1024) 0 1 [] with source := g.source }

/-! ## Dispatch -/

/-- Dispatch of the cell's next matrix command, if it is of the named operation and the engine is idle (R48, R49). -/
def mtxDispatch (d : Dev) (c : Nat) (ecc : EccHits) (op : MtxOp) : Dev :=
  if !cellRuns d c then d else
  match mtxNext (getCell d c) op with
  | none => d
  | some (e, again) =>
    let m := e.cmd
    if !again && startWaits (getCell d c) m then d else
    let tile := readTile m.shape (rdBytes d (spAddr c m.longIn) (tileBytes m.shape))
    let chains := (d.clv.chains.filter (fun ch => ch.group == m.slot)).length
    if !again && isChain m && decide (op = .mma) && decide (16 ≤ chains) &&
        !d.clv.chains.any (fun ch => ch.group == m.slot && ch.tag == m.done.tag) then d else
    let d := modCell d c (fun x => mtxTake x again)
    if !again && (mtxInvalid d c m || tileMisfit m tile) then refuseMtx d c e else
    let rs := readRanges m ++ finReads m
    let d := rangesEcc d c ecc rs
    let bad := rangesBad d c (readRanges m)
    match op with
    | .mma =>
      if (getCell d c).short then runShort d c e bad
      else if isChain m then runChainMma d c e bad
      else if oneCommand m then runTile d c e bad
      else runPart d c e bad
    | .chainAdd =>
      if isChain m then (if again then runChainAdd d c e else postChainAdd d c e)
      else runAddTile d c e tile bad
    | .finish => runFinish d c e

/-! ## Completion (R56, R64, R72, R79) -/

/-- Held writes that no running or waiting command reads any longer take effect, in arrival order (R64). -/
def releaseHeld (d : Dev) (c : Nat) : Dev :=
  let x := getCell d c
  let free := x.held.filter (fun h => !heldBy x c h.addr h.bytes.length)
  let keep := x.held.filter (fun h => heldBy x c h.addr h.bytes.length)
  let d := setCell d c { x with held := keep }
  free.foldl (fun d h =>
    let d := storeNow d h.addr h.bytes h.poison
    match h.who with
    | .engine => d
    | .dma owner n => modCell d owner (fun y =>
        match smGet (fun _ => none) y.tags n with
        | some t => { y with tags := smSet (fun _ => none) y.tags n (some { t with held := t.held - 1 }) }
        | none => y)
    | .store owner t => modTh d owner t (fun th => { th with openStores := th.openStores - 1 })
    | .remote node rid =>
      if (getCell d c).held.any (fun k => decide (k.who = h.who)) then d
      else { d with toRoute := d.toRoute ++ [{ body := .wrRsp .ok, vc := 13, dest := node, src := nodeId d, rid := rid,
                                               hops := 0 }] }) d

/-- R72: the predictor entry after a PREDICT tile. -/
def setPredictor (d : Dev) (c : Nat) (m : MtxCmd Nat) (aObs : Int) : Dev :=
  if m.anchor = .predict then
    fset (fset d (MTX_PRED_ANCHOR c m.entry) (ofSigned 16 (clampAnchor (aObs + 1)))) (MTX_PRED_VALID c m.entry) 1
  else d

/-- MTX_ANCHOR_LAST after a tile (Table 4-14). -/
def setAnchorLast (d : Dev) (c tag : Nat) (a0 a : Int) (src : AnchorSrc) : Dev :=
  rset d (MTX_ANCHOR_LAST c) (BitVec.ofNat 64 (tag % 2 ^ 16 * 2 ^ 32 + ofSigned 16 a * 2 ^ 16 + sourceCode src * 2 ^ 14 +
    (a - a0).toNat % 2 ^ 12 * 4))

/-- What completes with every matrix command: status registers, trace, counters, gauge, one command fewer. -/
def mtxDone (d : Dev) (c : Nat) (e : MtxEntry) (st : Status) : Dev :=
  let d := fset (fset d (MTX_STATUS_LAST_TAG c) e.cmd.done.tag) (MTX_STATUS_LAST_STATUS c) (statusCode st)
  let d := noteDone d c e.thread e.cmd.done.tag st (e.cmd.a, e.cmd.kCmd)
  let d := closeCmd d c e.thread
  completeGauge (releaseHeld (noteGroups d c) c) c e.cmd.done .engine

/-- What the tail of a chain sends when its CHAIN_ADD ends (R77 steps 4 and 5): DONE, RERUN, or, beyond the limits, FAIL with
POISONED. The message is addressed to its own rank first, whose engine passes it on (R278). -/
def tailSends (d : Dev) (c : Nat) (r : MtxRun) : Dev :=
  let m := r.entry.cmd
  match groupDef d m.slot, layoutOf d m.slot, findChain d m.slot m.done.tag 0 with
  | some gd, some l, some ch =>
    let msg := fun k => collMsg k gd ch.layout 256 m.done.tag ch.pass 0
    if r.excess = 0 then sendRank d gd l 0 { msg .done with value := r.anchor, aObs := r.aObs, status := r.status }
    else if ch.pass || decide (1023 < r.anchor) then
      let g := (getGroup (getCell d c) m.group).getD (freshGroup m (-1024))
      let (d, _) := writeOut (anchorLimit d c) c g m true
      sendRank d gd l 0 { msg .fail with status := .poisoned }
    else sendRank d gd l 0 { msg .rerun with value := r.anchor }
  | _, _, _ => d

/-- A chain part leaves the engine and waits (R79): its run replaces the one it re-ran, its tile may go up, and the tail
sends the outcome. -/
def chainPartDone (d : Dev) (c : Nat) (r : MtxRun) : Dev :=
  let m := r.entry.cmd
  let same := fun (q : MtxRun) => decide (q.entry.cmd.op = m.op) && q.entry.cmd.slot == m.slot && q.entry.cmd.done.tag == m.done.tag
  let d := modCell d c (fun x =>
    let old := x.mchain.find? same
    let r := match old with
      | some o => { r with anchor0 := if m.op = .mma then o.anchor0 else r.anchor0, source := o.source,
                           entry := { r.entry with cmd := { m with anchor := o.entry.cmd.anchor } } }
      | none => r
    { x with mrun := none, mchain := x.mchain.filter (fun q => !same q) ++ [r] })
  let d := fset (noteGroups d c) (MTX_STATUS_BUSY c) 0
  match rankOf d ((layoutOf d m.slot).getD ⟨false, [], []⟩) c with
  | none => d
  | some rank =>
    if m.op = .mma && decide (m.chain = .head) || m.op = .chainAdd && decide (m.chain = .mid) then
      chainSend (modChain d m.slot m.done.tag rank (fun ch => { ch with ready := some (m.longOut, tileBytes m.shape) }))
        m.slot m.done.tag rank
    else if m.op = .chainAdd && decide (m.chain = .tail) then tailSends d c r
    else d

/-- MATRIX_COMPLETE: the running command ends. -/
def matrixComplete (d : Dev) (c : Nat) : Dev :=
  match (getCell d c).mrun with
  | none => d
  | some r =>
    let m := r.entry.cmd
    if isChain m then chainPartDone d c r else
    let short := (getCell d c).short
    let d := modCell d c (fun x =>
      let x := { x with mrun := none }
      let x := if r.closes then setGroup x m.group none else x
      if m.skip && oneCommand m && !short then
        let old := (smGet (fun _ => []) x.zmaps m.entry.val).filter (fun b => decide ((m.kCmd + 31) / 32 ≤ b))
        { x with zmaps := smSet (fun _ => []) x.zmaps m.entry.val (r.zmap ++ old) }
      else x)
    let d := fset d (MTX_STATUS_BUSY c) 0
    let d := if oneCommand m && !short then setPredictor d c m r.aObs else d
    let d := if !short && (r.closes || (decide (m.op = .chainAdd) && m.start)) then
        setAnchorLast d c m.done.tag r.anchor0 r.anchor r.source
      else d
    mtxDone d c r.entry r.status

/-- The end of a chain at one member (R79, R277): every command of the part completes with the outcome; its group closes. -/
def endChain (d : Dev) (g tag rank : Nat) (st : Status) (anchor aObs : Int) (ok : Bool) : Dev :=
  match findChain d g tag rank with
  | none => d
  | some ch =>
    let c := ch.cell.val
    let mine := fun (e : MtxEntry) => e.cmd.slot == g && e.cmd.done.tag == tag && isChain e.cmd
    let runs := (getCell d c).mchain.filter (fun r => mine r.entry)
    let live := match (getCell d c).mrun with | some r => if mine r.entry then [r] else [] | none => []
    let d := modCell d c (fun x =>
      let x := { x with mchain := x.mchain.filter (fun r => !mine r.entry), redo := x.redo.filter (fun e => !mine e),
                        mrun := match x.mrun with | some r => if mine r.entry then none else some r | none => none }
      (runs ++ live).foldl (fun x r => setGroup x r.entry.cmd.group none) x)
    let d := if live.isEmpty then d else fset d (MTX_STATUS_BUSY c) 0
    let d := { d with clv := { d.clv with chains := d.clv.chains.filter (fun q => !(q.group == g && q.tag == tag && q.rank == rank)) } }
    let d := if st = .ok then d else fset d (MTX_STATUS_CHAIN_FAIL c) 1
    let d := (runs ++ live).foldl (fun d r =>
      let d := if r.entry.cmd.op = .mma then
          let d := if ok then setPredictor d c r.entry.cmd aObs else d
          setAnchorLast d c tag r.anchor0 (if ok then anchor else r.anchor) r.source
        else d
      mtxDone d c r.entry st) d
    clvBusy (noteGroups d c)

/-- MTX_CTR_CLR (R87): the counters of a cell's matrix engine back to 0. -/
def mtxCtrClr (d : Dev) (c : CellId) (v : Word) : Dev :=
  if v.toNat % 2 = 1 then
    let d := rset (rset d (MTX_REPEAT c) 0) (MTX_SKIP c) 0
    (List.range 64).foldl (fun d e => fset d (MTX_PRED_MISSES c e) 0) d
  else d

end Sys2Proof.Machine
end

