-- ==== Sys2Proof/Machine/Element.lean ====
section
/-! DEFINITION. Element programs (R119 to R128, R478): tile registers, operations, masks, reductions and stores. -/
namespace Sys2Proof.Machine

/-! ## Tile registers (R119) -/

/-- Key of element (i, j) of register n. -/
def tileKey (n p : Nat) : Nat := n * 1024 + p

/-- Bits of element p = 32 i + j of register n. -/
def tileBits (x : Cell) (n p : Nat) : Nat := (smGet (fun _ => 0) x.tiles (tileKey n p)).toNat

/-- Type tag of register n. -/
def tileType (x : Cell) (n : Nat) : EType := smGet (fun _ => EType.w32) x.ttypes n

/-- The format of a floating type. -/
def typeFmt : EType → FloatFmt
  | .w32 => .w32
  | .fp32 => .fp32
  | .i32 => .fp32

/-- The signed integer of 32 bits. -/
def i32Of (w : Nat) : Int := toSigned 32 w

/-- 32 bits of an integer. -/
def i32Bits (i : Int) : Nat := ofSigned 32 i

/-- Whether bits of a type are non-zero, by value (R127). -/
def bitsNonzero (ty : EType) (w : Nat) : Bool :=
  match ty with
  | .i32 => w % 2 ^ 32 != 0
  | t => !numIsZero (decodeNum (typeFmt t) w)

/-- Active elements of a command (R127), fixed at dispatch, in ascending linear position 32 i + j. -/
def activeOf (x : Cell) (m : EleCmd Nat) : List Nat :=
  (List.range (min m.rowLim 32)).flatMap (fun i => ((List.range (min m.colLim 32)).map (fun j => 32 * i + j)).filter (fun p =>
    match m.mask with
    | none => true
    | some t => bitsNonzero (tileType x t) (tileBits x t p)))

/-- A register written at some elements (R127): inactive ones keep their value, or receive zero under ZERO. -/
def writeTile (x : Cell) (n : Nat) (ty : EType) (vals : List (Nat × Nat)) (active : List Nat) (zero : Bool) : Cell :=
  let base := if zero then smKeep (fun k => k / 1024 != n || active.contains (k % 1024)) x.tiles else x.tiles
  { x with
    tiles := vals.foldl (fun m e => smSet (fun _ => 0) m (tileKey n e.1) (BitVec.ofNat 32 e.2)) base,
    ttypes := smSet (fun _ => EType.w32) x.ttypes n ty }

/-- Linear index of an element in its tensor (R123). -/
def linIndex (m : EleCmd Nat) (p : Nat) : Nat := m.elemOff + p / 32 * m.rowStr + p % 32

/-- A source at element p (R123). -/
def srcBits (x : Cell) (m : EleCmd Nat) (p : Nat) : ESrc → Nat
  | .reg t => tileBits x t p
  | .brow t => tileBits x t (p % 32)
  | .bcol t => tileBits x t (p / 32 * 32)
  | .const k => m.k.getD k 0 % 2 ^ 32
  | .idxI => p / 32
  | .idxJ => p % 32
  | .idxLin => linIndex m p % 2 ^ 32

/-- The draw of an element (R113, R125). -/
def eleDraw (d : Dev) (c : Nat) (m : EleCmd Nat) (lin : Nat) : Nat :=
  srDraw d.tide.seed.toNat (if (getCell d c).stepOff then 0 else d.tide.step) m.tensor (lin / 2 ^ 24) (lin % 2 ^ 24)

/-! ## Checks of a program (R120, R136) -/

/-- The storage format and type that LD and ST may pair (R101): reason 3 where Table 5-5 has no such conversion. -/
def ldOk (fmt : StoreFmt) (ty : EType) : Bool :=
  match fmt, ty with
  | .i32, .i32 => true
  | .i32, _ => false
  | _, .i32 => false
  | .plain f, t => convOk f (typeFmt t)
  | .block f, t => fmtHasBlock f && convOk f (typeFmt t)

/-- The same for a store. -/
def stOk (fmt : StoreFmt) (ty : EType) : Bool :=
  match fmt, ty with
  | .i32, .i32 => true
  | .i32, _ => false
  | _, .i32 => false
  | .plain f, t => convOk (typeFmt t) f
  | .block f, t => fmtHasBlock f && convOk (typeFmt t) f

/-- Whether a source fits an operation type: a register by its tag, an index as I32, a constant always (R120). -/
def srcFits (tag : Nat → EType) (ty : EType) : ESrc → Bool
  | .reg t => decide (tag t = ty)
  | .brow t => decide (tag t = ty)
  | .bcol t => decide (tag t = ty)
  | .const _ => true
  | _ => decide (ty = .i32)

/-- The lowest reason of Table 7-6 among 2, 3 and 8 that one operation meets, 0 for none, and the tag it leaves. -/
def opCheck (tag : Nat → EType) : EleOp → Nat × Option (Nat × EType)
  | .ld ty d _ fmt _ => (if ldOk fmt ty then 0 else 3, some (d, ty))
  | .st s _ fmt _ => (if stOk fmt (tag s) then 0 else 3, none)
  | .fbin _ ty d a b =>
    (if !(srcFits tag ty a && srcFits tag ty b) then 2 else if ty = .i32 then 8 else 0, some (d, ty))
  | .fma ty d a b c =>
    (if !(srcFits tag ty a && srcFits tag ty b && srcFits tag ty c) then 2 else if ty = .i32 then 8 else 0, some (d, ty))
  | .fun1 _ ty d a => (if !srcFits tag ty a then 2 else if ty = .i32 then 8 else 0, some (d, ty))
  | .act code d a _ => (if !srcFits tag .w32 a then 2 else if 11 < code then 8 else 0, some (d, .w32))
  | .cmp _ ty d a b => (if srcFits tag ty a && srcFits tag ty b then 0 else 2, some (d, .i32))
  | .select ty d c a b =>
    (if srcFits tag .i32 c && srcFits tag ty a && srcFits tag ty b then 0 else 2, some (d, ty))
  | .ibin _ d a b => (if srcFits tag .i32 a && srcFits tag .i32 b then 0 else 2, some (d, .i32))
  | .inot d a => (if srcFits tag .i32 a then 0 else 2, some (d, .i32))
  | .cvt src dst d a => (if srcFits tag src a then 0 else 2, some (d, dst))
  | .rand d => (0, some (d, .i32))
  | .movt ty d s => (if tag s = ty then 0 else 2, some (d, ty))
  | .reduce f _ ty d s =>
    let bad : Bool := match f with
      | .isum => decide (ty ≠ .i32)
      | .count => false
      | _ => decide (ty = .i32)
    (if tag s ≠ ty then 2 else if bad then 8 else 0, some (d, match f with | .count => .i32 | _ => ty))
  | .undef _ => (8, none)

/-- The lowest non-zero of two reasons. -/
def minReason (a b : Nat) : Nat := if a = 0 then b else if b = 0 then a else min a b

/-- Types through a program, as each earlier operation leaves them (R120). -/
def progCheck (tag : Nat → EType) : List EleOp → Nat
  | [] => 0
  | o :: t =>
    let (r, w) := opCheck tag o
    let tag' := match w with
      | some (n, ty) => fun k => if k = n then ty else tag k
      | none => tag
    minReason r (progCheck tag' t)

/-- Size and offset in bits of element j of a row. -/
def elemSpan (fmt : StoreFmt) (j : Nat) : Nat × Nat := (j * storeWidth fmt, storeWidth fmt)

/-- First byte and bytes of element p of an array at E address k. -/
def elemBytes (m : EleCmd Nat) (k : Nat) (fmt : StoreFmt) (p : Nat) : Nat × Nat :=
  let (o, w) := elemSpan fmt (p % 32)
  (m.e.getD k 0 + p / 32 * m.pitch.getD k 0 + o / 8, (o % 8 + w + 7) / 8)

/-- E addresses that an operation uses, each with the bytes its active elements touch (elements, and scale bytes in block
form). -/
def opSpans (m : EleCmd Nat) (active : List Nat) : EleOp → List (Nat × List (Nat × Nat))
  | .ld _ _ e fmt se => spans e fmt se
  | .st _ e fmt se => spans e fmt se
  | _ => []
where
  spans (e : Fin 4) (fmt : StoreFmt) (se : Fin 4) : List (Nat × List (Nat × Nat)) :=
    (e.val, active.map (elemBytes m e fmt)) ::
      (if isBlock fmt then
        [(se.val, (active.map (fun p => p / 32)).dedup.map (fun i => (m.e.getD se 0 + i * m.pitch.getD se 0, 1)))] else [])

/-- Passes of an operation (Table 7-3). -/
def opPasses : EleOp → Nat
  | .fbin .div _ _ _ _ => 4
  | .fun1 .abs _ _ _ => 1
  | .fun1 .neg _ _ _ => 1
  | .fun1 _ _ _ _ => 4
  | .act _ _ _ _ => 4
  | .movt _ _ _ => 2
  | .reduce _ _ _ _ _ => 2
  | .undef _ => 0
  | _ => 1

/-! ## Arithmetic (Table 7-3) -/

/-- Quotient rounded once; what a division by zero or of two infinities gives is not stated (log entry 7). -/
def divBits (f : FloatFmt) (a b : Nat) : Nat :=
  match decodeNum f a, decodeNum f b with
  | .nan, _ => fmtNan f
  | _, .nan => fmtNan f
  | .inf s, .fin t n _ => if n = 0 then Config.divCorner 0 a b % 2 ^ 32 else withSign f (s != t) (fmtInf f)
  | .inf _, .inf _ => Config.divCorner 0 a b % 2 ^ 32
  | .fin s _ _, .inf t => withSign f (s != t) 0
  | .fin s m e, .fin t n g =>
    if n = 0 then Config.divCorner 0 a b % 2 ^ 32 else encodeNum f false .nearest (numQuot (.fin s m e) (.fin t n g))

/-- Square root rounded once; the root of a negative value is not stated (log entry 7). -/
def sqrtBits (f : FloatFmt) (a : Nat) : Nat :=
  match decodeNum f a with
  | .nan => fmtNan f
  | .inf s => if s then Config.divCorner 1 a 0 % 2 ^ 32 else fmtInf f
  | .fin s m e =>
    if s && m != 0 then Config.divCorner 1 a 0 % 2 ^ 32 else encodeNum f false .nearest (numRoot (.fin s m e))

/-- A two-source floating operation. -/
def fbinBits (op : FBin) (f : FloatFmt) (a b : Nat) : Nat :=
  let x := decodeNum f a
  let y := decodeNum f b
  match op with
  | .add => encodeNum f false .nearest (numAdd x y)
  | .sub => encodeNum f false .nearest (numSub x y)
  | .mul => encodeNum f false .nearest (numMul x y)
  | .min => encodeNum f false .nearest (numMin x y)
  | .max => encodeNum f false .nearest (numMax x y)
  | .div => divBits f a b
  | .copysign =>
    match x with
    | .nan => fmtNan f
    | _ => a % 2 ^ 31 + b / 2 ^ 31 % 2 * 2 ^ 31

/-- A one-source floating operation. RCP and RSQRT are within 1 unit in the last place of their exact value; the values of
EXP, EXP2, LOG and LOG2, and of RCP and RSQRT where no exact value exists, are free (log entry 8). -/
def funBits (op : FUn) (f : FloatFmt) (a : Nat) : Nat :=
  let x := decodeNum f a
  let corner := Config.funCorner (unCode op) (if f = .w32 then 0 else 1) a % 2 ^ 32
  match op with
  | .abs => if numIsNan x then fmtNan f else a % 2 ^ 31
  | .neg => if numIsNan x then fmtNan f else (a % 2 ^ 32 + 2 ^ 31) % 2 ^ 32
  | .sqrt => sqrtBits f a
  | .rcp =>
    match x with
    | .nan => fmtNan f
    | .inf s => withSign f s 0
    | .fin _ m _ => if m = 0 then corner else ulpResult f 1 (unCode op) a (numQuot (.fin false 1 0) x)
  | .rsqrt =>
    match x with
    | .nan => fmtNan f
    | .inf s => if s then corner else 0
    | .fin s m _ => if m = 0 || s then corner else ulpResult f 1 (unCode op) a (numQuot (.fin false 1 0) (numRoot x))
  | _ => if numIsNan x then fmtNan f else corner

/-- A compare. -/
def cmpBits (r : CmpRel) (ty : EType) (a b : Nat) : Nat :=
  let yes := match ty with
    | .i32 =>
      match r with
      | .eq => decide (i32Of a = i32Of b) | .ne => decide (i32Of a ≠ i32Of b)
      | .lt => decide (i32Of a < i32Of b) | .le => decide (i32Of a ≤ i32Of b)
    | t =>
      let x := decodeNum (typeFmt t) a
      let y := decodeNum (typeFmt t) b
      match r with
      | .eq => numEq x y | .ne => !numEq x y | .lt => numLt x y | .le => numLt x y || numEq x y
  if yes then 1 else 0

/-- An integer operation, modulo 2^32; shift counts mod 32. -/
def ibinBits (op : IBin) (a b : Nat) : Nat :=
  let x : BitVec 32 := BitVec.ofNat 32 a
  let y : BitVec 32 := BitVec.ofNat 32 b
  (match op with
  | .add => x + y | .sub => x - y | .mul => x * y | .and => x &&& y | .or => x ||| y | .xor => x ^^^ y
  | .shl => x <<< (b % 32) | .shr => x >>> (b % 32) | .sar => x.sshiftRight (b % 32)).toNat

/-- CVT: float to I32 to nearest even, saturating, NaN gives 0; the others one rounding. -/
def cvtBits (src dst : EType) (a : Nat) : Nat :=
  match src, dst with
  | .i32, .i32 => a % 2 ^ 32
  | .i32, t => encodeNum (typeFmt t) false .nearest (numOfInt (i32Of a) 0)
  | s, .i32 =>
    (match decodeNum (typeFmt s) a with
    | .nan => 0
    | .inf n => i32Bits (if n then -(2 ^ 31) else 2 ^ 31 - 1)
    | .fin n m e =>
      let i : Int := if n then -(m : Int) else m
      let v := if 0 ≤ e then i * ((2 ^ (min e 64).toNat : Nat) : Int) else roundHalfEven i (-e).toNat
      i32Bits (min (max v (-(2 ^ 31))) (2 ^ 31 - 1)))
  | s, t => encodeNum (typeFmt t) false .nearest (decodeNum (typeFmt s) a)

/-! ## Reductions (R126) -/

/-- A reduction of one line of 32 elements: bits of each element, and whether it takes part. -/
def reduceLine (f : RedFn) (ty : EType) (line : List (Nat × Bool)) : Nat :=
  let fm := typeFmt ty
  let vals := (line.filter (fun p => p.2)).map (fun p => decodeNum fm p.1)
  let some_nan := vals.any numIsNan
  match f with
  | .sum => encodeNum fm false .nearest
      (pairTree (fun a b => roundTo fm (numAdd a b)) (.fin false 0 0) 5
        (line.map (fun p => if p.2 then decodeNum fm p.1 else .fin false 0 0)))
  | .max => if some_nan then fmtNan fm else encodeNum fm false .nearest (vals.foldl numMax (.inf true))
  | .min => if some_nan then fmtNan fm else encodeNum fm false .nearest (vals.foldl numMin (.inf false))
  | .amax => if some_nan then fmtNan fm else
      encodeNum fm false .nearest (vals.foldl (fun a b => numMax a (numAbs b)) (.fin false 0 0))
  | .isum => (line.foldl (fun n p => if p.2 then n + p.1 else n) 0) % 2 ^ 32
  | .count => (line.filter (fun p => p.2 && bitsNonzero ty p.1)).length

/-! ## Loads and stores -/

/-- The bytes of a scratchpad that a list of spans covers. -/
def spanBytes (spans : List (Nat × Nat)) : List Nat := spans.flatMap (fun s => (List.range s.2).map (fun i => s.1 + i))

/-- Poison marks after a store that has written some bytes of a scratchpad (R147): clean data clears the granules it covers
whole, poisoned data marks every granule it touches. -/
def settleGranules (d : Dev) (c : Nat) (bytes : List Nat) (bad : Bool) : Dev :=
  let touched := (bytes.map (fun b => b / 64)).dedup
  touched.foldl (fun d g =>
    let a := spAddr c (64 * g) / 64
    if bad then setGran d a true
    else if (List.range 64).all (fun i => bytes.contains (64 * g + i)) then setGran d a false else d) d

/-- Bits written without touching poison marks. -/
def putBits (d : Dev) (a o w v : Nat) : Dev :=
  let n := (o % 8 + w + 7) / 8
  let old := rdNat d (a + o / 8) n
  wrBytes d (a + o / 8) (leBytes n (old - old / 2 ^ (o % 8) % 2 ^ w * 2 ^ (o % 8) + v % 2 ^ w * 2 ^ (o % 8)))

/-- An element of register bits as a value. -/
def regNum (ty : EType) (w : Nat) : Num := decodeNum (typeFmt ty) w

/-- What a run of a program carries: the device, whether poison was read, whether a NaN was lost, the bytes stored. -/
structure EleFlow where
  d     : Dev
  bad   : Bool
  lost  : Bool
  wrote : List Nat
  deriving DecidableEq, Repr

/-- Rounding of a store through E address k (R125). -/
def stMode (d : Dev) (c : Nat) (m : EleCmd Nat) (k p : Nat) : Rnd :=
  if m.stoch.getD k false then .stoch (eleDraw d c m (linIndex m p)) else .nearest

/-- A store that has changed bytes of the scratchpad which a matrix command reads is taken back there and held (R64): `d0`
is the device before it. -/
def holdBack (d0 d1 : Dev) (c : Nat) (spans : List (Nat × Nat)) : Dev :=
  let x := getCell d0 c
  (spans.flatMap (fun s => (cutAt 64 (spAddr c s.1) s.2).map (fun p => (spAddr c s.1 + p.1, p.2)))).foldl (fun d p =>
    if heldBy x c p.1 p.2 then
      let new := rdBytes d1 p.1 p.2
      let d := setGran (wrBytes d p.1 (rdBytes d0 p.1 p.2)) (p.1 / 64) (granBad d0 (p.1 / 64))
      modCell d c (fun x => { x with held := x.held ++ [{ addr := p.1, bytes := new, poison := false, who := .engine }] })
    else d) d1

/-- The poison of a command's outputs: marks where they have been written, and on its writes that are held. -/
def poisonOutputs (d : Dev) (c : Nat) (bytes : List Nat) : Dev :=
  let x := getCell d c
  let mine := fun (h : HeldWrite) => decide (h.who = .engine) && bytes.any (fun b =>
    decide (h.addr ≤ spAddr c b ∧ spAddr c b < h.addr + h.bytes.length))
  let free := bytes.filter (fun b => !x.held.any (fun h => decide (h.who = .engine) &&
    decide (h.addr ≤ spAddr c b ∧ spAddr c b < h.addr + h.bytes.length)))
  settleGranules (setCell d c { x with held := x.held.map (fun h => if mine h then { h with poison := true } else h) })
    c free true

/-- ST (R97, R99, R478). -/
def storeTile (fl : EleFlow) (c : Nat) (m : EleCmd Nat) (active : List Nat) (s : Nat) (e : Nat) (fmt : StoreFmt) (se : Nat) : EleFlow :=
  let x := getCell fl.d c
  let ty := tileType x s
  let base := fun (i : Nat) => spAddr c (m.e.getD e 0 + i * m.pitch.getD e 0)
  let put := fun (d : Dev) (p v : Nat) => putBits d (base (p / 32)) (elemSpan fmt (p % 32)).1 (storeWidth fmt) v
  let spans := active.map (elemBytes m e fmt)
  match fmt with
  | .i32 =>
    { fl with d := holdBack fl.d
                (settleGranules (active.foldl (fun d p => put d p (tileBits x s p)) fl.d) c (spanBytes spans) false) c spans,
              wrote := fl.wrote ++ spanBytes spans }
  | .plain f =>
    let d := active.foldl (fun d p => put d p (encodeNum f false (stMode fl.d c m e p) (regNum ty (tileBits x s p)))) fl.d
    { fl with d := holdBack fl.d (settleGranules d c (spanBytes spans) false) c spans, wrote := fl.wrote ++ spanBytes spans,
              lost := fl.lost || active.any (fun p => nanLost f (regNum ty (tileBits x s p))) }
  | .block f =>
    let rows := (active.map (fun p => p / 32)).dedup
    let d := rows.foldl (fun d i =>
      let vals := (List.range 32).map (fun j =>
        if active.contains (32 * i + j) then regNum ty (tileBits x s (32 * i + j)) else Num.fin false 0 0)
      let (sc, es) := writeBlock f vals (fun j => stMode fl.d c m e (32 * i + j))
      let d := ((active.filter (fun p => p / 32 == i))).foldl (fun d p => put d p (es.getD (p % 32) 0)) d
      wrByte d (spAddr c (m.e.getD se 0 + i * m.pitch.getD se 0)) (BitVec.ofNat 8 sc)) fl.d
    let sspans := rows.map (fun i => (m.e.getD se 0 + i * m.pitch.getD se 0, 1))
    let d := settleGranules (settleGranules d c (spanBytes spans) false) c (spanBytes sspans) false
    { fl with d := holdBack fl.d d c (spans ++ sspans), wrote := fl.wrote ++ spanBytes spans ++ spanBytes sspans }

/-- LD: one element's bits in the operation type. -/
def loadElem (d : Dev) (c : Nat) (m : EleCmd Nat) (ty : EType) (e : Nat) (fmt : StoreFmt) (se p : Nat) : Nat :=
  let a := spAddr c (m.e.getD e 0 + p / 32 * m.pitch.getD e 0)
  let w := rdBits d a (elemSpan fmt (p % 32)).1 (storeWidth fmt)
  match fmt with
  | .i32 => w
  | .plain f => encodeNum (typeFmt ty) false .nearest (decodeNum f w)
  | .block f =>
    encodeNum (typeFmt ty) false .nearest
      (decodeBlockElem f (rdNat d (spAddr c (m.e.getD se 0 + p / 32 * m.pitch.getD se 0)) 1) w)

/-- One operation over every active element (R123). -/
def stepOp (c : Nat) (m : EleCmd Nat) (active : List Nat) (ecc : EccHits) (fl : EleFlow) (o : EleOp) : EleFlow :=
  let x := getCell fl.d c
  let each := fun (n : Nat) (ty : EType) (f : Nat → Nat) =>
    { fl with d := setCell fl.d c (writeTile x n ty (active.map (fun p => (p, f p))) active m.zero) }
  let s := srcBits x m
  match o with
  | .ld ty n e fmt se =>
    let spans := (opSpans m active o).flatMap (fun q => q.2)
    let d := spans.foldl (fun d q => eccRead d ecc (spAddr c q.1) q.2) fl.d
    let bad := spans.any (fun q => isPoison d (spAddr c q.1) q.2)
    { fl with d := setCell d c (writeTile (getCell d c) n ty (active.map (fun p => (p, loadElem d c m ty e fmt se p))) active m.zero),
              bad := fl.bad || bad }
  | .st r e fmt se => storeTile fl c m active r e fmt se
  | .fbin op ty n a b => each n ty (fun p => fbinBits op (typeFmt ty) (s p a) (s p b))
  | .fma ty n a b k => each n ty (fun p => encodeNum (typeFmt ty) false .nearest
      (numAdd (numMul (regNum ty (s p a)) (regNum ty (s p b))) (regNum ty (s p k))))
  | .fun1 op ty n a => each n ty (fun p => funBits op (typeFmt ty) (s p a))
  | .act code n a k => each n .w32 (fun p => activate code (m.k.getD k 0 % 2 ^ 32) (s p a))
  | .cmp r ty n a b => each n .i32 (fun p => cmpBits r ty (s p a) (s p b))
  | .select ty n k a b => each n ty (fun p => if s p k % 2 ^ 32 = 0 then s p b else s p a)
  | .ibin op n a b => each n .i32 (fun p => ibinBits op (s p a) (s p b))
  | .inot n a => each n .i32 (fun p => 2 ^ 32 - 1 - s p a % 2 ^ 32)
  | .cvt src dst n a => each n dst (fun p => cvtBits src dst (s p a))
  | .rand n => each n .i32 (fun p => eleDraw fl.d c m (linIndex m p))
  | .movt ty n r => each n ty (fun p => tileBits x r (p % 32 * 32 + p / 32))
  | .reduce f axisJ ty n r =>
    let line := fun (k : Nat) => (List.range 32).map (fun i =>
      let p := if axisJ then 32 * k + i else 32 * i + k
      (tileBits x r p, active.contains p))
    let dest := (List.range 32).map (fun k => if axisJ then 32 * k else k)
    let vals := (List.range 32).filterMap (fun k =>
      let p := if axisJ then 32 * k else k
      if active.contains p then some (p, reduceLine f ty (line k)) else none)
    let zeroed := (dest.filter (fun p => m.zero && !active.contains p)).map (fun p => (p, 0))
    let nty := match f with | .count => EType.i32 | _ => ty
    { fl with d := setCell fl.d c (writeTile x n nty (vals ++ zeroed) active false) }
  | .undef _ => fl

end Sys2Proof.Machine
end

