-- ==== Sys2Proof/Machine/ElementFixed.lean ====
section
/-! DEFINITION. The fixed operations of the element engine (R105 to R118, R134, R135): PRESS, UPDATE, RESEAT, CONVERT. -/
namespace Sys2Proof.Machine

/-- Bytes of the scale array of n elements. -/
def scaleBytes (n : Nat) : Nat := (n + 31) / 32

/-- The values of an array of n elements at scratchpad offset o, with its scale array at so. -/
def arrayNums (d : Dev) (c o so : Nat) (f : StoreFmt) (n : Nat) : List Num :=
  (List.range n).map (fun i => rdNum d (spAddr c o) (spAddr c so) f i)

/-- Rounding of output element i of an array (R113). -/
def arrMode (d : Dev) (c : Nat) (m : EleCmd Nat) (on : Bool) (i : Nat) : Rnd :=
  if on then .stoch (eleDraw d c m (m.elemOff + i)) else .nearest

/-! ## Press records (R105 to R107, R134) -/

/-- A press record (Table 6-2); TMAX is a W32 encoding. -/
structure PressRec where
  tmax   : Nat
  nonfin : Nat
  tscale : Int
  flags  : Nat
  nblk   : Nat
  count  : Nat
  tensor : Nat
  deriving DecidableEq, Repr

/-- The record's 64 header bytes. -/
def pressBytes (r : PressRec) : List Byte :=
  leBytes 4 r.tmax ++ leBytes 4 r.nonfin ++ leBytes 2 (ofSigned 16 r.tscale) ++ leBytes 2 r.flags ++ leBytes 4 r.nblk ++
    leBytes 8 r.count ++ leBytes 2 r.tensor ++ leBytes 38 0

/-- A record read back. -/
def readPress (d : Dev) (a : Nat) : PressRec :=
  { tmax := rdNat d a 4, nonfin := rdNat d (a + 4) 4, tscale := toSigned 16 (rdNat d (a + 8) 2),
    flags := rdNat d (a + 10) 2, nblk := rdNat d (a + 12) 4, count := rdNat d (a + 16) 8, tensor := rdNat d (a + 24) 2 }

/-- TSCALE of R106 for a TMAX. -/
def pressScale (tmax : Nat) (fmt : FloatFmt) (h : Nat) : Int :=
  match decodeNum .w32 tmax with
  | .fin s m e =>
    if m = 0 then 0 else min (max (numFloorLog2 (.fin s m e) - fmtEmax fmt + h) (-127)) 127
  | _ => 127

/-- FLAGS[2:0] and the count of non-finite elements of some values. -/
def pressFlags (xs : List Num) : Nat :=
  (if xs.any numIsNan then 1 else 0) + (if xs.contains (.inf false) then 2 else 0) + (if xs.contains (.inf true) then 4 else 0)

/-- The record of one pass over some values (R106). -/
def pressOf (m : EleCmd Nat) (xs : List Num) : PressRec :=
  let tmax := encodeNum .w32 false .up (numMaxFinite xs)
  { tmax := tmax, nonfin := min (xs.filter (fun x => !numIsFin x)).length (2 ^ 32 - 1),
    tscale := pressScale tmax m.target m.headroom, flags := pressFlags xs + (if m.bexp then 8 else 0),
    nblk := scaleBytes m.count, count := m.count, tensor := m.tensor }

/-- A record merged into the one already there (R134). -/
def pressMerge (m : EleCmd Nat) (old new : PressRec) : PressRec :=
  let bigger := if numLt (decodeNum .w32 old.tmax) (decodeNum .w32 new.tmax) || numIsNan (decodeNum .w32 new.tmax) then new.tmax
    else old.tmax
  let b3 := if m.bexp && old.flags.testBit 3 then 8 else 0
  { tmax := bigger, nonfin := min (old.nonfin + new.nonfin) (2 ^ 32 - 1), tscale := pressScale bigger m.target m.headroom,
    flags := ((old.flags % 8).lor (new.flags % 8)) + b3 + (if old.flags.testBit 4 then 16 else 0),
    nblk := max old.nblk (m.elemOff / 32 + new.nblk), count := min (old.count + new.count) (2 ^ 64 - 1), tensor := m.tensor }

/-- PRESS. -/
def doPress (d : Dev) (c : Nat) (m : EleCmd Nat) (bad : Bool) : Dev :=
  let xs := arrayNums d c (m.e.getD 0 0) (m.e.getD 2 0) m.src m.count
  let rec_ := pressOf m xs
  let a := spAddr c (m.e.getD 1 0)
  let out := if m.merge then pressMerge m (readPress d a) rec_ else rec_
  let bexp := (blocksOf 32 xs).map (fun b => BitVec.ofNat 8 (bexpOf b))
  let d := store d a (pressBytes out) bad
  if m.bexp then store d (a + 64 + (if m.merge then m.elemOff / 32 else 0)) bexp bad else d

/-- A derived record (R107). A source record whose TMAX is zero has no floor(log2): the derived TMAX is then a free value
(log entry 9). -/
def derivedRec (m : EleCmd Nat) (src : PressRec) (t : Int) (free : Nat) : PressRec :=
  let fmt := (storeElem m.dst).getD .e4m3
  let raw : Nat := match decodeNum .w32 src.tmax with
    | .fin s k e =>
      if k = 0 then free % 2 ^ 32 else encodeNum .w32 false .up (.fin false 1 (numFloorLog2 (.fin s k e) + 1 - t))
    | _ => fmtInf .w32
  let top := encodeNum .w32 false .nearest (decodeNum fmt (fmtMax fmt))
  let tmax := if isBlock m.dst then raw
    else if numLt (decodeNum .w32 top) (decodeNum .w32 raw) then top else raw
  { tmax := tmax, nonfin := src.nonfin, tscale := t, flags := src.flags % 8 + 16, nblk := scaleBytes m.count,
    count := m.count, tensor := m.tensor }

/-- Whether a format is narrow (R107). -/
def isNarrow (f : StoreFmt) : Bool :=
  match storeElem f with
  | some .e2m1 | some .e2m3 | some .e3m2 | some .e4m3 | some .e5m2 => true
  | _ => false

/-- CONVERT (Table 5-5, R107). The result says whether a NaN was lost. -/
def doConvert (d : Dev) (c : Nat) (m : EleCmd Nat) (bad : Bool) : Dev × Bool :=
  let xs := arrayNums d c (m.e.getD 0 0) (m.e.getD 2 0) m.src m.count
  let src := m.recIn.map (fun a => readPress d (spAddr c a))
  let t : Int := match src with | some r => if m.scaleIt then r.tscale else 0 | none => 0
  let ys := xs.map (fun x => numScale x (-t))
  let d1 := wrNums d (spAddr c (m.e.getD 1 0)) (spAddr c (m.e.getD 3 0)) m.dst ys (arrMode d c m (m.stoch.getD 0 false)) bad
  let d2 := match m.recOut, src with
    | some o, some r =>
      let (k, d1) := takeFree d1
      store d1 (spAddr c o) (pressBytes (derivedRec m r t (Config.free k))) bad
    | _, _ => d1
  (d2, losesNan m.dst ys)

/-- RESEAT (R115): masters to working copies; MW48 masters in native mode, FP32 in L6 mode. -/
def doReseat (d : Dev) (c : Nat) (m : EleCmd Nat) (bad : Bool) : Dev × Bool :=
  let f : StoreFmt := .plain (if (getCell d c).short then .fp32 else .mw48)
  let xs := arrayNums d c (m.e.getD 0 0) 0 f m.count
  (wrNums d (spAddr c (m.e.getD 1 0)) (spAddr c (m.e.getD 3 0)) m.dst xs (arrMode d c m (m.stoch.getD 0 false)) bad,
    losesNan m.dst xs)

/-! ## The update operation (Tables 6-3 and 6-4) -/

/-- Arrays of UPDATE, in the order of `EleCmd.arrays`. -/
inductive UpdArr where
  | g | w | m | ms | r | rs | x | xs | w1 | m1 | ms1 | r1 | rs1 | x1 | xs1
  deriving DecidableEq, Repr

/-- Position of an array in the list. -/
def updIndex : UpdArr → Nat
  | .g => 0 | .w => 1 | .m => 2 | .ms => 3 | .r => 4 | .rs => 5 | .x => 6 | .xs => 7 | .w1 => 8 | .m1 => 9 | .ms1 => 10
  | .r1 => 11 | .rs1 => 12 | .x1 => 13 | .xs1 => 14

/-- Scratchpad offset of an array of an UPDATE. -/
def updAddr (m : EleCmd Nat) (a : UpdArr) : Nat := m.arrays.getD (updIndex a) 0

/-- Quotient of two values rounded to a format, by its encodings (step 6). -/
def quotTo (f : FloatFmt) (x y : Num) : Num :=
  decodeNum f (divBits f (encodeNum f false .nearest x) (encodeNum f false .nearest y))

/-- The exact root of step 5; a negative value has none (log entry 7). -/
def rootOf (f : FloatFmt) (v : Num) : Num :=
  match v with
  | .fin s k _ => if s && k != 0 then decodeNum f (sqrtBits f (encodeNum f false .nearest v)) else numRoot v
  | .inf true => decodeNum f (sqrtBits f (encodeNum f false .nearest v))
  | y => y

/-- What one parameter of an update gives: new master, new first moment, root of the second, second moment, and δ. -/
structure UpdOut where
  w1 : Num
  m1 : Num
  q  : Num
  v1 : Num
  dl : Num
  deriving DecidableEq, Repr

/-- Steps 1 to 9 of Table 6-3 with every rounding to `f` (W32 natively, FP32 in L6 mode) and the master rounded to `mf`. -/
def updStep (f mf : FloatFmt) (k : Nat → Num) (g w m0 v0 : Num) (l6 : Bool) : UpdOut :=
  let r := roundTo f
  let m1 := r (numAdd (r (numMul (k 0) m0)) (r (numMul (k 1) g)))
  let v1 := r (numAdd (r (numMul (k 2) v0)) (r (numMul (k 3) (r (numMul g g)))))
  let q0 := rootOf f v1
  let q := if l6 then r q0 else q0
  let dd := quotTo f m1 (r (numAdd (r q) (k 4)))
  let u := r (numAdd dd (r (numMul (k 5) (r w))))
  let dl := r (numMul (k 6) u)
  { w1 := roundTo mf (numSub w dl), m1 := m1, q := q, v1 := v1, dl := dl }

/-- UPDATE over COUNT parameters. The result says whether a NaN was lost from a plain working copy. -/
def doUpdate (d : Dev) (c : Nat) (m : EleCmd Nat) (bad : Bool) : Dev × Bool :=
  let l6 := (getCell d c).short
  let f : FloatFmt := if l6 then .fp32 else .w32
  let mf : FloatFmt := if l6 then .fp32 else .mw48
  let at_ := updAddr m
  let k := fun i => decodeNum .w32 (m.k.getD i 0 % 2 ^ 32)
  let nums := fun (a s : UpdArr) (fm : StoreFmt) => arrayNums d c (at_ a) (at_ s) fm m.count
  let g := nums .g .g (.plain .w32)
  let w := nums .w .w (.plain mf)
  let m0 := if l6 then nums .m .m (.plain .fp32) else nums .m .ms (.block .e4m3)
  let v0 := if l6 then nums .r .r (.plain .fp32) else (nums .r .rs (.block .e4m4)).map (fun r => numMul r r)
  let z : Num := .fin false 0 0
  let outs := (List.range m.count).map (fun i => updStep f mf k (g.getD i z) (w.getD i z) (m0.getD i z) (v0.getD i z) l6)
  let mode := fun (n : Nat) => arrMode d c m (m.stoch.getD n false)
  let x0 := nums .x .xs m.dst
  let ys := if l6 then (List.range m.count).map (fun i => numSub (x0.getD i z) ((outs.map (fun o => o.dl)).getD i z))
    else outs.map (fun o => o.w1)
  let put := fun (d : Dev) (a s : UpdArr) (fm : StoreFmt) (xs : List Num) (md : Nat → Rnd) =>
    wrNums d (spAddr c (at_ a)) (spAddr c (at_ s)) fm xs md bad
  let d1 := put d .w1 .w1 (.plain mf) (outs.map (fun o => o.w1)) (fun _ => .nearest)
  let d2 := if l6 then put d1 .m1 .m1 (.plain .fp32) (outs.map (fun o => o.m1)) (fun _ => .nearest)
    else put d1 .m1 .ms1 (.block .e4m3) (outs.map (fun o => o.m1)) (mode 0)
  let d3 := if l6 then put d2 .r1 .r1 (.plain .fp32) (outs.map (fun o => o.v1)) (fun _ => .nearest)
    else put d2 .r1 .rs1 (.block .e4m4) (outs.map (fun o => o.q)) (mode 1)
  (put d3 .x1 .xs1 m.dst ys (mode 2), losesNan m.dst ys)

/-! ## Ranges and checks of the fixed operations (R98, R135, Table 7-6) -/

/-- A range of a fixed operation: offset, bytes, and the number of the array it belongs to (an output shares the number of its
own input). -/
structure ArrRange where
  off : Nat
  len : Nat
  id  : Nat
  out : Bool
  deriving DecidableEq, Repr

/-- An array with its scale array. -/
def arrPair (o so : Nat) (f : StoreFmt) (n id : Nat) (out : Bool) : List ArrRange :=
  ⟨o, storeBytes f (if isBlock f && out then 32 * scaleBytes n else n), id, out⟩ ::
    (if isBlock f then [⟨so, scaleBytes n, id + 100, out⟩] else [])

/-- Every array of a fixed operation. -/
def fixedRanges (short : Bool) (m : EleCmd Nat) : List ArrRange :=
  let e := fun k => m.e.getD k 0
  let n := m.count
  match m.kind with
  | .press =>
    arrPair (e 0) (e 2) m.src n 1 false ++ [⟨e 1, 64, 2, true⟩] ++
      (if m.bexp then [⟨e 1 + 64, (if m.merge then m.elemOff / 32 else 0) + scaleBytes n, 3, true⟩] else [])
  | .convert =>
    arrPair (e 0) (e 2) m.src n 1 false ++ arrPair (e 1) (e 3) m.dst n 1 true ++
      (m.recIn.toList.map (fun a => ⟨a, 64, 5, false⟩)) ++ (m.recOut.toList.map (fun a => ⟨a, 64, 6, true⟩))
  | .reseat => arrPair (e 0) (e 2) (.plain (if short then .fp32 else .mw48)) n 1 false ++ arrPair (e 1) (e 3) m.dst n 1 true
  | .update =>
    let at_ := updAddr m
    let mf : StoreFmt := .plain (if short then .fp32 else .mw48)
    let mm : StoreFmt := if short then .plain .fp32 else .block .e4m3
    let rr : StoreFmt := if short then .plain .fp32 else .block .e4m4
    arrPair (at_ .g) 0 (.plain .w32) n 1 false ++ arrPair (at_ .w) 0 mf n 2 false ++ arrPair (at_ .m) (at_ .ms) mm n 3 false ++
      arrPair (at_ .r) (at_ .rs) rr n 4 false ++ arrPair (at_ .x) (at_ .xs) m.dst n 5 false ++
      arrPair (at_ .w1) 0 mf n 2 true ++ arrPair (at_ .m1) (at_ .ms1) mm n 3 true ++
      arrPair (at_ .r1) (at_ .rs1) rr n 4 true ++ arrPair (at_ .x1) (at_ .xs1) m.dst n 5 true
  | _ => []

/-- Whether two ranges share a byte. -/
def rangesMeet (a b : ArrRange) : Bool :=
  decide (0 < a.len ∧ 0 < b.len ∧ a.off < b.off + b.len ∧ b.off < a.off + a.len)

/-- R135: an output may occupy exactly its own input; any other two arrays may not meet. -/
def overlapOk (rs : List ArrRange) : Bool :=
  rs.zipIdx.all (fun p => rs.zipIdx.all (fun q =>
    decide (q.2 ≤ p.2) || !rangesMeet p.1 q.1 ||
    (p.1.id == q.1.id && p.1.out != q.1.out && p.1.off == q.1.off && p.1.len == q.1.len)))

/-- Formats a fixed operation admits: reason 3 where Table 5-5 has no conversion, 8 where the operation defines none. -/
def fixedFmt (short : Bool) (m : EleCmd Nat) : Nat :=
  let blockOk := fun (f : StoreFmt) => match f with | .block x => fmtHasBlock x | _ => true
  match m.kind with
  | .press =>
    if m.src = .i32 || !blockOk m.src then 8
    else if !fmtHasBlock m.target then 8 else 0
  | .convert =>
    match storeElem m.src, storeElem m.dst with
    | some a, some b =>
      if !convOk a b || !blockOk m.src || !blockOk m.dst then 3
      else if m.recOut.isSome && (!isNarrow m.dst || m.recIn.isNone) then 8 else 0
    | _, _ => 8
  | .reseat | .update =>
    match storeElem m.dst with
    | some b => if !convOk (if short then .fp32 else .mw48) b || !blockOk m.dst then 3 else 0
    | none => 8
  | _ => 0

/-- The reason of Table 7-6 that a fixed operation meets, lowest first; 0 if it is valid. -/
def fixedReason (short : Bool) (m : EleCmd Nat) : Nat :=
  let rs := fixedRanges short m
  let f := fixedFmt short m
  let overlaps := match m.kind with | .press => false | _ => !overlapOk rs
  let offBad := (decide (m.kind = .update) || (decide (m.kind = .press) && m.merge)) && m.elemOff % 32 != 0
  if f = 3 then 3
  else if rs.any (fun r => decide (r.id ≠ 3) && r.off % 64 != 0) then 4
  else if rs.any (fun r => decide (spSize < r.off + r.len)) then 5
  else if overlaps || offBad then 6
  else if decide (m.count < 1 ∨ 2 ^ 18 < m.count) || (decide (m.kind = .press) && decide (7 < m.headroom)) then 7
  else f

/-- Passes of a fixed operation (Table 7-7). -/
def fixedPasses (m : EleCmd Nat) : Nat :=
  let k := (m.count + 1023) / 1024
  match m.kind with
  | .press => k + (if m.bexp then 1 else 0)
  | .update => 24 * k
  | .reseat => 2 * k
  | .convert => 2 * k
  | _ => 0

end Sys2Proof.Machine
end

