-- ==== Sys2Proof/Machine/EleOps.lean ====
section
/-! DEFINITION. The commands of the element engine (R119 to R138): dispatch and its checks, GATHER and its lanes, SCATTER,
summaries and completion. -/
namespace Sys2Proof.Machine

/-! ## Checks at dispatch (R136) -/

/-- Whether an E address is aligned for the arrays a program uses. -/
def progReason (x : Cell) (m : EleCmd Nat) (active : List Nat) (ops : List EleOp) : Nat :=
  let t := progCheck (tileType x) ops
  let spans := ops.flatMap (opSpans m active)
  if t = 2 ∨ t = 3 then t
  else if spans.any (fun s => m.e.getD s.1 0 % 64 != 0) then 4
  else if spans.any (fun s => s.2.any (fun q => decide (spSize < q.1 + q.2))) then 5
  else t

/-- Bytes of one gathered or scattered element. -/
def laneBytes (f : StoreFmt) : Nat := storeWidth f / 8

/-- Whether a format has elements of 1, 2 or 4 B and no block form. -/
def laneFmt (f : StoreFmt) : Bool := !isBlock f && (storeWidth f == 8 || storeWidth f == 16 || storeWidth f == 32)

/-- The reason of Table 7-6 for a command, 0 if it is valid. -/
def eleReason (x : Cell) (m : EleCmd Nat) (active : List Nat) : Nat :=
  let limits := decide (32 < m.rowLim ∨ 32 < m.colLim)
  match m.kind with
  | .program =>
    match smGet (fun _ => ProgSlot.empty) x.progs m.prog.val with
    | .empty => 1
    | .ops ops =>
      let r := progReason x m active ops
      if r ≠ 0 ∧ r < 7 then r else if limits then 7 else if ops.length < 1 ∨ 64 < ops.length then 8 else r
  | .gather =>
    if tileType x m.idx ≠ .i32 then 2
    else if laneFmt m.src && !ldOk m.src m.ty then 3
    else if limits then 7 else if !laneFmt m.src then 8 else 0
  | .scatter =>
    let plain := decide (m.dst = .i32 ∨ m.dst = .plain .w32 ∨ m.dst = .plain .fp32)
    if tileType x m.idx ≠ .i32 then 2
    else if laneFmt m.dst && !stOk m.dst (tileType x m.reg) then 3
    else if m.e.getD 0 0 % 64 ≠ 0 then 4
    else if limits then 7 else if !laneFmt m.dst || (decide (m.combine ≠ .none) && !plain) then 8 else 0
  | _ => fixedReason x.short m

/-- R136: an invalid command makes no access, faults its thread and is recorded. -/
def refuseEle (d : Dev) (c : Nat) (e : EleEntry) (reason : Nat) : Dev :=
  let d := fset (fset d (ELE_STATUS_INVALID c) 1) (ELE_STATUS_LAST_INVALID c) reason
  let d := if e.cmd.summary.isSome then modTh d c e.thread (fun th => { th with sumWait := th.sumWait - 1 }) else d
  closeCmd (chargeWith d c e.thread .aborted 0x02 e.cmd.done.tag (0x100 + reason) e.thread 0) c e.thread

/-! ## Running -/

/-- The engine busy with a run. -/
def eleEngage (d : Dev) (c : Nat) (r : EleRun) : Dev :=
  fset (modCell d c (fun x => { x with erun := some r })) (ELE_STATUS_BUSY c) 1

/-- A program over the tile registers (R123). A poisoned load makes every output of the command poisoned (R147). -/
def runProgram (d : Dev) (c : Nat) (ecc : EccHits) (e : EleEntry) (active : List Nat) (ops : List EleOp) : Dev :=
  let fl := ops.foldl (stepOp c e.cmd active ecc) { d := d, bad := false, lost := false, wrote := [] }
  let d := if fl.bad then poisonOutputs fl.d c fl.wrote else fl.d
  eleEngage d c { entry := e, status := if fl.bad || fl.lost then .poisoned else .ok,
                  passes := (ops.map opPasses).sum, active := active, lanes := [] }

/-- A fixed operation. -/
def runFixed (d : Dev) (c : Nat) (ecc : EccHits) (e : EleEntry) : Dev :=
  let m := e.cmd
  let reads := ((fixedRanges (getCell d c).short m).filter (fun r => !r.out)).map (fun r => (r.off, r.len)) ++
    (if m.kind = .press && m.merge then [(m.e.getD 1 0, 64)] else [])
  let d := rangesEcc d c ecc reads
  let bad := rangesBad d c reads
  let (d, lost) := match m.kind with
    | .press => (doPress d c m bad, false)
    | .convert => doConvert d c m bad
    | .reseat => doReseat d c m bad
    | _ => doUpdate d c m bad
  eleEngage d c { entry := e, status := if bad || lost then .poisoned else .ok, passes := fixedPasses m, active := [], lanes := [] }

/-- The address of a GATHER lane: G + index × stride, modulo 2^64 (R129). -/
def laneAddr (x : Cell) (m : EleCmd Nat) (p : Nat) : Nat :=
  ofSigned 64 ((m.gBase : Int) + i32Of (tileBits x m.idx p) * i32Of (m.k.getD m.strideK 0))

/-- GATHER: one request per active lane; a refused translation completes its lane at once (R129, R186). -/
def runGather (d : Dev) (c : CellId) (e : EleEntry) (active : List Nat) : Dev :=
  let m := e.cmd
  let x := getCell d c
  let n := laneBytes m.src
  let d := modCell d c (fun x => writeTile x m.reg m.ty [] active m.zero)
  let d := fcount d (ELE_GATHER_LANES c) active.length
  let (d, lanes) := active.foldl (fun (d, ls) p =>
    let a := laneAddr x m p
    let d := countWalk d
    match checkRange d .gather a n with
    | some (q, cause, level) => (recordRefusal d q cause level 2 m.done.tag c, ls ++ [(p, LoadState.failed .xltFault)])
    | none =>
      let parts := cutAt 128 a n
      let d := parts.foldl (fun d k =>
        match translate d .gather (a + k.1) with
        | .refused _ _ => d
        | .ok l =>
          { d with far := { d.far with queue := d.far.queue ++
              [{ kind := .gather, cell := c, thread := e.thread, id := p, dst := k.1, node := l.node, addr := l.addr, bytes := k.2,
                 data := 0, page := l.page, psize := l.size, cache := l.attr.cache, pf := l.attr.pf }] } }) d
      (d, ls ++ [(p, LoadState.waiting parts.length 0 .ok)]))
    (d, ([] : List (Nat × LoadState)))
  eleEngage d c { entry := e, status := .ok, passes := 0, active := active, lanes := lanes }

/-- One SCATTER lane's combine with the stored element (R130). -/
def combineBits (m : EleCmd Nat) (old new : Nat) : Nat :=
  match m.dst with
  | .i32 =>
    match m.combine with
    | .none => new
    | .add => (old + new) % 2 ^ 32
    | .max => if i32Of old < i32Of new then new else old
    | .min => if i32Of new < i32Of old then new else old
  | .plain f | .block f =>
    let a := decodeNum f old
    let b := decodeNum f new
    match m.combine with
    | .none => new
    | .add => encodeNum f false .nearest (numAdd a b)
    | .max => encodeNum f false .nearest (numMax a b)
    | .min => encodeNum f false .nearest (numMin a b)

/-- SCATTER (R130): lanes in ascending linear index; an index outside the scratchpad writes nothing and gives XLT_FAULT. -/
def runScatter (d : Dev) (c : Nat) (ecc : EccHits) (e : EleEntry) (active : List Nat) : Dev :=
  let m := e.cmd
  let x := getCell d c
  let n := laneBytes m.dst
  let off := fun (p : Nat) => ((m.e.getD 0 0 : Nat) : Int) + i32Of (tileBits x m.idx p) * (n : Int)
  let passes := (active.length + 127) / 128
  if active.any (fun p => decide (off p < 0 ∨ (spSize : Int) < off p + n)) then
    eleEngage d c { entry := e, status := .xltFault, passes := passes, active := active, lanes := [] }
  else
    let spans := active.map (fun p => ((off p).toNat, n))
    let d := if m.combine = .none then d else rangesEcc d c ecc spans
    let bad := decide (m.combine ≠ .none) && rangesBad d c spans
    let ty := tileType x m.reg
    let lost := active.any (fun p => match m.dst with | .plain f => nanLost f (regNum ty (tileBits x m.reg p)) | _ => false)
    let d0 := d
    let d := active.foldl (fun d p =>
      let a := spAddr c (off p).toNat
      let w := tileBits x m.reg p
      let new := match m.dst with
        | .i32 => w
        | .plain f => encodeNum f false (if m.stoch.getD 0 false then .stoch (eleDraw d c m (linIndex m p)) else .nearest) (regNum ty w)
        | .block _ => w
      wrBytes d a (leBytes n (combineBits m (rdNat d a n) new))) d
    let d := holdBack d0 (settleGranules d c (spanBytes spans) false) c spans.dedup
    let d := if bad then poisonOutputs d c (spanBytes spans) else d
    eleEngage d c { entry := e, status := if bad || lost then .poisoned else .ok, passes := passes, active := active, lanes := [] }

/-- Dispatch of the cell's next element command, if it is of the named kind and the engine is idle (R48, R49). -/
def eleDispatch (d : Dev) (c : CellId) (ecc : EccHits) (kind : EleKind) : Dev :=
  if !cellRuns d c then d else
  let x := getCell d c
  match x.erun, x.eq with
  | none, e :: rest =>
    if e.cmd.kind ≠ kind then d else
    let d := modCell d c (fun x => { x with eq := rest })
    let progErr := decide (kind = .program) && smGet (fun _ => false) x.progBad e.cmd.prog.val
    if progErr then
      let d := if e.cmd.summary.isSome then modTh d c e.thread (fun th => { th with sumWait := th.sumWait - 1 }) else d
      closeCmd (chargeFault d c e.thread .poisoned e.cmd.done.tag) c e.thread
    else
    let active := activeOf x e.cmd
    let reason := eleReason x e.cmd active
    if reason ≠ 0 then refuseEle d c e reason else
    match kind with
    | .program =>
      match smGet (fun _ => ProgSlot.empty) x.progs e.cmd.prog.val with
      | .ops ops => runProgram d c ecc e active ops
      | .empty => d
    | .gather => runGather d c e active
    | .scatter => runScatter d c ecc e active
    | _ => runFixed d c ecc e
  | _, _ => d

/-! ## GATHER lanes (R129) -/

/-- A status that fails a lane ranks by R129: XLT_FAULT, RETIRED_RESOURCE, POISONED; NOT_READY, which the rule does not
name, comes last (log entry 10). -/
def laneRank : Status → Nat
  | .xltFault => 4 | .retiredResource => 3 | .poisoned => 2 | .ok => 0 | _ => 1

/-- The worse of two lane statuses. -/
def laneWorse (a b : Status) : Status := if laneRank a < laneRank b then b else a

/-- GATHER_LANE_RETURN: a lane whose result has come writes its element. -/
def gatherLaneReturn (d : Dev) (c : CellId) (lane : Nat) : Dev :=
  let x := getCell d c
  match x.erun with
  | none => d
  | some r =>
    match r.lanes.find? (fun l => l.1 == lane) with
    | none => d
    | some (p, st) =>
      let m := r.entry.cmd
      let rest := r.lanes.filter (fun l => l.1 != lane)
      let put := fun (d : Dev) (v : Nat) (s : Status) => modCell d c (fun x =>
        { writeTile x m.reg m.ty [(p, v)] r.active false with
          erun := some { r with lanes := rest, status := laneWorse r.status s } })
      match st with
      | .waiting _ _ _ => d
      | .ready w =>
        let v := match m.src with
          | .plain f => encodeNum (typeFmt m.ty) false .nearest (decodeNum f w)
          | _ => w
        put d v .ok
      | .failed s =>
        let v := match m.ty with | .i32 => 0x80000000 | t => fmtNan (typeFmt t)
        put (fcount d (ELE_GATHER_FAULT_LANES c) 1) v s

/-! ## Summaries (R131 to R133) -/

/-- MW48 bits as a summary register. -/
def mw48Word (x : Num) : Word := BitVec.ofNat 64 (encodeNum .mw48 false .nearest x * 2 ^ 16)

/-- Sum of positions 0 to 1,023 in MW48, pairwise (R131). -/
def mwSum (xs : List Num) : Num := pairTree (fun a b => roundTo .mw48 (numAdd a b)) (.fin false 0 0) 10 xs

/-- The six registers of one command's source register: SMAX, SMIN, SSUM, SNF, SANY, SALL. -/
def summaryOf (x : Cell) (n : Nat) (active : List Nat) : List Word :=
  let ty := tileType x n
  let any := active.any (fun p => bitsNonzero ty (tileBits x n p))
  let all := active.all (fun p => bitsNonzero ty (tileBits x n p))
  match ty with
  | .i32 =>
    let vs := active.map (fun p => i32Of (tileBits x n p))
    [BitVec.ofInt 64 (vs.foldl max (-(2 ^ 63))), BitVec.ofInt 64 (vs.foldl min (2 ^ 63 - 1)), BitVec.ofInt 64 vs.sum, 0,
      flagWord any, flagWord all]
  | t =>
    let num := fun p => decodeNum (typeFmt t) (tileBits x n p)
    let fin := (active.map num).filter numIsFin
    [mw48Word (fin.foldl numMax (.inf true)), mw48Word (fin.foldl numMin (.inf false)),
      mw48Word (mwSum ((List.range 1024).map (fun p => if active.contains p && numIsFin (num p) then num p else .fin false 0 0))),
      BitVec.ofNat 64 ((active.map num).filter (fun v => !numIsFin v)).length, flagWord any, flagWord all]

/-- ACCUMULATE of Table 7-5 for register k, old and new of the same form. -/
def accumulate (isInt : Bool) (k : Nat) (old new : Word) : Word :=
  let f := fun (w : Word) => decodeNum .mw48 (w.toNat / 2 ^ 16)
  if k = 0 then (if isInt then (if old.toInt < new.toInt then new else old) else mw48Word (numMax (f old) (f new)))
  else if k = 1 then (if isInt then (if new.toInt < old.toInt then new else old) else mw48Word (numMin (f old) (f new)))
  else if k = 2 then (if isInt then old + new else mw48Word (numAdd (f old) (f new)))
  else if k = 3 then BitVec.ofNat 64 (min (old.toNat + new.toNat) (2 ^ 64 - 1))
  else if k = 4 then old ||| new
  else old &&& new

/-- A thread's summary registers after a command (R131 to R133). -/
def writeSummary (x : Cell) (t : Nat) (src : Nat) (fresh : Bool) (active : List Nat) : Cell :=
  let th := getTh x t
  let isInt := decide (tileType x src = .i32)
  let new := summaryOf x src active
  let same := th.sumInt == isInt
  let vals := (List.range 6).map (fun k =>
    let v := new.getD k 0
    if fresh || (decide (k < 3) && !same) then v else accumulate isInt k (summaryReg th k) v)
  setTh x t { th with sums := vals.zipIdx.foldl (fun m p => smSet (fun _ => 0) m p.2 p.1) th.sums, sumInt := isInt,
                      sumWait := th.sumWait - 1 }

/-- ELEMENT_COMPLETE: the running command ends, every lane of a GATHER having returned (R56, R129, R131). -/
def elementComplete (d : Dev) (c : Nat) : Dev :=
  match (getCell d c).erun with
  | none => d
  | some r =>
    if !r.lanes.isEmpty then d else
    let m := r.entry.cmd
    let t := r.entry.thread.val
    let d := modCell d c (fun x =>
      let x := match m.summary with
        | some (src, fresh) => writeSummary x t src fresh r.active
        | none => x
      { x with erun := none })
    let d := fset d (ELE_STATUS_BUSY c) 0
    let d := fset (fset d (ELE_STATUS_LAST_TAG c) m.done.tag) (ELE_STATUS_LAST_STATUS c) (statusCode r.status)
    let d := if (m.kind = .gather || m.kind = .scatter) && decide (r.status ≠ .ok) then fset d (ELE_STATUS_GATHER_FAULT c) 1 else d
    let d := fcount (fcount d (ELE_CTR_COMMANDS c) 1) (ELE_CTR_PASSES c) r.passes
    let d := noteDone d c t m.done.tag r.status (m.e.getD 0 0, m.count)
    completeGauge (closeCmd d c t) c m.done .engine

/-- ELE_CTR_CLR (R138). -/
def eleCtrClr (d : Dev) (c : CellId) (v : Word) : Dev :=
  if v.toNat % 2 = 1 then rset (rset d (ELE_CTR c) 0) (ELE_GATHER c) 0 else d

end Sys2Proof.Machine
end

