-- ==== Sys2Proof/Machine/NearMem.lean ====
section
/-! DEFINITION. Column memory events (R146 to R149, R158), and the retirement of a cell and of a mesh link (R404, R405). -/
namespace Sys2Proof.Machine

/-! ## Rinse (R148, R149) -/

/-- Bytes and lines of a rinse pass: SRAM and DRAM. -/
def rinseLine (dram : Bool) : Nat := if dram then 32 else 128
def rinseLines (dram : Bool) : Nat := if dram then 262144 else 4096

/-- Whether the walker of a channel of cell c runs (R149). -/
def rinseRuns (d : Dev) (c : Nat) (dram : Bool) : Bool :=
  let r := regionOf c
  rbit d KPR_RGN_READY r && !(getCell d c).retired &&
    (if dram then fbit d (COL_RINSE_DRAM_EN r) && !fbit d (COL_RGN_STATUS_DRAM_STOP r) else fbit d (COL_RINSE_SRAM_EN r))

/-- RINSE_TICK: the next line of a channel is read and corrected, and written back if a word of it was corrected; a poisoned
line stays (R148). -/
def rinseTick (d : Dev) (c : CellId) (dram : Bool) (e : EccHits) : Dev :=
  if !rinseRuns d c dram then d else
    let x := getCell d c
    let n := rinseLine dram
    let p := if dram then x.rinseDram else x.rinseSram
    let a := (if dram then cdramBase + c * 0x800000 else csramBase + c * 0x80000) + p * n
    let bad := isPoison d a n
    let d := countBeats (eccRead d e a n) a n false
    let fixed := !bad && e.corrected.any (fun b => decide (a ≤ b ∧ b < a + n))
    let d := if fixed then countBeats d a n true else d
    let q := (p + 1) % rinseLines dram
    let d := modCell d c (fun x => if dram then { x with rinseDram := q } else { x with rinseSram := q })
    if q = 0 then fwrap d (if dram then COL_RINSE_PASS_DRAM (regionOf c) else COL_RINSE_PASS_SRAM (regionOf c)) 1 else d

/-- COL_CTR_CLR (R158). -/
def colCtrClr (d : Dev) (c : CellId) (v : Word) : Dev :=
  if v.toNat % 2 = 1 then fset (rset (rset d (COL_ECC c) 0) (COL_SP_CONFLICT c) 0) (COL_STATUS_OWN_DENY c) 0 else d

/-! ## The end of a cell's work (R400, R404) -/

/-- Requests of cells that satisfy `p` that are still open: a response that comes later is dropped (R400). -/
def dropRids (d : Dev) (p : Nat → Bool) : Dev :=
  let hit := fun (u : RidUse) => match u with
    | .load c _ _ _ => p c
    | .store c _ => p c
    | .gather c _ _ => p c
    | .dmaList c _ _ => p c
    | .dmaRead c _ _ => p c
    | .dmaWrite c _ => p c
    | _ => false
  { d with
    rids := d.rids.map (fun e => (e.1, e.2.map (fun r => if hit r.use then { r with use := .dropped } else r)))
    reqWait := d.reqWait.filter (fun e => !hit e.1.use)
    far := { d.far with
      queue := d.far.queue.filter (fun q => !p q.cell)
      misses := d.far.misses.map (fun m => { m with waiting := m.waiting.filter (fun q => !p q.cell) })
      streams := d.far.streams.filter (fun s => !p s.cell) } }

/-- Writes that a scratchpad holds end with a status and are not made; those that wait for them hear of it. -/
def dropHeld (d : Dev) (c : Nat) (st : Status) : Dev :=
  let held := (getCell d c).held
  let d := modCell d c (fun x => { x with held := [] })
  held.foldl (fun d h => match h.who with
    | .engine => d
    | .dma k n => modTag d k n (fun t => { t with held := t.held - 1, status := if t.status = .ok then st else t.status })
    | .store k t => storeBack d k t st
    | .remote node rid =>
      { d with toRoute := d.toRoute ++ [{ body := .wrRsp st, vc := 13, dest := node, src := nodeId d, rid := rid, hops := 0 }] }) d

/-- Every command of a cell, queued or running, with its thread, its completion and who completes it. -/
def cellWork (x : Cell) : List (ThreadId × Completion × GaugeSource) :=
  let m := fun (e : MtxEntry) => (e.thread, e.cmd.done, GaugeSource.engine)
  let l := fun (e : EleEntry) => (e.thread, e.cmd.done, GaugeSource.engine)
  let a := fun (e : DmaEntry) => (e.thread, e.cmd.done, GaugeSource.dma)
  (match x.mrun with | some r => [m r.entry] | none => []) ++ x.mchain.map (fun r => m r.entry) ++
    (match x.erun with | some r => [l r.entry] | none => []) ++ (tagsInUse x).map (fun t => a t.2.entry) ++
    x.mq.map m ++ x.eq.map l ++ x.dq.map a

/-- A cell with every queue and engine empty. -/
def idleCell (x : Cell) : Cell :=
  { x with mq := [], eq := [], dq := [], mrun := none, mchain := [], redo := [], erun := none, tags := [], groups := [] }

/-- A cell's work ends: nothing is queued or running. -/
def stopCell (d : Dev) (c : Nat) (st : Status) : Dev :=
  let d := dropHeld (modCell d c idleCell) c st
  let d := fset (fset d (MTX_STATUS_BUSY c) 0) (ELE_STATUS_BUSY c) 0
  let d := { d with cells := d.cells.map (fun e => if e.1 = c then (e.1, { e.2 with threads := e.2.threads.map (fun t =>
    (t.1, { t.2 with openCmds := 0, openStores := 0, loads := [], sumWait := 0 })) }) else e) }
  dropRids d (fun k => k == c)

/-- R404: a thread of a retired cell: RETIRED_RESOURCE at once, or on the next edge in BARRIER or IDLE. -/
def retireThread (th : Thread) : Thread :=
  if th.st = .fault then th
  else if th.st = .barrier ∨ th.st = .idle then { th with faultWith := if th.faultWith = .ok then .retiredResource else th.faultWith }
  else { th with st := .fault, stallOn := 0, faultWith := .retiredResource, draining := false, fence := none }

/-- R404: a cell is retired for the session. Its commands complete with RETIRED_RESOURCE, whatever gauge they name (R56). -/
def cellRetire (d : Dev) (c cause bundle : Nat) : Dev :=
  if (getCell d c).retired then d else
    let work := cellWork (getCell d c)
    let d := stopCell d c .retiredResource
    let d := modCell d c (fun x => [0, 1, 2, 3].foldl (fun x t => setTh x t (retireThread (getTh x t))) { x with retired := true })
    let d := latchChains d (fun k => k == c) .retiredResource
    let d := rsetBit d KPR_DARN_RETIRED (regionOf c) true
    let d := addFault d 0x05 .retiredResource 1 1 c 0 cause bundle 0 []
    work.foldl (fun d w => completeGauge (noteDone d c w.1 w.2.1.tag .retiredResource (0, 0)) c w.2.1 w.2.2) d

/-- VERTICAL_BEAT_ERROR (R404): a beat failed bundle parity; `good` says that one of its 3 retries passed. -/
def verticalBeatError (d : Dev) (c : CellId) (bundle : Nat) (good : Bool) : Dev :=
  if good then d else cellRetire d c 2 bundle

/-- The two routers of the mesh link upward or to the right of a cell. -/
def linkEnds (c : Nat) (vertical : Bool) : Option (Nat × Nat) :=
  if vertical then (if c / 64 < 63 then some (c, c + 64) else none)
  else (if c % 64 < 63 then some (c, c + 1) else none)

/-- Retired links of the router of a cell, by key 2 × lower cell + vertical. -/
def linksOff (d : Dev) (c : Nat) : Nat :=
  (d.meshOff.filter (fun k => match linkEnds (k / 2) (k % 2 == 1) with
    | some (a, b) => a == c || b == c
    | none => false)).length

/-- MESH_HOP_ERROR (R405): a hop failed its link CRC; `good` says that one of its 3 retries passed. Otherwise the link is
retired, and a router with a second retired link retires its cell. -/
def meshHopError (d : Dev) (c : CellId) (vertical good : Bool) : Dev :=
  let key := 2 * c.val + (if vertical then 1 else 0)
  match linkEnds c vertical with
  | none => d
  | some (a, b) =>
    if good || d.meshOff.contains key then d else
      let d := { d with meshOff := d.meshOff ++ [key] }
      let n := Config.meshLink c (if vertical then 1 else 0)
      let d := addFault d 0x13 .retiredResource 1 11 n 0 0 n 0 []
      let d := if 2 ≤ linksOff d a then cellRetire d a 4 0 else d
      if 2 ≤ linksOff d b then cellRetire d b 4 0 else d

end Sys2Proof.Machine
end

