-- ==== Sys2Proof/Machine/Collective.lean ====
section
/-! DEFINITION. Collectives (chapter "Collectives and gradient reduction", R264 to R286): what each kind moves, native and
compressed arithmetic, the distribution tree, failures, digests, and the messages of matrix chains. -/
namespace Sys2Proof.Machine

/-! ## What an instance moves (R266 to R272) -/

/-- Bytes of an element in memory; compressed mode works on W32. -/
def slotElem (s : SlotDef) : Nat := if s.compressed then 4 else fmtWidth s.fmt / 8

/-- Wire bytes of some elements, and the chunks of 128 B they take (R270, R273). -/
def wireBytes (s : SlotDef) (count : Nat) : Nat := if s.compressed then 36 * ((count + 255) / 256) else count * slotElem s
def wireChunks (s : SlotDef) (count : Nat) : Nat := (wireBytes s count + 127) / 128

/-- Whether the chain is closed into a ring. -/
def isRing (s : SlotDef) (l : Layout) : Bool := s.kind = .reduceScatter || (s.kind = .allGather && !l.tree)

/-- S of R269, and first element and count of shard k. -/
def shardSize (s : SlotDef) (l : Layout) : Nat := 256 * ((s.n + 256 * layoutSize l - 1) / (256 * layoutSize l))
def shardSpan (s : SlotDef) (l : Layout) (k : Nat) : Nat × Nat :=
  let lo := min s.n (k * shardSize s l)
  (lo, min s.n ((k + 1) * shardSize s l) - lo)
def shardChunks (s : SlotDef) (l : Layout) (k : Nat) : Nat := wireChunks s (shardSpan s l k).2

/-- Chunks of several shards. -/
def shardsChunks (s : SlotDef) (l : Layout) (ks : List Nat) : Nat := (ks.map (shardChunks s l)).sum

/-- The rank at the other end of an edge: UP is 0, DN0 to DN3 are 1 to 4 (R266). -/
def edgeRank (s : SlotDef) (l : Layout) (r e : Nat) : Option Nat :=
  let m := layoutSize l
  if isRing s l then (if e = 0 then some ((r + m - 1) % m) else if e = 1 then some ((r + 1) % m) else none)
  else if e = 0 then upRank l r else (dnRanks l r)[e - 1]?

/-- DN edges of a member. -/
def dnEdges (s : SlotDef) (l : Layout) (r : Nat) : List Nat :=
  if isRing s l then [1] else (List.range (dnRanks l r).length).map (fun i => i + 1)

/-- A piece of a member's work: elements of the whole, whether and where its own contribution lies in SRC, the DN edges whose
chunks it combines and their first chunk, the first chunk it sends on UP, where it writes in DST, and the first RESULT chunk it
sends on every DN edge. `result` says that it sends RESULT on UP, as a ring does. -/
structure CollItem where
  elem0  : Nat
  count  : Nat
  own    : Bool
  src    : Nat
  ins    : List (Nat × Nat)
  up     : Option Nat
  dst    : Option Nat
  down   : Option Nat
  result : Bool
  deriving DecidableEq, Repr

/-- The ranks of the subtree of a member, itself first, then each DN member's in turn. -/
def subRanks (l : Layout) : Nat → Nat → List Nat
  | 0, r => [r]
  | fuel + 1, r => r :: (dnRanks l r).flatMap (subRanks l fuel)

/-- The shards that a member of a ring sends on UP, in order: shard k's chain has its head at rank k − 1 (R271). -/
def ringOut (l : Layout) (r : Nat) : List Nat := (List.range (layoutSize l - 1)).map (fun i => (r + 1 + i) % layoutSize l)

/-- What a member combines, reads and sends, in order (Table 14-1, R271, R272). -/
def collItems (s : SlotDef) (l : Layout) (r : Nat) : List CollItem :=
  let m := layoutSize l
  let whole : CollItem := {
    elem0 := 0, count := s.n, own := true, src := 0, ins := (dnEdges s l r).map (fun e => (e, 0)),
    up := if r = 0 then none else some 0, dst := if r = 0 then some 0 else none, down := none, result := false }
  match s.kind with
  | .reduce => [whole]
  | .allReduce => [{ whole with down := if r = 0 then some 0 else none }]
  | .broadcast => if r = 0 then [{ whole with ins := [], dst := none, down := some 0 }] else []
  | .reduceScatter =>
    (List.range m).map (fun i =>
      let k := (r + 1 + i) % m
      let (lo, n) := shardSpan s l k
      { elem0 := lo, count := n, own := true, src := lo,
        ins := if i = 0 then [] else [(1, shardsChunks s l ((ringOut l ((r + 1) % m)).take (i - 1)))],
        up := if i + 1 < m then some (shardsChunks s l ((ringOut l r).take i)) else none,
        dst := if i + 1 < m then none else some 0, down := none, result := false })
  | .allGather =>
    let (lo, n) := shardSpan s l r
    let mine : CollItem := { elem0 := lo, count := n, own := true, src := 0, ins := [], up := some 0, dst := some lo, down := none,
                             result := true }
    if !l.tree then [mine]
    else
      let atRoot := fun (k : Nat) => if r = 0 then some (shardsChunks s l (List.range k)) else none
      let first : CollItem := { mine with up := if r = 0 then none else some 0, dst := if r = 0 then some lo else none,
                                          down := atRoot r, result := false }
      let subs := (dnRanks l r).map (subRanks l m)
      let rest := (subs.zipIdx).flatMap (fun p => (p.1.zipIdx).map (fun q =>
        let (klo, kn) := shardSpan s l q.1
        let before := r :: (subs.take p.2).flatten ++ p.1.take q.2
        ({ elem0 := klo, count := kn, own := false, src := 0, ins := [(p.2 + 1, shardsChunks s l (p.1.take q.2))],
           up := if r = 0 then none else some (shardsChunks s l before), dst := if r = 0 then some klo else none,
           down := atRoot q.1, result := false } : CollItem)))
      first :: rest

/-- A run of RESULT chunks that a member receives: the edge, its first chunk there, the elements it holds, and the edges it is
passed on, each with its first chunk. -/
structure ResSeg where
  edge  : Nat
  base  : Nat
  elem0 : Nat
  count : Nat
  fwd   : List (Nat × Nat)
  deriving DecidableEq, Repr

/-- What a member receives as RESULT (R272). -/
def resSegs (s : SlotDef) (l : Layout) (r : Nat) : List ResSeg :=
  let m := layoutSize l
  let spread : List ResSeg := if r = 0 then [] else
    [{ edge := 0, base := 0, elem0 := 0, count := s.n, fwd := (dnEdges s l r).map (fun e => (e, 0)) }]
  match s.kind with
  | .reduce | .reduceScatter => []
  | .allReduce | .broadcast => spread
  | .allGather =>
    if l.tree then spread
    else (List.range (m - 1)).map (fun i =>
      let ks := (List.range i).map (fun j => (r + 1 + j) % m)
      let (lo, n) := shardSpan s l ((r + 1 + i) % m)
      { edge := 1, base := shardsChunks s l ks, elem0 := lo, count := n,
        fwd := if i + 2 < m then [(0, shardChunks s l r + shardsChunks s l ks)] else [] })

/-- Chunks that a member expects, and sends, on an edge. -/
def edgeIn (s : SlotDef) (l : Layout) (r e : Nat) : Nat :=
  (((collItems s l r).filter (fun i => i.ins.any (fun p => p.1 == e))).map (fun i => wireChunks s i.count)).sum +
    (((resSegs s l r).filter (fun i => i.edge == e)).map (fun i => wireChunks s i.count)).sum
def edgeOut (s : SlotDef) (l : Layout) (r e : Nat) : Nat :=
  (((collItems s l r).filter (fun i => if e = 0 then i.up.isSome else i.down.isSome)).map (fun i => wireChunks s i.count)).sum +
    (((resSegs s l r).filter (fun i => i.fwd.any (fun p => p.1 == e))).map (fun i => wireChunks s i.count)).sum

/-- The item that holds the K-th chunk of a member's work, and the chunk's number in it. -/
def findItem (s : SlotDef) : List CollItem → Nat → Option (CollItem × Nat)
  | [], _ => none
  | i :: t, k => if k < wireChunks s i.count then some (i, k) else findItem s t (k - wireChunks s i.count)

/-- The segment that holds chunk k of an edge, and the chunk's number in it. -/
def findSeg (s : SlotDef) (segs : List ResSeg) (e k : Nat) : Option (ResSeg × Nat) :=
  (segs.find? (fun g => g.edge == e && decide (g.base ≤ k ∧ k < g.base + wireChunks s g.count))).map (fun g => (g, k - g.base))

/-! ## Instances -/

/-- Key of a member's counts. -/
def memberKey (slot rank : Nat) : Nat := 65536 * slot + rank

/-- The instance a member holds. -/
def findInst (d : Dev) (slot rank : Nat) : Option CollInst :=
  d.clv.insts.find? (fun i => i.slot == slot && i.rank == rank)

/-- The slot's definition, its group and the layout in force. -/
def slotSetup (d : Dev) (slot : Nat) : Option (SlotDef × GroupDef × Layout) :=
  match slotDef d slot with
  | none => none
  | some s => match groupDef d s.group, layoutOf d s.group with
    | some g, some l => some (s, g, l)
    | _, _ => none

/-- The cell of a rank. -/
def memberCell (l : Layout) (r : Nat) : Nat := (l.members.getD r (0, 0)).2

/-- Whether a rank is the lowest of its layout on this device: the slot's registers follow it (R284). -/
def isLowest (d : Dev) (l : Layout) (r : Nat) : Bool := (ranksHere d l).head? == some r

/-- A chunk held on an edge. -/
def heldChunk (rx : List (Nat × Nat × List Byte)) (e k : Nat) : Option (List Byte) :=
  (rx.find? (fun c => c.1 == e && c.2.1 == k)).map (fun c => c.2.2)

/-- Chunks on an edge. -/
def countEdge (xs : List (Nat × Nat × List Byte)) (e : Nat) : Nat := (xs.filter (fun c => c.1 == e)).length

/-- Whether a member's own work and data of an instance are done (R279). -/
def workDone (s : SlotDef) (l : Layout) (i : CollInst) : Bool :=
  decide (i.combined.length = ((collItems s l i.rank).map (fun x => wireChunks s x.count)).sum) &&
  decide (i.written.length = ((resSegs s l i.rank).map (fun x => wireChunks s x.count)).sum)

/-- The edges on which a member waits for a message (R282). -/
def instAwaits (s : SlotDef) (l : Layout) (i : CollInst) : List Nat :=
  if i.latched.isSome then [5] else
    let data := (List.range 5).filter (fun e => decide (countEdge i.rx e < edgeIn s l i.rank e) ||
      (decide (countEdge i.tx e < edgeOut s l i.rank e) && decide (smGet (fun _ => 0) i.grant e ≤ countEdge i.tx e)))
    let kids := (treeKids l i.rank).zipIdx
    data ++ (if workDone s l i then (kids.filter (fun p => !i.acks.contains p.1)).map (fun p => 6 + p.2) else []) ++
      (if i.ackSent then [5] else [])

/-- An instance changed, `heard` telling the edges that a message came on. -/
def modInst (d : Dev) (slot rank : Nat) (heard : List Nat) (f : CollInst → CollInst) : Dev :=
  let aw := fun (i : CollInst) => match slotSetup d slot with
    | some (s, _, l) => instAwaits s l i
    | none => []
  { d with clv := { d.clv with insts := d.clv.insts.map (fun i =>
      if i.slot == slot && i.rank == rank then { f i with waits := renewWaits d.now (aw (f i)) heard i.waits } else i) } }

/-- A message of an instance to another rank. -/
def instMsg (k : CollKind) (g : GroupDef) (i : CollInst) : CollMsg := collMsg k g i.layout i.slot i.num false i.rank

/-- A member latches a failure of an instance it holds and sends ABORT to the root (R280, R281). -/
def latchInst (d : Dev) (slot rank : Nat) (st : Status) : Dev :=
  match findInst d slot rank, slotSetup d slot with
  | some i, some (_, g, l) =>
    if i.latched.isSome then d else
      let d := modInst d slot rank [] (fun i => { i with latched := some st })
      sendRank d g l 0 { instMsg .abort g i with status := st }
  | _, _ => d

/-- Every instance with its member's cell among some cells latches a failure. -/
def latchInsts (d : Dev) (cells : Nat → Bool) (st : Status) : Dev :=
  d.clv.insts.foldl (fun d i => match slotSetup d i.slot with
    | some (_, _, l) => if cells (memberCell l i.rank) then latchInst d i.slot i.rank st else d
    | none => d) d

/-! ## An engine's own reads and writes (R264, R270, R280) -/

/-- Pieces of a range of input addresses, each in one granule, checked as the engine of a member of cell c: the node-local address,
or the status that the access meets. -/
def engineCheck (d : Dev) (c : Nat) (write : Bool) (a n : Nat) : Status × Nat :=
  match translate d (if write then .dmaWrite else .dmaRead) a with
  | .refused _ _ => (.xltFault, 0)
  | .ok l =>
    if l.node ≠ nodeId d || !ownerOk d (.cell c) l.addr n write then (.xltFault, 0)
    else (memStatus d l.addr, l.addr)

/-- A range of this device read by an engine: the first status met, and the bytes up to it. -/
def engineRead (d : Dev) (e : EccHits) (c a n : Nat) : Dev × Status × List Byte :=
  (cutAt 64 a n).foldl (fun (r : Dev × Status × List Byte) p =>
    if r.2.1 ≠ .ok then r else
      match engineCheck r.1 c false (a + p.1) p.2 with
      | (.ok, x) =>
        let (d, got, bad) := agentLoad r.1 e x p.2
        (d, if bad then .poisoned else .ok, r.2.2 ++ got)
      | (st, _) => (r.1, st, r.2.2)) (d, .ok, [])

/-- A range of this device written by an engine: the first status met. -/
def engineWrite (d : Dev) (c a : Nat) (bytes : List Byte) : Dev × Status :=
  (cutAt 64 a bytes.length).foldl (fun (r : Dev × Status) p =>
    if r.2 ≠ .ok then r else
      match engineCheck r.1 c true (a + p.1) p.2 with
      | (.ok, x) => ((agentStore r.1 x ((bytes.drop p.1).take p.2) false .engine).1, .ok)
      | (st, _) => (r.1, st)) (d, .ok)

/-- The status of checking every page of a range before the work begins, with its record (R186, R270). -/
def rangeChecked (d : Dev) (c tag : Nat) (write : Bool) (a n : Nat) : Dev × Bool :=
  let need : Need := if write then .dmaWrite else .dmaRead
  let d := if n = 0 then d else countWalk d
  match checkRange d need a n with
  | some (p, cause, level) => (recordRefusal d p cause level (needReq need) tag c, false)
  | none => (d, (pageStarts a n).all (fun p => match translate d need p with
      | .ok l => decide (l.node = nodeId d)
      | .refused _ _ => false))

/-! ## Arithmetic -/

/-- Native mode (R271): own contribution, then each partial in DN order, every addition rounded once. -/
def nativeSum (f : FloatFmt) (own : List Nat) (parts : List (List Nat)) : List Nat :=
  own.zipIdx.map (fun x => parts.foldl (fun v p =>
    encodeNum f false .nearest (numAdd (decodeNum f v) (decodeNum f (p.getD x.2 0)))) x.1)

/-- W32 rounding of an exact value, as a value. -/
def w32 (x : Num) : Num := roundTo .w32 x

/-- A block on the wire: σ and sign bits (R273). -/
structure WireBlock where
  sigma : Num
  bits  : List Bool
  deriving DecidableEq, Repr

/-- compress() of R273, on 256 values of which n are real. -/
def clvCompress (a : List Num) (n : Nat) : WireBlock :=
  if a.any (fun v => !numIsFin v) then ⟨.nan, a.map (fun _ => false)⟩
  else
    let total := pairTree (fun x y => w32 (numAdd x y)) (.fin false 0 0) 8 (a.map numAbs)
    let mean := if numIsFin total then w32 (numQuot total (.fin false n 0)) else total
    ⟨mean, a.map numSign⟩

/-- decode() of R273. -/
def clvDecode (b : WireBlock) : List Num := b.bits.map (fun s => if s then numNeg b.sigma else b.sigma)

/-- A block as 36 B: σ, then element j in bit j mod 8 of byte j div 8. -/
def blockBytes (b : WireBlock) : List Byte :=
  leBytes 4 (encodeNum .w32 false .nearest b.sigma) ++
    (List.range 32).map (fun i => BitVec.ofNat 8 ((List.range 8).foldl (fun v j =>
      if b.bits.getD (8 * i + j) false then v + 2 ^ j else v) 0))

/-- A block read from its 36 B. -/
def bytesBlock (bs : List Byte) : WireBlock :=
  ⟨decodeNum .w32 (leNat (bs.take 4)),
   (List.range 256).map (fun j => ((bs.getD (4 + j / 8) 0).toNat).testBit (j % 8))⟩

/-- member() of R273: what travels on, the values written where the block is kept, and lint_out. -/
def clvMember (g lint : List Num) (incoming : Option WireBlock) (n : Nat) (keep : Bool) : WireBlock × List Num × List Num :=
  let zero := g.map (fun _ => Num.fin false 0 0)
  let base := match incoming with
    | none => g
    | some w => (g.zip (clvDecode w)).map (fun (p : Num × Num) => w32 (numAdd p.1 p.2))
  let a := (base.zip lint).map (fun (p : Num × Num) => w32 (numAdd p.1 p.2))
  if keep then (⟨.nan, []⟩, a, zero)
  else
    let w := clvCompress a n
    if numIsNan w.sigma then (w, a, zero)
    else (w, a, (a.zip (clvDecode w)).map (fun p => w32 (numSub p.1 p.2)))

/-- W32 values as bytes, and bytes as 256 W32 values padded with +0. -/
def w32Bytes (xs : List Num) : List Byte := xs.flatMap (fun v => leBytes 4 (encodeNum .w32 false .nearest v))
def w32Block (bs : List Byte) : List Num :=
  (List.range 256).map (fun i => if 4 * i + 3 < bs.length then decodeNum .w32 (leNat ((bs.drop (4 * i)).take 4)) else .fin false 0 0)

/-! ## Combining (R270, R271, R273, R274) -/

/-- Blocks of a compressed stream that chunk j touches: first, and one past the last. -/
def chunkBlocks (j wire : Nat) : Nat × Nat := (128 * j / 36, (min (128 * (j + 1)) wire + 35) / 36)

/-- Wire bytes of an incoming stream from place p, if their chunks are held. -/
def streamBytes (rx : List (Nat × Nat × List Byte)) (e base p n : Nat) : Option (List Byte) :=
  if n = 0 then some [] else
    let got := (List.range ((p + n - 1) / 128 - p / 128 + 1)).map (fun k => heldChunk rx e (base + p / 128 + k))
    if got.all Option.isSome then some ((((got.map (fun x => x.getD [])).flatten).drop (p % 128)).take n) else none

/-- A chunk sent on an edge. -/
def sendChunk (d : Dev) (s : SlotDef) (g : GroupDef) (l : Layout) (slot rank e k : Nat) (kind : CollKind) (bytes : List Byte) : Dev :=
  match findInst d slot rank, edgeRank s l rank e with
  | some i, some q =>
    let d := sendRank d g l q { instMsg kind g i with chunk := k, data := bytes }
    modInst d slot rank [] (fun i => { i with tx := i.tx ++ [(e, k, bytes)] })
  | _, _ => d

/-- A chunk consumed: the receiver grants one more on that edge (R270). -/
def grantMore (d : Dev) (s : SlotDef) (g : GroupDef) (l : Layout) (slot rank e : Nat) : Dev :=
  match findInst d slot rank, edgeRank s l rank e with
  | some i, some q =>
    let n := smGet (fun _ => 0) i.given e + 1
    let d := modInst d slot rank [] (fun i => { i with given := smSet (fun _ => 0) i.given e n })
    sendRank d g l q { instMsg .credit g i with chunk := n - 1 }
  | _, _ => d

/-- Whether an edge has credit for a chunk. -/
def credited (i : CollInst) (e k : Nat) : Bool := decide (k < smGet (fun _ => 0) i.grant e)

/-- What combining a chunk yields: bytes to send, bytes to write at places of DST, and lint to write at places of LINT. -/
structure Combined where
  wire : List Byte
  dst  : List (Nat × List Byte)
  lint : List (Nat × List Byte)
  deriving DecidableEq, Repr

/-- Native combining of chunk j of an item, from the member's own bytes and the bytes of each incoming edge. -/
def combineNative (s : SlotDef) (it : CollItem) (j : Nat) (own : List Byte) (parts : List (List Byte)) : Combined :=
  let z := slotElem s
  let nums := fun (bs : List Byte) => (blocksOf z bs).map leNat
  let out := if it.own then (nativeSum s.fmt (nums own) (parts.map nums)).flatMap (leBytes z) else (parts.headD [])
  { wire := out, dst := match it.dst with | some o => [(o * z + 128 * j, out)] | none => [], lint := [] }

/-- Whether the block that a reduction's root keeps is written as it is (R273). -/
def keepsBlock (s : SlotDef) (it : CollItem) : Bool := it.dst.isSome && decide (s.kind ≠ .allReduce)

/-- The result of one compressed block: from own bytes, lint bytes and the incoming 36 B. -/
def combineBlock (s : SlotDef) (it : CollItem) (n : Nat) (own lint : List Byte) (incoming : Option (List Byte)) :
    WireBlock × List Num × List Num :=
  clvMember (w32Block own) (w32Block lint) (incoming.map bytesBlock) n (keepsBlock s it)

/-- Compressed combining of chunk j: every block that the chunk touches is worked out; a block's own writes are made with the chunk
in which it begins. -/
def combineCompressed (d : Dev) (e : EccHits) (s : SlotDef) (c : Nat) (i : CollInst) (it : CollItem) (j : Nat) :
    Dev × Status × Option Combined :=
  let wire := wireBytes s it.count
  let (b0, b1) := chunkBlocks j wire
  let go := fun (r : Dev × Status × Option Combined) (b : Nat) =>
    match r with
    | (d, .ok, some acc) =>
      let n := min 256 (it.count - 256 * b)
      let inBytes := match it.ins with
        | [] => some none
        | (x, base) :: _ => (streamBytes i.rx x base (36 * b) 36).map some
      match inBytes with
      | none => (d, .ok, none)
      | some incoming =>
        let (d, st1, own) := engineRead d e c (s.src + 4 * (it.src + 256 * b)) (4 * n)
        let (d, st2, lint) := engineRead d e c (s.lint + 4 * (i.half * s.n + it.elem0 + 256 * b)) (4 * n)
        if st1 ≠ .ok then (d, st1, none) else if st2 ≠ .ok then (d, st2, none) else
          let (w, a, out) := combineBlock s it n own lint incoming
          let begins := decide (128 * j ≤ 36 * b)
          let vals := if keepsBlock s it then a else clvDecode w
          let dst := match it.dst with
            | some o => if begins then [(4 * (o + 256 * b), w32Bytes (vals.take n))] else []
            | none => []
          let lo := if begins then [(4 * ((1 - i.half) * s.n + it.elem0 + 256 * b), w32Bytes (out.take n))] else []
          (d, .ok, some { wire := acc.wire ++ blockBytes w, dst := acc.dst ++ dst, lint := acc.lint ++ lo })
    | r => r
  let (d, st, r) := ((List.range (b1 - b0)).map (fun k => b0 + k)).foldl go (d, .ok, some ⟨[], [], []⟩)
  (d, st, r.map (fun x => { x with wire := (x.wire.drop (128 * j - 36 * b0)).take (min 128 (wire - 128 * j)) }))

/-- Writes of a combining made, DST and LINT; the first status met. -/
def combinedWrites (d : Dev) (s : SlotDef) (c : Nat) (r : Combined) : Dev × Status :=
  let put := fun (base : Nat) (x : Dev × Status) (w : Nat × List Byte) =>
    if x.2 ≠ .ok then x else engineWrite x.1 c (base + w.1) w.2
  let x := r.dst.foldl (put s.dst) (d, .ok)
  r.lint.foldl (put s.lint) x

/-- CLV_COMBINE (R264, R270, R271, R273): the engine works on the K-th chunk of a member's work: it holds the chunk from every DN
edge, reads the member's own contribution, combines, writes and sends on. A failure it meets is latched (R280). -/
def clvCombine (d : Dev) (slot : Fin 256) (rank k : Nat) (e : EccHits) : Dev :=
  match findInst d slot rank, slotSetup d slot with
  | some i, some (s, g, l) =>
    match findItem s (collItems s l rank) k with
    | none => d
    | some (it, j) =>
      if i.latched.isSome || i.combined.contains k then d else
      let okUp := match it.up with | some b => credited i 0 (b + j) | none => true
      let okDn := match it.down with | some b => (dnEdges s l rank).all (fun x => credited i x (b + j)) | none => true
      let parts := it.ins.map (fun p => heldChunk i.rx p.1 (p.2 + j))
      if !okUp || !okDn || parts.any Option.isNone then d else
      let c := memberCell l rank
      let (d, st, res) :=
        if s.compressed then combineCompressed d e s c i it j
        else
          let len := min 128 (wireBytes s it.count - 128 * j)
          let (d, st, own) := if it.own then engineRead d e c (s.src + it.src * slotElem s + 128 * j) len else (d, .ok, [])
          (d, st, some (combineNative s it j own (parts.map (fun p => p.getD []))))
      if st ≠ .ok then latchInst d slot rank st else
      match res with
      | none => d
      | some r =>
        let (d, st) := combinedWrites d s c r
        if st ≠ .ok then latchInst d slot rank st else
          let d := match it.up with
            | some b => sendChunk d s g l slot rank 0 (b + j) (if it.result then .result else .data) r.wire
            | none => d
          let d := match it.down with
            | some b => (dnEdges s l rank).foldl (fun d x => sendChunk d s g l slot rank x (b + j) .result r.wire) d
            | none => d
          let d := it.ins.foldl (fun d p => grantMore d s g l slot rank p.1) d
          modInst d slot rank [] (fun i => { i with combined := k :: i.combined })
  | _, _ => d

/-- A RESULT chunk held is written to DST and passed on, once every edge it goes on has credit for it (R272). -/
def passResult (d : Dev) (slot rank e k : Nat) : Dev :=
  match findInst d slot rank, slotSetup d slot with
  | some i, some (s, g, l) =>
    match findSeg s (resSegs s l rank) e k, heldChunk i.rx e k with
    | some (seg, j), some bytes =>
      if i.latched.isSome || i.written.contains k || !seg.fwd.all (fun p => credited i p.1 (p.2 + j)) then d else
      let c := memberCell l rank
      let wire := wireBytes s seg.count
      let puts : Option (List (Nat × List Byte)) :=
        if s.compressed then
          let ends := (List.range ((min (128 * (j + 1)) wire) / 36 - 128 * j / 36)).map (fun x => 128 * j / 36 + x)
          (ends.mapM (fun b => (streamBytes i.rx e seg.base (36 * b) 36).map (fun bs =>
            (4 * (seg.elem0 + 256 * b), w32Bytes ((clvDecode (bytesBlock bs)).take (min 256 (seg.count - 256 * b)))))))
        else some [(seg.elem0 * slotElem s + 128 * j, bytes)]
      match puts with
      | none => d
      | some ws =>
        let (d, st) := ws.foldl (fun (x : Dev × Status) w => if x.2 ≠ .ok then x else engineWrite x.1 c (s.dst + w.1) w.2) (d, .ok)
        if st ≠ .ok then latchInst d slot rank st else
          let d := seg.fwd.foldl (fun d p => sendChunk d s g l slot rank p.1 (p.2 + j) .result bytes) d
          let d := grantMore d s g l slot rank e
          modInst d slot rank [] (fun i => { i with written := k :: i.written })
    | _, _ => d
  | _, _ => d

/-- Every RESULT chunk that a member holds and has not passed on, tried in ascending order. -/
def pumpResults (d : Dev) (slot rank : Nat) : Dev :=
  match findInst d slot rank with
  | none => d
  | some i => i.rx.foldl (fun d c => passResult d slot rank c.1 c.2.1) d

/-! ## Completion, digests (R279, R281, R283, R284) -/

/-- CRC-64 of the chunks of an edge in ascending order. -/
def edgeDigest (xs : List (Nat × Nat × List Byte)) (e : Nat) : Nat :=
  let mine := (xs.filter (fun c => c.1 == e)).insertionSort (fun a b => a.2.1 ≤ b.2.1)
  crc64 (mine.flatMap (fun c => c.2.2))

/-- Place of an edge's TX and RX digest among the ten registers of a record. -/
def digTx (e : Nat) : Nat := if e = 0 then 0 else 1 + e
def digRx (e : Nat) : Nat := if e = 0 then 1 else 5 + e

/-- A digest added to a sum of its group. -/
def addDigest (d : Dev) (g j v : Nat) : Dev :=
  let o := CLV_GRP_DIG g j
  rset d o (BitVec.ofNat 64 ((rget d o).toNat + v))

/-- The digests of an instance recorded. -/
def noteDigests (d : Dev) (g : Nat) (slot : Option Nat) (rx tx : List (Nat × Nat × List Byte)) : Dev :=
  (List.range 5).foldl (fun d e =>
    let t := edgeDigest tx e
    let r := edgeDigest rx e
    let d := addDigest (addDigest d g (digTx e) t) g (digRx e) r
    match slot with
    | some s => rset (rset d (CLV_SLOT_DIG s (digTx e)) (BitVec.ofNat 64 t)) (CLV_SLOT_DIG s (digRx e)) (BitVec.ofNat 64 r)
    | none => d) d

/-- An instance completes at a member (R279, R281): gauge, counters, registers, digests; a status other than OK raises event 26. -/
def completeInst (d : Dev) (slot rank : Nat) (st : Status) : Dev :=
  match findInst d slot rank, slotSetup d slot with
  | some i, some (s, _, l) =>
    let low := isLowest d l rank
    let d := { d with clv := { d.clv with insts := d.clv.insts.filter (fun x => !(x.slot == slot && x.rank == rank)) } }
    let d := noteDigests d s.group (if low then some slot else none) i.rx i.tx
    let key := memberKey slot rank
    let d := if st = .ok then
        { d with clv := { d.clv with committed := smModify (fun _ => 0) d.clv.committed key (· + 1) } } else d
    let d := if low then
        let d := fset d (CLV_SLOT_STATUS_COMMITTED slot) (smGet (fun _ => 0) d.clv.committed key)
        fset (fset d (CLV_SLOT_STATUS_LAST_STATUS slot) (statusCode st)) (CLV_SLOT_STATUS_LOCAL_CAUSE slot)
          (match i.latched with | some x => statusCode x | none => 0)
      else d
    let d := if st = .ok then fcount d CLV_CTR_COMMITS 1 else raiseBoth (fcount d CLV_CTR_FAILS 1) 26
    let d := countTag (traceEv d 4 0x21 s.gauges.tag 0x100C slot st (0, 0)) 4 s.gauges.tag st
    clvBusy (completeGauge d (memberCell l rank) { gauge := s.gauges.complete, inc := s.gauges.inc, tag := s.gauges.tag } .collective)
  | _, _ => d

/-- A COMMIT or FAIL goes down the distribution tree from a member, which then completes (R278, R279, R281). -/
def spreadOutcome (d : Dev) (slot rank : Nat) (kind : CollKind) (st : Status) : Dev :=
  match findInst d slot rank, slotSetup d slot with
  | some i, some (_, g, l) =>
    let d := (treeKids l rank).foldl (fun d k => sendRank d g l k { instMsg kind g i with status := st }) d
    completeInst d slot rank st
  | _, _ => d

/-- Writes of a member that a scratchpad still holds: they are not performed yet (R64, R279). -/
def writesHeld (d : Dev) (s : SlotDef) : Bool :=
  match translate d .dmaWrite s.dst with
  | .ok l => match placeOf l.addr with
    | .sp c _ => (getCell d c).held.any (fun h => decide (h.who = .engine))
    | _ => false
  | .refused _ _ => false

/-- CLV_ACK_SEND (R279): a member whose writes and data are done and whose children have acknowledged sends ACK; the root, whose
own are done and whose children have, sends COMMIT. -/
def clvAckSend (d : Dev) (slot : Fin 256) (rank : Nat) : Dev :=
  match findInst d slot rank, slotSetup d slot with
  | some i, some (s, g, l) =>
    if i.latched.isSome || i.ackSent || !workDone s l i || writesHeld d s || !(treeKids l rank).all (fun k => i.acks.contains k) then d
    else match treeParent rank with
      | none => spreadOutcome d slot rank .commit .ok
      | some p =>
        let d := sendRank d g l p (instMsg .ack g i)
        modInst d slot rank [] (fun i => { i with ackSent := true })
  | _, _ => d

/-! ## Launch (R268, R270) -/

/-- Bytes that an instance reads at SRC and writes at DST. -/
def srcBytes (s : SlotDef) (l : Layout) (r : Nat) : Nat :=
  match s.kind with
  | .broadcast => if r = 0 then s.n * slotElem s else 0
  | .allGather => (shardSpan s l r).2 * slotElem s
  | _ => s.n * slotElem s
def dstBytes (s : SlotDef) (l : Layout) (r : Nat) : Nat :=
  match s.kind with
  | .reduce => if r = 0 then s.n * slotElem s else 0
  | .reduceScatter => (shardSpan s l r).2 * slotElem s
  | .broadcast => if r = 0 then 0 else s.n * slotElem s
  | _ => s.n * slotElem s

/-- CLV_LAUNCH (R268): the slot's next instance launches at a member whose launch gauge has reached (n + 1) × STEP and whose
instance before has completed: its ranges are translated (R270), the lint half is fixed (R274), and the first chunks granted. -/
def clvLaunch (d : Dev) (slot : Fin 256) (rank : Nat) : Dev :=
  match slotSetup d slot with
  | none => d
  | some (s, g, l) =>
    let c := memberCell l rank
    let n := smGet (fun _ => 0) d.clv.launched (memberKey slot rank)
    if !(ranksHere d l).contains rank || (findInst d slot rank).isSome ||
        decide (seenGauge (getCell d c) s.gauges.launch < (n + 1) * s.gauges.step) then d else
    let half := smGet (fun _ => 0) d.clv.committed (memberKey slot rank) % 2
    let edges := (List.range 5).filter (fun e => decide (0 < edgeIn s l rank e))
    let i : CollInst := {
      slot := slot, rank := rank, num := n, layout := fget d (CLV_GRP_CFG_LAYOUT s.group), half := half,
      rx := [], tx := [], grant := [], given := edges.map (fun e => (e, 4096)), combined := [], written := [], acks := [],
      ackSent := false, latched := none, waits := [] }
    let d := { d with clv := { d.clv with insts := d.clv.insts ++ [i],
                                           launched := smModify (fun _ => 0) d.clv.launched (memberKey slot rank) (· + 1) } }
    let d := if isLowest d l rank then fset d (CLV_SLOT_STATUS_INSTANCE slot) (n + 1) else d
    let d := modInst d slot rank [] id
    let d := clvBusy (traceEv d 4 0x20 s.gauges.tag 0x100C slot .ok (0, 0))
    let (d, ok1) := rangeChecked d c s.gauges.tag false s.src (srcBytes s l rank)
    let (d, ok2) := rangeChecked d c s.gauges.tag true s.dst (dstBytes s l rank)
    let (d, ok3) := if s.compressed then rangeChecked d c s.gauges.tag true s.lint (8 * s.n) else (d, true)
    let (d, ok4) := if s.compressed then rangeChecked d c s.gauges.tag false s.lint (8 * s.n) else (d, true)
    let d := edges.foldl (fun d e => match edgeRank s l rank e with
      | some q => sendRank d g l q { instMsg .credit g i with chunk := 4095 }
      | none => d) d
    if ok1 && ok2 && ok3 && ok4 then d else latchInst d slot rank .xltFault

/-! ## Messages that arrive (R267, R278, R281, R285) -/

/-- The group slot of a message that this device holds on the message's VC, and its layout in force. -/
def msgGroup (d : Dev) (m : Msg) (c : CollMsg) : Option (GroupDef × Layout) :=
  match groupOfId d c.group with
  | none => none
  | some g => if g.vc ≠ m.vc then none else (layoutOf d g.num).map (fun l => (g, l))

/-- Whether a message belongs to an instance or chain that this member has not begun: it waits at the engine. -/
def msgEarly (d : Dev) (m : Msg) (c : CollMsg) : Bool :=
  match msgGroup d m c with
  | none => false
  | some (g, _) =>
    if c.layout ≠ fget d (CLV_GRP_CFG_LAYOUT g.num) then false
    else if c.slot = 256 then
      (findChain d g.num c.inst c.rank).isNone && decide (c.kind ≠ .tile)
    else match findInst d c.slot c.rank with
      | some i => (i.num + 1) % 256 == c.inst % 256
      | none => smGet (fun _ => 0) d.clv.launched (memberKey c.slot c.rank) % 256 == c.inst % 256

/-- The first message of a kind that is not early: taken from the inbox. One whose group is not held, or not on its VC, or whose
layout is not in force, is discarded, the last counted in STALE (R265, R267). -/
def takeColl (d : Dev) (kind : CollKind) : Dev × Option (CollMsg × GroupDef × Layout) :=
  match takeMsg d (fun m => match m.body with | .coll c => decide (c.kind = kind) && !msgEarly d m c | _ => false) with
  | none => (d, none)
  | some (m, d) =>
    match m.body with
    | .coll c =>
      match msgGroup d m c with
      | none => (d, none)
      | some (g, l) =>
        if c.layout ≠ fget d (CLV_GRP_CFG_LAYOUT g.num) then (fcount d CLV_CTR_STALE 1, none) else (d, some (c, g, l))
    | _ => (d, none)

/-- The instance that a message is for. -/
def msgInst (d : Dev) (c : CollMsg) : Option CollInst :=
  (findInst d c.slot c.rank).bind (fun i => if i.num % 256 = c.inst % 256 then some i else none)

/-- The DN edge that a member hears another rank on. -/
def dnEdgeOf (s : SlotDef) (l : Layout) (r q : Nat) : Option Nat := (dnEdges s l r).find? (fun e => edgeRank s l r e == some q)

/-- A chunk kept once. -/
def keepChunk (d : Dev) (c : CollMsg) (e : Nat) : Dev :=
  modInst d c.slot c.rank [e] (fun i =>
    if (heldChunk i.rx e c.chunk).isSome then i else { i with rx := i.rx ++ [(e, c.chunk, c.data)] })

/-- DATA: a chunk arrives toward the root. -/
def clvData (d : Dev) : Dev :=
  match takeColl d .data with
  | (d, some (c, _, _)) => match msgInst d c, slotSetup d c.slot with
    | some _, some (s, _, l) => match dnEdgeOf s l c.rank c.sender with
      | some e => keepChunk d c e
      | none => d
    | _, _ => d
  | (d, none) => d

/-- RESULT: a chunk arrives, is written to DST and passed on (R272). -/
def clvResult (d : Dev) : Dev :=
  match takeColl d .result with
  | (d, some (c, _, _)) => match msgInst d c, slotSetup d c.slot with
    | some _, some (s, _, l) =>
      let e := if isRing s l then 1 else 0
      if edgeRank s l c.rank e = some c.sender then pumpResults (keepChunk d c e) c.slot c.rank else d
    | _, _ => d
  | (d, none) => d

/-- CREDIT: the receiver on an edge grants up to a chunk (R270); RESULT chunks that waited for it go on. -/
def clvCredit (d : Dev) : Dev :=
  match takeColl d .credit with
  | (d, some (c, _, _)) => match msgInst d c, slotSetup d c.slot with
    | some _, some (s, _, l) =>
      let e := if edgeRank s l c.rank 0 = some c.sender then some 0 else dnEdgeOf s l c.rank c.sender
      match e with
      | some e => pumpResults (modInst d c.slot c.rank [e] (fun i =>
          { i with grant := smModify (fun _ => 0) i.grant e (fun n => max n (c.chunk + 1)) })) c.slot c.rank
      | none => d
    | _, _ => d
  | (d, none) => d

/-- ACK: a child in the distribution tree has acknowledged; the root sends COMMIT once every child has and its own work is done. -/
def clvAck (d : Dev) : Dev :=
  match takeColl d .ack with
  | (d, some (c, _, l)) => match msgInst d c with
    | some i =>
      match (treeKids l i.rank).findIdx? (fun k => k == c.sender) with
      | none => d
      | some p =>
        let d := modInst d c.slot c.rank [6 + p] (fun i => { i with acks := if i.acks.contains c.sender then i.acks else c.sender :: i.acks })
        if c.rank = 0 then clvAckSend d (Fin.ofNat 256 c.slot) 0 else d
    | none => d
  | (d, none) => d

/-- COMMIT: the member passes it down the distribution tree and completes with OK (R279). -/
def clvCommit (d : Dev) : Dev :=
  match takeColl d .commit with
  | (d, some (c, _, _)) => match msgInst d c with
    | some _ => spreadOutcome d c.slot c.rank .commit .ok
    | none => d
  | (d, none) => d

/-! ## Chains (R275 to R277) -/

/-- Digests of a chain's pass at a member, into its group's sums (R283, R284). -/
def chainDigests (d : Dev) (c : Chain) : Dev :=
  noteDigests d c.group none c.tiles (match c.sentUp with | some b => [(0, 0, b)] | none => [])

/-- A chain message goes on down the distribution tree from a member. -/
def chainSpread (d : Dev) (g : GroupDef) (l : Layout) (rank : Nat) (m : CollMsg) : Dev :=
  (treeKids l rank).foldl (fun d k => sendRank d g l k { m with sender := rank }) d

/-- The end of a chain at a member: digests, the part's commands, and event 26 where the status is not OK. -/
def finishChain (d : Dev) (ch : Chain) (st : Status) (anchor aObs : Int) (ok : Bool) : Dev :=
  let d := endChain (chainDigests d ch) ch.group ch.tag ch.rank st anchor aObs ok
  if ok then d else raiseBoth (fcount d CLV_CTR_FAILS 1) 26

/-- The chain of a message. -/
def msgChain (d : Dev) (g : GroupDef) (c : CollMsg) : Option Chain := findChain d g.num c.inst c.rank

/-- POST (R276): the UP member asks for the tile, which goes once it is written; a PASS other than the part's is discarded. -/
def chainPostIn (d : Dev) : Dev :=
  match takeColl d .post with
  | (d, some (c, g, _)) => match msgChain d g c with
    | some ch =>
      if ch.pass ≠ c.pass then d
      else chainSend (modChainHeard d ch.group ch.tag ch.rank [0] (fun x => { x with postsIn := true })) ch.group ch.tag ch.rank
    | none => d
  | (d, none) => d

/-- Tiles of one shape combined under step 3 of R77 (R276): sums added exactly, targets and A_OBS take maxima, flags ORed, and a
differing anchor sets RERUN. -/
def combineTiles (s : Shape) (tag : Nat) (ts : List Tile) : List Byte :=
  match ts with
  | [] => []
  | t0 :: rest =>
    let rerun := ts.any (fun t => t.rerun) || rest.any (fun t => decide (t.anchor ≠ t0.anchor))
    let target := rest.foldl (fun v t => max v (t.anchor + (t.tOff : Int))) (t0.anchor + (t0.tOff : Int))
    let aObs := rest.foldl (fun v t => max v t.aObs) t0.aObs
    let n := shapeM s * shapeN s
    let head := leBytes 2 tag ++ leBytes 1 t0.m ++ leBytes 1 t0.n ++ leBytes 2 (ofSigned 16 aObs) ++ leBytes 2 0 ++
      leBytes 8 t0.kTotal ++ leBytes 16 0
    head ++ (List.range n).flatMap (fun k =>
      let sum := ts.foldl (fun v t => v + t.sums.getD k 0) 0
      let fl := ts.foldl (fun v t => v.lor (t.flags.getD k 0)) 0
      leBytes 24 (ofSigned 192 sum) ++ leBytes 2 (ofSigned 16 t0.anchor) ++
        leBytes 2 ((target - t0.anchor).toNat % 4096 * 16 + (if rerun then 8 else 0) + fl % 8))

/-- The CHAIN_ADD of a chain part that waits outside the engine. -/
def waitingAdd (x : Cell) (g tag : Nat) : Option MtxEntry :=
  (x.mchain.find? (fun r => decide (r.entry.cmd.op = .chainAdd) && r.entry.cmd.slot == g && r.entry.cmd.done.tag == tag)).map
    (fun r => r.entry)

/-- The MMA of a chain part. -/
def waitingMma (x : Cell) (g tag : Nat) : Option MtxEntry :=
  (x.mchain.find? (fun r => decide (r.entry.cmd.op = .mma) && r.entry.cmd.slot == g && r.entry.cmd.done.tag == tag)).map
    (fun r => r.entry)

/-- Every tile being in staging, one tile is written to the posted address and the CHAIN_ADD dispatches next (R276). -/
def placeTile (d : Dev) (ch : Chain) (l : Layout) : Dev :=
  match ch.posted, waitingAdd (getCell d ch.cell) ch.group ch.tag with
  | some o, some e =>
    let s := e.cmd.shape
    let chunks := (tileBytes s + 127) / 128
    let dn := (List.range (dnRanks l ch.rank).length).map (fun i => i + 1)
    if ch.combined || dn.any (fun x => decide (countEdge ch.tiles x < chunks)) then d else
      let tile := fun x => ((List.range chunks).map (fun k => (heldChunk ch.tiles x k).getD [])).flatten
      let bytes := match dn with
        | [x] => tile x
        | _ => combineTiles s ch.tag (dn.map (fun x => readTile s (tile x)))
      let c := ch.cell.val
      let st := rangeStatus d (spAddr c o) bytes.length
      if st ≠ .ok then latchChain d ch.group ch.tag ch.rank st else
        let d := store d (spAddr c o) bytes false
        let d := modCell d c (fun x => { x with redo := x.redo ++ [e] })
        modChain d ch.group ch.tag ch.rank (fun x => { x with combined := true })
  | _, _ => d

/-- TILE (R276): a chunk of a DN member's tile arrives; with the last of them the tiles are combined and written. -/
def chainTile (d : Dev) : Dev :=
  match takeColl d .tile with
  | (d, some (c, g, l)) => match msgChain d g c, (dnRanks l c.rank).findIdx? (fun k => k == c.sender) with
    | some ch, some p =>
      if ch.pass ≠ c.pass || ch.posted.isNone then d else
        let d := modChainHeard d ch.group ch.tag ch.rank [p + 1] (fun x =>
          if (heldChunk x.tiles (p + 1) c.chunk).isSome then x else { x with tiles := x.tiles ++ [(p + 1, c.chunk, c.data)] })
        match findChain d ch.group ch.tag ch.rank with
        | some ch => placeTile d ch l
        | none => d
    | _, _ => d
  | (d, none) => d

/-- RERUN (R77 step 5, R277): the part takes the raised target, re-executes its MMA at it, and posts again for its CHAIN_ADD. -/
def chainRerun (d : Dev) : Dev :=
  match takeColl d .rerun with
  | (d, some (c, g, l)) =>
    let d := chainSpread d g l c.rank c
    match msgChain d g c with
    | none => d
    | some ch =>
      if ch.pass then d else
      let d := chainDigests d ch
      let d := modChainHeard d ch.group ch.tag ch.rank [5] (fun x =>
        { x with pass := true, postsIn := false, ready := none, sentUp := none, tiles := [], combined := false })
      let cell := ch.cell.val
      let d := fcount d (MTX_REPEAT_CHAIN_RERUNS cell) 1
      let d := match waitingMma (getCell d cell) ch.group ch.tag with
        | some e => modCell d cell (fun x => { x with redo := x.redo ++
            [{ e with cmd := { e.cmd with anchor := .explicit, anchorV := ofSigned 64 c.value } }] })
        | none => d
      if ch.posted.isSome then chainPost d ch.group ch.tag ch.rank else d
  | (d, none) => d

/-- DONE (R77 step 4, R79): the part's commands complete and its group closes. The tail completes as its finisher did. -/
def chainDone (d : Dev) : Dev :=
  match takeColl d .done with
  | (d, some (c, g, l)) =>
    let d := chainSpread d g l c.rank c
    match msgChain d g c with
    | none => d
    | some ch =>
      let st := if ch.rank = 0 then c.status else .ok
      countTag (finishChain d ch st c.value c.aObs true) 4 ch.tag st
  | (d, none) => d

/-! ## Failures -/

/-- ABORT (R281): the root takes the first status and sends FAIL; each later one is counted and changes nothing. -/
def clvAbort (d : Dev) : Dev :=
  match takeColl d .abort with
  | (d, some (c, g, l)) =>
    let again := { d with clv := { d.clv with aborts := d.clv.aborts + 1 } }
    if c.slot = 256 then
      match msgChain d g c with
      | some ch => finishChain (chainSpread d g l c.rank { c with kind := .fail }) ch c.status 0 0 false
      | none => again
    else match msgInst d c with
      | some _ => spreadOutcome d c.slot c.rank .fail c.status
      | none => again
  | (d, none) => d

/-- FAIL (R281): the member passes it down the distribution tree and completes with its status. -/
def clvFail (d : Dev) : Dev :=
  match takeColl d .fail with
  | (d, some (c, g, l)) =>
    if c.slot = 256 then
      let d := chainSpread d g l c.rank c
      match msgChain d g c with
      | some ch => finishChain d ch c.status 0 0 false
      | none => d
    else match msgInst d c with
      | some _ => spreadOutcome d c.slot c.rank .fail c.status
      | none => d
  | (d, none) => d

/-- CLV_TIMEOUT for an instance (R282): it latches RETIRED_RESOURCE; one that had latched, and hears nothing from the root, completes
with it (R281). -/
def timeoutInst (d : Dev) (slot rank : Nat) : Dev :=
  match findInst d slot rank, slotSetup d slot with
  | some i, some (_, g, _) =>
    if !waitsOver d g i.waits then d
    else if i.latched.isSome then completeInst d slot rank .retiredResource
    else latchInst (fcount d CLV_CTR_TIMEOUTS 1) slot rank .retiredResource
  | _, _ => d

/-- CLV_TIMEOUT for a chain. -/
def timeoutChain (d : Dev) (g tag rank : Nat) : Dev :=
  match findChain d g tag rank, groupDef d g with
  | some ch, some gd =>
    if !waitsOver d gd ch.waits then d
    else if ch.latched.isSome then finishChain d ch .retiredResource 0 0 false
    else latchChain (fcount d CLV_CTR_TIMEOUTS 1) g tag rank .retiredResource
  | _, _ => d

/-- CLV_TIMEOUT (R282): a member of a slot's instance, or of a chain of a group slot with a tag, has waited too long at time t. -/
def clvTimeout (d : Dev) (chain : Bool) (k tag rank t : Nat) : Dev :=
  let d := atTime d t
  if chain then timeoutChain d k tag rank else timeoutInst d k rank

/-- A collective message of this device that its port discards (R252, R258) is a failure of its sender (Table 14-2). -/
def clvDiscarded (d : Dev) (m : Msg) : Dev :=
  match m.body with
  | .coll c =>
    if m.src ≠ nodeId d then d else
    match groupOfId d c.group with
    | none => d
    | some g =>
      if (findInst d c.slot c.sender).isSome then latchInst d c.slot c.sender .retiredResource
      else latchChain d g.num c.inst c.sender .retiredResource
  | _ => d

/-- A tide edge passes for everything that waits (R282). -/
def clvEdge (d : Dev) : Dev :=
  { d with clv := { d.clv with insts := d.clv.insts.map (fun i => { i with waits := waitsEdge i.waits }),
                                chains := d.clv.chains.map (fun c => { c with waits := waitsEdge c.waits }) } }

/-- Everything of a group slot in progress here completes with a status, as at a layout change (R267). -/
def endGroup (d : Dev) (g : Nat) (st : Status) : Dev :=
  let d := d.clv.chains.foldl (fun d c => if c.group = g then finishChain d c st 0 0 false else d) d
  d.clv.insts.foldl (fun d i => match slotDef d i.slot with
    | some s => if s.group.val = g then completeInst (modInst d i.slot i.rank [] (fun i => { i with latched := some (i.latched.getD st) }))
        i.slot i.rank st else d
    | none => d) d

/-! ## Registers (R286) -/

/-- CLV_CTR_CLR (R286, R299): a write of 1 to CLEAR clears CLV_CTR, every group's digest sums and CLV_SS_CTR. -/
def clvCtrClr (d : Dev) (v : Word) : Dev :=
  if v.toNat % 2 = 0 then d else
    let d := (List.range 64).foldl (fun d k => rset d (CLV_SS_CTR k) 0) (rset d CLV_CTR 0)
    (List.range 12).foldl (fun d g => (List.range 10).foldl (fun d j => rset d (CLV_GRP_DIG g j) 0) d) d

/-- Code of a kind (Table 14-1) and of a format (Table 14-10). -/
def collCode : CollOp → Nat
  | .reduce => 0 | .allReduce => 1 | .reduceScatter => 2 | .allGather => 3 | .broadcast => 4
def collFmt : FloatFmt → Nat
  | .bf16 => 1 | .fp32 => 2 | _ => 0

/-- The registers of a group slot, at its layout in force (Table 14-9, CLV_GRP_MEMB). -/
def groupRegs (d : Dev) (g : GroupDef) (layout : Nat) : Dev :=
  match g.layouts[layout]? with
  | none => d
  | some l =>
    let n := g.num.val
    let here := ranksHere d l
    let d := rset d (CLV_GRP_CFG n) 0
    let d := fset (fset d (CLV_GRP_CFG_VALID n) 1) (CLV_GRP_CFG_TOPO n) (if l.tree then 1 else 0)
    let d := fset (fset d (CLV_GRP_CFG_LAYOUT n) layout) (CLV_GRP_CFG_NLAYOUTS n) (g.layouts.length - 1)
    let d := fset (fset d (CLV_GRP_CFG_VC n) g.vc) (CLV_GRP_CFG_TIMEOUT_TIDES n) g.timeout
    let d := fset (fset d (CLV_GRP_CFG_GROUP_ID n) g.id) (CLV_GRP_CFG_MEMBERS n) (layoutSize l)
    fset (fset d (CLV_GRP_MEMB_RANK n) (here.headD 0)) (CLV_GRP_MEMB_MEMBERS n) here.length

/-- The registers of a collective slot (Tables 14-10 and 14-11). -/
def slotRegs (d : Dev) (c : CollSec) (s : SlotDef) : Dev :=
  let n := s.num.val
  let gid := match c.groups.find? (fun g => g.num == s.group) with | some g => g.id | none => 0
  let d := fset (fset d (CLV_SLOT_CFG0_VALID n) 1) (CLV_SLOT_CFG0_KIND n) (collCode s.kind)
  let d := fset (fset d (CLV_SLOT_CFG0_MODE n) (if s.compressed then 1 else 0)) (CLV_SLOT_CFG0_FMT n) (collFmt s.fmt)
  let d := fset (fset (fset d (CLV_SLOT_CFG0_GROUP n) s.group) (CLV_SLOT_CFG0_GROUP_ID n) gid) (CLV_SLOT_CFG0_N n) s.n
  let d := fset (fset d (CLV_SLOT_CFG1_TAG n) s.gauges.tag) (CLV_SLOT_CFG1_L_PATCH n) s.gauges.launch.patch
  let d := fset (fset d (CLV_SLOT_CFG1_L_GAUGE n) s.gauges.launch.gauge) (CLV_SLOT_CFG1_C_PATCH n) s.gauges.complete.patch
  let d := fset (fset d (CLV_SLOT_CFG1_C_GAUGE n) s.gauges.complete.gauge) (CLV_SLOT_CFG1_C_INC n) s.gauges.inc
  let d := fset d (CLV_SLOT_CFG1_STEP n) s.gauges.step
  let d := rset (rset d (CLV_SLOT_SRC n) (BitVec.ofNat 64 s.src)) (CLV_SLOT_DST n) (BitVec.ofNat 64 s.dst)
  rset d (CLV_SLOT_LINT n) (BitVec.ofNat 64 s.lint)

/-- A layout change at its edge (R267): everything of the group in progress ends with ABORTED, and the new layout is in force. -/
def layoutChange (d : Dev) (g layout : Nat) : Dev :=
  let d := endGroup d g .aborted
  match groupDef d g with
  | some x => clvBusy (groupRegs d x layout)
  | none => d

end Sys2Proof.Machine
end

