-- ==== Sys2Proof/Machine/ShardState.lean ====
section
/-! DEFINITION. Shard sets (chapter "Parameters, gradients and optimiser state", R287 to R299): publication, fetch, replica
check, export and import, as the engine CE12 performs them. -/
namespace Sys2Proof.Machine

/-! ## Arrays and shards (R287, R288, Table 15-1) -/

/-- A set, its group, and layout 0 of it, whose ranks own the shards. -/
def setSetup (d : Dev) (k : Nat) : Option (SetDef × GroupDef × Layout) :=
  match (collSec d).bind (fun c => c.sets.find? (fun x => x.num == k)) with
  | none => none
  | some s => match groupDef d s.group with
    | none => none
    | some g => (g.layouts.head?).map (fun l => (s, g, l))

/-- First element and element count of shard k (R269 with N = P). -/
def setSpan (s : SetDef) (l : Layout) (k : Nat) : Nat × Nat :=
  let z := 256 * ((s.p + 256 * layoutSize l - 1) / (256 * layoutSize l))
  let lo := min s.p (k * z)
  (lo, min s.p ((k + 1) * z) - lo)

/-- Bits that 32 elements of an array take: W, WS, MASTER, M1, M1S, R, RS; 0 where the set has no such array. -/
def arrayBits (s : SetDef) (a : Nat) : Nat :=
  let w := s.wfmt.val
  if a = 0 then (if w = 4 then 512 else if w = 2 ∨ w = 3 ∨ w = 7 ∨ w = 8 then 192 else 256)
  else if a = 1 then (if 5 ≤ w then 8 else 0)
  else if a = 2 then (if s.l6 then 1024 else 1536)
  else if a = 3 ∨ a = 5 then (if s.l6 then 1024 else 256)
  else if a = 4 ∨ a = 6 then (if s.l6 then 0 else 8)
  else 0

/-- Bytes of an array that some elements from a multiple of 256 take: 8 bits in 32 elements are a scale of each block. -/
def arrayLen (s : SetDef) (a n : Nat) : Nat :=
  let b := arrayBits s a
  if b = 8 then (n + 31) / 32 else (n * (b / 32) + 7) / 8

/-- Whether a member holds an array for the whole tensor, not only its owner for the owned shard. -/
def wholeArray (s : SetDef) (a : Nat) : Bool := decide (a ≤ 1) || s.l6

/-- Ranks of layout 0 on this device; the lowest is the member whose cell and gauges its operations use. -/
def ownRanks (d : Dev) (l : Layout) : List Nat := ranksHere d l

/-- Cell of the set's lowest-rank member here. -/
def setCellOf (d : Dev) (l : Layout) : Nat := memberCell l ((ownRanks d l).headD 0)

/-- Elements of owned shards before shard k in the arrays that hold owned shards only. -/
def ownBase (d : Dev) (s : SetDef) (l : Layout) (k : Nat) : Nat :=
  (((ownRanks d l).filter (fun r => decide (r < k))).map (fun r => (setSpan s l r).2)).sum

/-- Input address and length of shard k's part of an array on this device. -/
def shardPart (d : Dev) (s : SetDef) (l : Layout) (k a : Nat) : Nat × Nat :=
  let (lo, n) := setSpan s l k
  let base := s.addrs.getD a 0
  let from_ := if wholeArray s a then lo else ownBase d s l k
  (base + arrayLen s a from_, arrayLen s a n)

/-- Input address of the publish record of shard k: owned shards' records follow each other. -/
def pubAddr (s : SetDef) (nth : Nat) : Nat := s.addrs.getD 7 0 + 64 * nth

/-- Shards of the layout that this device does not own. -/
def foreignShards (d : Dev) (l : Layout) : List Nat := (List.range (layoutSize l)).filter (fun k => !(ownRanks d l).contains k)

/-- An input address of this device as it stands for another device's: the node field of an entry that gives that device. -/
def ownerAddr (d : Dev) (node a : Nat) : Option Nat :=
  match d.map with
  | none => none
  | some m => (m.nodes.find? (fun e => e.2.1 == node)).map (fun e => e.1 * 2 ^ 48 + a % 2 ^ 48)

/-! ## Completion of an operation -/

/-- Code of an operation in CLV_SS_STATUS.OP, and its gauges. -/
def opCode : SetOp → Nat
  | .publish => 0 | .fetch => 1 | .check => 2
def opGauges (s : SetDef) : SetOp → CollGauges
  | .publish => s.pub | .fetch => s.fet | .check => s.chk

/-- Last operation's outcome in CLV_SS_STATUS. -/
def setOutcome (d : Dev) (k op : Nat) (st : Status) (cause shard : Nat) : Dev :=
  let d := fset (fset d (CLV_SS_STATUS_OP k) op) (CLV_SS_STATUS_CAUSE k) cause
  fset (fset d (CLV_SS_STATUS_FIRST_SHARD k) shard) (CLV_SS_STATUS_LAST_STATUS k) (statusCode st)

/-- An operation of a set completes (R289, R292, R295): registers, gauge, and event 26 where the status is not OK. -/
def completeSet (d : Dev) (k : Nat) (op : SetOp) (st : Status) (cause shard : Nat) : Dev :=
  match setSetup d k with
  | none => d
  | some (s, _, l) =>
    let g := opGauges s op
    let d := { d with clv := { d.clv with setRuns := d.clv.setRuns.filter (fun r => r.set != k) } }
    let d := setOutcome d k (opCode op) st cause shard
    let d := if st = .ok then d else raiseBoth d 26
    let d := countTag (traceEv d 4 0x21 g.tag 0x100C k st (0, 0)) 4 g.tag st
    completeGauge d (setCellOf d l) { gauge := g.complete, inc := g.inc, tag := g.tag } .collective

/-- Whether an operation may launch (R289, R291, R293, R294): enabled, its gauge reached, the set idle. -/
def setMayLaunch (d : Dev) (k : Nat) (s : SetDef) (l : Layout) (op : SetOp) (n : Nat) : Bool :=
  let g := opGauges s op
  decide (1 ≤ g.step) && !(s.l6 && decide (op ≠ .check)) && !(ownRanks d l).isEmpty &&
    !d.clv.setRuns.any (fun r => r.set == k) &&
    decide ((n + 1) * g.step ≤ seenGauge (getCell d (setCellOf d l)) g.launch)

/-- Counts of launched publish, fetch and check instances. -/
def setCounts (d : Dev) (k : Nat) : Nat × Nat × Nat := smGet (fun _ => (0, 0, 0)) d.clv.counts k
def setCounted (d : Dev) (k : Nat) (f : Nat × Nat × Nat → Nat × Nat × Nat) : Dev :=
  { d with clv := { d.clv with counts := smModify (fun _ => (0, 0, 0)) d.clv.counts k f } }

/-- Several ranges of this device read by the engine, in order: the first status met and the bytes. -/
def readParts (d : Dev) (e : EccHits) (c : Nat) (ps : List (Nat × Nat)) : Dev × Status × List Byte :=
  ps.foldl (fun (r : Dev × Status × List Byte) p =>
    if r.2.1 ≠ .ok then r else
      let (d, st, bs) := engineRead r.1 e c p.1 p.2
      (d, st, r.2.2 ++ bs)) (d, .ok, [])

/-- Cause of CLV_SS_STATUS for a status met: 4 source poisoned, else 3. -/
def causeOf (st : Status) : Nat := if st = .ok then 0 else if st = .poisoned then 4 else 3

/-! ## Publication (R289) -/

/-- The first 40 bytes of a publish record (Table 15-2). -/
def pubHead (d : Dev) (s : SetDef) (l : Layout) (k version digest : Nat) : List Byte :=
  leBytes 8 version ++ leBytes 8 digest ++ leBytes 8 (rget d TID_COUNT).toNat ++ leBytes 4 k ++ leBytes 2 s.tensor ++ leBytes 2 0 ++
    leBytes 8 (setSpan s l k).2

/-- One owned shard published: the record is written whole. Its CHK fields keep what they hold. -/
def publishShard (d : Dev) (e : EccHits) (s : SetDef) (l : Layout) (k nth v : Nat) : Dev × Status :=
  let c := setCellOf d l
  let (d, st, bytes) := readParts d e c [shardPart d s l k 0, shardPart d s l k 1]
  if st ≠ .ok then (d, st) else
    let (d, st, old) := engineRead d e c (pubAddr s nth) 64
    if st ≠ .ok then (d, st) else
      engineWrite d c (pubAddr s nth) (pubHead d s l k (v + 1) (crc64 bytes) ++ (old.drop 40).take 16 ++ leBytes 8 0)

/-- Every owned shard published in order, up to the first that fails: the status, and the last shard tried. -/
def publishShards (d : Dev) (e : EccHits) (s : SetDef) (l : Layout) (v : Nat) : Dev × Status × Nat :=
  ((ownRanks d l).zipIdx).foldl (fun (r : Dev × Status × Nat) p =>
    if r.2.1 ≠ .ok then r else
      let (d, st) := publishShard r.1 e s l p.1 p.2 v
      (d, st, p.1)) (d, .ok, 0)

/-- SS_PUBLISH (R289): the next publish instance of a set launches and ends. -/
def ssPublish (d : Dev) (k : Fin 64) (e : EccHits) : Dev :=
  match setSetup d k with
  | none => d
  | some (s, _, l) =>
    let v := (setCounts d k).1
    if !setMayLaunch d k s l .publish v then d else
      let d := setCounted d k (fun n => (n.1 + 1, n.2))
      let d := traceEv d 4 0x20 s.pub.tag 0x100C k .ok (0, 0)
      let (d, st, bad) := publishShards d e s l v
      completeSet d k .publish st (causeOf st) (if st = .ok then 0 else bad)

/-! ## Reads of owners (R291) -/

/-- Runs of a set changed. -/
def modRun (d : Dev) (k : Nat) (f : SetRun → SetRun) : Dev :=
  { d with clv := { d.clv with setRuns := d.clv.setRuns.map (fun r => if r.set = k then f r else r) } }

/-- A shard of a run changed. -/
def modShard (d : Dev) (k sh : Nat) (f : ShardRun → ShardRun) : Dev :=
  modRun d k (fun r => { r with shards := r.shards.map (fun x => if x.shard = sh then f x else x) })

/-- The run of a set. -/
def findRun (d : Dev) (k : Nat) : Option SetRun := d.clv.setRuns.find? (fun r => r.set == k)

/-- Arrays in a run's scope: W and WS, or every array for the whole tensor (R294). -/
def runArrays (s : SetDef) (r : SetRun) : List Nat :=
  (if r.op = .check && s.all then [0, 1, 2, 3, 4, 5, 6] else [0, 1]).filter (fun a => decide (0 < arrayBits s a) && wholeArray s a)

/-- A shard's stream in pieces of at most 128 B: place in the stream, input address on this device, length. -/
def shardPieces (d : Dev) (s : SetDef) (l : Layout) (k : Nat) (arrays : List Nat) : List (Nat × Nat × Nat) :=
  (arrays.foldl (fun (r : Nat × List (Nat × Nat × Nat)) a =>
    let (x, n) := shardPart d s l k a
    (r.1 + n, r.2 ++ (cutAt 128 x n).map (fun p => (r.1 + p.1, x + p.1, p.2)))) (0, [])).2

/-- The expected version of a run: n + 1 (Table 15-3). -/
def runVersion (r : SetRun) : Nat := r.num + 1

/-- A failure of a shard noted, the first standing. -/
def failShard (d : Dev) (k sh : Nat) (st : Status) (cause : Nat) : Dev :=
  modShard d k sh (fun x => if x.bad.isSome then x else { x with bad := some (st, cause) })

/-- A read of an owner: translated here (R and REMOTE), sent on VC12 under a RID. `piece` 0 is the publish record. -/
def askOwner (d : Dev) (s : SetDef) (l : Layout) (k sh piece a n : Nat) : Dev :=
  let node := (l.members.getD sh (0, 0)).1
  match ownerAddr d node a with
  | none => failShard d k sh .xltFault 3
  | some x =>
    let c := setCellOf d l
    match translate (countWalk d) .dmaRead x with
    | .refused cause level => failShard (recordRefusal d x cause level 3 s.fet.tag c) k sh .xltFault 3
    | .ok lf =>
      let d := sendRequest d (.shard k sh piece) lf.node lf.addr n (.rd lf.addr n) 12
      modShard d k sh (fun y => { y with openReq := y.openReq + 1 })

/-- Which of its owner's ranks a shard is: the place of its publish record there. -/
def ownerNth (l : Layout) (sh : Nat) : Nat :=
  let node := (l.members.getD sh (0, 0)).1
  ((List.range sh).filter (fun r => (l.members.getD r (0, 0)).1 == node)).length

/-- A shard's record asked for. -/
def askRecord (d : Dev) (s : SetDef) (l : Layout) (k sh : Nat) : Dev :=
  askOwner d s l k sh 0 (pubAddr s (ownerNth l sh)) 64

/-- Reads of a run that are open. -/
def runOpen (r : SetRun) : Nat := (r.shards.map (fun x => x.openReq)).sum

/-- The next pieces of a shard's bytes asked for, up to 4,096 reads outstanding in the run. -/
def askPieces (d : Dev) (s : SetDef) (l : Layout) (k sh : Nat) (pieces : List (Nat × Nat × Nat)) : Dev :=
  pieces.zipIdx.foldl (fun d p =>
    match findRun d k with
    | none => d
    | some r => match r.shards.find? (fun x => x.shard == sh) with
      | none => d
      | some x =>
        if x.stage = 1 ∧ x.bad.isNone ∧ x.asked = p.2 ∧ runOpen r < 4096 then
          modShard (askOwner d s l k sh (p.2 + 1) p.1.2.1 p.1.2.2) k sh (fun y => { y with asked := p.2 + 1 })
        else d) d

/-- Reads that wait for room are made, shard by shard. -/
def pumpRun (d : Dev) (k : Nat) : Dev :=
  match findRun d k, setSetup d k with
  | some r, some (s, _, l) =>
    r.shards.foldl (fun d x => if x.stage = 1 then askPieces d s l k x.shard (shardPieces d s l x.shard (runArrays s r)) else d) d
  | _, _ => d

/-- A shard starts again from step 1 of R291. -/
def startShard (d : Dev) (s : SetDef) (l : Layout) (k sh : Nat) : Dev :=
  askRecord (modShard d k sh (fun x => { x with stage := 0, asked := 0, bytes := [] })) s l k sh

/-- A shard's destination written poisoned (Table 15-3). -/
def poisonShard (d : Dev) (s : SetDef) (l : Layout) (sh : Nat) (arrays : List Nat) : Dev :=
  (shardPieces d s l sh arrays).foldl (fun d p =>
    match engineCheck d (setCellOf d l) true p.2.1 p.2.2 with
    | (.ok, x) => poisonRange d x p.2.2
    | _ => d) d

/-- A shard ends with a status and cause; DIGEST_MISMATCH and POISONED count it and poison what it was to write. -/
def endShard (d : Dev) (s : SetDef) (l : Layout) (r : SetRun) (sh : Nat) (st : Status) (cause : Nat) : Dev :=
  let spoiled := st = .digestMismatch || st = .poisoned
  let d := if spoiled && (r.op = .fetch || r.refetch) then poisonShard d s l sh (runArrays s r) else d
  let d := if spoiled then fcount d (CLV_SS_CTR_FAILED_SHARDS r.set) 1 else d
  modShard d r.set sh (fun x => { x with outcome := some (st, cause) })

/-! ## Fetch and check complete (R292, R294, R295) -/

/-- The lowest shard that failed, with its status, cause and attempts. -/
def firstBad (r : SetRun) : Option (Nat × Status × Nat × Nat) :=
  ((r.shards.filter (fun x => match x.outcome with | some (st, _) => decide (st ≠ .ok) | none => false)).insertionSort
    (fun a b => a.shard ≤ b.shard)).head?.map (fun x =>
      (x.shard, (x.outcome.getD (.ok, 0)).1, (x.outcome.getD (.ok, 0)).2, x.attempts))

/-- An operation ends as its shards say: the fault record 0x0A names the set, shard, owner and attempts where the status is
DIGEST_MISMATCH or POISONED. -/
def endRun (d : Dev) (l : Layout) (s : SetDef) (r : SetRun) : Dev :=
  match firstBad r with
  | none => completeSet d r.set r.op .ok 0 0
  | some (sh, st, cause, att) =>
    let d := if st = .digestMismatch || st = .poisoned then
        addFault d 0x0A st 0 9 r.set (opGauges s r.op).tag cause sh ((l.members.getD sh (0, 0)).1 * 2 ^ 32 + att % 256) []
      else d
    completeSet d r.set r.op st cause sh

/-- Every shard of a run has its outcome. -/
def allSettled (r : SetRun) : Bool := r.shards.all (fun x => x.outcome.isSome)

/-- A check whose comparisons are all made: the count and the lowest differing shard, then the policy of R295. -/
def settleCompare (d : Dev) (s : SetDef) (l : Layout) (r : SetRun) : Dev :=
  let k := r.set
  let diffs := r.diffs.insertionSort (fun a b => a ≤ b)
  let d := fcount d (CLV_SS_CTR_CHECK_DIFFS k) diffs.length
  let d := fset (fset d (CLV_SS_CHK_RES_DIFF k) diffs.length) (CLV_SS_CHK_RES_FIRST k) (diffs.headD 0)
  match firstBad r with
  | some _ => endRun d l s r
  | none =>
    if diffs.isEmpty then completeSet d k .check .ok 0 0
    else if s.stop then
      let d := addFault d 0x0B .digestMismatch 0 9 k s.chk.tag 7 r.num diffs.length ((diffs.take 16).flatMap (leBytes 4))
      completeSet d k .check .digestMismatch 7 (diffs.headD 0)
    else
      let fresh := fun (x : ShardRun) => { x with stage := 0, asked := 0, bytes := [], outcome := none, attempts := 0 }
      let d := modRun d k (fun r => { r with refetch := true, shards := (r.shards.filter (fun x => diffs.contains x.shard)).map fresh })
      diffs.foldl (fun d sh => startShard d s l k sh) d

/-- A check goes on once its shards have their outcomes; a fetch waits for SS_FETCH_DONE. -/
def settleRun (d : Dev) (k : Nat) : Dev :=
  match findRun d k, setSetup d k with
  | some r, some (s, _, l) =>
    if r.op ≠ .check || !allSettled r then d
    else if r.refetch then endRun d l s r else settleCompare d s l r
  | _, _ => d

/-! ## Responses (R291, Table 15-3) -/

/-- The version and digest that a record gives a run: the publish fields, or the check fields (R294, R295). -/
def recFields (r : SetRun) (bs : List Byte) : Nat × Nat :=
  let f := fun (o : Nat) => leNat ((bs.drop o).take 8)
  if r.op = .check then (f 40, f 48) else (f 0, f 8)

/-- This device's own digest of a shard's in-scope bytes. -/
def ownDigest (d : Dev) (e : EccHits) (s : SetDef) (l : Layout) (sh : Nat) (arrays : List Nat) : Dev × Status × Nat :=
  let (d, st, bs) := readParts d e (setCellOf d l) (arrays.map (shardPart d s l sh))
  (d, st, crc64 bs)

/-- The second record of a shard stands: the outcome of Table 15-3, or the comparison of a check. -/
def judgeShard (d : Dev) (e : EccHits) (s : SetDef) (l : Layout) (r : SetRun) (x : ShardRun) : Dev :=
  let k := r.set
  if r.op = .check && !r.refetch then
    let (d, st, mine) := ownDigest d e s l x.shard (runArrays s r)
    if st ≠ .ok then endShard d s l r x.shard st (causeOf st) else
      let d := if mine = x.digest then d else modRun d k (fun r => { r with diffs := r.diffs ++ [x.shard] })
      endShard d s l r x.shard .ok 0
  else
    let total := ((runArrays s r).map (fun a => (shardPart d s l x.shard a).2)).sum
    let crc := crc64 ((List.range total).map (fun i => smGet (fun _ => (0 : Byte)) x.bytes i))
    if crc = x.digest then
      let d := if r.refetch then fcount d (CLV_SS_CTR_REPAIRED k) 1 else d
      endShard d s l r x.shard .ok 0
    else
      let d := modShard d k x.shard (fun y => { y with attempts := y.attempts + 1 })
      if 3 ≤ x.attempts then endShard d s l r x.shard .digestMismatch 1
      else startShard (fcount d (CLV_SS_CTR_REFETCHES k) 1) s l k x.shard

/-- A publish record of a shard has come (steps 1 and 4). -/
def recordCame (d : Dev) (e : EccHits) (s : SetDef) (l : Layout) (r : SetRun) (x : ShardRun) (bs : List Byte) : Dev :=
  let k := r.set
  let (v, dig) := recFields r bs
  let want := runVersion r
  if x.stage = 0 then
    if v < want then
      modShard d k x.shard (fun y => { y with stage := 3, since := d.now, waits := if y.waits.isEmpty then [(0, (0, d.now))] else y.waits })
    else if want < v then endShard d s l r x.shard .digestMismatch 2
    else
      let d := modShard d k x.shard (fun y => { y with version := v, digest := dig, waits := [] })
      if r.op = .check && !r.refetch then askRecord (modShard d k x.shard (fun y => { y with stage := 2 })) s l k x.shard
      else if (shardPieces d s l x.shard (runArrays s r)).isEmpty then
        askRecord (modShard d k x.shard (fun y => { y with stage := 2 })) s l k x.shard
      else modShard d k x.shard (fun y => { y with stage := 1 })
  else if v ≠ x.version then endShard d s l r x.shard .digestMismatch 2
  else judgeShard d e s l r { x with digest := if r.op = .check && !r.refetch then dig else x.digest }

/-- A piece of a shard's bytes has come: written to the same place here (step 3); the second record follows the last. -/
def pieceCame (d : Dev) (s : SetDef) (l : Layout) (r : SetRun) (x : ShardRun) (p : Nat) (bs : List Byte) : Dev :=
  let k := r.set
  let pieces := shardPieces d s l x.shard (runArrays s r)
  match pieces[p]? with
  | none => d
  | some (o, a, _) =>
    let (d, st) := engineWrite d (setCellOf d l) a bs
    let d := if st = .ok then d else failShard d k x.shard st 3
    let d := modShard d k x.shard (fun y => { y with bytes := bs.zipIdx.foldl (fun m q => smInsert m (o + q.2) q.1) y.bytes })
    if x.openReq = 0 ∧ x.asked = pieces.length ∧ st = .ok ∧ x.bad.isNone then
      askRecord (modShard d k x.shard (fun y => { y with stage := 2 })) s l k x.shard
    else d

/-- Shards that have failed end once no read of theirs is open. -/
def failUnasked (d : Dev) (k : Nat) : Dev :=
  match findRun d k, setSetup d k with
  | some r, some (s, _, l) => r.shards.foldl (fun d x => match x.bad with
      | some (st, cause) => if x.openReq = 0 ∧ x.outcome.isNone then endShard d s l r x.shard st cause else d
      | none => d) d
  | _, _ => d

/-- A read of an owner has ended with a status and bytes. `openReq` of the shard counts it out first; a shard that has failed ends
once its last read has. -/
def shardBack (d : Dev) (e : EccHits) (k sh piece : Nat) (st : Status) (bs : List Byte) : Dev :=
  let d := modShard d k sh (fun x => { x with openReq := x.openReq - 1 })
  match findRun d k, setSetup d k with
  | some r, some (s, _, l) =>
    match r.shards.find? (fun x => x.shard == sh) with
    | none => d
    | some x =>
      if x.outcome.isSome then d else
      let d :=
        if st ≠ .ok then failShard d k sh st (causeOf st)
        else if x.bad.isSome then d
        else if piece = 0 then recordCame d e s l r x bs
        else pieceCame d s l r x (piece - 1) bs
      settleRun (failUnasked (pumpRun d k) k) k
  | _, _ => d

/-! ## Launching fetches and checks -/

/-- A shard of a new run. -/
def shardFresh (sh : Nat) : ShardRun :=
  { shard := sh, stage := 0, asked := 0, openReq := 0, version := 0, digest := 0, bytes := [], attempts := 0, since := 0,
    waits := [], bad := none, outcome := none }

/-- SS_FETCH (R291): the next fetch instance of a set launches and reads every foreign shard's record. -/
def ssFetch (d : Dev) (k : Fin 64) : Dev :=
  match setSetup d k with
  | none => d
  | some (s, _, l) =>
    let n := (setCounts d k).2.1
    if !setMayLaunch d k s l .fetch n then d else
      let d := setCounted d k (fun c => (c.1, c.2.1 + 1, c.2.2))
      let d := fset d (CLV_SS_STATUS_INSTANCE k) (n + 1)
      let d := traceEv d 4 0x20 s.fet.tag 0x100C k .ok (0, 0)
      let shards := foreignShards d l
      let run : SetRun := { set := k, op := .fetch, num := n, refetch := false, shards := shards.map shardFresh, diffs := [] }
      let d := { d with clv := { d.clv with setRuns := d.clv.setRuns ++ [run] } }
      failUnasked (shards.foldl (fun d sh => askRecord d s l k sh) d) k

/-- FETCH_SHARD_RETRY (R291): the 2 µs wait of an unpublished shard ends at time t; it starts again, unless the time-out of R282 has
expired. -/
def fetchShardRetry (d : Dev) (k : Fin 64) (sh t : Nat) : Dev :=
  let d := atTime d t
  match findRun d k, setSetup d k with
  | some r, some (s, g, l) =>
    match r.shards.find? (fun x => x.shard == sh) with
    | none => d
    | some x =>
      if x.stage ≠ 3 ∨ x.outcome.isSome ∨ d.now < x.since + 2000 then d
      else if waitsOver d g x.waits then settleRun (endShard d s l r sh .retiredResource 3) k
      else settleRun (failUnasked (startShard d s l k sh) k) k
  | _, _ => d

/-- SS_FETCH_DONE (R292): every shard has an outcome, and the fetch completes. -/
def ssFetchDone (d : Dev) (k : Fin 64) : Dev :=
  match findRun d k, setSetup d k with
  | some r, some (s, _, l) => if r.op = .fetch && allSettled r then endRun d l s r else d
  | _, _ => d

/-- The owner's digest of one of its shards, written into its record (R294). -/
def checkOwn (d : Dev) (e : EccHits) (s : SetDef) (l : Layout) (r : SetRun) (sh nth : Nat) : Dev × Status :=
  let c := setCellOf d l
  let (d, st, dig) := ownDigest d e s l sh (runArrays s r)
  if st ≠ .ok then (d, st) else engineWrite d c (pubAddr s nth + 40) (leBytes 8 (runVersion r) ++ leBytes 8 dig)

/-- The digests of every owned shard written in order, up to the first that fails: the status, and the last shard tried. -/
def checkOwns (d : Dev) (e : EccHits) (s : SetDef) (l : Layout) (run : SetRun) : Dev × Status × Nat :=
  ((ownRanks d l).zipIdx).foldl (fun (r : Dev × Status × Nat) p =>
    if r.2.1 ≠ .ok then r else
      let (d, st) := checkOwn r.1 e s l run p.1 p.2
      (d, st, p.1)) (d, .ok, 0)

/-- SS_CHECK (R294): the next check instance of a set launches: the owner's digests are written, and every other owner's record is
read. -/
def ssCheck (d : Dev) (k : Fin 64) (e : EccHits) : Dev :=
  match setSetup d k with
  | none => d
  | some (s, _, l) =>
    let n := (setCounts d k).2.2
    if !setMayLaunch d k s l .check n then d else
      let d := setCounted d k (fun c => (c.1, c.2.1, c.2.2 + 1))
      let d := traceEv d 4 0x20 s.chk.tag 0x100C k .ok (0, 0)
      let shards := foreignShards d l
      let run : SetRun := { set := k, op := .check, num := n, refetch := false, shards := shards.map shardFresh, diffs := [] }
      let (d, st, bad) := checkOwns d e s l run
      if st ≠ .ok then completeSet d k .check st (causeOf st) bad else
        let d := { d with clv := { d.clv with setRuns := d.clv.setRuns ++ [run] } }
        settleRun (failUnasked (shards.foldl (fun d sh => askRecord d s l k sh) d) k) k

/-! ## Levees and switches (R293) -/

/-- Reads of a set that are still open: their responses are dropped. -/
def dropShardRids (d : Dev) (k : Nat) : Dev :=
  let hit := fun (u : RidUse) => match u with
    | .shard s _ _ => s == k
    | _ => false
  { d with
    rids := d.rids.map (fun e => (e.1, e.2.map (fun r => if hit r.use then { r with use := .dropped } else r)))
    reqWait := d.reqWait.filter (fun e => !hit e.1.use) }

/-- Every operation in progress whose member's cell is among some cells ends with a status. -/
def endSets (d : Dev) (cells : Nat → Bool) (st : Status) : Dev :=
  d.clv.setRuns.foldl (fun d r => match setSetup d r.set with
    | some (_, _, l) => if cells (setCellOf d l) then completeSet (dropShardRids d r.set) r.set r.op st 3 0 else d
    | none => d) d

/-- The edges that pass for shards that wait for their publication. -/
def setsEdge (d : Dev) : Dev :=
  { d with clv := { d.clv with setRuns := d.clv.setRuns.map (fun r =>
      { r with shards := r.shards.map (fun x => { x with waits := waitsEdge x.waits }) }) } }

/-- The publish records of a set cleared (R293). -/
def clearPub (d : Dev) (s : SetDef) (l : Layout) : Dev :=
  (List.range (ownRanks d l).length).foldl (fun d nth =>
    (engineWrite d (setCellOf d l) (pubAddr s nth) (List.replicate 64 0)).1) d

/-! ## Export and import (R296 to R298) -/

/-- Arrays that an export names: every array in L6 mode and for the owner, else W and WS (R297). -/
def exportArrays (d : Dev) (s : SetDef) (l : Layout) (sh : Nat) : List Nat :=
  (List.range 7).filter (fun a => decide (0 < arrayBits s a) && (decide (a ≤ 1) || s.l6 || (ownRanks d l).contains sh))

/-- Bytes padded with zeros to a multiple of 64. -/
def padTo64 (bs : List Byte) : List Byte := bs ++ List.replicate ((64 - bs.length % 64) % 64) 0

/-- The header of an export file (Table 15-4). -/
def exportHead (d : Dev) (s : SetDef) (l : Layout) (sh : Nat) (arrays : List Nat) (version digest : Nat) : List Byte :=
  let (lo, n) := setSpan s l sh
  let img := d.pat.active
  ([0x53, 0x4C, 0x53, 0x58] : List Byte) ++ leBytes 2 1 ++ leBytes 2 128 ++ leBytes 2 s.tensor ++ leBytes 1 (if s.l6 then 1 else 0) ++
    leBytes 1 s.wfmt ++ leBytes 4 sh ++ leBytes 4 (layoutSize l) ++ leBytes 8 s.p ++ leBytes 8 lo ++ leBytes 8 n ++
    leBytes 4 ((arrays.map (fun a => 2 ^ a)).sum) ++ leBytes 8 version ++ leBytes 8 (rget d TID_COUNT).toNat ++
    leBytes 8 d.tide.seed.toNat ++ leBytes 8 d.tide.step ++ leBytes 16 (match img with | some i => i.id | none => 0) ++
    leBytes 8 (match img with | some i => i.job | none => 0) ++ leBytes 8 digest ++ leBytes 16 0

/-- VERSION of the record of an owned shard; 0 for another's. -/
def pubVersion (d : Dev) (e : EccHits) (s : SetDef) (l : Layout) (sh : Nat) : Dev × Status × Nat :=
  match (ownRanks d l).findIdx? (fun r => r == sh) with
  | none => (d, .ok, 0)
  | some nth =>
    let (d, st, bs) := engineRead d e (setCellOf d l) (pubAddr s nth) 8
    (d, st, leNat bs)

/-- The copy of an export, but for DIGEST: status, bytes written, the version read before it, and the digest. -/
def exportCopy (d : Dev) (e : EccHits) (s : SetDef) (l : Layout) (sh addr : Nat) : Dev × Status × Nat × Nat × Nat :=
  let c := setCellOf d l
  let arrays := exportArrays d s l sh
  let (d, st, v) := pubVersion d e s l sh
  if st ≠ .ok then (d, st, 0, v, 0) else
    let (d, st, parts) := arrays.foldl (fun (r : Dev × Status × List (List Byte)) a =>
      if r.2.1 ≠ .ok then r else
        let (x, n) := shardPart r.1 s l sh a
        let (d, st, bs) := engineRead r.1 e c x n
        (d, st, r.2.2 ++ [bs])) (d, .ok, [])
    if st ≠ .ok then (d, st, 0, v, 0) else
      let sum := crc64 parts.flatten
      let file := exportHead d s l sh arrays v sum ++ (parts.map padTo64).flatten
      let (d, st) := engineWrite d c addr (file.take 104)
      if st ≠ .ok then (d, st, 0, v, sum) else
        let (d, st) := engineWrite d c (addr + 112) (file.drop 112)
        (d, st, file.length, v, sum)

/-- The end of a command of CE12: CLV_SS_STATUS, and the host command's status, DETAIL and RESULT (R335). -/
def endFileOp (d : Dev) (k seq set : Nat) (st : Status) (cause shard bytes : Nat) : Dev :=
  markOver (setOutcome d set 3 st cause shard) k seq st cause bytes

/-- STATE_EXPORT (R297): an export of ring k that has copied its shard ends, its DIGEST written, or ABORTED where PUB.VERSION has
changed; else the command that starts next, if it is an export, copies its shard. Between the two its `result` holds the bytes and
`detail` the version. -/
def stateExport (d : Dev) (k : Nat) (e : EccHits) : Dev :=
  let begun := (getRing d k).cmds.find? (fun c => c.started && !c.ended && c.final.isNone && (match c.op with | .stateExport _ _ _ => true | _ => false))
  match begun.or (nextCmd d k) with
  | none => d
  | some cmd =>
    match cmd.op with
    | .stateExport set sh addr =>
      match setSetup d set with
      | none => endFileOp d k cmd.seq set .aborted 3 sh 0
      | some (s, _, l) =>
        if layoutSize l ≤ sh then endFileOp d k cmd.seq set .aborted 3 sh 0
        else if !cmd.started then
          let (d, st, n, v, sum) := exportCopy d e s l sh addr
          if st = .ok then
            modCmd d k cmd.seq (fun c => { c with started := true, result := n, detail := v, spans := [(addr + 104, sum)] })
          else endFileOp d k cmd.seq set st (causeOf st) sh 0
        else
          let (d, st, v) := pubVersion d e s l sh
          if st ≠ .ok then endFileOp d k cmd.seq set st (causeOf st) sh 0
          else if v = cmd.detail then
            let (d, st) := cmd.spans.foldl (fun (r : Dev × Status) p => engineWrite r.1 (setCellOf r.1 l) p.1 (leBytes 8 p.2)) (d, .ok)
            endFileOp d k cmd.seq set st (causeOf st) (if st = .ok then 0 else sh) (if st = .ok then cmd.result else 0)
          else endFileOp d k cmd.seq set .aborted 6 sh cmd.result
    | _ => d

/-- The fields of an import file's header that R298 uses. -/
structure FileHead where
  ok     : Bool
  lo     : Nat
  n      : Nat
  arrays : List Nat
  digest : Nat
  deriving DecidableEq, Repr

/-- A header read and checked against a set (R298). -/
def fileHead (s : SetDef) (bs : List Byte) : FileHead :=
  let f := fun (o n : Nat) => leNat ((bs.drop o).take n)
  let lo := f 28 8
  let n := f 36 8
  { ok := decide (bs.take 4 = [0x53, 0x4C, 0x53, 0x58]) && f 4 2 == 1 && f 8 2 == s.tensor % 2 ^ 16 && f 10 1 == (if s.l6 then 1 else 0) &&
      f 11 1 == s.wfmt.val && f 20 8 == s.p && lo % 256 == 0 && decide (lo + n ≤ s.p),
    lo := lo, n := n, arrays := (List.range 7).filter (fun a => (f 44 4).testBit a), digest := f 104 8 }

/-- Where elements lo to lo + n of an array of a file go on this device: pieces with the element offset in the file, the input
address, and the elements. -/
def importSpans (d : Dev) (s : SetDef) (l : Layout) (a lo n : Nat) : List (Nat × Nat × Nat) :=
  let base := s.addrs.getD a 0
  if wholeArray s a then [(0, base + arrayLen s a lo, n)]
  else (ownRanks d l).filterMap (fun r =>
    let (so, sn) := setSpan s l r
    let first := max lo so
    let last := min (lo + n) (so + sn)
    if first < last then some (first - lo, base + arrayLen s a (ownBase d s l r + (first - so)), last - first) else none)

/-- Ranges written poisoned where they can be, by an engine of cell c. -/
def poisonSpans (d : Dev) (c : Nat) (spans : List (Nat × Nat)) : Dev :=
  spans.foldl (fun d w => (cutAt 64 w.1 w.2).foldl (fun d p =>
    match engineCheck d c true (w.1 + p.1) p.2 with
    | (.ok, x) => poisonRange d x p.2
    | _ => d) d) d

/-- The arrays of an import file read in order from an input address: the first status met, and each array's bytes. -/
def importParts (d : Dev) (e : EccHits) (c : Nat) (s : SetDef) (h : FileHead) (addr : Nat) : Dev × Status × List (Nat × List Byte) :=
  let lens := h.arrays.map (fun a => (a, arrayLen s a h.n))
  let (d, st, parts, _) := lens.foldl (fun (r : Dev × Status × List (Nat × List Byte) × Nat) p =>
    if r.2.1 ≠ .ok then r else
      let (d, st, bs) := engineRead r.1 e c (addr + r.2.2.2) p.2
      (d, st, r.2.2.1 ++ [(p.1, bs)], r.2.2.2 + (p.2 + 63) / 64 * 64)) (d, .ok, [], 128)
  (d, st, parts)

/-- What an import writes: input addresses and bytes, of the arrays that the set has. -/
def importWrites (d : Dev) (s : SetDef) (l : Layout) (h : FileHead) (parts : List (Nat × List Byte)) : List (Nat × List Byte) :=
  parts.flatMap (fun p => if arrayBits s p.1 = 0 then [] else
    (importSpans d s l p.1 h.lo h.n).map (fun w => (w.2.1, (p.2.drop (arrayLen s p.1 w.1)).take (arrayLen s p.1 w.2.2))))

/-- Ranges written by an engine of cell c, up to the first status other than OK. -/
def writeSpans (d : Dev) (c : Nat) (writes : List (Nat × List Byte)) : Dev × Status :=
  writes.foldl (fun (r : Dev × Status) w => if r.2 ≠ .ok then r else engineWrite r.1 c w.1 w.2) (d, .ok)

/-- STATE_IMPORT (R298): the command of ring k that starts next, if it is an import, is performed. -/
def stateImport (d : Dev) (k : Nat) (e : EccHits) : Dev :=
  match nextCmd d k with
  | none => d
  | some cmd =>
    match cmd.op with
    | .stateImport set addr =>
      match setSetup d set with
      | none => endFileOp d k cmd.seq set .aborted 3 0 0
      | some (s, _, l) =>
        let c := setCellOf d l
        let (d, st, head) := engineRead d e c addr 128
        if st ≠ .ok then endFileOp d k cmd.seq set st (causeOf st) 0 0 else
        let h := fileHead s head
        if !h.ok then endFileOp d k cmd.seq set .aborted 5 0 0 else
        let (d, st, parts) := importParts d e c s h addr
        if st ≠ .ok then endFileOp d k cmd.seq set st (causeOf st) 0 0 else
        let good := crc64 (parts.flatMap (fun p => p.2)) = h.digest
        let writes := importWrites d s l h parts
        let spans := writes.map (fun w => (w.1, w.2.length))
        let d := modCmd d k cmd.seq (fun c => { c with started := true, spans := spans })
        let (d, st) := writeSpans d c writes
        let total := (writes.map (fun w => w.2.length)).sum
        if st ≠ .ok then endFileOp d k cmd.seq set st (causeOf st) 0 0
        else if good then endFileOp d k cmd.seq set .ok 0 0 total
        else endFileOp (poisonSpans d c spans) k cmd.seq set .digestMismatch 1 0 total
    | _ => d

/-! ## Registers (R299) -/

/-- Gauges of an operation in the layout of Table 15-7. -/
def gaugesWord (g : CollGauges) : Word :=
  BitVec.ofNat 64 (g.tag % 2 ^ 16 * 2 ^ 48 + g.launch.patch.val * 2 ^ 40 + g.launch.gauge.val * 2 ^ 34 + g.complete.patch.val * 2 ^ 26 +
    g.complete.gauge.val * 2 ^ 20 + g.inc % 256 * 2 ^ 12 + g.step % 4096)

/-- The configuration registers of a set (Tables 15-5 and 15-6). -/
def setRegs (d : Dev) (c : CollSec) (s : SetDef) : Dev :=
  let k := s.num.val
  let own := match c.groups.find? (fun g => g.num == s.group) with
    | some g => match g.layouts.head? with
      | some l => (ownRanks d l).headD 0xFFFFFFFF
      | none => 0xFFFFFFFF
    | none => 0xFFFFFFFF
  let d := fset (fset d (CLV_SS_CFG0_VALID k) 1) (CLV_SS_CFG0_MODE k) (if s.l6 then 1 else 0)
  let d := fset (fset d (CLV_SS_CFG0_SCOPE k) (if s.all then 1 else 0)) (CLV_SS_CFG0_POLICY k) (if s.stop then 1 else 0)
  let d := fset (fset d (CLV_SS_CFG0_GROUP k) s.group) (CLV_SS_CFG0_WFMT k) s.wfmt
  let d := fset (fset d (CLV_SS_CFG0_TENSOR k) s.tensor) (CLV_SS_CFG0_OWN_SHARD k) own
  let d := rset (rset (rset d (CLV_SS_PUB k) (gaugesWord s.pub)) (CLV_SS_FET k) (gaugesWord s.fet)) (CLV_SS_CHK k) (gaugesWord s.chk)
  let d := fset d (CLV_SS_P_P k) s.p
  (List.range 8).foldl (fun d j => rset d (CLV_SS_ADDR k j) (BitVec.ofNat 64 (s.addrs.getD j 0))) d

/-- The CLV registers of a section in force from a switch edge (R267, R284, R286, R293, R299), the engines having no operation of
the one before. -/
def clvInstall (d : Dev) (c : Option CollSec) : Dev :=
  let d := { d with clv := { clvReset with aborts := d.clv.aborts } }
  let d := wipeRegs d (fun o => decide (CLV_GRP_CFG 0 ≤ o ∧ o < CLV_SS_CFG0 64))
  let d := fset d CLV_STATUS_GRP_BUSY 0
  match c with
  | none => d
  | some c =>
    let d := c.groups.foldl (fun d g => groupRegs d g 0) d
    let d := c.slots.foldl (fun d s => slotRegs d c s) d
    c.sets.foldl (fun d s => setRegs d c s) d

end Sys2Proof.Machine
end

