-- ==== Sys2Proof/Machine/Remote.lean ====
section
/-! DEFINITION. Remote access over Trafort (R259 to R261, R184): requests that arrive from other devices, responses, and
time-outs. -/
namespace Sys2Proof.Machine

/-! ## The end of this device's requests (R259) -/

/-- The outstanding request of a RID. -/
def ridOf (d : Dev) (rid : Nat) : Option RidRec := smGet (fun _ => none) d.rids rid

/-- Bytes of a response that carries none because its data are poisoned: free values (R261 says only that they are poisoned). -/
def freeBytes (d : Dev) : Nat → Dev × List Byte
  | 0 => (d, [])
  | n + 1 =>
    let (k, d) := takeFree d
    let (d, t) := freeBytes d n
    (d, BitVec.ofNat 8 (Config.free k) :: t)

/-- A request ends at its issuer with a status and, for a read that is OK, its bytes. -/
def endUse (d : Dev) (r : RidRec) (st : Status) (bytes : List Byte) : Dev :=
  let spoiled := decide (st = .poisoned)
  let soft := if spoiled then Status.ok else st
  match r.use with
  | .load c t id place => loadBack d c t id place (leNat bytes) st
  | .store c t => storeBack d c t st
  | .gather c lane place => laneBack d c lane place (leNat bytes) st
  | .fill node line =>
    { d with far := { d.far with misses := d.far.misses.map (fun m =>
        if m.node == node && m.line == line && m.data.isNone then { m with data := some (st, bytes) } else m) } }
  | .dmaList c n off => dmaReadBack d c n off soft bytes spoiled
  | .dmaRead c n dst => dmaReadBack d c n dst soft bytes spoiled
  | .dmaWrite c n => dmaWriteBack d c n st
  | .gauge => d
  | .dropped => d
  | .copyRead _ k seq dst => copyBack d k seq dst bytes.length true soft bytes spoiled
  | .copyWrite _ k seq => copyBack d k seq 0 r.bytes false st [] false
  | .shard set sh piece => shardBack d noEcc set sh piece st bytes
  | .bar2 p id => bar2Back d p id soft bytes spoiled
  | .ingest p i => ingestBack d p i st

/-- A request completes: its RID is free, and its issuer hears. -/
def completeRid (d : Dev) (rid : Nat) (st : Status) (bytes : List Byte) : Dev :=
  match ridOf d rid with
  | none => d
  | some r =>
    let (d, bytes) := if st = .poisoned then freeBytes d r.bytes else (d, bytes)
    endUse (freeRid d rid) r st bytes

/-- A request of this device that cannot reach its target completes at once (R252, R258). -/
def failRequest (d : Dev) (m : Msg) : Dev :=
  match m.body with
  | .rd _ _ => completeRid d m.rid .retiredResource []
  | .wr _ _ _ => completeRid d m.rid .retiredResource []
  | .gauge _ _ _ _ => completeRid d m.rid .retiredResource []
  | _ => d

/-- A response that arrives (R259): one whose RID is not outstanding is discarded and counted. -/
def responseCame (d : Dev) (m : Msg) (st : Status) (bytes : List Byte) : Dev :=
  match ridOf d m.rid with
  | none => fcount d TRF_CTR_LATE_RSP 1
  | some r => if r.rests then fcount d TRF_CTR_LATE_RSP 1 else completeRid d m.rid st bytes

/-- RD_RSP. -/
def rdRsp (d : Dev) : Dev :=
  match takeMsg d (fun m => match m.body with | .rdRsp _ _ => true | _ => false) with
  | none => d
  | some (m, d) => match m.body with
    | .rdRsp st bytes => responseCame d m st bytes
    | _ => d

/-- WR_RSP. -/
def wrRsp (d : Dev) : Dev :=
  match takeMsg d (fun m => match m.body with | .wrRsp _ => true | _ => false) with
  | none => d
  | some (m, d) => match m.body with
    | .wrRsp st => responseCame d m st []
    | _ => d

/-- GAUGE_RSP. -/
def gaugeRsp (d : Dev) : Dev :=
  match takeMsg d (fun m => match m.body with | .gaugeRsp _ => true | _ => false) with
  | none => d
  | some (m, d) => match m.body with
    | .gaugeRsp st => responseCame d m st []
    | _ => d

/-- REMOTE_TIMEOUT (R259): at time t, a request with no response within TRF_CFG.REMOTE_TIMEOUT completes with RETIRED_RESOURCE, and
its RID rests. -/
def remoteTimeout (d : Dev) (rid t : Nat) : Dev :=
  let d := atTime d t
  match ridOf d rid with
  | none => d
  | some r =>
    if r.rests || decide (d.now < r.since + 1000 * fget d TRF_CFG_REMOTE_TIMEOUT) then d else
      let d := fcount d TRF_CTR_TIMEOUTS 1
      let rest : RidRec := { r with use := .dropped, since := d.now, rests := true }
      endUse { d with rids := smSet (fun _ => none) d.rids rid (some rest) } r .retiredResource []

/-- RID_REUSE_TIMEOUT (R259): 2 × REMOTE_TIMEOUT after its time-out, a RID is free, and goes to a request that waits for one. -/
def ridReuseTimeout (d : Dev) (rid t : Nat) : Dev :=
  let d := atTime d t
  match ridOf d rid with
  | none => d
  | some r => if r.rests && decide (r.since + 2000 * fget d TRF_CFG_REMOTE_TIMEOUT ≤ d.now) then freeRid d rid else d

/-! ## Requests of other devices (R184, R261) -/

/-- A response on its way. -/
def respond (d : Dev) (m : Msg) (body : MsgBody) : Dev :=
  { d with toRoute := d.toRoute ++ [{ body := body, vc := 13, dest := m.src, src := nodeId d, rid := m.rid, hops := 0 }] }

/-- The target's check of a request (R180, R184, R155, R261): the cause of its refusal, 5 or 6. -/
def targetRefusal (d : Dev) (node a n : Nat) (write : Bool) : Option Nat :=
  match placeOf a with
  | .reserved => some 6
  | .regs _ => some 5
  | _ =>
    match lookup d (nodeId d % 2 ^ 16 * 2 ^ 48 + a % 2 ^ 48) with
    | .none _ => some 5
    | .leaf l _ =>
      if !l.attr.remote || !(if write then l.attr.w else l.attr.r) then some 5
      else if ownerOk d (.remote node) a n write then none else some 5

/-- A refusal at the target counted and recorded: REQ 8, the requesting node as SOURCE. -/
def refuseRemote (d : Dev) (m : Msg) (a n : Nat) (write : Bool) (cause : Nat) : Dev :=
  let d := if ownerOk d (.remote m.src) a n write then d else countDeny d a
  recordRefusal (fcount d XLT_CTR_REMOTE_DENY 1) a cause 0xFF 8 0 m.src

/-- RD (R261): the oldest read request that has arrived is checked, performed at home and answered. -/
def remoteRd (d : Dev) (e : EccHits) : Dev :=
  match takeMsg d (fun m => match m.body with | .rd _ _ => true | _ => false) with
  | none => d
  | some (m, d) => match m.body with
    | .rd a n =>
      let d := countWalk d
      match targetRefusal d m.src a n false with
      | some cause => respond (refuseRemote d m a n false cause) m (.rdRsp .xltFault [])
      | none =>
        let st := rangeStatus d a n
        if st ≠ .ok then respond d m (.rdRsp st []) else
          let (d, bs, bad) := agentLoad d e a n
          respond d m (if bad then .rdRsp .poisoned [] else .rdRsp .ok bs)
    | _ => d

/-- WR (R261): the oldest write request that has arrived is checked, performed and acknowledged; the acknowledgement of a write that a
scratchpad holds follows its release (R64). -/
def remoteWr (d : Dev) : Dev :=
  match takeMsg d (fun m => match m.body with | .wr _ _ _ => true | _ => false) with
  | none => d
  | some (m, d) => match m.body with
    | .wr a bytes poison =>
      let d := countWalk d
      let n := bytes.length
      match targetRefusal d m.src a n true with
      | some cause => respond (refuseRemote d m a n true cause) m (.wrRsp .xltFault)
      | none =>
        let st := rangeStatus d a n
        if st ≠ .ok then respond d m (.wrRsp st) else
          let (d, held) := agentStore d a bytes poison (.remote m.src m.rid)
          if held = 0 then respond d m (.wrRsp .ok) else d
    | _ => d

/-- REMOTE_GAUGE (R261, R52, R217): the oldest GAUGE request that has arrived is applied at the gauge's home and answered. -/
def remoteGauge (d : Dev) : Dev :=
  match takeMsg d (fun m => match m.body with | .gauge _ _ _ _ => true | _ => false) with
  | none => d
  | some (m, d) => match m.body with
    | .gauge cell ref src op =>
      let u : GaugeUpd := { patch := ref.patch, gauge := ref.gauge, src := src, cell := cell, node := m.src, op := op }
      if ref.patch.val = 0 then
        let st := nearStatus d (cell % 4096) false
        if (getCell d (cell % 4096)).retired then respond d m (.gaugeRsp .retiredResource)
        else if st ≠ .ok then respond d m (.gaugeRsp st)
        else respond (applyCellGauge d (cell % 4096) ref.gauge [u]) m (.gaugeRsp .ok)
      else match patchDef d ref.patch with
        | none => respond d m (.gaugeRsp .retiredResource)
        | some p =>
          if p.home ≠ nodeId d then respond d m (.gaugeRsp .retiredResource)
          else if leveeDevice d && !fbit d KPR_READY_CORE then respond d m (.gaugeRsp .resetAborted)
          else respond (applyPatchGauge d ref.patch ref.gauge [u]) m (.gaugeRsp .ok)
    | _ => d

end Sys2Proof.Machine
end

