-- ==== Sys2Proof/Machine/Trafort.lean ====
section
/-! DEFINITION. Trafort links and routing (R242 to R258, R263): bring-up, flits, lane and port retirement, virtual channels and
routes. -/
namespace Sys2Proof.Machine

/-! ## Port states (Table 13-9) -/

/-- STATE of port p, and its codes. -/
def portState (d : Dev) (p : Nat) : Nat := fget d (TRF_PORT_STATUS_STATE p)
def psDown : Nat := 0
def psTraining : Nat := 2
def psUp : Nat := 3
def psReconfig : Nat := 4
def psRetired : Nat := 5
def psDisabled : Nat := 6

/-- Whether a port carries traffic: UP, or in a width change that it comes back from (R251). -/
def portCarries (d : Dev) (p : Nat) : Bool := portState d p == psUp || portState d p == psReconfig

/-- A port's state changes: TRF_STATUS, KPR_READY and event 24 follow. -/
def setPortState (d : Dev) (p st reason : Nat) : Dev :=
  let was := portState d p
  let d := fset (fset d (TRF_PORT_STATUS_STATE p) st) (TRF_PORT_STATUS_REASON p) reason
  let d := rsetBit d TRF_STATUS (16 + p) (st == psUp)
  let d := rsetBit d TRF_STATUS p (st == psRetired)
  let d := rsetBit d KPR_READY (32 + p) (st == psUp || st == psReconfig)
  if was = st then d else raiseBoth d 24

/-- Unretired lanes of a port, rising. -/
def goodLanes (d : Dev) (p : Nat) : List Nat := (List.range 8).filter (fun l => fget d (TRF_LANE_STATE p l) != 2)

/-- The width that a number of lanes allows (R251). -/
def widthOf (n : Nat) : Nat := if 8 ≤ n then 8 else if 6 ≤ n then 6 else if 4 ≤ n then 4 else 0

/-- IN_SERVICE: lanes not retired. -/
def noteLanes (d : Dev) (p : Nat) : Dev := fset d (TRF_PORT_STATUS_IN_SERVICE p) ((goodLanes d p).map (fun l => 2 ^ l)).sum

/-- The lanes of a port take their places at the largest width (R251). -/
def applyWidth (d : Dev) (p : Nat) : Dev :=
  let good := goodLanes d p
  let w := widthOf good.length
  let act := good.take w
  let d := good.foldl (fun d l => fset d (TRF_LANE_STATE p l) (if act.contains l then 0 else 1)) d
  let d := fset (fset d (TRF_PORT_STATUS_WIDTH p) w) (TRF_PORT_STATUS_ACTIVE p) (act.map (fun l => 2 ^ l)).sum
  noteLanes d p

/-- The lanes of a port that is not up: retired lanes stay so. -/
def lanesDown (d : Dev) (p : Nat) : Dev :=
  let d := (goodLanes d p).foldl (fun d l => fset d (TRF_LANE_STATE p l) 3) d
  fset (fset d (TRF_PORT_STATUS_WIDTH p) 0) (TRF_PORT_STATUS_ACTIVE p) 0

/-! ## Taking a port down (R252) -/

/-- Messages that a flit not yet acknowledged may have carried, and the one that flits have begun. -/
def unackedMsgs (q : Port) : List Msg :=
  (q.held.flatMap (fun h => h.flit.msgs ++ h.begins) ++ (match q.cur with | some (m, _) => [m] | none => [])).dedup

/-- Messages of a port that no flit has begun. -/
def waitingMsgs (q : Port) : List Msg := q.side ++ q.vcq.flatMap (fun e => e.2)

/-- A message discarded: this device's own request ends at once, its own collective message is a failure (R252, R258, R280). -/
def discardMsg (d : Dev) (m : Msg) : Dev := if m.src = nodeId d then clvDiscarded (failRequest d m) m else d

/-- A port goes down: what waits is routed again, what a flit has carried unacknowledged is discarded. Messages of the tide tree go
link by link and end with their link. -/
def portTakedown (d : Dev) (p st reason : Nat) : Dev :=
  let q := getPort d p
  let again := (waitingMsgs q).filter (fun m => m.dest != 0xFFFF)
  let gone := unackedMsgs q
  let d := slcFlitsFreed d p (getPort d p).held.length
  let d := modPort d p (fun q => { portReset with cable := q.cable, cableOk := q.cableOk, laneLost := q.laneLost })
  let d := { d with toRoute := d.toRoute ++ again, flows := d.flows.filter (fun f => f.port != p) }
  let d := fset (lanesDown d p) (TRF_PORT_STATUS_HELD p) 0
  let d := fset (setPortState d p st reason) (TRF_PORT_PEER_VALID p) 0
  gone.foldl discardMsg d

/-- PORT_RETIRE (R252): a port retired for the session, with its fault record. -/
def portRetire (d : Dev) (p reason : Nat) : Dev :=
  let peer := fget d (TRF_PORT_PEER_NODE p)
  addFault (portTakedown d p psRetired reason) 0x09 .retiredResource 1 5 p 0 reason peer 0 []

/-- A port disabled, or without its polder or cable. -/
def portDisable (d : Dev) (p reason : Nat) : Dev :=
  let peer := fget d (TRF_PORT_PEER_NODE p)
  addFault (portTakedown d p psDisabled reason) 0x09 .retiredResource 0 5 p 0 reason peer 0 []

/-! ## Bring-up (R243 to R245) -/

/-- Whether a port's polder is on (Table 19-1). -/
def portPowered (d : Dev) (p : Nat) : Bool := rbit d PWR_POLDER_ON_HI (8 + p / 3)

/-- Training starts if the port may train: the cable is read, and one that is not accepted leaves the port DOWN (R243, R245). -/
def portTrain (d : Dev) (p : Nat) (accepted : Bool) : Dev :=
  if !fbit d TRF_NODE_CFG_VALID || !(getPort d p).cable || !portPowered d p || fbit d (TRF_PORT_CTL_DISABLE p) ||
      decide (portState d p ≠ psDown) then d
  else
    let d := modPort d p (fun q => { q with cableOk := accepted })
    if accepted then setPortState d p psTraining 0 else setPortState d p psDown 2

/-- CABLE_PRESENT (R243, R245): Tp_PRSNT_N changes; `accepted` is what reading the cable finds. -/
def cablePresent (d : Dev) (p : Nat) (present accepted : Bool) : Dev :=
  if present then portTrain (modPort d p (fun q => { q with cable := true })) p accepted
  else
    let d := modPort d p (fun q => { q with cable := false, cableOk := false })
    if portState d p = psRetired || portState d p = psDisabled then d else portTakedown d p psDown 1

/-- PORT_UP (R243, R244): training ends with the peer exchange. -/
def trfPortUp (d : Dev) (p peerNode peerPort : Nat) : Dev :=
  if portState d p ≠ psTraining then d
  else if peerNode = nodeId d then setPortState d p psDown 4
  else
    let d := modPort d p (fun q => { portReset with cable := q.cable, cableOk := q.cableOk, laneLost := q.laneLost, vcq := q.vcq, side := q.side })
    let d := applyWidth d p
    let d := fset (fset d (TRF_PORT_PEER_VALID p) 1) (TRF_PORT_PEER_PORT p) peerPort
    setPortState (fset d (TRF_PORT_PEER_NODE p) peerNode) p psUp 0

/-- PORT_TRAIN_TIMEOUT (R243): a port not UP within 200 ms returns to DOWN with REASON 3. -/
def portTrainTimeout (d : Dev) (p : Nat) : Dev := if portState d p = psTraining then setPortState d p psDown 3 else d

/-- PORT_TRAIN_RETRY (R243): a DOWN port with a cable tries again. -/
def portTrainRetry (d : Dev) (p : Nat) (accepted : Bool) : Dev := portTrain d p accepted

/-! ## Retraining (R249) -/

/-- The port relocks and deskews its lanes; nothing is sent or accepted meanwhile. -/
def startRetrain (d : Dev) (p : Nat) : Dev :=
  modPort (fcount d (TRF_PORT_LINK_RETRAINS p) 1) p (fun q => { q with retrying := true })

/-- Every held flit is to be sent again from the oldest one (R248). -/
def resendAll (d : Dev) (p : Nat) : Dev :=
  slcRewind (modPort d p (fun q => { q with resend := q.held.map (fun h => h.flit.seq) })) (4 + p)

/-- PORT_RETRAIN_DONE (R249): a retrain ends. Lanes that do not lock retrain again; three in a row that do not help retire the port. -/
def portRetrainDone (d : Dev) (p : Nat) (locked : Bool) : Dev :=
  if !(getPort d p).retrying then d
  else if locked then resendAll (modPort d p (fun q => { q with retrying := false })) p
  else if 3 ≤ (getPort d p).trainFail then portRetire d p 7
  else startRetrain (modPort d p (fun q => { q with trainFail := q.trainFail + 1 })) p

/-- The retry limit of R249: one SEQ sent again 8 times without ACK passing it. -/
def retryLimit (d : Dev) (p : Nat) : Dev :=
  if 3 ≤ (getPort d p).trainFail then portRetire d p 7
  else startRetrain (modPort d p (fun q => { q with trainFail := q.trainFail + 1, held := q.held.map (fun h => { h with resent := 0 }) })) p

/-- NODE_ID_WRITE (R244): a write of TRF_NODE_CFG.ID by the control-owner port or the keeper while no Pattern is in effect. -/
def nodeIdWrite (d : Dev) (by_ : Option PciePort) (v : Word) : Dev :=
  if !ownerWrites d by_ || fbit d PAT_STATUS_ACTIVE then d else
    let d := fset (fset (fset d TRF_NODE_CFG_ID (bitsOf v 0 16)) TRF_NODE_CFG_VALID 1) KPR_READY_NODE_ID 1
    (List.range 12).foldl (fun d p => if portState d p = psUp then startRetrain d p else d) d

/-! ## Lanes (R250, R251) -/

/-- The next width of a port is due at its next epoch, which this side's lane-control block names (R250). -/
def wantWidth (d : Dev) (p l epoch : Nat) : Dev :=
  let d := modPort d p (fun q => { q with wantWidth := some epoch })
  emit d (.control p (2 ^ l) epoch (widthOf (goodLanes d p).length))

/-- LANE_RETIRE (R250, R252): a lane is retired with its cause; a second within PORT_WINDOW, or too few left, retires the port. -/
def laneRetire (d : Dev) (p l cause epoch : Nat) : Dev :=
  if fget d (TRF_LANE_STATE p l) = 2 || !portCarries d p then d else
    let d := fset (fset d (TRF_LANE_STATE p l) 2) (TRF_LANE_CAUSE p l) cause
    let d := addFault (noteLanes d p) 0x08 .retiredResource 1 6 (8 * p + l) 0 cause (fget d (TRF_LANE_CE_WIN p l))
      (fget d (TRF_LANE_UCW_WIN p l)) []
    let soon := match (getPort d p).laneLost with
      | some t => decide (d.now ≤ t + fget d TRF_RETIRE_CFG_PORT_WINDOW * 1000000000)
      | none => false
    let d := modPort d p (fun q => { q with laneLost := some d.now })
    if soon then portRetire d p 6
    else if (goodLanes d p).length < 4 then portRetire d p 5
    else wantWidth d p l epoch

/-- The epoch after the current one. -/
def nextEpoch (d : Dev) (p : Nat) : Nat := (fget d (TRF_PORT_STATUS_EPOCH p) + 1) % 65536

/-- Counts of one lane since the last group, against the limits of R250. -/
def laneCounts (d : Dev) (p l ce ucw : Nat) : Dev :=
  let d := fcount (fcount d (TRF_LANE_CE_WIN p l) ce) (TRF_LANE_UCW_WIN p l) ucw
  let d := fcount (fcount d (TRF_PORT_FEC_CE_SYMBOLS p) ce) (TRF_PORT_FEC_UCW p) ucw
  if fget d TRF_RETIRE_CFG_CE_LIMIT < fget d (TRF_LANE_CE_WIN p l) then laneRetire d p l 1 (nextEpoch d p)
  else if fget d TRF_RETIRE_CFG_UCW_LIMIT ≤ fget d (TRF_LANE_UCW_WIN p l) then laneRetire d p l 2 (nextEpoch d p)
  else d

/-- LANE_CONTROL_BLOCK (R242, R250): a group's block arrives at time t, with what this side's receiver has measured on each lane
(corrected symbols, uncorrectable codewords) and the peer's request: the lane it retires, its cause, and the epoch. -/
def laneControlBlock (d : Dev) (p : Nat) (own : List (Nat × Nat)) (ask : Option (Fin 8 × Nat × Nat)) (t : Nat) : Dev :=
  let d := atTime d t
  if !portCarries d p then d else
    let d := (own.take 8).zipIdx.foldl (fun d x => laneCounts d p x.2 x.1.1 x.1.2) d
    match ask with
    | some (l, cause, epoch) => laneRetire d p l cause epoch
    | none => d

/-- LANE_LOSS_OF_LOCK (R245, R250): a lane loses lock, or its module reports a flag, at time t. -/
def laneLossOfLock (d : Dev) (p : Nat) (l : Fin 8) (flag : Bool) (t : Nat) : Dev :=
  let d := atTime d t
  laneRetire d p l (if flag then 4 else 3) (nextEpoch d p)

/-- CMIS_POLL (R245): the lane flags of page 11h while the port is UP; a flagged lane loses lock. -/
def cmisPoll (d : Dev) (p : Nat) (flags : BitVec 8) (t : Nat) : Dev :=
  let d := atTime d t
  if portState d p ≠ psUp then d else
    (List.range 8).foldl (fun d l => if flags.toNat.testBit l then laneRetire d p l 4 (nextEpoch d p) else d) d

/-- LANE_WINDOW_EXPIRE (R250): a lane's window of error counts ends. -/
def laneWindowExpire (d : Dev) (p : Nat) (l : Fin 8) : Dev := fset (fset d (TRF_LANE_CE_WIN p l) 0) (TRF_LANE_UCW_WIN p l) 0

/-- WIDTH_CHANGE (R250, R251): at the named epoch's group the port pauses at its new width. -/
def widthChange (d : Dev) (p : Nat) : Dev :=
  match (getPort d p).wantWidth with
  | none => d
  | some e =>
    if portState d p ≠ psUp then d else
      let d := modPort d p (fun q => { q with wantWidth := none })
      setPortState (fset (applyWidth d p) (TRF_PORT_STATUS_EPOCH p) e) p psReconfig 0

/-- RECONFIG_DONE (R251): the width change ends; held flits are sent again. -/
def reconfigDone (d : Dev) (p : Nat) : Dev :=
  if portState d p = psReconfig then resendAll (setPortState d p psUp 0) p else d

/-! ## Messages in units and entries (R247, R254) -/

/-- Data bytes of a message, and its 16 B data units. Management and tide messages take what they carry (log entry 60). -/
def msgBytes (m : Msg) : Nat :=
  match m.body with
  | .rd _ _ => 0
  | .wr _ bytes _ => bytes.length
  | .gauge _ _ _ _ => 16
  | .rdRsp _ bytes => bytes.length
  | .wrRsp _ => 0
  | .gaugeRsp _ => 0
  | .coll c => if c.kind = .rerun ∨ c.kind = .done then 16 else c.data.length
  | .mgmt (.sizReport _ w) => 8 * w.length
  | .mgmt (.sizSum _ w) => 8 * w.length
  | .mgmt _ => 32
  | .tide (.edge _ _ _ _ _ _ _) => 64
  | .tide _ => 16
  | .other _ => 0
def msgUnits (m : Msg) : Nat :=
  let off := match m.body with | .wr a _ _ => a % 16 | _ => 0
  1 + min 8 ((off + msgBytes m + 15) / 16)
def msgEntries (m : Msg) : Nat := (16 + msgBytes m + 63) / 64

/-- Receive entries of a VC (R254, Table 13-3). -/
def vcShare (d : Dev) (v : Nat) : Nat :=
  match d.pat.active.bind (fun a => a.body.net) with
  | some n => n.shares.getD v 0
  | none => if v = 12 ∨ v = 13 then 1024 else if v = 14 ∨ v = 15 then 256 else 0

/-- Weight of a VC (R254). -/
def vcWeight (d : Dev) (v : Nat) : Nat := bitsOf (rget d TRF_VC_WEIGHT) (4 * v) 4

/-- Credit free for a VC at a port. -/
def vcFree (d : Dev) (q : Port) (v : Nat) : Nat := vcShare d v - smGet (fun _ => 0) q.credits v

/-- Whether a port has credit for a message. -/
def hasCredit (d : Dev) (q : Port) (m : Msg) : Bool := decide (msgEntries m ≤ vcFree d q m.vc)

/-! ## Sending (R247, R248, R254, R255) -/

/-- A flit as it is filled: messages that end and that begin in it, and the units left. -/
structure Filling where
  port  : Port
  ends  : List Msg
  begins : List Msg
  room  : Nat
  deriving DecidableEq, Repr

/-- The VC queue of a port. -/
def vcQueue (q : Port) (v : Nat) : List Msg := smGet (fun _ => []) q.vcq v

/-- Whether a VC may send its next message. -/
def vcReady (d : Dev) (q : Port) (v : Nat) : Bool :=
  decide (0 < vcWeight d v) && (match vcQueue q v with | m :: _ => hasCredit d q m | [] => false)

/-- The VC whose turn it is: the one in turn while it has messages left of its weight, else the next that is ready. -/
def vcTurn (d : Dev) (q : Port) : Option (Nat × Nat) :=
  if vcReady d q q.wrrVc && decide (0 < q.wrrLeft) then some (q.wrrVc, q.wrrLeft - 1)
  else (((List.range 14).map (fun i => (q.wrrVc + 1 + i) % 14)).find? (vcReady d q)).map (fun v => (v, vcWeight d v - 1))

/-- A message begins: it is the stream's current one, and its entries are in use at the peer. -/
def beginMsg (f : Filling) (q : Port) (m : Msg) : Filling :=
  { f with port := { q with cur := some (m, msgUnits m), credits := smModify (fun _ => 0) q.credits m.vc (· + msgEntries m) },
           begins := f.begins ++ [m] }

/-- One step of filling: the current message goes on, or the next begins: VC15, VC14, then the VCs by weight. -/
def fillStep (d : Dev) (f : Filling) : Filling :=
  let q := f.port
  if f.room = 0 then f else
  match q.cur with
  | some (m, left) =>
    if left ≤ f.room then { f with port := { q with cur := none }, ends := f.ends ++ [m], room := f.room - left }
    else { f with port := { q with cur := some (m, left - f.room) }, room := 0 }
  | none =>
    let firstOf := fun (v : Nat) => q.side.find? (fun m => m.vc == v && hasCredit d q m)
    match (firstOf 15 <|> firstOf 14) with
    | some m => beginMsg f { q with side := q.side.erase m } m
    | none => match vcTurn d q with
      | some (v, left) => match vcQueue q v with
        | m :: rest =>
          beginMsg f { q with vcq := smSet (fun _ => []) q.vcq v rest, wrrVc := v, wrrLeft := left } m
        | [] => f
      | none => f

/-- The payload of the next message flit. -/
def fillFlit (d : Dev) (q : Port) : Filling :=
  (List.range 32).foldl (fun f _ => fillStep d f) { port := q, ends := [], begins := [], room := 15 }

/-- The ACK, NAK and CREDIT fields of the next flit, and the port with them given out (R248, R254). -/
def flitFields (q : Port) : Nat × Bool × List (Nat × Nat) × Port :=
  let cr := (q.rxFreed.take 2).map (fun e => (e.1, min e.2 4095))
  let freed := cr.foldl (fun m c => smModify (fun _ => 0) m c.1 (· - c.2)) q.rxFreed
  let ack := if q.nakOwed then q.expSeq else (q.expSeq + 65535) % 65536
  (ack, q.nakOwed, cr, { q with rxFreed := freed, nakOwed := false })

/-- A flit goes out. -/
def sendFlit (d : Dev) (p : Nat) (q : Port) (f : Flit) : Dev :=
  let d := modPort d p (fun _ => q)
  let d := if f.nak then fcount d (TRF_PORT_LINK_NAKS_SENT p) 1 else d
  emit (fset d (TRF_PORT_STATUS_HELD p) q.held.length) (.flit p f)

/-- A held flit is sent again with fresh ACK and CREDIT fields. -/
def sendAgain (d : Dev) (p : Nat) (h : HeldFlit) (rest : List Nat) : Dev :=
  let q := getPort d p
  let (ack, nak, cr, q) := flitFields q
  let f := { h.flit with ack := ack, nak := nak, credits := cr }
  let q := { q with resend := rest, held := q.held.map (fun x =>
    if x.flit.seq = h.flit.seq then { x with resent := x.resent + 1 } else x) }
  sendFlit (slcFlitAgain (fcount d (TRF_PORT_LINK_REPLAYS p) 1) p) p q f

/-- FLIT_TRANSMIT (R247, R248, R254, R255): the port's next flit: one to send again, a message flit with the next SEQ, or an idle
flit. -/
def flitTransmit (d : Dev) (p : Nat) : Dev :=
  let q := getPort d p
  if portState d p ≠ psUp || q.retrying then d else
  match q.resend with
  | s :: rest =>
    (match q.held.find? (fun h => h.flit.seq == s) with
    | some h => if 8 ≤ h.resent then retryLimit d p else sendAgain d p h rest
    | none => modPort d p (fun q => { q with resend := rest }))
  | [] =>
    let idle := fun (q : Port) =>
      let (ack, nak, cr, q) := flitFields q
      sendFlit d p q { seq := 0, ack := ack, message := false, nak := nak, used := 0, credits := cr, msgs := [], crcOk := true }
    if 1024 ≤ q.held.length then idle q else
      let fl := fillFlit d q
      if fl.room = 15 then idle q
      else
        let (ack, nak, cr, q) := flitFields fl.port
        let f : Flit := { seq := q.nextSeq, ack := ack, message := true, nak := nak, used := 15 - fl.room, credits := cr,
                          msgs := fl.ends, crcOk := true }
        sendFlit (slcFlit d p) p { q with nextSeq := (q.nextSeq + 1) % 65536, held := q.held ++ [{ flit := f, begins := fl.begins, resent := 0 }] } f

/-! ## Receiving (R247, R248, R258) -/

/-- Flits before a SEQ: they are acknowledged. At most 1,024 are held, so the order of SEQs is plain. -/
def seqBefore (a b : Nat) : Bool := decide ((b + 65536 - a) % 65536 - 1 < 32768 ∧ a ≠ b)

/-- An ACK or NAK covers every held flit before a SEQ. -/
def ackUpTo (d : Dev) (p next : Nat) : Dev :=
  let gone := ((getPort d p).held.filter (fun h => seqBefore h.flit.seq next)).length
  modPort (slcFlitsFreed d p gone) p (fun q =>
    let held := q.held.filter (fun h => !seqBefore h.flit.seq next)
    let moved := decide (held.length < q.held.length)
    { q with held := held, resend := q.resend.filter (fun s => !seqBefore s next), trainFail := if moved then 0 else q.trainFail })

/-- A message whose last unit has been accepted: its receive entries are free again; it is for this device, or goes on. A message of
the tide tree is for the device at the link's end; the port it came by is kept in its RID field, which it does not use. -/
def acceptMsg (p : Nat) (d : Dev) (m : Msg) : Dev :=
  let d := modPort d p (fun q => { q with rxFreed := smModify (fun _ => 0) q.rxFreed m.vc (· + msgEntries m) })
  match m.body with
  | .other _ => fcount d (TRF_PORT_LINK_CRC_ERRS p) 1
  | .mgmt (.other _) => fcount d (TRF_PORT_LINK_CRC_ERRS p) 1
  | .tide (.other _) => fcount d (TRF_PORT_LINK_CRC_ERRS p) 1
  | _ =>
    if m.dest = 0xFFFF then { d with inbox := d.inbox ++ [{ m with rid := p }] }
    else if m.dest = nodeId d then { d with inbox := d.inbox ++ [m] }
    else if 31 ≤ m.hops then discardMsg (fcount d TRF_CTR_HOP_DROPS 1) m
    else { d with toRoute := d.toRoute ++ [{ m with hops := m.hops + 1 }] }

/-- FLIT_RECEIVE (R248): the ACK and CREDIT fields of a flit with a good CRC are taken; a message flit of the expected SEQ is accepted;
after any other, one NAK is sent and flits are discarded until the expected one. -/
def flitReceive (d : Dev) (p : Nat) (f : Flit) : Dev :=
  if portState d p ≠ psUp || (getPort d p).retrying then d else
  let skip := fun (d : Dev) => modPort d p (fun q => { q with nakOwed := q.nakOwed || !q.skipping, skipping := true })
  if !f.crcOk then skip (fcount d (TRF_PORT_LINK_CRC_ERRS p) 1) else
    let d := modPort d p (fun q => { q with credits := f.credits.foldl (fun m c => smModify (fun _ => 0) m c.1 (· - c.2)) q.credits })
    let d := if f.nak then resendAll (ackUpTo d p f.ack) p else ackUpTo d p ((f.ack + 1) % 65536)
    let d := fset d (TRF_PORT_STATUS_HELD p) (getPort d p).held.length
    if !f.message then d
    else if f.seq ≠ (getPort d p).expSeq then skip d
    else
      let d := modPort d p (fun q => { q with expSeq := (q.expSeq + 1) % 65536, skipping := false })
      f.msgs.foldl (acceptMsg p) d

/-- REPLAY_TIMEOUT (R248): ACK has not advanced for 2 µs while flits are held. -/
def replayTimeout (d : Dev) (p : Nat) : Dev := if portState d p = psUp && !(getPort d p).retrying then resendAll d p else d

/-! ## Routing (R256 to R258) -/

/-- The agent that issued a message of this device, as a number (R257). -/
def msgAgent (d : Dev) (m : Msg) : Nat :=
  if m.src ≠ nodeId d then 0 else
  match m.body with
  | .coll c => 3 * 2 ^ 20 + c.group
  | .rd _ _ | .wr _ _ _ | .gauge _ _ _ _ =>
    match ridOf d m.rid with
    | some r => (match r.use with
      | .load c _ _ _ => 2 ^ 20 + c.val
      | .store c _ => 2 ^ 20 + c.val
      | .gather c _ _ => 2 ^ 20 + c.val
      | .dmaList c n _ => 2 * 2 ^ 20 + 8 * c.val + n
      | .dmaRead c n _ => 2 * 2 ^ 20 + 8 * c.val + n
      | .dmaWrite c n => 2 * 2 ^ 20 + 8 * c.val + n
      | .copyRead p _ _ _ => 4 * 2 ^ 20 + p.val
      | .copyWrite p _ _ => 4 * 2 ^ 20 + p.val
      | .bar2 p _ => 4 * 2 ^ 20 + p.val
      | .ingest p _ => 4 * 2 ^ 20 + p.val
      | .shard _ _ _ => 3 * 2 ^ 20 + 2 ^ 16
      | .fill _ _ => 5 * 2 ^ 20
      | .gauge => 6 * 2 ^ 20
      | .dropped => 7 * 2 ^ 20)
    | none => 0
  | _ => 0

/-- The alternatives of a route entry (Table 13-4); none where it is invalid. -/
def routeAlts (d : Dev) (n : Nat) : List Nat :=
  if fbit d (TRF_ROUTE_VALID n) then
    ([fget d (TRF_ROUTE_ALT0 n), fget d (TRF_ROUTE_ALT1 n), fget d (TRF_ROUTE_ALT2 n), fget d (TRF_ROUTE_ALT3 n)]).take (fget d (TRF_ROUTE_COUNT n))
  else []

/-- The alternative with the most credit free for a VC, the earliest on a tie. -/
def bestPort (d : Dev) (v : Nat) : List Nat → Option Nat
  | [] => none
  | p :: t => match bestPort d v t with
    | none => some p
    | some q => if vcFree d (getPort d p) v < vcFree d (getPort d q) v then some q else some p

/-- The port of a message's flow (R257). -/
def flowPort (d : Dev) (m : Msg) : Option Nat :=
  let a := msgAgent d m
  let kept := d.flows.find? (fun f => f.src == m.src && f.dest == m.dest && f.vc == m.vc && f.agent == a &&
    decide (d.now ≤ f.last + 2000) && portCarries d f.port)
  match kept with
  | some f => some f.port
  | none => bestPort d m.vc ((routeAlts d m.dest).filter (portCarries d))

/-- A message put into a port's queue, its flow noted. -/
def queueMsg (d : Dev) (p : Nat) (m : Msg) : Dev :=
  let a := msgAgent d m
  let f : Flow := { src := m.src, dest := m.dest, vc := m.vc, agent := a, port := p, last := d.now }
  let live := d.flows.filter (fun f => decide (d.now ≤ f.last + 2000) &&
    !(f.src == m.src && f.dest == m.dest && f.vc == m.vc && f.agent == a))
  let d := { d with flows := live ++ [f] }
  modPort d p (fun q =>
    if 14 ≤ m.vc then { q with side := q.side ++ [m] }
    else { q with vcq := smModify (fun _ => []) q.vcq m.vc (· ++ [m]) })

/-- MESSAGE_ROUTE (R256 to R258): at time t, the oldest message that waits for its route gets a port, or is discarded. -/
def messageRoute (d : Dev) (t : Nat) : Dev :=
  let d := atTime d t
  match d.toRoute with
  | [] => d
  | m :: rest =>
    let d := { d with toRoute := rest }
    if m.dest = nodeId d then { d with inbox := d.inbox ++ [m] }
    else match flowPort d m with
      | some p => queueMsg d p m
      | none => discardMsg (fcount d TRF_CTR_UNROUTABLE 1) m

/-! ## Register commands (R263) -/

/-- TRF_PORT_DISABLE: a write of TRF_PORT_CTL.DISABLE takes a port down, or lets it train again. `accepted` is what reading its cable
finds. -/
def trfPortDisable (d : Dev) (by_ : Option PciePort) (p : Nat) (v : Word) (accepted : Bool) : Dev :=
  if !ownerWrites d by_ then d else
    let on := v.toNat % 2 = 1
    let was := fbit d (TRF_PORT_CTL_DISABLE p)
    let d := fset d (TRF_PORT_CTL_DISABLE p) (v.toNat % 2)
    if on && !was && decide (portState d p ≠ psRetired) then portDisable d p 8
    else if !on && decide (portState d p = psDisabled) then portTrain (setPortState d p psDown 0) p accepted
    else d

/-- TRF_PORT_RETRAIN: a write of 1 to RETRAIN retrains a port that is UP. -/
def trfPortRetrain (d : Dev) (by_ : Option PciePort) (p : Nat) (v : Word) : Dev :=
  if ownerWrites d by_ && v.toNat.testBit 1 && portState d p == psUp && !(getPort d p).retrying then startRetrain d p else d

/-- TRF_CMIS_GO: a write of TRF_CMIS_CTL sets PAGE and OFFSET, and with GO starts a read of 8 bytes. -/
def trfCmisGo (d : Dev) (p : Nat) (v : Word) : Dev :=
  let d := fset (fset d (TRF_CMIS_CTL_PAGE p) (bitsOf v 16 8)) (TRF_CMIS_CTL_OFFSET p) (bitsOf v 8 8)
  if v.toNat.testBit 63 then
    modPort (fset (fset d (TRF_CMIS_CTL_DONE p) 0) (TRF_CMIS_CTL_ERR p) 0) p (fun q => { q with cmisWait := true })
  else d

/-- TRF_CMIS_DONE: the read ends with 8 bytes, or the module does not answer. -/
def trfCmisDone (d : Dev) (p : Nat) (data : Option Word) : Dev :=
  if !(getPort d p).cmisWait then d else
    let d := modPort d p (fun q => { q with cmisWait := false })
    let d := fset d (TRF_CMIS_CTL_DONE p) 1
    match data with
    | some w => rset d (TRF_CMIS_DATA p) w
    | none => fset d (TRF_CMIS_CTL_ERR p) 1

/-- TRF_CTR_CLR: a write of CLEAR clears TRF_CTR, TRF_PORT_LINK and TRF_PORT_FEC on every port. -/
def trfCtrClr (d : Dev) (v : Word) : Dev :=
  if v.toNat % 2 = 0 then d else
    (List.range 12).foldl (fun d p => rset (rset d (TRF_PORT_LINK p) 0) (TRF_PORT_FEC p) 0) (rset d TRF_CTR 0)

/-- The route table and VC weights of a NETWORK section in force from a switch edge (R254, R256). -/
def netInstall (d : Dev) (n : Option NetSec) : Dev :=
  let d := wipeRegs d (fun o => decide (TRF_ROUTE 0 ≤ o ∧ o < TRF_ROUTE 65536) || o == TRF_VC_WEIGHT)
  match n with
  | none => d
  | some n =>
    let d := n.routes.foldl (fun d r =>
      if 65536 ≤ r.1 then d else
        let d := fset (fset d (TRF_ROUTE_VALID r.1) 1) (TRF_ROUTE_COUNT r.1) (min 4 r.2.length)
        let d := fset (fset d (TRF_ROUTE_ALT0 r.1) (r.2.getD 0 15)) (TRF_ROUTE_ALT1 r.1) (r.2.getD 1 15)
        fset (fset d (TRF_ROUTE_ALT2 r.1) (r.2.getD 2 15)) (TRF_ROUTE_ALT3 r.1) (r.2.getD 3 15)) d
    (n.weights.take 14).zipIdx.foldl (fun d w => fset d ⟨TRF_VC_WEIGHT, 4 * w.2, 4⟩ w.1) d

end Sys2Proof.Machine
end

