-- ==== Sys2Proof/Machine/Levee.lean ====
section
/-! DEFINITION. Reset scopes and levees (R211, R322, R348, R396 to R402, R430): what each scope returns to its reset state, what a
levee gives every crossing, and how a reset begins and ends. -/
namespace Sys2Proof.Machine

/-! ## Scopes (R396, Table 22-1): codes 0 CELL, 1 REGION, 2 PORT, 3 COMPUTE, 4 DEVICE, 5 KEEPER -/

/-- Whether scope a contains scope b. -/
def scopeHas (a b : Nat × Nat) : Bool :=
  if a.1 = 5 then true
  else if a.1 = 4 then b.1 != 5
  else if a.1 = 3 then b.1 == 0 || b.1 == 1 || b.1 == 3
  else if a.1 = 1 then (b.1 == 1 && b.2 == a.2) || (b.1 == 0 && regionOf b.2 == a.2)
  else a == b

/-- Whether a target index is one that a scope has. -/
def scopeValid (scope target : Nat) : Bool :=
  match scope with
  | 0 => decide (target < 4096)
  | 1 => decide (target < 64)
  | 2 => decide (target < 6)
  | 3 => target == 0
  | 4 => target == 0
  | 5 => target == 0
  | _ => false

/-- The cell, column or region that a register belongs to. -/
def regCell (o : Nat) : Option Nat :=
  if 0x1000000 ≤ o ∧ o < 0x3000000 then some ((o - 0x1000000) / 0x2000)
  else if 0x3000000 ≤ o ∧ o < 0x3400000 then some ((o - 0x3000000) / 0x400)
  else if 0x3400000 ≤ o ∧ o < 0x3800000 then some ((o - 0x3400000) / 0x400)
  else none
def regColumn (o : Nat) : Option Nat :=
  if 0x3800000 ≤ o ∧ o < 0x3C00000 then some ((o - 0x3800000) / 0x400) else none
def regRegion (o : Nat) : Option Nat :=
  if 0x3C00000 ≤ o ∧ o < 0x3C10000 then some ((o - 0x3C00000) / 0x400) else none

/-- Registers of P79: the KPR and SEC blocks, and HIF_CTRL, which survives every warm reset (R345, R395, R414, R434). -/
def regKeeper (o : Nat) : Bool := decide (o < 0x600000) || decide (0x7B0000 ≤ o ∧ o < 0x7B1000) || o == HIF_CTRL

/-! ## Commit points at a levee (R401) -/

/-- One entry of a LEVEE record. -/
def levEntry (engine mask last : Nat) : List Byte := leBytes 2 engine ++ leBytes 1 mask ++ leBytes 1 0 ++ leBytes 4 last

/-- The entry of a cell's DMA: LAST before its oldest open command, MASK of those after it that have completed. -/
def dmaEntry (x : Cell) (c : Nat) : List Byte :=
  let seqs := (tagsInUse x).map (fun t => t.2.seq)
  if seqs.isEmpty then [] else
    let behind := seqs.foldl (fun m q => max m ((x.dmaSeq + 2 ^ 32 - q) % 2 ^ 32)) 0
    let last := (x.dmaSeq + 2 * 2 ^ 32 - behind - 1) % 2 ^ 32
    let mask := (List.range 8).foldl (fun m i =>
      if i ≤ behind && !seqs.contains ((last + 1 + i) % 2 ^ 32) then m + 2 ^ i else m) 0
    levEntry c mask last

/-- COPY commands of a port that have begun and not ended, with their rings. -/
def openCopies (d : Dev) (p : Nat) : List (Nat × HostCmd) :=
  (allCmds d).filter (fun e => e.1 / 16 == p && e.2.started && !e.2.ended && (match e.2.op with | .copy _ _ _ _ _ => true | _ => false))

/-- Entries of the ingest and COPY engines of a port. -/
def portEntries (d : Dev) (p : Nat) : List Byte :=
  let s := getSlc d (2 + p)
  let ingest := if s.w = s.l then []
    else levEntry (0x1010 + p) 0 ((fget d (HIF_INGEST_STATUS_DELIVERED p) + 2 ^ 32 - 1) % 2 ^ 32)
  let copy := match openCopies d p with
    | [] => []
    | e :: _ => levEntry (0x1020 + p) 0 ((e.2.seq + 2 ^ 32 - 1) % 2 ^ 32)
  ingest ++ copy

/-- Entry of the collective engine: the oldest instance in progress. -/
def clvEntry (d : Dev) : List Byte :=
  match d.clv.insts with
  | [] => []
  | i :: t => levEntry 0x100C 0 ((t.foldl (fun m j => min m j.num) i.num + 2 ^ 32 - 1) % 2 ^ 32)

/-- The LEVEE record of a scope (Table 22-5), and the count of levees. -/
def leveeRecord (d : Dev) (s : Nat × Nat) : Dev :=
  let cells := (d.cells.filter (fun e => scopeHas s (0, e.1))).flatMap (fun e => dmaEntry e.2 e.1)
  let ports := [0, 1].flatMap (fun p => if scopeHas s (2, 4 + p) then portEntries d p else [])
  let payload := cells ++ (if 4 ≤ s.1 then clvEntry d else []) ++ ports
  let d := fcount d KPR_RESET_STATUS_LEVEES 1
  addFault d 0x0F .resetAborted 0 (s.1 + 0x10) s.2 0 s.2 (payload.length / 8) 0 payload

/-! ## Cells and regions (R396, R397) -/

/-- A cell as a CELL reset leaves it: stitch and program memory, the accumulator mode, its retirement and its view of patch gauges
stay. -/
def cellAfter (x : Cell) : Cell :=
  { cellReset with
    stitches := x.stitches, stitchBad := x.stitchBad, progs := x.progs, progBad := x.progBad, short := x.short,
    retired := x.retired, patchView := x.patchView, stepOff := true, rinseSram := x.rinseSram, rinseDram := x.rinseDram }

/-- Cells that satisfy `p` reset (Table 22-1, Table 22-2): their work ends, their collectives fail, their threads are IDLE. -/
def resetCells (d : Dev) (p : Nat → Bool) : Dev :=
  let cs := (d.cells.filter (fun e => p e.1)).map (fun e => e.1)
  let d := cs.foldl (fun d c => stopCell d c .resetAborted) d
  let d := endSets (latchInsts (latchChains d p .resetAborted) p .resetAborted) p .resetAborted
  let d := resetRegs d (fun o => match regCell o with | some c => p c | none => false)
  cs.foldl (fun d c =>
    let d := modCell d c cellAfter
    if (getCell d c).short then fset d (MTX_STATUS_ACC_MODE c) 1 else d) d

/-- REGION patch gauges of a region back to zero (Table 22-1), and the copies of them. -/
def resetRgnGauges (d : Dev) (p : Nat → Bool) : Dev :=
  let ks := ((patchList d).filter (fun q => q.level = .region && p (regionOf (q.cells.headD 0)))).map (fun q => q.num)
  if ks.isEmpty then d else
    let keep := fun (n : Nat) => !ks.contains (n / 64)
    { d with pat := { d.pat with gauges := smKeep keep d.pat.gauges }
             gaugeq := d.gaugeq.filter (fun u => !ks.contains u.patch)
             cells := d.cells.map (fun e => (e.1, { e.2 with patchView := smKeep keep e.2.patchView })) }

/-- Regions that satisfy `p` reset: as CELL for each cell, with REGION patch gauges, rinse walkers and the column registers. -/
def resetRegions (d : Dev) (p : Nat → Bool) : Dev :=
  let d := resetCells d (fun c => p (regionOf c))
  let d := resetRgnGauges d p
  let d := resetRegs d (fun o => (match regColumn o with | some c => p (regionOf c) | none => false) ||
    (match regRegion o with | some r => p r | none => false))
  let thaw := (List.range 64).foldl (fun m r => if p r && d.frozen.testBit r then m + 2 ^ r else m) 0
  let cs := (d.cells.filter (fun e => p (regionOf e.1))).map (fun e => e.1)
  cs.foldl (fun d c => modCell d c (fun x => { x with rinseSram := 0, rinseDram := 0 })) { d with frozen := d.frozen - thaw }

/-- The stage discarded by a reset (R211): a pending PAT_LOAD or PAT_SWITCH completes with RESET_ABORTED. -/
def resetStage (d : Dev) : Dev :=
  if patStage d = 0 then d else
    let d := markOverOpt d d.pat.loadCmd .resetAborted 0 0
    emptyStage (markOverOpt d d.pat.swCmd .resetAborted 0 0)

/-! ## Ports -/

/-- A Trafort polder's ports back to reset: each goes down, its sluices are emptied (R309). -/
def resetTrafort (d : Dev) (t : Nat) : Dev :=
  [3 * t, 3 * t + 1, 3 * t + 2].foldl (fun d p =>
    let d := portTakedown d p psDown 0
    let d := [4 + p, 16 + p, 28 + p].foldl slcEmpty d
    resetRegs d (fun o => decide (0x731000 + 0x400 * p ≤ o ∧ o < 0x731400 + 0x400 * p))) d

/-- Requests of a PCIe port's accesses to other devices: their responses will be dropped (R400). -/
def dropPortRids (d : Dev) (p : Nat) : Dev :=
  let hit := fun (u : RidUse) => match u with
    | .copyRead q _ _ _ => q.val == p
    | .copyWrite q _ _ => q.val == p
    | .bar2 q _ => q.val == p
    | .ingest q _ => q.val == p
    | _ => false
  { d with
    rids := d.rids.map (fun e => (e.1, e.2.map (fun r => if hit r.use then { r with use := .dropped } else r)))
    reqWait := d.reqWait.filter (fun e => !hit e.1.use) }

/-- The rings of a port whose function resets (R348): RUNNING becomes STOPPED, and a COPY under way ends with RESET_ABORTED. -/
def stopRings (d : Dev) (p : Nat) : Dev :=
  let d := (openCopies d p).foldl (fun d e => markOver d e.1 e.2.seq .resetAborted 0 e.2.result) (dropPortRids d p)
  (List.range 16).foldl (fun d r =>
    let k := ringNo p r
    if fget d (HIF_RING_STATUS_STATE k) = 1 then
      modRing (fset d (HIF_RING_STATUS_STATE k) 2) k (fun x => { x with target := fget d (HIF_RING_SEQ_LAST_RECV k) })
    else d) d

/-- What a port's function loses at an FLR, a Hot Reset, a link-down or a PERST (R322, R430): its configuration space, BAR2 base and
events, its sluices, its sessions and IDE streams, and its accesses under way. -/
def resetFunction (d : Dev) (p : Nat) : Dev :=
  let d := stopRings d p
  let d := modPcie d p (fun q => { q with
    memOn := false, msixOn := false, msixMask := false, msix := [], mbxReq := [], bar2 := [], ingestN := 0, ingestOpen := 0 })
  let d := rset (rset d (HIF_BAR2_BASE p) 0) (HIF_EVENT p) 0
  let d := fset (endIde (endSessions d (fun v => v == p)) p) (HIF_LINK_DSTATE p) 0
  let d := { d with sec := { d.sec with stage := smSet (fun _ => 0) d.sec.stage p 0 } }
  [p, 2 + p, 40 + p, 43 + p].foldl slcEmpty d

/-- A levee around a port's function only, raised and lowered at once (R322). -/
def functionReset (d : Dev) (p : Nat) : Dev := resetFunction (leveeRecord d (2, 4 + p)) p

/-- Ready bit of a port's configuration space. -/
def pcieReady (p : Nat) : Fld := if p = 0 then KPR_READY_PCIE_A else KPR_READY_PCIE_B

/-- A PCIe port's polder back to reset: the function, the port's registers and its ingest engine; the rings stay, under R348. -/
def resetPciePort (d : Dev) (p : Nat) : Dev :=
  let d := resetFunction d p
  let d := resetRegs d (fun o => decide (HIF_LINK p ≤ o ∧ o < HIF_LINK p + 0x400) ||
    decide (HIF_INGEST_BASE p ≤ o ∧ o < HIF_INGEST_BASE p + 0x40))
  let d := modPcie d p (fun q => { pciePortReset with inPerst := q.inPerst, bar2No := q.bar2No })
  fset d (pcieReady p) 0

/-! ## The device (Table 22-1) -/

/-- Requests of peers that are accepted and not answered yet are answered with RESET_ABORTED, and every message that can go out goes
out, before the ports go down (R400). -/
def answerPeers (d : Dev) : Dev :=
  let asks := d.inbox.filter (fun m => match m.body with
    | .rd _ _ => true
    | .wr _ _ _ => true
    | .gauge _ _ _ _ => true
    | _ => false)
  let d := asks.foldl (fun d m => respond d m (match m.body with
    | .rd _ _ => .rdRsp .resetAborted []
    | .wr _ _ _ => .wrRsp .resetAborted
    | _ => .gaugeRsp .resetAborted)) { d with inbox := [] }
  let d := d.cells.foldl (fun d e => dropHeld d e.1 .resetAborted) d
  let d := d.toRoute.foldl (fun d _ => messageRoute d d.now) d
  (List.range 12).foldl (fun d p =>
    let q := getPort d p
    (waitingMsgs q).foldl (fun d _ => flitTransmit d p) d) d

/-- Node-local addresses of HBM and DDR, and the granules of them. -/
def tierAddr (a : Nat) : Bool := decide (a < cdramBase)
def tierGran (g : Nat) : Bool := decide (64 * g < cdramBase)

/-- A DEVICE reset: everything but P79, RWS fields, the contents of HBM and DDR, the polders' supply and the fault log. -/
def resetDevice (d : Dev) : Dev :=
  let tides := if rget d TID_COUNT = 0 then d.kpr.lastTide else (rget d TID_COUNT).toNat
  let d := answerPeers d
  let d := (List.range 12).foldl (fun d p => portTakedown d p psDown 0) d
  let d := [0, 1].foldl resetFunction d
  let keep := (rget d PWR_POLDER_ON, rget d PWR_POLDER_ON_HI, (rget d KPR_READY).toNat % 8, fget d PWR_STATUS_COOL_SEEN)
  let d := resetRegs d (fun o => !regKeeper o)
  let d := rset (rset d PWR_POLDER_ON keep.1) PWR_POLDER_ON_HI keep.2.1
  let d := fset (rset d KPR_READY (BitVec.ofNat 64 keep.2.2.1)) PWR_STATUS_COOL_SEEN keep.2.2.2
  let d := [KPR_SETTLED, KPR_RGN_READY, KPR_RGN_SETTLED, KPR_DARN_RETIRED].foldl (fun d o => rset d o 0) d
  let d := fset (fset d HIF_CTRL_OFFER_A 0) HIF_CTRL_OFFER_B 0
  let d := fset d TID_CFG_ROLE (if d.kpr.strapTide then 2 else 0)
  let slc := d.slc.filter (fun e => decide (40 ≤ e.1))
  { devReset with
    regs := d.regs, mem := smKeep tierAddr d.mem, poison := smKeep tierGran d.poison,
    ports := (List.range 12).filterMap (fun p => if (getPort d p).cable then
      some (p, { portReset with cable := true, cableOk := (getPort d p).cableOk }) else none),
    pcie := d.pcie.map (fun e => (e.1, { pciePortReset with inPerst := e.2.inPerst })),
    tide := { tideReset with ovr := d.tide.ovr }, slc := slc,
    pwr := { pwrReset with state := d.pwr.state },
    kpr := { d.kpr with bringing := false, groups := 0, vddqWait := false, lastTide := tides },
    levees := d.levees, hbmList := d.hbmList, ddrList := d.ddrList, sec := d.sec, tap := d.tap, trace := d.trace, flog := d.flog, flogSeq := d.flogSeq,
    flogEnd := d.flogEnd, now := d.now, free := d.free, out := d.out }

/-- A KEEPER reset: the whole part, but for what the world outside sets: supplies, pins and cables. -/
def resetKeeper (d : Dev) : Dev :=
  let d := resetDevice d
  let k := d.kpr
  let dev : Dev := { devReset with
    ports := d.ports, pcie := d.pcie, levees := d.levees, sec := { secReset with draws := d.sec.draws },
    kpr := { keeperReset with vaux := k.vaux, vin := k.vin, vddq := k.vddq, sysclk := k.sysclk, coolLow := k.coolLow,
                              coolAt := k.coolAt, rstLow := k.rstLow,
                              strapTide := k.strapTide, strapOwn := k.strapOwn, resets := k.resets },
    pwr := { pwrReset with state := 3 }, tap := d.tap, now := d.now, free := d.free, out := d.out }
  let dev := fset dev TID_CFG_ROLE (if k.strapTide then 2 else 0)
  let own := if k.strapOwn then 1 else 0
  fset (fset (fset dev HIF_CTRL_STRAP own) HIF_CTRL_OWNER own) PWR_POLDER_ON_HI_ON 0x8000

/-- What a scope's reset does, its levee raised. -/
def resetScope (d : Dev) (s : Nat × Nat) : Dev :=
  match s.1 with
  | 0 => tryArrive (resetCells d (fun c => c == s.2))
  | 1 => tryArrive (resetStage (resetRegions d (fun r => r == s.2)))
  | 2 => if s.2 < 4 then resetTrafort d s.2 else resetPciePort d (s.2 - 4)
  | 3 =>
    let d := resetStage (resetRegions d (fun _ => true))
    tryArrive { d with tide := { d.tide with seed := 0 } }
  | 4 => resetDevice d
  | _ => resetKeeper d

/-! ## Requests, levees raised and lowered (R398, R399, R402) -/

/-- A keeper response entry (R410). -/
def kprRespond (d : Dev) (q : KeeperReq) (st : Status) (more : Bool) (data : List Byte) : Dev :=
  let entry := leBytes 2 q.op ++ leBytes 2 q.tag ++ leBytes 1 (statusCode st) ++ leBytes 1 (if more then 1 else 0) ++
    leBytes 2 0 ++ data.take 56 ++ List.replicate (56 - data.length) 0
  let d := respPut d (43 + q.mbx) entry
  if q.mbx < 2 then raiseEvent d q.mbx 22 else d

/-- KPR_RESET_STATUS names the widest reset in progress, or the last. -/
def noteResets (d : Dev) : Dev :=
  let d := fset d KPR_RESET_STATUS_BUSY (if d.kpr.resets.isEmpty then 0 else 1)
  match d.kpr.resets with
  | [] => d
  | r :: t =>
    let w := t.foldl (fun w x => if w.scope < x.scope then x else w) r
    fset (fset d KPR_RESET_STATUS_SCOPE w.scope) KPR_RESET_STATUS_TARGET w.target

/-- A reset requested (R399): a running one that contains it answers for it, those it contains are absorbed. A debug session ends with a
DEVICE or KEEPER reset (R425). -/
def requestReset (d : Dev) (scope target : Nat) (owed : List KeeperReq) : Dev :=
  let key := (scope, target)
  let holds := fun (r : ResetRun) => scopeHas (r.scope, r.target) key
  let d := if 4 ≤ scope then endDebug d else d
  if d.kpr.resets.any holds then
    match d.kpr.resets.find? holds with
    | some w =>
      { d with kpr := { d.kpr with resets := d.kpr.resets.map (fun r => if r = w then { r with owed := r.owed ++ owed } else r) } }
    | none => d
  else
    let inner := fun (r : ResetRun) => scopeHas key (r.scope, r.target)
    let gone := (d.kpr.resets.filter inner).flatMap (fun r => r.owed)
    let run : ResetRun := { scope := scope, target := target, raised := false, owed := gone ++ owed }
    noteResets { d with kpr := { d.kpr with resets := d.kpr.resets.filter (fun r => !inner r) ++ [run] } }

/-- LEVEE_RAISE (R400, R401): the levee of a reset in progress is raised, every crossing gets its outcome, and the scope resets. -/
def leveeRaise (d : Dev) (scope target : Nat) : Dev :=
  let key := (scope, target)
  let mine := fun (r : ResetRun) => r.scope == scope && r.target == target && !r.raised
  if !d.kpr.resets.any mine then d else
    let d := { d with kpr := { d.kpr with resets := d.kpr.resets.map (fun r => if mine r then { r with raised := true } else r) },
                      levees := d.levees.filter (fun l => !scopeHas key l) ++ [key] }
    bar2Wake (noteResets (resetScope (leveeRecord d key) key))

/-- Whether every function in a scope has settled (R389, R402); what is requested off has nothing to settle, and neither has a part in
Keeper-only whose bring-up waits (R386, R387). -/
def scopeSettled (d : Dev) (scope : Nat) : Bool :=
  decide (scope < 4) || (d.pwr.state == 3 && fbit d KPR_START_WAITING) ||
    (fbit d KPR_READY_CORE && (rget d KPR_RGN_SETTLED ||| rget d PWR_POLDER_OFF) == BitVec.allOnes 64 &&
      (rbit d KPR_SETTLED 15 || rbit d PWR_POLDER_OFF_HI 0) && (rbit d KPR_SETTLED 24 || rbit d PWR_POLDER_OFF_HI 6))

/-- LEVEE_LOWER (R402): every function in the scope has settled; the requests are answered. -/
def leveeLower (d : Dev) (scope target : Nat) : Dev :=
  match d.kpr.resets.find? (fun r => r.scope == scope && r.target == target && r.raised) with
  | none => d
  | some run =>
    if !scopeSettled d scope then d else
      let d := { d with kpr := { d.kpr with resets := d.kpr.resets.erase run },
                        levees := d.levees.filter (fun l => l != (scope, target)) }
      let d := noteResets (fcount d KPR_RESET_STATUS_RESETS 1)
      run.owed.foldl (fun d q => kprRespond d q .ok false []) d

/-- Every reset in progress ended by a hardware stop (R399): its requests complete with RESET_ABORTED. -/
def endResets (d : Dev) : Dev :=
  let runs := d.kpr.resets
  let d := noteResets { d with kpr := { d.kpr with resets := [] }, levees := [] }
  (runs.flatMap (fun r => r.owed)).foldl (fun d q => kprRespond d q .resetAborted false []) d

end Sys2Proof.Machine
end

