-- ==== Sys2Proof/Machine/Polder.lean ====
section
/-! DEFINITION. Polders and power states (R320, R350 to R353, R451 to R454): what switching a polder off or on does, and the
entry into D3hot and the return from it. -/
namespace Sys2Proof.Machine

/-- Whether P(64 + i) is on. -/
def polderHi (d : Dev) (i : Nat) : Bool := rbit d PWR_POLDER_ON_HI i

/-- The state Run or Trim follows the polders that are on (Table 19-2). -/
def powerNote (d : Dev) : Dev :=
  if 2 ≤ d.pwr.state then d else
    let st := if rget d PWR_POLDER_ON == BitVec.allOnes 64 && bitsOf (rget d PWR_POLDER_ON_HI) 0 15 == 0x7FFF then 0 else 1
    let old := d.pwr.state
    let d := fset { d with pwr := { d.pwr with state := st } } PWR_STATUS_STATE st
    if old = st then d else raiseBoth d 21

/-! ## Regions (R353) -/

/-- Whether a node-local address lies in the near memories of a region that satisfies `p`. -/
def nearIn (p : Nat → Bool) (a : Nat) : Bool :=
  match placeOf a with
  | .cdram c _ => p (regionOf c)
  | .csram c _ => p (regionOf c)
  | .sp c _ => p (regionOf c)
  | _ => false

/-- Power removed from regions: contents and cell state are lost, and they leave service. -/
def regionsDark (d : Dev) (p : Nat → Bool) : Dev :=
  let d := { d with mem := smKeep (fun a => !nearIn p a) d.mem, poison := smKeep (fun g => !nearIn p (64 * g)) d.poison,
                    cells := smKeep (fun c => !p (regionOf c)) d.cells }
  (List.range 64).foldl (fun d r =>
    if !p r then d else
      let d := rsetBit (rsetBit d PWR_POLDER_ON r false) KPR_RGN_READY r false
      let up := if d.rgnUp.testBit r then d.rgnUp - 2 ^ r else d.rgnUp
      fset { d with rgnUp := up } (PWR_RGN_STEP r) 0) d

/-- A region switched off: levee, reset, power removed. -/
def regionOff (d : Dev) (r : Nat) : Dev :=
  let d := resetStage (resetRegions (leveeRecord d (1, r)) (fun k => k == r))
  regionsDark (bar2Wake d) (fun k => k == r)

/-- Regions switched off together, as for D3hot. -/
def regionsOff (d : Dev) (p : Nat → Bool) : Dev :=
  ((List.range 64).filter (fun r => p r && rbit d PWR_POLDER_ON r)).foldl regionOff d

/-- A region switched on: its bring-up runs (REGION_SETTLED ends it). -/
def regionOn (d : Dev) (r : Nat) : Dev :=
  if rbit d PWR_POLDER_ON r then d else
    let d := rsetBit (rsetBit d PWR_POLDER_ON r true) KPR_RGN_SETTLED r false
    fset d (PWR_RGN_STEP r) (min (fget d (PWR_RGN_GOV_STEP r)) (fget d (PWR_RGN_THM_STEP r)))

/-! ## Tiers (R162, R353, R454) -/

/-- Misses of this device's tier that wait for it are answered. -/
def failMisses (d : Dev) (ddr : Bool) (st : Status) : Dev :=
  let mine := fun (m : MissReg) => waitsTier d m && (match chOf d (128 * m.line) with | some (t, _) => t == ddr | none => false)
  { d with far := { d.far with misses := d.far.misses.map (fun m => if mine m then { m with data := some (st, []) } else m) } }

/-- A tier switched off: its contents, its list and its channels' registers are lost. -/
def tierOff (d : Dev) (ddr : Bool) : Dev :=
  let d := failMisses d ddr .resetAborted
  let lost := fun (a : Nat) => if ddr then decide (ddrBase ≤ a ∧ a < cdramBase) else decide (a < ddrBase)
  let d := { d with mem := smKeep (fun a => !lost a) d.mem, poison := smKeep (fun g => !lost (64 * g)) d.poison,
                    ddrList := if ddr then [] else d.ddrList, hbmList := if ddr then d.hbmList else [],
                    tierPos := smKeep (fun k => decide (192 ≤ k) != ddr) d.tierPos,
                    ceWin := smKeep (fun k => decide (192 ≤ k) != ddr) d.ceWin }
  let d := resetRegs d (fun o => if ddr then decide (0x641000 ≤ o ∧ o < 0x643000) || o == DDR_TIER_STATUS
    else decide (0x610000 ≤ o ∧ o < 0x640000) || o == HBM_TIER_STATUS)
  let d := if ddr then fset d ⟨PWR_POLDER_ON_HI, 6, 2⟩ 0 else fset d ⟨PWR_POLDER_ON_HI, 0, 6⟩ 0
  tierReady d

/-- A tier switched on: it starts afresh, with nothing settled. -/
def tierOn (d : Dev) (ddr : Bool) : Dev :=
  if ddr then fset (rsetBit (fset d ⟨PWR_POLDER_ON_HI, 6, 2⟩ 3) KPR_SETTLED 24 false) ⟨KPR_SETTLED, 16, 8⟩ 0
  else fset (rsetBit (fset d ⟨PWR_POLDER_ON_HI, 0, 6⟩ 0x3F) KPR_SETTLED 15 false) ⟨KPR_SETTLED, 8, 6⟩ 0

/-! ## Trafort, PCIe and test polders -/

/-- A Trafort polder switched off: its ports leave service with STATE DISABLED; lanes are not retired. -/
def trafortOff (d : Dev) (i : Nat) : Dev :=
  let d := leveeRecord d (2, i)
  let d := [3 * i, 3 * i + 1, 3 * i + 2].foldl (fun d p =>
    let d := if portState d p = psRetired then d else portDisable d p 8
    [4 + p, 16 + p, 28 + p].foldl slcEmpty d) d
  rsetBit d PWR_POLDER_ON_HI (8 + i) false

/-- A Trafort polder switched on: its ports may train again. -/
def trafortOn (d : Dev) (i : Nat) : Dev :=
  let d := rsetBit d PWR_POLDER_ON_HI (8 + i) true
  [3 * i, 3 * i + 1, 3 * i + 2].foldl (fun d p =>
    if portState d p = psDisabled && !fbit d (TRF_PORT_CTL_DISABLE p) then setPortState d p psDown 0 else d) d

/-- P78 switched off: the trace buffer and the DBG block are lost. -/
def testOff (d : Dev) : Dev :=
  let d := resetRegs { d with trace := [] } (fun o => decide (0x7C0000 ≤ o ∧ o < 0x7D0000))
  rsetBit { d with tap := tapReset } PWR_POLDER_ON_HI 14 false

/-- P78 switched on. -/
def testOn (d : Dev) : Dev := rsetBit d PWR_POLDER_ON_HI 14 true

/-! ## D3hot (R320, R352) -/

/-- Whether a function is in D3hot, and whether its link is down. -/
def inD3 (d : Dev) (p : Nat) : Bool := fget d (HIF_LINK_DSTATE p) == 3
def linkDown (d : Dev) (p : Nat) : Bool := !fbit d (HIF_LINK_UP p)

/-- Whether the part belongs in D3hot. -/
def d3Wanted (d : Dev) : Bool :=
  (inD3 d 0 && inD3 d 1) || (inD3 d 0 && linkDown d 1) || (inD3 d 1 && linkDown d 0)

/-- The part enters D3hot: the cells and P78 are off, the tiers keep their contents. -/
def d3Enter (d : Dev) : Dev :=
  let d := testOff (regionsOff d (fun _ => true))
  raiseBoth (fset { d with pwr := { d.pwr with state := 2, d3Due := false } } PWR_STATUS_STATE 2) 21

/-- The part leaves D3hot: every polder that is not held off comes back. -/
def d3Leave (d : Dev) : Dev :=
  let d := (List.range 64).foldl (fun d r => if rbit d PWR_POLDER_OFF r then d else regionOn d r) d
  let d := if fget d ⟨PWR_POLDER_OFF_HI, 14, 1⟩ = 0 then testOn d else d
  let d := { d with pwr := { d.pwr with state := 1 } }
  powerNote (raiseBoth (fset d PWR_STATUS_STATE 1) 21)

/-- The power state after a change of a D-state or of a link: into D3hot on the next edge while the tide is RUNNING, else at once; out
of it when a function is back in D0. -/
def d3Check (d : Dev) : Dev :=
  if d.pwr.state = 2 then
    if (inD3 d 0 || linkDown d 0) && (inD3 d 1 || linkDown d 1) then d else d3Leave d
  else if 2 < d.pwr.state then d
  else if d3Wanted d then
    if tideState d = 1 then { d with pwr := { d.pwr with d3Due := true } } else d3Enter d
  else { d with pwr := { d.pwr with d3Due := false } }

end Sys2Proof.Machine
end

