-- ==== Sys2Proof/Machine/Pcie.lean ====
section
/-! DEFINITION. PCI Express attachment (R311 to R322, R462): configuration space, the BAR windows, MSI-X, resets and power states
of the two functions. -/
namespace Sys2Proof.Machine

/-- Whether a BAR of a port takes requests (R318, R321): memory space enabled, D0, and a Secure stream where IDE is required. -/
def barOpen (d : Dev) (p : Nat) (secure : Bool) : Bool :=
  (getPcie d p).memOn && !inD3 d p && (secure || !fbit d (HIF_PORT_CFG_IDE_REQUIRED p))

/-! ## MSI-X (R319) -/

/-- Pending vectors of a port that nothing masks any more are signalled. -/
def msixDeliver (d : Dev) (p : Nat) : Dev :=
  let q := getPcie d p
  if !q.msixOn || q.msixMask then d else
    (List.range 28).foldl (fun d n =>
      let e := smGet (fun _ => msixReset) (getPcie d p).msix n
      if e.pend && !e.masked then
        let d := modPcie d p (fun q => { q with msix := smSet (fun _ => msixReset) q.msix n { e with pend := false } })
        emit d (.msix p n)
      else d) d

/-- MSI_X_TABLE_WRITE (R319): an entry of the table, with its address, data and mask. -/
def msixTableWrite (d : Dev) (p : PciePort) (n : Fin 64) (addr data : Nat) (masked : Bool) : Dev :=
  if !(getPcie d p).memOn || inD3 d p then d else
    let d := modPcie d p (fun q =>
      let e := smGet (fun _ => msixReset) q.msix n
      { q with msix := smSet (fun _ => msixReset) q.msix n { e with addr := addr % 2 ^ 64, data := data % 2 ^ 32, masked := masked } })
    msixDeliver d p

/-! ## Resets and links (R311, R322, R462) -/

/-- FUNCTION_LEVEL_RESET (R322). -/
def functionLevelReset (d : Dev) (p : PciePort) : Dev := d3Check (functionReset d p)

/-- HOT_RESET (R322): as an FLR. -/
def hotReset (d : Dev) (p : PciePort) : Dev := d3Check (functionReset d p)

/-- PCIE_LINK_DOWN (R322). -/
def pcieLinkDown (d : Dev) (p : PciePort) : Dev :=
  if linkDown d p then d else
    let d := functionReset d p
    let d := fset (fset (fset d (HIF_LINK_UP p) 0) (HIF_LINK_RATE p) 0) (HIF_LINK_WIDTH p) 0
    d3Check (fset (fset d (HIF_LINK_FLIT p) 0) (HIF_LINK_L0P_WIDTH p) 0)

/-- PCIE_LINK_UP (R311): the link of a powered port that is not held in PERST trains to a rate 1 to 6 and a width; FLIT mode runs at
64 GT/s, and below it not. `l0p` is the width that L0p runs at, 0 when it is not in use. -/
def pcieLinkUp (d : Dev) (p : PciePort) (rate width l0p : Nat) : Dev :=
  if !polderHi d (12 + p.val) || (getPcie d p).inPerst || !decide (1 ≤ rate ∧ rate ≤ 6) || !(List.contains [1, 2, 4, 8] width) ||
      !(List.contains [0, 1, 2, 4, 8] l0p) then d else
    let d := if linkDown d p then fcount d (HIF_LINK_LINK_UPS p) 1 else d
    let d := fset (fset (fset d (HIF_LINK_UP p) 1) (HIF_LINK_RATE p) rate) (HIF_LINK_WIDTH p) width
    d3Check (fset (fset d (HIF_LINK_FLIT p) (if rate = 6 then 1 else 0)) (HIF_LINK_L0P_WIDTH p) (if rate = 6 then l0p else 0))

/-- PERST_ASSERT (R322, R398, R462): a PORT reset of the port's polder is requested, and the link goes down. -/
def perstAssert (d : Dev) (p : PciePort) : Dev :=
  if (getPcie d p).inPerst then d else
    let d := modPcie d p (fun q => { q with inPerst := true, cfgReady := false })
    requestReset (fset d (pcieReady p) 0) 2 (4 + p.val) []

/-- PERST_DEASSERT (R462): the port may train and its configuration space become ready. -/
def perstDeassert (d : Dev) (p : PciePort) : Dev := modPcie d p (fun q => { q with inPerst := false })

/-- CONFIG_SPACE_READY (R313, R462): with the core up and PERST deasserted, the configuration space is ready. -/
def configSpaceReady (d : Dev) (p : PciePort) : Dev :=
  if !fbit d KPR_READY_CORE || !polderHi d (12 + p.val) || (getPcie d p).inPerst then d else
    let d := rsetBit (fset d (pcieReady p) 1) KPR_SETTLED (3 + p.val) true
    modPcie d p (fun q => { q with cfgReady := true })

/-- D_STATE_CHANGE (R320): a function enters D3hot or returns to D0. -/
def dStateChange (d : Dev) (p : PciePort) (d3 : Bool) : Dev :=
  if !(getPcie d p).cfgReady then d else d3Check (fset d (HIF_LINK_DSTATE p) (if d3 then 3 else 0))

/-- IDE_INTEGRITY_FAIL (R321): stream 0 is the link stream, 1 and 2 the selective ones. -/
def ideIntegrityFail (d : Dev) (p : PciePort) (stream : Fin 3) : Dev :=
  let f : Fld := ⟨HIF_LINK p, 20 + stream.val, 1⟩
  if fget d f = 0 then d else raiseBoth (fset (fset d f 0) (HIF_LINK_IDE_FAIL p) 1) 27

/-! ## The keeper mailbox capability (R314) -/

/-- The request window as one entry. -/
def mbxWindow (d : Dev) (p : Nat) : List Byte := (List.range 64).map (fun i => smGet (fun _ => 0) (getPcie d p).mbxReq i)

/-- MBX_PUSH (R314): the request window becomes an entry of the request mailbox. -/
def mbxPush (d : Dev) (p : PciePort) : Dev :=
  if !(getPcie d p).cfgReady then d else slcHostPut d (40 + p.val) (mbxWindow d p)

/-- MBX_POP (R314): the oldest response is released. -/
def mbxPop (d : Dev) (p : PciePort) : Dev :=
  if !(getPcie d p).cfgReady || (slcFront d (43 + p.val)).isNone then d
  else slcRelease (slcTake d (43 + p.val)) (43 + p.val) 1

/-! ## Configuration space (R312 to R314, Table 17-2) -/

/-- The capabilities: offset, ID and next offset. -/
def pciCaps : List (Nat × Nat × Nat) := [(0x40, 0x01, 0x50), (0x50, 0x11, 0x70), (0x70, 0x10, 0)]
def pciExtCaps : List (Nat × Nat × Nat) :=
  [(0x100, 0x0001, 0x148), (0x148, 0x0003, 0x158), (0x158, 0x0019, 0x178), (0x178, 0x0025, 0x184), (0x184, 0x0026, 0x1B0),
   (0x1B0, 0x002A, 0x1E0), (0x1E0, 0x0031, 0x200), (0x200, 0x0027, 0x230), (0x230, 0x002F, 0x240), (0x240, 0x002E, 0x260),
   (0x260, 0x0030, 0x400), (0x400, 0x000B, 0)]

/-- A byte string's little-endian dword at an offset. -/
def dwordAt (bs : List Byte) (o : Nat) : Nat := leNat ((bs.drop o).take 4)

/-- What is known of the dword at an offset: a mask and its value. The other bits are those of the PCI Express base specification,
which this manual does not restate. -/
def cfgKnown (d : Dev) (p off : Nat) : Nat × Nat :=
  let q := getPcie d p
  let all := 2 ^ 32 - 1
  match pciCaps.find? (fun c => c.1 == off), pciExtCaps.find? (fun c => c.1 == off) with
  | some (o, id, next), _ =>
    if o = 0x50 then (0xC7FFFFFF, id + next * 256 + 63 * 2 ^ 16 + (if q.msixMask then 2 ^ 30 else 0) + (if q.msixOn then 2 ^ 31 else 0))
    else (0xFFFF, id + next * 256)
  | none, some (_, id, next) => (0xFFF0FFFF, id + next * 2 ^ 20)
  | none, none =>
    let serial := match d.kpr.prec with | some r => r.serial | none => []
    if off = 0 then (all, 0x71041FA7)
    else if off = 0x04 then (2, if q.memOn then 2 else 0)
    else if off = 0x08 then (all, 0x12000001)
    else if off = 0x2C then (all, 0x00001FA7)
    else if off = 0x34 then (0xFF, 0x40)
    else if off = 0x44 then (3, fget d (HIF_LINK_DSTATE p))
    else if off = 0x54 then (all, 0x20004)
    else if off = 0x58 then (all, 0x30004)
    else if off = 0x14C then (all, dwordAt serial 0)
    else if off = 0x150 then (all, dwordAt serial 4)
    else if off = 0x404 then (all, 1 + 2 ^ 16 + 0x90 * 2 ^ 20)
    else if off = 0x408 then (all, 0)
    else if off = 0x40C then
      (all, min 16 (slcCredits 16 (getSlc d (40 + p))) * 256 + min 16 (slcAvail 16 (getSlc d (43 + p))))
    else if 0x410 ≤ off ∧ off < 0x450 then (all, dwordAt (mbxWindow d p) (off - 0x410))
    else if 0x450 ≤ off ∧ off < 0x490 then (all, dwordAt ((slcFront d (43 + p)).getD []) (off - 0x450))
    else (0, 0)

/-- A configuration write to the dword at an offset, of the bytes that a mask selects. -/
def cfgWrite (d : Dev) (p : PciePort) (off : Nat) (mask : Fin 16) (v : Nat) : Dev :=
  let on := fun (b : Nat) => mask.val.testBit (b / 8)
  let bit := fun (b : Nat) => v.testBit b
  if off = 0x04 then (if on 1 then modPcie d p (fun q => { q with memOn := bit 1 }) else d)
  else if off = 0x44 then (if on 0 then (if v % 4 = 3 then dStateChange d p true else if v % 4 = 0 then dStateChange d p false else d) else d)
  else if off = 0x50 then
    (if on 31 then msixDeliver (modPcie d p (fun q => { q with msixOn := bit 31, msixMask := bit 30 })) p else d)
  else if off = 0x78 then (if on 15 && bit 15 then functionLevelReset d p else d)
  else if off = 0x408 then
    let d := if on 0 && bit 0 then mbxPush d p else d
    if on 1 && bit 1 then mbxPop d p else d
  else if 0x410 ≤ off ∧ off < 0x450 then
    modPcie d p (fun q => { q with mbxReq := [0, 1, 2, 3].foldl (fun m i =>
      if on (8 * i) then smSet (fun _ => 0) m (off - 0x410 + i) (BitVec.ofNat 8 (v / 2 ^ (8 * i))) else m) q.mbxReq })
  else d

/-- CONFIG_REQUEST (R313): a read or a write of one dword of configuration space, whose bytes a mask selects; Request Retry Status until
the port is ready. -/
def configRequest (d : Dev) (p : PciePort) (write : Bool) (reg : Fin 1024) (mask : Fin 16) (v : BitVec 32) : Dev :=
  if !(getPcie d p).cfgReady then emit d (.pcieRetry p)
  else if write then cfgWrite d p (4 * reg.val) mask v.toNat
  else
    let (known, val) := cfgKnown d p (4 * reg.val)
    let (n, d) := takeFree d
    emit d (.pcieCfg p ((Config.free n % 2 ^ 32).land (2 ^ 32 - 1 - known) + val))

/-! ## BAR2 and BAR4 (R316 to R318) -/

/-- BAR2_READ (R317): n bytes at an offset. -/
def bar2Read (d : Dev) (p : PciePort) (secure : Bool) (off n : Nat) (e : EccHits) : Dev :=
  if !barOpen d p secure then answerUr d p
  else if n = 0 ∨ 4096 < n ∨ 2 ^ 36 < off + n then d
  else bar2Start d p off n false [] false e

/-- BAR2_WRITE (R317): bytes at an offset; `ep` is EP set. -/
def bar2Write (d : Dev) (p : PciePort) (secure : Bool) (off : Nat) (bytes : List Byte) (ep : Bool) : Dev :=
  if !barOpen d p secure then fcount d (HIF_PORT_CTR_UR p) 1
  else if bytes = [] ∨ 512 < bytes.length ∨ 2 ^ 36 < off + bytes.length then d
  else bar2Start d p off bytes.length true bytes ep noEcc

/-- HIF_BAR2_BASE_WRITE (R317): by the port itself or the keeper; aligned to 1 GiB. -/
def hifBar2BaseWrite (d : Dev) (by_ : Option PciePort) (p : PciePort) (v : Word) : Dev :=
  if by_ = none ∨ by_ = some p then rset d (HIF_BAR2_BASE p) (BitVec.ofNat 64 (v.toNat / 2 ^ 30 * 2 ^ 30)) else d

/-- UNSUPPORTED_TLP (R318): a request that the port answers with Unsupported Request: an AtomicOp or a Deferrable Memory Write, a
request while memory space is disabled or in D3hot, or one on a stream that is not Secure where IDE is required. -/
def unsupportedTlp (d : Dev) (p : PciePort) (posted : Bool) : Dev :=
  if posted then fcount d (HIF_PORT_CTR_UR p) 1 else answerUr d p

/-- INGEST_WINDOW_WRITE (R316): each aligned 64 B becomes one entry of the ingest sluice, in address order. -/
def ingestWindowWrite (d : Dev) (p : PciePort) (secure : Bool) (off : Nat) (bytes : List Byte) : Dev :=
  if !barOpen d p secure then fcount d (HIF_PORT_CTR_UR p) 1
  else if off % 64 ≠ 0 ∨ bytes.length % 64 ≠ 0 ∨ bytes = [] ∨ 512 < bytes.length ∨ 0x80000 < off + bytes.length then
    fcount d (HIF_PORT_CTR_BAD_INGEST p) 1
  else (List.range (bytes.length / 64)).foldl (fun d i => slcHostPut d (2 + p.val) ((bytes.drop (64 * i)).take 64)) d

/-- A ring enters ERROR (R329). -/
def ringError (d : Dev) (k cause : Nat) : Dev :=
  let want := (fget d (HIF_RING_SEQ_LAST_RECV k) + 1) % 2 ^ 32
  let d := fset (fset d (HIF_RING_STATUS_STATE k) 3) (HIF_RING_STATUS_ERR k) cause
  raiseEvent (fset d (HIF_RING_STATUS_ERR_SEQ k) want) (k / 16) 16

/-- A doorbell of ring k with value D (R328). -/
def doorbellTaken (d : Dev) (k v : Nat) : Dev :=
  let recv := fget d (HIF_RING_SEQ_LAST_RECV k)
  let gap := (v + 2 ^ 32 - recv) % 2 ^ 32
  if fget d (HIF_RING_STATUS_STATE k) ≠ 1 ∨ gap = 0 ∨ 2 ^ 31 ≤ gap then fcount d (HIF_RING_CTR_STALE_DB k) 1
  else if gap ≤ 2 ^ (getRing d k).log2 then
    modRing d k (fun r => if (r.target + 2 ^ 32 - recv) % 2 ^ 32 < gap then { r with target := v } else r)
  else ringError d k 2

/-- DOORBELL (R328): the next entry of a port's doorbell sluice is taken. An entry holds the 8 B that were written and, in byte 8, the
ring whose page they were written to. -/
def doorbell (d : Dev) (p : PciePort) : Dev :=
  match slcFront d p with
  | none => d
  | some entry =>
    let d := slcRelease (slcTake d p) p 1
    doorbellTaken d (ringNo p (leNat ((entry.drop 8).take 1) % 16)) (leNat (entry.take 4))

/-- HIF_CTR_CLR (R323). -/
def hifCtrClr (d : Dev) (p : PciePort) (v : Word) : Dev := if v.toNat.testBit 0 then rset d (HIF_PORT_CTR p) 0 else d

end Sys2Proof.Machine
end

