-- ==== Sys2Proof/Machine/HostCmd.lean ====
section
/-! DEFINITION. Command rings (R324 to R342, R345 to R348): ring control, descriptors, the start of each command, aborts, commit points
and completions. -/
namespace Sys2Proof.Machine

/-! ## Power caps (R359) -/

/-- The shift of R366, in W, signed. -/
def shiftWatts (d : Dev) : Int :=
  let v := fget d PWR_CAP_SHIFT
  if v < 32768 then v else (v : Int) - 65536

/-- A cap given outside 900 to 2,600 W, stored as the nearer bound. -/
def capClamp (v : Nat) : Nat := max 900 (min 2600 v)

/-- The base (R359): the lower of the host cap and the rack cap. -/
def capBase (d : Dev) : Nat := min (fget d PWR_CAP_HOST) (fget d PWR_CAP_RACK)

/-- The effective cap of a base, a shift and a carrier limit (R359). -/
def capFrom (base : Nat) (shift : Int) (limit : Nat) : Nat := min limit (capClamp ((base : Int) + shift).toNat)

/-- The effective cap follows the caps, the shift and the carrier limit (R359). -/
def capUpdate (d : Dev) : Dev :=
  let v := capFrom (capBase d) (shiftWatts d) (fget d PWR_RESERVE_CARRIER)
  if v = fget d PWR_CAP_EFFECTIVE then d else raiseBoth (fset d PWR_CAP_EFFECTIVE v) 21

/-- A new host cap in force. -/
def setHostCap (d : Dev) (watts : Nat) : Dev := capUpdate (fset d PWR_CAP_HOST (capClamp watts))

/-- A new shift in force (R366, R367), counted in SHIFTS where it changes. -/
def setShift (d : Dev) (v : Int) : Dev :=
  if v = shiftWatts d then d
  else capUpdate (fcount (fset d PWR_CAP_SHIFT (v % 65536).toNat) PWR_CTR_SHIFTS 1)

/-! ## Ring control (R325, R326, R333) -/

/-- STATE of ring k (Table 18-2). -/
def ringState (d : Dev) (k : Nat) : Nat := fget d (HIF_RING_STATUS_STATE k)

/-- Whether a writer may write ring k's registers: its own port or the keeper (R325). -/
def ringWrites (by_ : Option PciePort) (k : Nat) : Bool :=
  match by_ with
  | none => true
  | some p => p.val == k / 16

/-- INFLIGHT follows the commands accepted and not completed. -/
def noteInflight (d : Dev) (k : Nat) : Dev := fset d (HIF_RING_STATUS_INFLIGHT k) (getRing d k).cmds.length

/-- Place of a SEQ's record in the history of ring k (R348, R349). -/
def histIndex (k seq : Nat) : Nat := 64 * k + seq % 64

/-- The 32 bytes of a history record. -/
def histBytes (d : Dev) (k seq : Nat) : List Byte :=
  (List.range 4).flatMap (fun j => leBytes 8 (rget d (HIF_CMPL_HIST (histIndex k seq) j)).toNat)

/-- A completion record written to host memory, from the history (R325, R327, R331). -/
def writeCompletion (d : Dev) (k seq : Nat) : Dev :=
  let base := (rget d (HIF_RING_CBASE k)).toNat / 4096 * 4096
  emit d (.hostWrite (k / 16) (base + 32 * (seq % 2 ^ (getRing d k).log2)) false (histBytes d k seq))

/-- Completions posted count towards the ring's event (R333). -/
def moderate (d : Dev) (k n : Nat) : Dev :=
  let seen := (getRing d k).modSeen + n
  if 0 < n ∧ fget d (HIF_RING_CFG_MOD_COUNT k) ≤ seen then
    raiseEvent (modRing d k (fun r => { r with modSeen := 0 })) (k / 16) (k % 16)
  else modRing d k (fun r => { r with modSeen := seen })

/-- RING_ENABLE (R326). -/
def ringEnable (d : Dev) (by_ : Option PciePort) (k : Fin 32) : Dev :=
  if !ringWrites by_ k || ringState d k != 0 then d else
    let s := (fget d (HIF_RING_START_START_SEQ k) + 2 ^ 32 - 1) % 2 ^ 32
    let d := wipeRegs d (fun o => decide (0x780000 + 0x800 * k.val ≤ o ∧ o < 0x780800 + 0x800 * k.val))
    let d := fset (fset d (HIF_RING_SEQ_LAST_RECV k) s) (HIF_RING_SEQ_LAST_DONE k) s
    let d := modRing d k (fun _ => { ringReset with target := s, log2 := fget d (HIF_RING_CFG_LOG2 k) })
    fset d (HIF_RING_STATUS_STATE k) 1

/-- RING_RESUME (R326, R348): the completions recorded and not yet written are written in SEQ order. -/
def ringResume (d : Dev) (by_ : Option PciePort) (k : Fin 32) : Dev :=
  if !ringWrites by_ k || ringState d k < 2 then d else
    let todo := (getRing d k).unwrit
    let d := todo.foldl (fun d s => writeCompletion d k s) d
    let d := fset (fset d (HIF_RING_STATUS_ERR k) 0) (HIF_RING_STATUS_STATE k) 1
    moderate (modRing d k (fun r => { r with unwrit := [] })) k todo.length

/-- RING_STOP (R326). -/
def ringStop (d : Dev) (by_ : Option PciePort) (k : Fin 32) : Dev :=
  if !ringWrites by_ k || ringState d k != 1 then d else fset d (HIF_RING_STATUS_STATE k) 2

/-- RING_DISABLE (R326). -/
def ringDisable (d : Dev) (by_ : Option PciePort) (k : Fin 32) : Dev :=
  if !ringWrites by_ k || ringState d k < 2 || fget d (HIF_RING_SEQ_LAST_DONE k) != fget d (HIF_RING_SEQ_LAST_RECV k) then d
  else fset (modRing d k (fun r => { r with unwrit := [] })) (HIF_RING_STATUS_STATE k) 0

/-- MOD_TIME_EXPIRE (R333): MOD_TIME since the oldest completion not signalled has passed. -/
def modTimeExpire (d : Dev) (k : Fin 32) : Dev :=
  if fget d (HIF_RING_CFG_MOD_TIME k) = 0 ∨ (getRing d k).modSeen = 0 then d
  else raiseEvent (modRing d k (fun r => { r with modSeen := 0 })) (k / 16) (k % 16)

/-! ## Descriptors (R330, R334 to R336) -/

/-- A gauge reference at an offset of a descriptor or list entry. -/
def grefAt (bs : List Byte) (o : Nat) : Gref := ⟨leAt bs o 2, leAt bs (o + 2) 1, leAt bs (o + 3) 1, leAt bs (o + 4) 1⟩

/-- Whether it lies within the ranges of R336. -/
def grefOk (bs : List Byte) (o : Nat) : Bool :=
  decide (leAt bs o 2 < 4096) && decide (leAt bs (o + 3) 1 < 64) && zeroAt bs (o + 5) 3

/-- Whether every operand byte outside the named ranges (offset, length) is zero. -/
def restZero (bs : List Byte) (named : List (Nat × Nat)) : Bool :=
  (List.range 48).all (fun i => named.any (fun r => decide (r.1 ≤ 16 + i ∧ 16 + i < r.1 + r.2)) || bs.getD (16 + i) 0 == 0)

/-- The command of a descriptor (Tables 18-3 and 18-5); malformed where R335 says so. -/
def parseOp (bs : List Byte) : HostOp :=
  let v := fun (o n : Nat) => leAt bs o n
  let need := fun (named : List (Nat × Nat)) (ok : Bool) (op : HostOp) => if ok && restZero bs named then op else HostOp.malformed
  if v 2 2 / 2 ≠ 0 ∨ !zeroAt bs 10 6 then .malformed else
  match v 0 2 with
  | 0x0000 => need [] true .nop
  | 0x0001 => need [(16, 20), (36, 1), (40, 5)] (decide (1 ≤ v 32 4) && decide (v 36 1 ≤ 1) && grefOk bs 40)
      (.copy (v 16 8) (v 24 8) (v 32 4) (v 36 1 == 1) (grefAt bs 40))
  | 0x0002 => need [(16, 5), (24, 1), (32, 8)] (decide (v 24 1 ≤ 1) && grefOk bs 16) (.gauge (grefAt bs 16) (v 24 1 == 1) (v 32 8))
  | 0x0004 => need [(16, 10)] (v 16 8 % 64 == 0 && decide (1 ≤ v 24 2) && decide (v 24 2 ≤ 256)) (.gaugeList (v 16 8) (v 24 2))
  | 0x0003 => need [(16, 9), (32, 5), (40, 5)] (decide (6 ≤ v 24 1) && decide (v 24 1 ≤ 24) && grefOk bs 32 && grefOk bs 40)
      (.ingestSet (v 16 8) (v 24 1) (grefAt bs 32) (grefAt bs 40))
  | 0x0010 => need [(16, 12)] true (.patLoad (v 16 8) (v 24 4))
  | 0x0011 => need [(16, 8)] true (.patSwitch (v 16 8))
  | 0x0012 => need [] true .patDiscard
  | 0x0013 => need [(16, 16)] true (.srSeed (v 16 8) (v 24 8))
  | 0x0014 => need [(16, 2), (24, 8)] (decide (v 16 1 < 12) && decide (v 17 1 < 4)) (.clvLayout (v 16 1) (v 17 1) (v 24 8))
  | 0x0015 => need [(16, 1), (20, 12)] (decide (v 16 1 < 64)) (.stateExport (v 16 1) (v 20 4) (v 24 8))
  | 0x0016 => need [(16, 1), (24, 8)] (decide (v 16 1 < 64)) (.stateImport (v 16 1) (v 24 8))
  | 0x0020 => need [(16, 2), (20, 4)] (decide (v 16 1 ≤ 1) && decide (v 17 1 ≤ 15)) (.abort (v 16 1) (v 17 1) (v 20 4))
  | 0x0021 => need [(16, 2)] (decide (1 ≤ v 16 2)) (.handover (v 16 2))
  | 0x0022 => need [] true .handoverAck
  | 0x0030 => need [(16, 4), (24, 8)] true (.capSet (v 16 4) (v 24 8))
  | 0x0031 => need [(16, 1), (18, 2)] (decide (v 16 1 ≤ 4) && scopeValid (v 16 1) (v 18 2)) (.reset (v 16 1) (v 18 2))
  | _ => .malformed

/-- The Owner commands of Table 18-5. -/
def opOwner : HostOp → Bool
  | .patLoad _ _ => true
  | .patSwitch _ => true
  | .patDiscard => true
  | .srSeed _ _ => true
  | .capSet _ _ => true
  | .reset _ _ => true
  | _ => false

/-- The list of a GAUGE_LIST, read once at acceptance (R339): status, DETAIL and entries. -/
def readGauges (d : Dev) (e : EccHits) (far : SMap Byte) (a n tag port : Nat) : Dev × Status × Nat × List (Gref × Bool × Nat) :=
  match fetchRange d e .fetch far a (24 * n) tag port with
  | (d, .refused) => (d, .xltFault, 0, [])
  | (d, .failed st) => (d, st, 0, [])
  | (d, .bytes bs bad) =>
    if bad then (d, .poisoned, 0, []) else
      let offs := (List.range n).map (fun i => 24 * i)
      if offs.all (fun o => grefOk bs o && leAt bs (o + 4) 1 == 0 && decide (leAt bs (o + 16) 1 ≤ 1) && zeroAt bs (o + 17) 7) then
        (d, .ok, 0, offs.map (fun o => (grefAt bs o, leAt bs (o + 16) 1 == 1, leAt bs (o + 8) 8)))
      else (d, .aborted, 1, [])

/-- HOST comparators that match a command (R441). -/
def hostBps (d : Dev) (port tag : Nat) : List Nat :=
  if !(fget d SEC_DBG_PERMS_PERMS).testBit 0 then [] else
    (List.range 8).filter (fun j => fbit d (DBG_BP_ARMED j) && fget d (DBG_BP_CLASS j) == 4 &&
      (fget d (DBG_BP_SCOPE j) != 0 || fget d (DBG_BP_UNIT j) == port) &&
      tagMatch tag (fget d (DBG_BP_CNT_TAG_VAL j)) (fget d (DBG_BP_TAG_MASK j)))

/-- HOST comparators act on an accepted command: whether it is held (R441). -/
def hostBreak (d : Dev) (k tag : Nat) : Dev × Bool :=
  let src := 0x1020 + k / 16
  (hostBps d (k / 16) tag).foldl (fun (r : Dev × Bool) j =>
    if bpCount r.1 j ≤ fget r.1 (DBG_BP_CNT_MATCHES j) + 1 then
      let every := fbit r.1 (DBG_BP_ACTION j)
      let d := bpHit r.1 j 1 src k tag
      (if every then breakAll d else d, true)
    else (fcount r.1 (DBG_BP_CNT_MATCHES j) 1, r.2)) (d, false)

/-- What a descriptor makes the part read: the entries of a GAUGE_LIST (R339), with the status and the detail met. -/
def listOf (d : Dev) (e : EccHits) (far : SMap Byte) (op : HostOp) (tag p : Nat) : Dev × Status × Nat × List (Gref × Bool × Nat) :=
  match op with
  | .gaugeList a n => readGauges d e far a n tag p
  | _ => (d, .ok, 0, [])

/-- DESCRIPTOR_FETCH (R329): the next descriptor of ring k is fetched; `bytes` is none where the fetch failed. What other devices
answer to the read of a GAUGE_LIST's list is `far`. -/
def descriptorFetch (d : Dev) (k : Fin 32) (bytes : Option (List Byte)) (e : EccHits) (far : SMap Byte) : Dev :=
  let r := getRing d k
  let recv := fget d (HIF_RING_SEQ_LAST_RECV k)
  if ringState d k != 1 || r.target == recv || decide (64 ≤ r.cmds.length) then d else
  match bytes with
  | none => ringError d k 3
  | some bs =>
    if bs.length ≠ 64 then d
    else if leAt bs 4 4 ≠ (recv + 1) % 2 ^ 32 then ringError d k 1
    else
      let seq := leAt bs 4 4
      let tag := leAt bs 8 2
      let op := parseOp bs
      let d := fcount (fset d (HIF_RING_SEQ_LAST_RECV k) seq) (HIF_RING_CTR_COMMANDS k) 1
      let d := traceEv d 2 0x10 tag (0x1020 + k / 16) k .ok (0, 0)
      let (d, held) := hostBreak d k tag
      let (d, st, detail, lists) := listOf d e far op tag (k / 16)
      let denied := opOwner op && decide (ownerPort d ≠ k / 16)
      let bad := decide (op = .malformed)
      let c : HostCmd := { seq := seq, tag := tag, opcode := leAt bs 0 2, fence := leAt bs 2 1 % 2 == 1, op := op, started := false,
                           ended := bad || denied, due := 0,
                           status := if bad then .aborted else if denied then .securityDenied else st,
                           detail := if bad then 1 else if denied then 14 else detail,
                           result := 0, lists := lists, openReq := 0, latch := d.latchNo, workEnd := none, abortAt := none, final := none,
                           brk := held, got := [], gotBad := [], spans := [] }
      noteInflight (modRing { d with latchNo := d.latchNo + 1 } k (fun r => { r with cmds := r.cmds ++ [c] })) k

/-! ## The start of each command (R332) -/

/-- A command marked as started, with the edge it is due on. -/
def startDue (d : Dev) (k seq due : Nat) : Dev := modCmd d k seq (fun c => { c with started := true, due := due, result := due })

/-- NOP (R334). -/
def hostNop (d : Dev) (k : Fin 32) : Dev :=
  match nextCmd d k with
  | some c => (match c.op with
    | .nop => markOver d k c.seq .ok 0 0
    | _ => d)
  | none => d

/-- COPY (R337): the bytes of host memory and the places that come poisoned, for one that reads it; none where its read fails. -/
def hostCopy (d : Dev) (k : Fin 32) (host : Option (List Byte)) (hostBad : List Nat) (e : EccHits) : Dev :=
  match nextCmd d k with
  | some c => (match c.op with
    | .copy _ _ len toHost _ =>
      if !toHost && (match host with | some bs => bs.length != len | none => false) then d else copyRun d e k c host hostBad
    | _ => d)
  | none => d

/-- GAUGE (R338). -/
def hostGauge (d : Dev) (k : Fin 32) : Dev :=
  match nextCmd d k with
  | some c => (match c.op with
    | .gauge g set v => markOver (modCmd d k c.seq (fun c => { c with lists := [(g, set, v)] })) k c.seq .ok 0 0
    | _ => d)
  | none => d

/-- GAUGE_LIST (R339). -/
def hostGaugeList (d : Dev) (k : Fin 32) : Dev :=
  match nextCmd d k with
  | some c => (match c.op with
    | .gaugeList _ _ => markOver d k c.seq c.status c.detail 0
    | _ => d)
  | none => d

/-- INGEST_SET (R343). -/
def hostIngestSet (d : Dev) (k : Fin 32) : Dev :=
  match nextCmd d k with
  | some c => (match c.op with
    | .ingestSet _ _ _ _ => markOver d k c.seq .ok 0 0
    | _ => d)
  | none => d

/-- PAT_LOAD (R208). -/
def hostPatLoad (d : Dev) (k : Fin 32) : Dev :=
  match nextCmd d k with
  | some c => (match c.op with
    | .patLoad a n =>
      match startLoad d a n (some (k, c.seq)) with
      | (d, true) => modCmd d k c.seq (fun c => { c with started := true })
      | (d, false) => markOver d k c.seq .notReady 13 0
    | _ => d)
  | none => d

/-- PAT_SWITCH (R208, R212). -/
def hostPatSwitch (d : Dev) (k : Fin 32) : Dev :=
  match nextCmd d k with
  | some c => (match c.op with
    | .patSwitch e =>
      match startSwitch d e (some (k, c.seq)) with
      | (d, true) => startDue d k c.seq d.pat.due
      | (d, false) => markOver d k c.seq .notReady 13 0
    | _ => d)
  | none => d

/-- The moment a command's work ended, latched (R340). -/
def latchWork (d : Dev) (k seq : Nat) : Dev :=
  match findCmd d k seq with
  | none => d
  | some c =>
    if c.workEnd.isSome || !c.ended then d
    else modCmd { d with latchNo := d.latchNo + 1 } k seq (fun c => { c with workEnd := some d.latchNo })

/-- PAT_DISCARD (R208, R210): its work is one moment. -/
def hostPatDiscard (d : Dev) (k : Fin 32) : Dev :=
  match nextCmd d k with
  | some c => (match c.op with
    | .patDiscard =>
      match discardStage d with
      | (d, true) => latchWork (markOver d k c.seq .ok (fget d PAT_STATUS_REASON) 0) k c.seq
      | (d, false) => markOver d k c.seq .notReady 13 0
    | _ => d)
  | none => d

/-- SR_SEED (R114). -/
def hostSrSeed (d : Dev) (k : Fin 32) : Dev :=
  match nextCmd d k with
  | some c => (match c.op with
    | .srSeed _ e => startDue d k c.seq (edgeUsed d e)
    | _ => d)
  | none => d

/-- CLV_LAYOUT (R267). -/
def hostClvLayout (d : Dev) (k : Fin 32) : Dev :=
  match nextCmd d k with
  | some c => (match c.op with
    | .clvLayout _ _ e => startDue d k c.seq (edgeUsed d e)
    | _ => d)
  | none => d

/-- CAP_SET (R359): on its edge, or at once while the tide is not RUNNING (R238). -/
def hostCapSet (d : Dev) (k : Fin 32) : Dev :=
  match nextCmd d k with
  | some c => (match c.op with
    | .capSet w e =>
      if tideRuns d then startDue d k c.seq (edgeUsed d e)
      else writeFinal (setHostCap d w) k c.seq .ok 0 0 0
    | _ => d)
  | none => d

/-- RESET (R398): it acts at its commit point. -/
def hostReset (d : Dev) (k : Fin 32) : Dev :=
  match nextCmd d k with
  | some c => (match c.op with
    | .reset _ _ => markOver d k c.seq .ok 0 0
    | _ => d)
  | none => d

/-! ## Gauge commands at their commit point (R338, R339) -/

/-- The update of one entry of a host command; sets of one gauge stand in the order of R338, so no other key decides. -/
def hostUpd (d : Dev) (x : Gref × Bool × Nat) : GaugeUpd :=
  { patch := x.1.patch, gauge := x.1.gauge, src := .host, cell := 0, node := nodeId d, op := if x.2.1 then .set x.2.2 else .add x.2.2 }

/-- Member cells of a patch that this device lists. -/
def patchCells (d : Dev) (p : PatchDef) : List Nat :=
  (d.cells.map (fun e => e.1)).filter (fun c => p.cells.isEmpty || p.cells.any (fun x => x.val == c))

/-- The value of a patch gauge homed here reaches the copies of the patch's cells. -/
def spreadGauge (d : Dev) (p : PatchDef) (gauge : Nat) : Dev :=
  let k := patchKey p.num gauge
  let v : Word := BitVec.ofNat 64 (homeGauge d k)
  (patchCells d p).foldl (fun d c => modCell d c (fun x => latchWaits
    { x with patchView := smSet (fun _ => 0) x.patchView k v } ⟨Fin.ofNat 256 p.num, Fin.ofNat 64 gauge⟩)) d

/-- Host updates that meet on one edge (R338), in the order of precedence of their sets. -/
def applyHostGauges (d : Dev) (xs : List (Gref × Bool × Nat)) : Dev :=
  let keyOf := fun (g : Gref) => (if g.patch = 0 then g.cell else 0, g.patch, g.gauge)
  ((xs.map (fun x => keyOf x.1)).dedup).foldl (fun d key =>
    let mine := xs.filter (fun x => keyOf x.1 == key)
    if key.2.1 = 0 then applyCellGauge d key.1 (Fin.ofNat 64 key.2.2) (mine.map (hostUpd d))
    else match patchDef d key.2.1 with
      | none => d
      | some p =>
        if p.home = nodeId d then spreadGauge (applyPatchGauge d key.2.1 key.2.2 (mine.map (hostUpd d))) p key.2.2
        else mine.foldl (fun d x => sendPatchGauge d (hostUpd d x)) d) d

/-- What a GAUGE reports in RESULT: the value after the edge; at a home on another device it is not known here, and free. -/
def gaugeResult (d : Dev) (g : Gref) : Dev × Nat :=
  let home := g.patch = 0 || (match patchDef d g.patch with | some p => decide (p.home = nodeId d) | none => true)
  if home then (d, grefValue d g) else
    let (n, d) := takeFree d
    (d, Config.free n)

/-- GAUGE and GAUGE_LIST commands that commit together at an edge; 0 for none. -/
def commitGauges (d : Dev) (cs : List (Nat × HostCmd)) (edge : Nat) : Dev :=
  let good := cs.filter (fun e => e.2.status = .ok && e.2.lists.all (fun x => !grefBad d x.1))
  let d := applyHostGauges d (good.flatMap (fun e => e.2.lists))
  cs.foldl (fun d e =>
    if e.2.status ≠ .ok then writeFinal d e.1 e.2.seq e.2.status e.2.detail 0 edge
    else if good.contains e then
      let (d, res) := match e.2.op, e.2.lists with
        | .gauge g _ _, _ => gaugeResult d g
        | _, l => (d, l.length)
      let d := traceEv d 3 0x12 e.2.tag (0x1020 + e.1 / 16) e.1 .ok (0, res)
      writeFinal d e.1 e.2.seq .ok 0 res edge
    else writeFinal d e.1 e.2.seq .retiredResource 0 0 edge) d

/-- Whether a command is a GAUGE or a GAUGE_LIST. -/
def isGaugeOp (c : HostCmd) : Bool :=
  match c.op with
  | .gauge _ _ _ => true
  | .gaugeList _ _ => true
  | _ => false

/-! ## Commit points (R340) -/

/-- An INGEST_SET committed (R343, R344). -/
def commitIngest (d : Dev) (p base log2 : Nat) (fill consumed : Gref) : Dev :=
  let d := rset d (HIF_INGEST_BASE p) (BitVec.ofNat 64 base)
  let d := fset (fset d (HIF_INGEST_CFG_VALID p) 1) (HIF_INGEST_CFG_LOG2 p) log2
  let d := rset d (HIF_INGEST_STATUS p) 0
  modPcie d p (fun q => { q with ingestK := 0, ingestN := 0, fill := fill, consumed := consumed })

/-- A command whose work has ended commits; the scope of a RESET that does is requested afterwards. -/
def commitCmd (d : Dev) (k : Nat) (c : HostCmd) (edge : Nat) : Dev :=
  if c.final.isSome then d
  else if isGaugeOp c then commitGauges d [(k, c)] edge
  else match c.op with
  | .copy _ _ _ _ g =>
    let d := writeFinal d k c.seq c.status c.detail c.result edge
    if c.status = .ok then grefAdd d g g.inc .host else d
  | .ingestSet base log2 fill consumed =>
    if c.status ≠ .ok then writeFinal d k c.seq c.status c.detail c.result edge
    else if grefBad d fill || grefBad d consumed then writeFinal d k c.seq .retiredResource 0 0 edge
    else writeFinal (commitIngest d (k / 16) base log2 fill consumed) k c.seq .ok 0 0 edge
  | _ => writeFinal d k c.seq c.status c.detail c.result edge

/-- The reset a command asks for at its commit point (R398). -/
def resetAsked (c : HostCmd) : Option (Nat × Nat) :=
  match c.op with
  | .reset scope target => if c.ended && decide (c.status = .ok) then some (scope, target) else none
  | _ => none

/-! ## Aborts (R341, R342) -/

/-- Requests of a COPY that ends early: their responses are dropped. -/
def dropCopy (d : Dev) (k seq : Nat) : Dev :=
  let hit := fun (u : RidUse) => match u with
    | .copyRead _ r s _ => r == k && s == seq
    | .copyWrite _ r s => r == k && s == seq
    | _ => false
  { d with
    rids := d.rids.map (fun e => (e.1, e.2.map (fun r => if hit r.use then { r with use := .dropped } else r)))
    reqWait := d.reqWait.filter (fun e => !hit e.1.use) }

/-- Table 18-6: what an abort leaves of its target. -/
def abortEffect (d : Dev) (k : Nat) (c : HostCmd) : Dev :=
  match c.op with
  | .copy _ _ _ _ _ => dropCopy d k c.seq
  | .patLoad _ _ => if c.started && (patStage d = 1 || patStage d = 2) then (discardStage d).1 else d
  | .stateImport set _ =>
    match setSetup d set with
    | some (_, _, l) => poisonSpans d (setCellOf d l) c.spans
    | none => d
  | _ => d

/-- A target aborted at an edge, or on acceptance (edge 0). A switch is withdrawn, which writes its status. -/
def abortTarget (d : Dev) (k : Nat) (c : HostCmd) (edge : Nat) : Dev :=
  let d := if c.started && d.pat.swCmd == some (k, c.seq) then patFail d 16 .aborted true edge else abortEffect d k c
  let pat := match c.op with
    | .patLoad _ _ => true
    | .patSwitch _ => true
    | .patDiscard => true
    | _ => false
  writeFinal d k c.seq .aborted (if pat then fget d PAT_STATUS_REASON else 0) 0 edge

/-- Final status of a target: of a command held here, or of the ring's history; free where neither has it. -/
def finalStatus (d : Dev) (k seq : Nat) : Dev × Nat :=
  match findCmd d k seq with
  | some c => (match c.final with
    | some f => (d, statusCode f.1)
    | none =>
      let (n, d) := takeFree d
      (d, Config.free n % 256))
  | none =>
    let w0 := (rget d (HIF_CMPL_HIST (histIndex k seq) 0)).toNat
    let back := (fget d (HIF_RING_SEQ_LAST_DONE k) + 2 ^ 32 - seq) % 2 ^ 32
    if back < 64 ∧ w0 % 2 ^ 32 = seq then (d, w0 / 2 ^ 48 % 256)
    else
      let (n, d) := takeFree d
      (d, Config.free n % 256)

/-- Target of an ABORT, as a ring and a SEQ. -/
def abortOf (c : HostCmd) : Option (Nat × Nat) :=
  match c.op with
  | .abort p r s => some (16 * p + r, s)
  | _ => none

/-- An ABORT that starts (R341): refused, too late already, or latched on its target. The withdrawal of a switch is heard at once. -/
def startAbort (d : Dev) (k : Nat) (c : HostCmd) : Dev :=
  match abortOf c with
  | none => d
  | some (tk, seq) =>
    if tk / 16 ≠ k / 16 ∧ ownerPort d ≠ k / 16 then markOver d k c.seq .securityDenied 14 0
    else
      let gap := (seq + 2 ^ 32 - fget d (HIF_RING_SEQ_LAST_RECV tk)) % 2 ^ 32
      if 0 < gap ∧ gap < 2 ^ 31 then markOver d k c.seq .notReady 13 0
      else match findCmd d tk seq with
      | none =>
        let (d, res) := finalStatus d tk seq
        markOver d k c.seq .abortTooLate 0 res
      | some t =>
        let fixed := match t.op with
          | .abort _ _ _ => true
          | .handover _ => true
          | .handoverAck => true
          | _ => false
        if fixed || t.final.isSome then
          let (d, res) := finalStatus d tk seq
          markOver d k c.seq .abortTooLate 0 res
        else
          let d := modCmd d k c.seq (fun c => { c with started := true })
          if t.abortAt.isSome then d else
            let d := modCmd d tk seq (fun t => { t with abortAt := some (c.latch, k / 16, k % 16, c.seq) })
            if t.started && d.pat.swCmd == some (tk, seq) && tideRuns d then withdrawSwitch d else d

/-- Every ABORT that may start does. -/
def startAborts (d : Dev) : Dev :=
  (List.range 32).foldl (fun d k =>
    (getRing d k).cmds.foldl (fun d _ => match nextCmd d k with
      | some c => if (abortOf c).isSome then startAbort d k c else d
      | none => d) d) d

/-- Commands whose abort was latched, with their rings, in the order of the latches. -/
def latchedTargets (d : Dev) : List (Nat × HostCmd × Nat × Nat × Nat) :=
  ((allCmds d).filterMap (fun e => match e.2.abortAt with
    | some (n, p, r, s) => if e.2.final.isNone then some (e.1, e.2, n, 16 * p + r, s) else none
    | none => none)).insertionSort (fun a b => a.2.2.1 ≤ b.2.2.1)

/-- Order 2: each latched abort that came before its target's work end wins (R341). -/
def resolveWins (d : Dev) (edge : Nat) : Dev :=
  (latchedTargets d).foldl (fun d x =>
    let (k, t, n, ak, aseq) := x
    let wins := match t.workEnd with
      | none => true
      | some w => decide (n < w)
    if wins then writeFinal (abortTarget d k t edge) ak aseq .ok 0 0x01 edge else d) d

/-- The ABORTs that have started and did not win, their targets having their final status. -/
def resolveLate (d : Dev) (edge : Nat) : Dev :=
  (allCmds d).foldl (fun d e =>
    match abortOf e.2 with
    | some (tk, seq) =>
      if e.2.started && !e.2.ended && (match findCmd d e.1 e.2.seq with | some c => c.final.isNone | none => false) then
        let (d, res) := finalStatus d tk seq
        writeFinal d e.1 e.2.seq .abortTooLate 0 res edge
      else d
    | none => d) d

/-- A command commits at once, the tide not RUNNING (R340), and a RESET is requested. -/
def commitNow (d : Dev) (k seq : Nat) : Dev :=
  match findCmd d k seq with
  | none => d
  | some c =>
    if !c.ended || c.final.isSome then d else
      let d := commitCmd d k c 0
      match resetAsked c with
      | some (scope, target) => requestReset d scope target []
      | none => d

/-- COMMAND_WORK_END (R340): the moment that a command's work ended is latched; while the tide is not RUNNING the command commits. -/
def commandWorkEnd (d : Dev) (k : Fin 32) (seq : Nat) : Dev :=
  let d := latchWork d k seq
  if tideRuns d then d else commitNow d k seq

/-- ABORT (R341): on acceptance it is latched; while the tide is not RUNNING it resolves. -/
def hostAbort (d : Dev) (k : Fin 32) : Dev :=
  match nextCmd d k with
  | none => d
  | some c =>
    match abortOf c with
    | none => d
    | some (tk, seq) =>
      let d := startAbort d k c
      if tideRuns d then latchWork d k c.seq
      else
        let d := resolveWins d 0
        let d := match findCmd d tk seq with
          | some t => if t.workEnd.isSome then commitNow d tk seq else d
          | none => d
        commitNow (resolveLate d 0) k c.seq

/-! ## Control ownership (R345 to R347) -/

/-- Whether a port's offer is open, and its field. -/
def offerFld (p : Nat) : Fld := if p = 0 then HIF_CTRL_OFFER_A else HIF_CTRL_OFFER_B

/-- The HANDOVER of a port that holds its offer open. -/
def openOffer (d : Dev) (p : Nat) : Option (Nat × HostCmd) :=
  (allCmds d).find? (fun e => e.1 / 16 == p && e.2.started && e.2.final.isNone && (match e.2.op with | .handover _ => true | _ => false))

/-- A port's offer closed, its HANDOVER ended with a status. -/
def closeOffer (d : Dev) (p : Nat) (st : Status) (detail result : Nat) : Dev :=
  let d := match openOffer d p with
    | some (k, c) => writeFinal d k c.seq st detail result 0
    | none => d
  fset d (offerFld p) 0

/-- Ownership moves (R346): the open offer of port p and the command that met it end with OK and the new owner. -/
def transferOwner (d : Dev) (p k seq : Nat) : Dev :=
  let owner := 1 - ownerPort d
  let d := closeOffer (fset d HIF_CTRL_OWNER owner) p .ok 0 owner
  writeFinal d k seq .ok 0 owner 0

/-- HANDOVER (R346). -/
def hostHandover (d : Dev) (k : Fin 32) : Dev :=
  match nextCmd d k with
  | some c => (match c.op with
    | .handover _ =>
      let p := k.val / 16
      if fbit d (offerFld p) then markOver d k c.seq .notReady 13 0
      else if fbit d (offerFld (1 - p)) then transferOwner d (1 - p) k c.seq
      else fset (modCmd d k c.seq (fun c => { c with started := true })) (offerFld p) 1
    | _ => d)
  | none => d

/-- HANDOVER_ACK (R346). -/
def hostHandoverAck (d : Dev) (k : Fin 32) : Dev :=
  match nextCmd d k with
  | some c => (match c.op with
    | .handoverAck =>
      if fbit d (offerFld (1 - k.val / 16)) then transferOwner d (1 - k.val / 16) k c.seq
      else markOver d k c.seq .notReady 13 0
    | _ => d)
  | none => d

/-- HANDOVER_EXPIRE (R346): the timeout of a port's open offer has passed. -/
def handoverExpire (d : Dev) (p : PciePort) : Dev :=
  if fbit d (offerFld p) then closeOffer d p .aborted 21 0 else d

/-- Every open offer cancelled (R347). -/
def cancelOffers (d : Dev) : Dev :=
  [0, 1].foldl (fun d p => if fbit d (offerFld p) then closeOffer d p .aborted 13 0 else d) d

/-! ## Completions (R331, R332) -/

/-- A completion recorded in the history (Table 18-4). -/
def recordCompletion (d : Dev) (k : Nat) (c : HostCmd) (f : Status × Nat × Nat × Nat) : Dev :=
  let phase := c.seq / 2 ^ (getRing d k).log2 % 2
  let i := histIndex k c.seq
  let d := rset d (HIF_CMPL_HIST i 0) (BitVec.ofNat 64 (c.seq + c.tag % 2 ^ 16 * 2 ^ 32 + statusCode f.1 * 2 ^ 48 + phase * 2 ^ 56))
  let d := rset d (HIF_CMPL_HIST i 1) (BitVec.ofNat 64 (c.opcode % 2 ^ 16 + f.2.1 % 2 ^ 16 * 2 ^ 16))
  let d := rset d (HIF_CMPL_HIST i 2) (BitVec.ofNat 64 f.2.2.2)
  rset d (HIF_CMPL_HIST i 3) (BitVec.ofNat 64 f.2.2.1)

/-- COMPLETION_POST (R332): the oldest command of ring k, if it has committed, is posted, or recorded while the ring is not RUNNING;
`good` is false where its write to host memory fails. -/
def completionPost (d : Dev) (k : Fin 32) (good : Bool) : Dev :=
  match (getRing d k).cmds with
  | [] => d
  | c :: rest =>
    match c.final with
    | none => d
    | some f =>
      let d := recordCompletion d k c f
      let d := fset d (HIF_RING_SEQ_LAST_DONE k) c.seq
      let d := if f.1 = .aborted then fcount d (HIF_RING_CTR_ABORTED k) 1 else d
      let d := noteInflight (modRing d k (fun r => { r with cmds := rest })) k
      let later := fun (d : Dev) => modRing d k (fun r => { r with unwrit := r.unwrit ++ [c.seq] })
      if ringState d k != 1 then later d
      else if good then moderate (writeCompletion d k c.seq) k 1
      else ringError (later d) k 4

end Sys2Proof.Machine
end

