-- ==== Sys2Proof/Machine/Power.lean ====
section
/-! DEFINITION. Power (R353, R363 to R370, R452, R453): requests to switch polders, budget pools, and the stop by hardware. -/
namespace Sys2Proof.Machine

/-! ## Requests to switch polders (R353) -/

/-- PWR_POLDER_OFF_WRITE (R353): regions go off on the next edge while the tide is RUNNING, else at once; they come back on at once. -/
def pwrPolderOffWrite (d : Dev) (by_ : Option PciePort) (v : Word) : Dev :=
  if !ownerWrites d by_ then d else
    let old := (rget d PWR_POLDER_OFF).toNat
    let new := v.toNat
    let d := rset d PWR_POLDER_OFF v
    if 2 ≤ d.pwr.state then d else
      let d := (List.range 64).foldl (fun d r =>
        if new.testBit r && !old.testBit r && rbit d PWR_POLDER_ON r then
          if tideRuns d then { d with pwr := { d.pwr with offDue := d.pwr.offDue.lor (2 ^ r) } } else regionOff d r
        else if !new.testBit r && old.testBit r then
          if d.pwr.offDue.testBit r then { d with pwr := { d.pwr with offDue := d.pwr.offDue - 2 ^ r } } else regionOn d r
        else d) d
      tryArrive (powerNote d)

/-- Region switch-offs that wait for an edge. -/
def regionsDue (d : Dev) : Dev :=
  let due := d.pwr.offDue
  if due = 0 then d else
    let d := (List.range 64).foldl (fun d r => if due.testBit r && rbit d PWR_POLDER_ON r then regionOff d r else d) d
    powerNote { d with pwr := { d.pwr with offDue := 0 } }

/-- The DDR tier powered, once VDDQ_D is present (R454). -/
def ddrOn (d : Dev) : Dev :=
  if d.kpr.vddq then tierOn { d with kpr := { d.kpr with vddqWait := false } } true
  else { d with kpr := { d.kpr with vddqWait := true } }

/-- PWR_POLDER_OFF_HI_WRITE (R353): a request that names part of a tier is ignored and counted. The PCIe polders do not follow this
register (Table 19-1). -/
def pwrPolderOffHiWrite (d : Dev) (by_ : Option PciePort) (v : Word) : Dev :=
  let new := v.toNat % 2 ^ 15
  let hbm := new % 64
  let ddr := new / 64 % 4
  if !ownerWrites d by_ then d
  else if (hbm ≠ 0 ∧ hbm ≠ 63) ∨ (ddr ≠ 0 ∧ ddr ≠ 3) then fcount d PWR_CTR_BAD_REQ 1
  else
    let old := (rget d PWR_POLDER_OFF_HI).toNat
    let d := rset d PWR_POLDER_OFF_HI (BitVec.ofNat 64 new)
    if 3 ≤ d.pwr.state then d else
      let off := fun (i : Nat) => new.testBit i && !old.testBit i
      let on := fun (i : Nat) => !new.testBit i && old.testBit i
      let d := if off 0 then tierOff d false else if on 0 then tierOn d false else d
      let d := if off 6 then tierOff d true else if on 6 then ddrOn d else d
      let d := [0, 1, 2, 3].foldl (fun d i => if off (8 + i) then trafortOff d i else if on (8 + i) then trafortOn d i else d) d
      let d := if 2 ≤ d.pwr.state then d else if off 14 then testOff d else if on 14 then testOn d else d
      powerNote d

/-- PWR_CTR_CLR (R370). -/
def pwrCtrClr (d : Dev) (v : Word) : Dev := if v.toNat.testBit 0 then rset d PWR_CTR 0 else d

/-! ## Budget pools (R363 to R367) -/

/-- The patch of the device's budget pool (R363). -/
def poolPatch (d : Dev) : Option PatchDef :=
  let mine := fun (l : PatchLevel) => (patchList d).find? (fun p => p.level = l && p.nodes.contains (nodeId d))
  (mine .rack).or (mine .gang)

/-- PWR_STATUS names the pool. -/
def notePool (d : Dev) : Dev :=
  match poolPatch d with
  | some p => fset (fset d PWR_STATUS_POOL 1) PWR_STATUS_POOL_PATCH p.num
  | none => fset (fset d PWR_STATUS_POOL 0) PWR_STATUS_POOL_PATCH 0

/-- INTERVAL of PWR_SHIFT_CFG. -/
def shiftInt (d : Dev) : Nat := max 1 (fget d PWR_SHIFT_CFG_INTERVAL)

/-- SLACK_REPORT (R365): the pool's home notes a member's slack, base, shift and limit, and acknowledges. -/
def slackReport (d : Dev) : Dev :=
  match takeMsg d (fun m => match m.body with | .mgmt (.slackReport _ _ _ _ _) => true | _ => false) with
  | none => d
  | some (m, d) =>
    match m.body, poolPatch d with
    | .mgmt (.slackReport _ slack base shift limit), some p =>
      if p.home ≠ nodeId d || !p.nodes.contains m.src then d else
        let old := match d.pwr.pool.find? (fun x => x.node == m.src) with | some x => x.slacks | none => []
        let x : PoolMember := { node := m.src, slacks := (slack :: old).take (shiftInt d), base := base, shift := shift, limit := limit }
        sendMgmt { d with pwr := { d.pwr with pool := d.pwr.pool.filter (fun y => y.node != m.src) ++ [x] } } m.src .slackAck
    | _, _ => d

/-- SLACK_REPORT_ACK (R367). -/
def slackReportAck (d : Dev) : Dev :=
  match takeMsg d (fun m => match m.body with | .mgmt .slackAck => true | _ => false) with
  | none => d
  | some (_, d) => { d with pwr := { d.pwr with quiet := 0 } }

/-- Sum of a member's slacks over the interval. -/
def slackSum (x : PoolMember) : Nat := x.slacks.sum

/-- The member that a comparison of slacks puts first, of the lower node ID among equals. -/
def pickMember (before : Nat → Nat → Bool) : List PoolMember → Option PoolMember
  | [] => none
  | x :: t => match pickMember before t with
    | none => some x
    | some y =>
      if before (slackSum x) (slackSum y) || (slackSum x == slackSum y && decide (x.node < y.node)) then some x else some y

/-- The move of an interval (R366): receiver and giver, if the home makes one. -/
def shiftMove (d : Dev) (p : PatchDef) : Option (PoolMember × PoolMember) :=
  let n := shiftInt d
  let ms := d.pwr.pool
  let delta : Int := fget d PWR_SHIFT_CFG_DELTA
  if p.nodes.any (fun k => !ms.any (fun x => x.node == k && x.slacks.length == n)) then none else
    match pickMember (fun a b => decide (a < b)) ms, pickMember (fun a b => decide (b < a)) ms with
    | some lo, some hi =>
      if slackSum hi < slackSum lo + fget d PWR_SHIFT_CFG_GAP * 1000 * n || lo.node == hi.node then none
      else if min (hi.limit : Int) ((hi.base : Int) + hi.shift - delta) < 900 then none
      else if min (lo.limit : Int) 2600 < (lo.base : Int) + lo.shift + delta then none
      else some (lo, hi)
    | _, _ => none

/-- SHIFT_INTERVAL (R366): INTERVAL edges have passed; the home may move DELTA watts. -/
def shiftInterval (d : Dev) : Dev :=
  match poolPatch d with
  | none => d
  | some p =>
    if p.home ≠ nodeId d || decide (d.pwr.sinceMove < shiftInt d) then d else
      let delta : Int := fget d PWR_SHIFT_CFG_DELTA
      let move := shiftMove d p
      let d := { d with pwr := { d.pwr with sinceMove := 0, pool := d.pwr.pool.map (fun x => { x with slacks := [] }) } }
      match move with
      | none => d
      | some (lo, hi) => sendMgmt (sendMgmt d lo.node (.budgetShift delta)) hi.node (.budgetShift (-delta))

/-- BUDGET_SHIFT (R366): the shift changes on the next edge, or at once while the tide is not RUNNING. -/
def budgetShift (d : Dev) : Dev :=
  match takeMsg d (fun m => match m.body with | .mgmt (.budgetShift _) => true | _ => false) with
  | none => d
  | some (m, d) =>
    match m.body with
    | .mgmt (.budgetShift delta) =>
      let v := d.pwr.shiftNew.getD (shiftWatts d) + delta
      let d := { d with pwr := { d.pwr with quiet := 0 } }
      if tideRuns d then { d with pwr := { d.pwr with shiftNew := some v } } else setShift d v
    | _ => d

/-- SHIFT_TIMEOUT (R367): a member that hears nothing gives up a positive shift after 4 edges and a negative one after 8. -/
def shiftTimeout (d : Dev) : Dev :=
  let v := shiftWatts d
  if (0 < v ∧ 4 ≤ d.pwr.quiet) ∨ (v < 0 ∧ 8 ≤ d.pwr.quiet) then
    setShift { d with pwr := { d.pwr with shiftNew := none } } 0
  else d

/-! ## The stop by hardware (R368, R411, R452, R453) -/

/-- A status that a record carries where the manual names none: free. -/
def freeStatus (d : Dev) : Dev × Status :=
  let (n, d) := takeFree d
  (d, statusOf (Config.free n % 11))

/-- Keeper-only (Table 19-2): P79 alone is on, and what it holds and the RWS fields stay (R11). -/
def keeperOnly (d : Dev) (last : Nat) : Dev :=
  let tides := if rget d TID_COUNT = 0 then d.kpr.lastTide else (rget d TID_COUNT).toNat
  let d := resetRegs d (fun o => !regKeeper o)
  let d := rset (rset d PWR_POLDER_ON 0) PWR_POLDER_ON_HI 0x8000
  let d := rset (fset d KPR_START_LAST_STOP last) KPR_READY (BitVec.ofNat 64 ((rget d KPR_READY).toNat % 8))
  let d := [KPR_SETTLED, KPR_RGN_READY, KPR_RGN_SETTLED].foldl (fun d o => rset d o 0) d
  let d := fset (fset d HIF_CTRL_OFFER_A 0) HIF_CTRL_OFFER_B 0
  let d := fset d TID_CFG_ROLE (if d.kpr.strapTide then 2 else 0)
  { devReset with
    regs := d.regs,
    ports := (List.range 12).filterMap (fun p => if (getPort d p).cable then some (p, { portReset with cable := true }) else none),
    pcie := d.pcie.map (fun e => (e.1, { pciePortReset with inPerst := e.2.inPerst })),
    slc := d.slc.filter (fun e => e.1 == 42 || e.1 == 45),
    pwr := { pwrReset with state := 3 }, kpr := { d.kpr with stop := none, bringing := false, groups := 0, vddqWait := false, armed := false, lastTide := tides },
    sec := d.sec, flog := d.flog, flogSeq := d.flogSeq, flogEnd := d.flogEnd, now := d.now, free := d.free, out := d.out }

/-- Off: the keeper too has lost its supply (R453). -/
def powerOffAll (d : Dev) : Dev :=
  let k := d.kpr
  { devReset with
    ports := (List.range 12).filterMap (fun p => if (getPort d p).cable then some (p, { portReset with cable := true }) else none),
    pcie := d.pcie.map (fun e => (e.1, { pciePortReset with inPerst := e.2.inPerst })),
    kpr := { keeperReset with vin := k.vin, vddq := k.vddq, sysclk := k.sysclk, coolLow := k.coolLow, coolAt := k.coolAt, rstLow := k.rstLow },
    sec := { secReset with draws := d.sec.draws }, now := d.now, free := d.free, out := d.out }

/-- The stop is latched: the clocks of every region stop, and every ready bit but KEEPER, PREC and CARRIER clears. A debug session
ends (R425), and every reset in progress (R399). -/
def stopLatch (d : Dev) (last : Nat) : Dev :=
  let d := endResets (endDebug d)
  let d := rset (rset d KPR_READY (BitVec.ofNat 64 ((rget d KPR_READY).toNat % 8))) KPR_RGN_READY 0
  { d with kpr := { d.kpr with stop := some (0, last), bringing := false } }

/-- A stop that begins, unless nothing but the keeper is on or one is under way. -/
def hwStop (d : Dev) (last : Nat) : Dev := if 3 ≤ d.pwr.state || d.kpr.stop.isSome then d else stopLatch d last

/-- Transmitters stop: every link goes down. -/
def linksStop (d : Dev) : Dev :=
  let d := (List.range 12).foldl (fun d p => portTakedown d p psDown 0) d
  [0, 1].foldl (fun d p =>
    let d := fset (fset (fset d (HIF_LINK_UP p) 0) (HIF_LINK_RATE p) 0) (HIF_LINK_WIDTH p) 0
    endIde (endSessions (fset (fset d (HIF_LINK_FLIT p) 0) (HIF_LINK_L0P_WIDTH p) 0) (fun v => v == p)) p) d

/-- A tier loses its supply and its contents. -/
def tiersDark (d : Dev) : Dev := tierOff (tierOff d false) true

/-- COOLANT_STOP_STAGE (R368, Table 19-4): the next stage of the stop is reached. -/
def coolantStopStage (d : Dev) : Dev :=
  match d.kpr.stop with
  | none => d
  | some (stage, last) =>
    let next := fun (d : Dev) => { d with kpr := { d.kpr with stop := some (stage + 1, last) } }
    match stage with
    | 0 => next (linksStop d)
    | 1 => next (testOff (regionsDark d (fun _ => true)))
    | 2 => next (tiersDark d)
    | _ =>
      let d := keeperOnly d last
      if d.kpr.vaux then d else powerOffAll d

/-- A COOLANT_STOP record (Table 22-5): cause 1 the pin, 2 the operation. -/
def coolRecord (d : Dev) (cause : Nat) : Dev :=
  let (d, st) := freeStatus d
  addFault d 0x0E st 0 0 0 0 cause 0 0 []

/-- COOL_FAIL_ASSERT (R368, R460): COOL_FAIL_N has been low for 2 µs. The operations that the stop overtakes end (R413). -/
def coolFailAssert (d : Dev) : Dev :=
  let d := { d with kpr := { d.kpr with coolLow := true } }
  if !d.kpr.vaux || 3 ≤ d.pwr.state || d.kpr.stop.isSome then d else coolRecord (hwStop d 2) 1

/-- COOL_FAIL_DEASSERT (R460): the 1 s of R369 begins. -/
def coolFailDeassert (d : Dev) (t : Nat) : Dev :=
  if !d.kpr.coolLow then d else
    let d := atTime d t
    { d with kpr := { d.kpr with coolLow := false, coolAt := d.now } }

end Sys2Proof.Machine
end

