-- ==== Sys2Proof/Machine/Startup.lean ====
section
/-! DEFINITION. Start-up (R17, R22 to R31, R160 to R163, R345, R386 to R394, R415, R416, R422, R451 to R461, R467): supplies and pins, the
keeper's start, and the order and end of bring-up. -/
namespace Sys2Proof.Machine

/-! ## The carrier record (R392, R393, Table 21-3) -/

/-- Little-endian field of a record. -/
def recField (bs : List Byte) (o n : Nat) : Nat := leNat ((bs.drop o).take n)

/-- CAR_REASON of a record (Table 21-7): 0 valid. -/
def carReason : Option (List Byte) → Nat
  | none => 1
  | some bs =>
    if bs.length ≠ 256 ∨ bs.take 4 ≠ [0x53, 0x4C, 0x43, 0x52] ∨ recField bs 4 2 ≠ 1 ∨ recField bs 6 2 ≠ 256 then 2
    else if recField bs 252 4 ≠ crc32 (bs.take 252) then 3
    else if recField bs 40 2 < 900 ∨ 2600 < recField bs 40 2 ∨ recField bs 42 1 = 0 ∨ 3 < recField bs 42 1 then 4
    else 0

/-- The carrier limit (R393). -/
def carLimit (bs : List Byte) : Nat :=
  let cls := recField bs 42 1
  min (recField bs 40 2) (if cls = 1 then 1800 else if cls = 2 then 2200 else 2600)

/-- The carrier record read (R392): registers, the node ID (R244) and the mode of the MCTP bus (R467). -/
def readCarrier (d : Dev) (carrier : Option (List Byte)) : Dev :=
  let why := carReason carrier
  let bs := if why = 0 then carrier.getD [] else []
  let f := fun (o n : Nat) => recField bs o n
  let d := fset (fset d KPR_START_CAR_REASON why) KPR_READY_CARRIER (if why = 0 then 1 else 0)
  let d := rset d KPR_CARRIER (BitVec.ofNat 64 (f 48 2 * 2 ^ 48 + f 40 2 * 2 ^ 32 + f 42 1 * 2 ^ 24 + f 43 1 * 2 ^ 16 +
    f 46 1 * 2 ^ 8 + f 47 1))
  let d := rset d KPR_CARRIER_PINS (BitVec.ofNat 64 (f 44 2 * 2 ^ 48 + f 52 2 * 2 ^ 32 + f 54 2 * 2 ^ 16 + f 56 1 * 2 ^ 8 + f 50 1))
  let side := f 51 1
  { d with kpr := { d.kpr with
      carrier := carrier, i3c := side.testBit 1 && (!side.testBit 0 || d.kpr.dynAddr.isSome) } }

/-- The node ID of the carrier record into TRF_NODE_CFG (R244). -/
def takeNodeId (d : Dev) : Dev :=
  let n := fget d KPR_CARRIER_NODE_ID
  if !fbit d KPR_READY_CARRIER || n = 0xFFFF then d else fset (fset (fset d TRF_NODE_CFG_ID n) TRF_NODE_CFG_VALID 1) KPR_READY_NODE_ID 1

/-! ## Darns (R22 to R31) -/

/-- The columns of a list of faulty sites, each as 8 × region + column. -/
def darnCols (sites : List (Nat × Nat × Nat)) : List Nat := (sites.map (fun s => 8 * s.1 + s.2.1)).dedup

/-- The logical cells of region r whose sites have no spare (R23, R24). -/
def lostCells (sites : List (Nat × Nat × Nat)) (r : Nat) : List Nat :=
  (List.range 8).flatMap (fun c =>
    match (sites.filter (fun s => s.1 == r && s.2.1 == c)).map (fun s => s.2.2) with
    | [] => []
    | p :: rest => (rest.filter (fun q => q != p)).map (fun q =>
      let row := if q < p then q else q - 1
      64 * (8 * (r / 8) + row) + 8 * (r % 8) + c))

/-! ## The start conditions (R386, R387, R426, R461) -/

/-- The records that allow any polder but P79 to be powered (R17, R30, R416, R426). -/
def recordsOk (d : Dev) : Bool :=
  fbit d KPR_PREC_STATUS_SIG_OK && fbit d SEC_STATUS_ID_OK && fbit d KPR_READY_CARRIER && decide (lifecycle d ≠ 3)

/-- Whether bring-up begins with no operation, or after one that has been accepted. -/
def autoOk (d : Dev) : Bool :=
  d.kpr.running && d.pwr.state == 3 && d.kpr.stop.isNone && !d.kpr.bringing && d.kpr.vin && !d.kpr.coolLow && !d.kpr.rstLow &&
    recordsOk d && (d.kpr.armed || fget d KPR_START_LAST_STOP == 0 || fget d KPR_START_LAST_STOP == 3)

/-- KPR_START.WAITING while nothing but the keeper is powered. -/
def noteWaiting (d : Dev) : Dev :=
  if d.kpr.running && d.pwr.state == 3 && !d.kpr.bringing then fset d KPR_START_WAITING (if autoOk d then 0 else 1) else d

/-! ## Supplies (R451 to R455) -/

/-- VAUX_PRESENT (R451, R453): the keeper has its supply and starts afresh. -/
def vauxPresent (d : Dev) : Dev :=
  if d.kpr.vaux then d else
    let d := powerOffAll d
    rset { d with kpr := { d.kpr with vaux := true }, pwr := { d.pwr with state := 3 } } PWR_POLDER_ON_HI 0x8000

/-- VAUX_LOSS (R453): a stop by hardware, and Off after it. -/
def vauxLoss (d : Dev) : Dev :=
  if !d.kpr.vaux then d else
    let d := { d with kpr := { d.kpr with vaux := false } }
    if 3 ≤ d.pwr.state then powerOffAll d else hwStop d (fget d KPR_START_LAST_STOP)

/-- VIN_MAIN_PRESENT (R451). -/
def vinMainPresent (d : Dev) : Dev := noteWaiting { d with kpr := { d.kpr with vin := true } }

/-- VIN_MAIN_LOSS (R452): a stop by hardware with LAST_STOP 3. -/
def vinMainLoss (d : Dev) : Dev := noteWaiting (hwStop { d with kpr := { d.kpr with vin := false } } 3)

/-- VDDQ_D_PRESENT (R454): a DDR tier that waits for it starts. -/
def vddqPresent (d : Dev) : Dev :=
  let d := { d with kpr := { d.kpr with vddq := true } }
  if d.kpr.vddqWait then powerNote (ddrOn d) else d

/-- VDDQ_D_LOSS (R454): the DDR tier goes off at once, and waits for its supply. -/
def vddqLoss (d : Dev) : Dev :=
  let d := { d with kpr := { d.kpr with vddq := false } }
  if polderHi d 6 then powerNote (tierOff { d with kpr := { d.kpr with vddqWait := true } } true) else d

/-- VDDQ_WAIT_TIMEOUT (R454): 1 s without VDDQ_D at DDR bring-up: every channel settles, not brought up. -/
def vddqWaitTimeout (d : Dev) : Dev :=
  if !d.kpr.vddqWait || d.kpr.vddq || fget d ⟨KPR_SETTLED, 16, 8⟩ != 0 then d else
    let d := (List.range 8).foldl (fun d k => fset (fset d (chState true k) 0) (chReason true k) 1) d
    fset { d with kpr := { d.kpr with vddqWait := false } } ⟨KPR_SETTLED, 16, 8⟩ 0xFF

/-- SYSCLK_STABLE (R455). -/
def sysclkStable (d : Dev) : Dev := { d with kpr := { d.kpr with sysclk := true } }

/-- STRAP_LATCH (R459): the levels of TIDE_MST and CTRL_OWN, once after VAUX is present. -/
def strapLatch (d : Dev) (tide own : Bool) : Dev :=
  if !d.kpr.vaux || d.kpr.running then d else
    let d := { d with kpr := { d.kpr with strapTide := tide, strapOwn := own } }
    let o := if own then 1 else 0
    fset (fset (fset d TID_CFG_ROLE (if tide then 2 else 0)) HIF_CTRL_STRAP o) HIF_CTRL_OWNER o

/-! ## The keeper's start (R386) -/

/-- Sixteen bytes from the generator, as two words. -/
def drawNonce (d : Dev) : Dev :=
  let v := Config.drbg d.sec.draws
  let d := { d with sec := { d.sec with draws := d.sec.draws + 1 } }
  rset (rset d (SEC_DBG_NONCE 0) (BitVec.ofNat 64 v)) (SEC_DBG_NONCE 1) (BitVec.ofNat 64 (v / 2 ^ 64))

/-- The lifecycle state that the package record gives (R422); with no record that verifies, the manual names none. -/
def startLifecycle (d : Dev) (prec : Option PkgRec) : Dev × Nat :=
  match prec with
  | some p => if p.fail = 0 then (d, if p.retired then 3 else if p.manufact then 0 else 1) else
    let (n, d) := takeFree d
    (d, Config.free n % 4)
  | none =>
    let (n, d) := takeFree d
    (d, Config.free n % 4)

/-- KEEPER_START (R386, R387, R415, R416, R422, R424): the keeper's records, its identity, and KPR_READY.KEEPER. -/
def keeperStart (d : Dev) (prec : Option PkgRec) (carrier : Option (List Byte)) (t : Nat) : Dev :=
  if !d.kpr.vaux || d.kpr.running || decide (d.pwr.state ≠ 3) then d else
    let d := atTime d t
    let d := { d with kpr := { d.kpr with running := true, prec := prec } }
    let good := match prec with | some p => p.fail == 0 | none => false
    let d := match prec with
      | none => d
      | some p =>
        let d := fset (fset (fset d KPR_PREC_STATUS_VALID 1) KPR_PREC_STATUS_SIG_OK (if good then 1 else 0)) KPR_READY_PREC (if good then 1 else 0)
        if good then
          fset (fset (fset d KPR_PREC_STATUS_LOG_ENTRIES p.logUsed) KPR_PREC_STATUS_CELLS_DARNED (darnCols p.faulty).length)
            KPR_PREC_STATUS_VIAS_DARNED p.vias
        else
          let (d, st) := freeStatus d
          addFault d 0x12 st 0 0 0 0 p.fail p.failSect 0 []
    let idOk := match prec with | some p => good && p.idOk | none => false
    let d := fset d SEC_STATUS_ID_OK (if idOk then 1 else 0)
    let (d, st) := startLifecycle d prec
    let d := rset (fset d SEC_STATUS_LIFECYCLE st) SEC_DBG_PERMS (if st = 0 then 0x3F else 0)
    let (n, d) := takeFree (drawNonce d)
    let d := fset d SEC_FW_INFO_ROM_VERSION (match prec with | some p => p.romVer | none => Config.free n)
    let d := takeNodeId (readCarrier d carrier)
    noteWaiting (fset d KPR_READY_KEEPER 1)

/-! ## Bring-up (R387, R388) -/

/-- A DEVICE or KEEPER reset whose levee stands, and which has not begun its bring-up. -/
def resetDue (d : Dev) : Bool :=
  d.kpr.running && decide (d.pwr.state < 3) && d.kpr.stop.isNone && !d.kpr.bringing && !d.kpr.rstLow && !fbit d KPR_READY_CORE &&
    d.kpr.resets.any (fun r => decide (4 ≤ r.scope) && r.raised)

/-- PWR_RESERVE and the effective cap (R358, R359): reserves from the trims, limit from the carrier record. -/
def takeLimits (d : Dev) : Dev :=
  let rs := match d.kpr.prec with | some p => p.reserves | none => []
  let lim := carLimit (d.kpr.carrier.getD [])
  let d := rset d PWR_RESERVE (BitVec.ofNat 64 (lim * 2 ^ 48 + rs.getD 2 0 % 2 ^ 16 * 2 ^ 32 + rs.getD 1 0 % 2 ^ 16 * 2 ^ 16 + rs.getD 0 0 % 2 ^ 16))
  capUpdate d

/-- Bring-up begins: the base die may be powered and the test polder is. -/
def beginBringUp (d : Dev) : Dev :=
  let d := { d with kpr := { d.kpr with bringing := true, armed := false, groups := 0 } }
  let d := fcount (fset d KPR_START_WAITING 0) KPR_START_STARTS 1
  let d := rset (rset d KPR_SETTLED 0) KPR_RGN_SETTLED 0
  takeLimits (takeNodeId (testOn d))

/-- The part leaves Keeper-only with a cause of Table 21-7. An accepted power-on returns LAST_STOP to 0 (R369). -/
def coldStart (d : Dev) (cause : Nat) : Dev :=
  let cool := if fget d KPR_START_LAST_STOP = 2 then 1 else 0
  let d := fset (fset d KPR_START_CAUSE cause) PWR_STATUS_COOL_SEEN cool
  let d := if cause = 1 then fset d KPR_START_LAST_STOP 0 else d
  let d := fset { d with pwr := { d.pwr with state := 1 } } PWR_STATUS_STATE 1
  beginBringUp d

/-- BRING_UP (R387, R461): bring-up begins from Keeper-only, or after a DEVICE or KEEPER reset; the carrier record is read again. -/
def bringUp (d : Dev) (carrier : Option (List Byte)) (t : Nat) : Dev :=
  if autoOk d then
    let d := readCarrier (atTime d t) carrier
    if autoOk d then
      coldStart d (if d.kpr.armed then 1 else if fget d KPR_START_LAST_STOP = 3 then 2 else 0)
    else noteWaiting d
  else if resetDue d then beginBringUp (readCarrier (atTime d t) carrier)
  else d

/-- The Trafort polders come on with CORE and a node ID (Table 21-1). -/
def trafortStart (d : Dev) : Dev :=
  if !fbit d KPR_READY_CORE || !fbit d TRF_NODE_CFG_VALID then d else
    [0, 1, 2, 3].foldl (fun d i => if rbit d PWR_POLDER_OFF_HI (8 + i) || polderHi d (8 + i) then d else trafortOn d i) d

/-- CORE_READY (R388, R455): the base die is up; the tiers, the ports and, with a node ID, the Trafort polders come on. -/
def coreReady (d : Dev) : Dev :=
  if !d.kpr.bringing || !d.kpr.sysclk || fbit d KPR_READY_CORE then d else
    let d := rsetBit (fset d KPR_READY_CORE 1) KPR_SETTLED 48 true
    let d := fset d ⟨PWR_POLDER_ON_HI, 12, 2⟩ 3
    let d := if rbit d PWR_POLDER_OFF_HI 0 then d else tierOn d false
    let d := if rbit d PWR_POLDER_OFF_HI 6 then d else ddrOn d
    trafortStart d

/-- Bring-up has ended once every function has settled. -/
def endBringUp (d : Dev) : Dev :=
  let d := if d.kpr.bringing && d.kpr.groups == 8 && scopeSettled d 4 then { d with kpr := { d.kpr with bringing := false } } else d
  powerNote d

/-- REGION_GROUP_ON (R388): the next 8 regions switch on. -/
def regionGroupOn (d : Dev) : Dev :=
  if !d.kpr.bringing || !fbit d KPR_READY_CORE || 8 ≤ d.kpr.groups then d else
    let g := d.kpr.groups
    let d := [0, 1, 2, 3, 4, 5, 6, 7].foldl (fun d i => if rbit d PWR_POLDER_OFF (8 * g + i) then d else regionOn d (8 * g + i)) d
    endBringUp { d with kpr := { d.kpr with groups := g + 1 } }

/-! ## Bring-up ends, function by function (R389, R390) -/

/-- A region that cannot be brought up (R22, R389): cause 1 an I0 bundle, 2 the logic self-test. -/
def regionFails (d : Dev) (r cause bundle : Nat) : Dev :=
  let d := regionsDark d (fun k => k == r)
  let d := rsetBit (rsetBit d KPR_DARN_RETIRED r true) KPR_RGN_SETTLED r true
  addFault d 0x06 .retiredResource 1 2 r 0 cause bundle 0 []

/-- Repairs appended to the field darn log (R26, R31): each takes an entry, or sets LOG_FULL. -/
def logRepairs (d : Dev) (n : Nat) : Dev :=
  if n = 0 then d else
    let used := fget d KPR_PREC_STATUS_LOG_ENTRIES
    let d := fset (fset d KPR_PREC_STATUS_LOG_ENTRIES (min 8192 (used + n))) KPR_PREC_STATUS_FIELD_REPAIR 1
    if 8192 < used + n then fset d KPR_PREC_STATUS_LOG_FULL 1 else d

/-- A cell retired at start (R24): its threads never start. -/
def retireAtStart (d : Dev) (c cause : Nat) : Dev :=
  if (getCell d c).retired then d else
    let (n, d) := takeFree d
    let d := rsetBit (modCell d c (fun x => { x with retired := true })) KPR_DARN_RETIRED (regionOf c) true
    addFault d 0x05 .retiredResource 1 1 c 0 cause (Config.free n % 2 ^ 64) 0 []

/-- REGION_SETTLED (R19 to R26, R31, R157, R389): a region's bring-up ends. -/
def regionSettled (d : Dev) (r : RegionId) (test : RegionTest) : Dev :=
  if !rbit d PWR_POLDER_ON r || rbit d KPR_RGN_SETTLED r then d else
    match test.badI0 with
    | some b => endBringUp (regionFails d r 1 b)
    | none =>
      if test.badLogic then
        let (n, d) := takeFree d
        endBringUp (regionFails d r 2 (Config.free n % 2 ^ 64))
      else
        let known := match d.kpr.prec with | some p => p.faulty | none => []
        let found := test.sites.map (fun s => (r.val, s.1, s.2.1))
        let all := known ++ found
        let d := logRepairs d (test.vias + found.length)
        let d := { d with kpr := { d.kpr with prec := d.kpr.prec.map (fun p => { p with faulty := all }) } }
        let d := fset d KPR_PREC_STATUS_CELLS_DARNED (darnCols all).length
        let d := fcount d KPR_PREC_STATUS_VIAS_DARNED test.vias
        let before := lostCells known r
        let d := (lostCells all r).foldl (fun d c =>
          let why := match test.sites.find? (fun s => !before.contains c && (lostCells (known ++ [(r.val, s.1, s.2.1)]) r).contains c) with
            | some s => s.2.2
            | none => 1
          retireAtStart d c why) d
        let d := rsetBit (rsetBit d KPR_RGN_READY r true) KPR_RGN_SETTLED r true
        endBringUp { d with rgnUp := d.rgnUp.lor (2 ^ r.val) }

/-- The state of a channel whose start-up has ended, with the reason of a failure: a unit of a list that stands is retired. -/
def channelSettles (d : Dev) (ddr : Bool) (ch why : Nat) : Dev :=
  let listed := (chUnits ddr ch).any (fun u => (tierUnits d ddr).contains u)
  let d := fset (fset d (chReason ddr ch) why) (chState ddr ch) (if why = 0 then 2 else if listed then 5 else 0)
  if why = 0 then chSettle d ddr ch else d

/-- HBM_STACK_SETTLED (R160, R163, R389, R394): the stack's device ID and the channels that failed, each with its reason. -/
def hbmStackSettled (d : Dev) (s : Fin 6) (id : Nat) (fails : List (Nat × Nat)) : Dev :=
  if !polderHi d s || rbit d KPR_SETTLED (8 + s) || !fbit d KPR_READY_CORE then d else
    let known := match d.kpr.prec with | some p => p.hbmIds.getD s 0 == id | none => false
    let d := (List.range 32).foldl (fun d k =>
      channelSettles d false (32 * s.val + k)
        (if !known then 2 else match fails.find? (fun f => f.1 == k) with | some f => f.2 | none => 0)) d
    endBringUp (countInService (rsetBit d KPR_SETTLED (8 + s) true))

/-- DDR_CHANNEL_SETTLED (R160, R163, R389, R394): with the reason of a failure, 0 for none. -/
def ddrChannelSettled (d : Dev) (k : Fin 8) (why : Fin 4) : Dev :=
  if !polderHi d (6 + k.val / 4) || rbit d KPR_SETTLED (16 + k) || !fbit d KPR_READY_CORE then d else
    endBringUp (countInService (rsetBit (channelSettles d true k why) KPR_SETTLED (16 + k) true))

/-! ## Pins (R461, R467) -/

/-- SYS_RST_ASSERT (R461): a DEVICE reset while VIN_MAIN is present, or the one that runs is held; bring-up waits for the pin. -/
def sysRstAssert (d : Dev) : Dev :=
  let d := { d with kpr := { d.kpr with rstLow := true } }
  if d.kpr.vin && d.kpr.running && decide (d.pwr.state < 3) && d.kpr.stop.isNone then
    if d.kpr.resets.any (fun r => decide (4 ≤ r.scope) && r.raised) then resetDevice (endDebug d) else requestReset d 4 0 []
  else noteWaiting d

/-- SYS_RST_DEASSERT (R461). -/
def sysRstDeassert (d : Dev) : Dev := noteWaiting { d with kpr := { d.kpr with rstLow := false } }

/-- DYNAMIC_ADDRESS_ASSIGN (R467): with both SIDEBAND bits set the keeper becomes an I3C target; an I3C target takes the address. -/
def dynamicAddressAssign (d : Dev) (addr : Fin 128) : Dev :=
  let side := if fbit d KPR_READY_CARRIER then recField (d.kpr.carrier.getD []) 51 1 else 0
  if !d.kpr.running || !side.testBit 1 then d else { d with kpr := { d.kpr with i3c := true, dynAddr := some addr.val } }

end Sys2Proof.Machine
end

