-- ==== Sys2Proof/Machine/Thermal.lean ====
section
/-! DEFINITION. Thermal protection (R149 to R152, R371 to R382, R385): samples, the region model, suspect sensors, throttle levels and
trips. Sensors of a region are numbered 0 to 3 for the die and 4 + 2(l − 1) + j for sensor j of layer l. -/
namespace Sys2Proof.Machine

/-! ## Sensors (R371, R372) -/

/-- Thermal state of region r, and a change of it. -/
def getThm (d : Dev) (r : Nat) : ThmRegion := smGet (fun _ => thmReset) d.thm r
def modThm (d : Dev) (r : Nat) (f : ThmRegion → ThmRegion) : Dev :=
  { d with thm := smSet (fun _ => thmReset) d.thm r (f (getThm d r)) }

/-- Counters by sensor. -/
def cnt (m : SMap Nat) (s : Nat) : Nat := smGet (fun _ => 0) m s
def setCnt (m : SMap Nat) (s n : Nat) : SMap Nat := smSet (fun _ => 0) m s n

/-- Reading of a sensor in quarter degrees. -/
def readingOf (x : ThmRegion) (s : Nat) : Int := smGet (fun _ => (0 : Int)) x.reads s

/-- Whether a sensor is invalid, and whether it is suspect. -/
def invalidS (d : Dev) (r s : Nat) : Bool := rbit d (THM_RGN_STATUS r) (33 + s)
def suspectS (d : Dev) (r s : Nat) : Bool := decide (4 ≤ s ∧ s < 12) && rbit d (THM_RGN_STATUS r) (48 + (s - 4))

/-- One sensor sampled (R372): invalid after three missing answers or a reading outside 0 to 150 °C, valid again after 100 good
samples. -/
def sampleSensor (d : Dev) (r s : Nat) (v : Option Int) : Dev :=
  let x := getThm d r
  match v with
  | none =>
    let n := min 3 (cnt x.missed s + 1)
    let d := modThm d r (fun x => { x with missed := setCnt x.missed s n, good := setCnt x.good s 0 })
    if 3 ≤ n then rsetBit d (THM_RGN_STATUS r) (33 + s) true else d
  | some q =>
    let d := modThm d r (fun x => { x with missed := setCnt x.missed s 0, reads := smSet (fun _ => 0) x.reads s q })
    if q < 0 ∨ 600 < q then rsetBit (modThm d r (fun x => { x with good := setCnt x.good s 0 })) (THM_RGN_STATUS r) (33 + s) true
    else if !invalidS d r s then d
    else if cnt x.good s + 1 < 100 then modThm d r (fun x => { x with good := setCnt x.good s (cnt x.good s + 1) })
    else rsetBit (modThm d r (fun x => { x with good := setCnt x.good s 0 })) (THM_RGN_STATUS r) (33 + s) false

/-- Whole degrees as a register reports them: rounded down, within the field. -/
def wholeDeg (q : Rat) : Nat := min 255 q.floor.toNat

/-- Degrees of a sensor's reading. -/
def degOf (d : Dev) (r s : Nat) : Rat := (readingOf (getThm d r) s : Rat) / 4

/-- Every sensor of a region sampled, and the raw registers. -/
def sampleRegion (d : Dev) (r : Nat) (m : ThmSample) : Dev :=
  let d := (List.range 12).foldl (fun d s => sampleSensor d r s (m.reads.getD s none)) d
  let raw := fun (lo n : Nat) => ((List.range n).map (fun i => wholeDeg (degOf d r (lo + i)) * 2 ^ (8 * i))).sum
  rset (rset d (THM_RAW_DIE r) (BitVec.ofNat 64 (raw 0 4))) (THM_RAW_MEM r) (BitVec.ofNat 64 (raw 4 8))

/-! ## The model (R374) -/

/-- The higher of two optional values. -/
def maxOpt (a b : Option Rat) : Option Rat :=
  match a, b with
  | some x, some y => some (max x y)
  | some x, none => some x
  | none, b => b

/-- The highest valid layer-4 reading of a region. -/
def topOwn (d : Dev) (r : Nat) : Option Rat :=
  let v := fun (s : Nat) => if invalidS d r s then none else some (degOf d r s)
  maxOpt (v 10) (v 11)

/-- Regions that share an edge with r. -/
def edgeOf (r : Nat) : List Nat :=
  (if 8 ≤ r then [r - 8] else []) ++ (if r < 56 then [r + 8] else []) ++ (if r % 8 ≠ 0 then [r - 1] else []) ++
    (if r % 8 ≠ 7 then [r + 1] else [])

/-- t_top of a region. -/
def tTop (d : Dev) (r : Nat) : Option Rat :=
  match topOwn d r with
  | some t => some t
  | none => (((edgeOf r).filter (fun k => rbit d PWR_POLDER_ON k)).foldl (fun m k => maxOpt m (topOwn d k)) none).map (fun t => t + 5)

/-- The estimates of a region updated: power in W, the layers' beats since the last evaluation. -/
def estimate (d : Dev) (r : Nat) (power : Rat) (top : Rat) : Dev :=
  let x := getThm d r
  let (θ, e, k) := match d.kpr.prec with | some p => p.thermal.getD r ([], [], []) | none => ([], [], [])
  let acc := [0, 1, 2].map (fun l => fget d (COL_RGN_ACC_BEATS r l))
  let q := fun (l : Nat) => e.getD l 0 * ((((acc.getD l 0 + 2 ^ 64 - x.beats.getD l 0) % 2 ^ 64 : Nat) : Rat) * 10000)
  let s3 := top + θ.getD 3 0 * (power + q 0 + q 1 + q 2)
  let s2 := s3 + θ.getD 2 0 * (power + q 0 + q 1)
  let s1 := s2 + θ.getD 1 0 * (power + q 0)
  let ss := [s1 + θ.getD 0 0 * power, s1, s2, s3]
  let est := [0, 1, 2, 3].map (fun l => x.est.getD l 0 + (ss.getD l 0 - x.est.getD l 0) * k.getD l 0)
  let d := modThm d r (fun x => { x with est := est, beats := acc })
  let g := fun (l : Nat) => wholeDeg (est.getD l 0)
  rset d (THM_MODEL r) (BitVec.ofNat 64 (g 1 + g 2 * 2 ^ 8 + g 3 * 2 ^ 16 + wholeDeg top * 2 ^ 24 + g 0 * 2 ^ 32))

/-- The estimate of a layer: 0 the die, 4 the boundary. -/
def estOf (d : Dev) (r l : Nat) : Rat := if l = 4 then (tTop d r).getD 0 else (getThm d r).est.getD l 0

/-- Layer of a sensor, and the sensors of a layer. -/
def layerOfS (s : Nat) : Nat := if s < 4 then 0 else 1 + (s - 4) / 2
def sensorsOf (l : Nat) : List Nat := if l = 0 then [0, 1, 2, 3] else [4 + 2 * (l - 1), 5 + 2 * (l - 1)]

/-! ## Throttle levels (R378 to R380, Table 20-3) -/

/-- Limits and step of a level. -/
def levelLimit (n : Nat) : Nat := if n = 0 then 64 else if n = 1 then 48 else if n = 2 then 32 else 16
def levelStep (n : Nat) : Nat := if n ≤ 3 then 8 else if n ≤ 8 then 11 - n else 3

/-- The thermal step of a region takes its level's value, on an edge, or on acceptance while the tide is not RUNNING (R357). -/
def takeThmStep (d : Dev) (r : Nat) : Dev := fset d (PWR_RGN_THM_STEP r) (levelStep (fget d (THM_RGN_STATUS_LEVEL r)))

/-- A change of level. -/
def setLevel (d : Dev) (r n : Nat) : Dev :=
  if fget d (THM_RGN_STATUS_LEVEL r) = n then d else
    let lim := levelLimit n
    let d := fset d (THM_RGN_STATUS_LEVEL r) n
    let d := fset (fset d (COL_THROTTLE_SRAM_LIMIT r) lim) (COL_THROTTLE_DRAM_LIMIT r) lim
    let d := fset d (COL_RGN_STATUS_THROTTLED r) (if lim < 64 then 1 else 0)
    let d := raiseBoth (fcount d THM_CTR_LEVEL_CHANGES 1) 20
    if tideState d = 1 then d else takeThmStep d r

/-! ## Suspect sensors (R376, R377) -/

/-- Whether a sensor is valid and within 3 °C of the estimate of its layer. -/
def agreesS (d : Dev) (r s : Nat) : Bool :=
  !invalidS d r s && (layerOfS s != 4 || (tTop d r).isSome) && decide (|degOf d r s - estOf d r (layerOfS s)| ≤ 3)

/-- R377: a sensor becomes suspect. -/
def becomesSuspect (d : Dev) (r s : Nat) : Dev :=
  let d := rsetBit (rsetBit d THM_SENSOR_SUSPECT r true) (THM_RGN_STATUS r) (48 + (s - 4)) true
  let d := fset (fset d (THM_RGN_STATUS_SUSPECT_SEEN r) 1) THM_STATUS_SUSPECT_SEEN 1
  let d := raiseBoth (fcount d THM_CTR_SUSPECT_EVENTS 1) 20
  let (d, st) := freeStatus d
  addFault d 0x0C st 0 10 (16 * r + s) 0 (layerOfS s) (wholeDeg (degOf d r s)) (wholeDeg (estOf d r (layerOfS s))) []

/-- One sensor of layers 1 to 3 evaluated. -/
def checkSensor (d : Dev) (r s : Nat) : Dev :=
  let l := layerOfS s
  let x := getThm d r
  let near := ((sensorsOf (l - 1) ++ sensorsOf (l + 1)).filter (agreesS d r)).length
  let low := if decide (degOf d r s ≤ estOf d r l - 6) && decide (2 ≤ near) then min 10 (cnt x.low s + 1) else 0
  let ok := if agreesS d r s then min 100 (cnt x.near s + 1) else 0
  let d := modThm d r (fun x => { x with low := setCnt x.low s low, near := setCnt x.near s ok })
  if !suspectS d r s then
    if invalidS d r s || low == 10 then becomesSuspect (modThm d r (fun x => { x with near := setCnt x.near s 0 })) r s else d
  else if ok = 100 then
    let d := rsetBit (modThm d r (fun x => { x with low := setCnt x.low s 0 })) (THM_RGN_STATUS r) (48 + (s - 4)) false
    if fget d (THM_RGN_STATUS_SUSPECT r) = 0 then rsetBit d THM_SENSOR_SUSPECT r false else d
  else d

/-! ## Effective temperatures (R375) -/

/-- The effective value of a memory-layer sensor. -/
def effSensor (d : Dev) (r s : Nat) : Rat :=
  if suspectS d r s || invalidS d r s then max (degOf d r s) (estOf d r (layerOfS s)) else degOf d r s

/-- The effective temperature of a layer: 0 the die. -/
def effOf (d : Dev) (r l : Nat) : Rat :=
  if l = 0 then
    let good := (sensorsOf 0).filter (fun s => !invalidS d r s)
    match good.map (degOf d r) with
    | [] => estOf d r 0
    | [t] => max t (estOf d r 0)
    | t :: ts => ts.foldl max t
  else max (effSensor d r (4 + 2 * (l - 1))) (effSensor d r (5 + 2 * (l - 1)))

/-- Climb threshold of a layer (Table 20-2). -/
def climbAt (l : Nat) : Rat := if 3 ≤ l then 90 else 95

/-- A memory trigger, and a die trigger (R379). -/
def memTrigger (d : Dev) (r : Nat) : Bool :=
  [1, 2, 3, 4].any (fun l => decide (climbAt l ≤ effOf d r l)) ||
    [4, 5, 6, 7, 8, 9].any (fun s => suspectS d r s && decide (climbAt (layerOfS s) - 10 ≤ estOf d r (layerOfS s)))
def dieTrigger (d : Dev) (r : Nat) : Bool := decide (95 ≤ effOf d r 0)

/-! ## Trips (R381, R382) -/

/-- A region trips: cause 1 the keeper, 2 a comparator. -/
def tripRegion (d : Dev) (r cause die mem : Nat) : Dev :=
  if rbit d THM_TRIPPED r then d else
    let d := fset (fset (rsetBit d THM_TRIPPED r true) (THM_RGN_STATUS_TRIPPED r) 1) THM_STATUS_TRIP_SEEN 1
    let d := rsetBit (fcount (setLevel d r 9) THM_CTR_TRIPS 1) KPR_RGN_READY r false
    let d := raiseBoth (modThm d r (fun x => { x with cool := 0 })) 20
    let (d, st) := freeStatus d
    addFault d 0x0D st 0 2 r 0 cause die mem []

/-- DIE_COMPARATOR_TRIP (R381). -/
def dieComparatorTrip (d : Dev) (r : RegionId) : Dev :=
  if !rbit d PWR_POLDER_ON r then d else
    let eff := fun (l : Nat) => bitsOf (rget d (THM_EFF r)) (8 * l) 8
    tripRegion d r 2 (eff 4) (max (eff 0) (eff 1))

/-- TRIP_RESTART (R382): after 10 ms at or below 90 °C the clocks restart at step 3. -/
def tripRestart (d : Dev) (r : RegionId) : Dev :=
  if !rbit d THM_TRIPPED r || decide ((getThm d r).cool < 100) then d else
    let d := fset (rsetBit d THM_TRIPPED r false) (THM_RGN_STATUS_TRIPPED r) 0
    let d := modThm d r (fun x => { x with quiet := 0, held := 0, cool := 0 })
    let d := if rbit d PWR_POLDER_ON r && rbit d KPR_RGN_SETTLED r && d.rgnUp.testBit r then rsetBit d KPR_RGN_READY r true else d
    fset (fset d (PWR_RGN_THM_STEP r) 3) (PWR_RGN_STEP r) (min 3 (fget d (PWR_RGN_GOV_STEP r)))

/-! ## Column DRAM refresh and stop (R150, R151, Table 8-3) -/

/-- Refresh step of a region from the hotter of layers 3 and 4, 3 stopped. -/
def colStep (cur : Nat) (t : Rat) : Nat :=
  stepBy (if 95 < t then 3 else if 85 ≤ t then 2 else if 75 ≤ t then 1 else 0)
    (if 92 ≤ t then 3 else if 82 < t then 2 else if 72 < t then 1 else 0) cur

/-- The refresh step follows the effective temperatures. -/
def colRefresh (d : Dev) (r : Nat) : Dev :=
  let n := colStep (fget d (COL_RGN_STATUS_REFRESH r)) (max (effOf d r 3) (effOf d r 4))
  let d := fset (fset d (COL_RGN_STATUS_REFRESH r) n) (COL_RGN_STATUS_DRAM_STOP r) (if n = 3 then 1 else 0)
  if n = 3 then fset d (COL_RGN_STATUS_STOP_SEEN r) 1 else d

/-! ## Evaluation (R374 to R379) -/

/-- The throttle floor of R377. -/
def levelFloor (d : Dev) (r : Nat) : Nat := if fget d (THM_RGN_STATUS_SUSPECT r) = 0 then 0 else 1

/-- One region evaluated. With no layer-4 reading to stand on it is held at level 9 (R374). -/
def evalRegion (d : Dev) (r : Nat) (m : ThmSample) : Dev :=
  let d := match tTop d r with
    | some t => estimate d r ((m.power : Rat) / 1000) t
    | none => setLevel d r 9
  let d := [4, 5, 6, 7, 8, 9].foldl (fun d s => checkSensor d r s) d
  let eff := fun (l : Nat) => effOf d r l
  let w := fun (l : Nat) => wholeDeg (eff l)
  let d := rset d (THM_EFF r) (BitVec.ofNat 64 (w 1 + w 2 * 2 ^ 8 + w 3 * 2 ^ 16 + w 4 * 2 ^ 24 + w 0 * 2 ^ 32))
  let trig := memTrigger d r || dieTrigger d r
  let calm := !trig && (tTop d r).isSome && [0, 1, 2, 3, 4].all (fun l => decide (eff l ≤ climbAt l - 3))
  let cold := [0, 1, 2].all (fun l => decide (eff l ≤ 90))
  let d := fset d (THM_RGN_STATUS_TRIGGER r) (if trig then 1 else 0)
  let d := modThm d r (fun x => { x with
    held := if trig then min 10 (x.held + 1) else 0
    quiet := if calm && !rbit d THM_TRIPPED r then min 100 (x.quiet + 1) else 0
    cool := if rbit d THM_TRIPPED r && cold then min 100 (x.cool + 1) else 0 })
  let lv := fget d (THM_RGN_STATUS_LEVEL r)
  let d := if dieTrigger d r && decide (lv < 3) then modThm (setLevel d r 3) r (fun x => { x with held := 0 })
    else if lv < levelFloor d r then setLevel d r (levelFloor d r) else d
  let d := colRefresh d r
  if [0, 1, 2].any (fun l => decide (100 ≤ eff l)) then tripRegion d r 1 (w 0) (max (w 1) (w 2)) else d

/-- The hottest region in a field of THM_EFF, of the lowest number among equals. -/
def hottest (d : Dev) (f : Nat → Nat) : Nat × Nat :=
  (List.range 64).foldl (fun m r => if rbit d PWR_POLDER_ON r && decide (m.1 < f r) then (f r, r) else m) (0, 0)

/-- THERMAL_SAMPLE (R371 to R381): one sample of every region that is on, by region number. -/
def thermalSample (d : Dev) (ms : List ThmSample) (t : Nat) : Dev :=
  if !d.kpr.running || 3 ≤ d.pwr.state then d else
    let d := atTime d t
    let on := (ms.zipIdx).filter (fun m => decide (m.2 < 64) && rbit d PWR_POLDER_ON m.2)
    let d := on.foldl (fun d m => sampleRegion d m.2 m.1) d
    let d := on.foldl (fun d m => evalRegion d m.2 m.1) d
    let eff := fun (r l : Nat) => bitsOf (rget d (THM_EFF r)) (8 * l) 8
    let die := hottest d (fun r => eff r 4)
    let mem := hottest d (fun r => max (max (eff r 0) (eff r 1)) (max (eff r 2) (eff r 3)))
    let d := fset (fset d THM_STATUS_DIE_MAX die.1) THM_STATUS_DIE_MAX_RGN die.2
    fset (fset d THM_STATUS_MEM_MAX mem.1) THM_STATUS_MEM_MAX_RGN mem.2

/-- THROTTLE_LEVEL_TIMER (R379): after 1 ms with a trigger the level rises by one, above level 3 only while its step is in force and
never past 8; after 10 ms without one it falls by one, to no lower than the floor. -/
def throttleLevelTimer (d : Dev) (r : RegionId) : Dev :=
  let x := getThm d r
  let lv := fget d (THM_RGN_STATUS_LEVEL r)
  if rbit d THM_TRIPPED r then d
  else if 10 ≤ x.held then
    if 8 ≤ lv || (3 < lv && decide (fget d (PWR_RGN_THM_STEP r) ≠ levelStep lv)) then d
    else modThm (setLevel d r (lv + 1)) r (fun x => { x with held := 0 })
  else if 100 ≤ x.quiet && levelFloor d r < lv then modThm (setLevel d r (lv - 1)) r (fun x => { x with quiet := 0 })
  else d

/-- THM_CTR_CLR (R385). -/
def thmCtrClr (d : Dev) (v : Word) : Dev := if v.toNat.testBit 0 then rset d THM_CTR 0 else d

/-- FREQ_STEP_COMPLETE (R356, R357): a region's step comes into force. -/
def freqStepComplete (d : Dev) (r : RegionId) : Dev :=
  if !rbit d PWR_POLDER_ON r then d else
    let new := min 8 (min (fget d (PWR_RGN_GOV_STEP r)) (fget d (PWR_RGN_THM_STEP r)))
    let old := fget d (PWR_RGN_STEP r)
    let d := fset d (PWR_RGN_STEP r) new
    if old < new then fcount d PWR_CTR_STEPS_UP 1 else if new < old then fcount d PWR_CTR_STEPS_DOWN 1 else d

end Sys2Proof.Machine
end

