-- ==== Sys2Proof/Machine/Keeper.lean ====
section
/-! DEFINITION. The keeper's operations (R347, R359, R364, R369, R398, R408 to R413, R419, R426, R431 to R433, Tables 22-7, 23-5 and
23-6). Request mailbox m is sluice 40 + m: 0 port A, 1 port B, 2 MCTP. -/
namespace Sys2Proof.Machine

/-! ## Measurements (R431, Table 23-5) -/

/-- A number as n bytes, the highest first. -/
def beBytes (n v : Nat) : List Byte := (leBytes n v).reverse

/-- A measurement block: index, value type and value. -/
def measBlock (i typ : Nat) (value : List Byte) : List Byte :=
  leBytes 1 i ++ [1] ++ leBytes 2 (value.length + 3) ++ leBytes 1 typ ++ leBytes 2 value.length ++ value

/-- A digest measurement. -/
def digestBlock (i typ v : Nat) : List Byte := measBlock i typ (beBytes 48 v)

/-- The 48 bytes of zero where there is nothing to digest. -/
def zeros (n : Nat) : List Byte := List.replicate n 0

/-- Role mask and certificate of the slots that are filled, and the lock (index 6). -/
def anchorBytes (d : Dev) : List Byte :=
  let slot := fun (k : Nat) => match smGet (fun _ => none) d.sec.anchors k with
    | some a => leBytes 1 a.roles ++ a.cert
    | none => []
  leBytes 1 3 ++ Config.rootCert ++ slot 1 ++ slot 2 ++ slot 3 ++ leBytes 1 (fget d SEC_STATUS_ANCHOR_LOCK)

/-- The 128 bytes of an image (index 7 and 8). -/
def imageBytes (i : Option PatImage) (edge : Nat) : List Byte :=
  match i with
  | none => zeros 128
  | some i => leBytes 16 i.id ++ leBytes 4 i.version ++ zeros 4 ++ leBytes 8 i.job ++ leBytes 8 edge ++
      leBytes 1 (if i.signed then 1 else 0) ++ zeros 39 ++ beBytes 48 i.sum

/-- Measurement i of the state at one instant (R431, R432). -/
def measurement (d : Dev) (i : Nat) : List Byte :=
  let p := d.kpr.prec
  match i with
  | 1 => digestBlock 1 0 (match p with | some p => p.romSum | none => 0)
  | 2 => match d.kpr.patch with
    | some x => digestBlock 2 1 x.sum
    | none => measBlock 2 1 (zeros 48)
  | 3 => measBlock 3 7 (leBytes 4 (fget d SEC_FW_INFO_SVN) ++ leBytes 4 (match p with | some p => p.minSvn | none => 0))
  | 4 => digestBlock 4 2 (match p with | some p => p.sum | none => 0)
  | 5 => measBlock 5 5 (leBytes 1 (lifecycle d) ++ leBytes 1 (fget d SEC_STATUS_DBG_SESSIONS) ++ zeros 6 ++
      leBytes 8 (rget d SEC_DBG_PERMS).toNat ++ (if d.sec.token.isEmpty then zeros 48 else beBytes 48 (Config.sha384 (d.sec.token.take 64))))
  | 6 => digestBlock 6 3 (Config.sha384 (anchorBytes d))
  | 7 => measBlock 7 3 (imageBytes d.pat.active (match d.pat.active with | some a => a.edge | none => 0))
  | 8 => measBlock 8 3 (imageBytes d.pat.staged 0)
  | 9 => match d.kpr.carrier with
    | some bs => digestBlock 9 2 (Config.sha384 bs)
    | none => measBlock 9 2 (zeros 48)
  | 10 => measBlock 10 2 (leBytes 1 (fget d HIF_CTRL_STRAP) ++ leBytes 1 (ownerPort d) ++ leBytes 1 (if d.kpr.strapTide then 1 else 0) ++
      zeros 1 ++ leBytes 2 (nodeId d) ++ leBytes 1 (fget d (HIF_PORT_CFG_IDE_REQUIRED 0)) ++ leBytes 1 (fget d (HIF_PORT_CFG_IDE_REQUIRED 1)))
  | _ => []

/-- The ten measurements. -/
def measurements (d : Dev) : List Byte := [1, 2, 3, 4, 5, 6, 7, 8, 9, 10].flatMap (measurement d)

/-- TID_COUNT as last recorded. -/
def lastTide (d : Dev) : Nat := if rget d TID_COUNT = 0 then d.kpr.lastTide else (rget d TID_COUNT).toNat

/-- The 96 bytes of a signature. -/
def sigBytes (bs : List Byte) : List Byte := (Config.sign bs ++ zeros 96).take 96

/-- The quote of Table 23-6. -/
def quote (d : Dev) (nonce : List Byte) : List Byte :=
  let serial := (match d.kpr.prec with | some p => p.serial | none => []) ++ zeros 16
  let body := [0x53, 0x4C, 0x51, 0x54] ++ leBytes 2 1 ++ leBytes 2 10 ++ leBytes 4 822 ++ zeros 4 ++ serial.take 16 ++ nonce ++
    leBytes 8 (lastTide d) ++ leBytes 1 (lifecycle d) ++ leBytes 1 d.pwr.state ++ zeros 6 ++ measurements d
  body ++ sigBytes body

/-! ## Serving a request (R410, R426) -/

/-- The operand bytes an operation names; every other byte from 4 on is reserved. -/
def opNames (op i : Nat) : Bool :=
  match op with
  | 0x02 => decide (8 ≤ i ∧ i ≤ 19)
  | 0x03 => decide (8 ≤ i ∧ i ≤ 39)
  | 0x04 => i == 8 || i == 10 || i == 11
  | 0x06 => i == 8
  | 0x08 => i == 8 || i == 9
  | 0x0A => i == 8
  | 0x0B => i == 8 || i == 9 || i == 10 || i == 12 || i == 13
  | _ => false

/-- Whether a request is well formed. -/
def opFormed (bs : List Byte) : Bool :=
  let op := leAt bs 0 2
  decide (1 ≤ op ∧ op ≤ 0x0B) && (bs.zipIdx).all (fun e => decide (e.2 < 4) || opNames op e.2 || e.1 == 0)

/-- Whether Table 22-7 admits an operation from a mailbox. -/
def opAdmits (d : Dev) (op m : Nat) : Bool :=
  match op with
  | 0x01 => true
  | 0x02 => true
  | 0x03 => true
  | 0x09 => true
  | 0x0A => m == 2
  | _ => m == 2 || m == ownerPort d

/-- The guaranteed operations (R411), and those that RETIRED leaves (R426). -/
def opGuaranteed (op : Nat) : Bool := [0x01, 0x02, 0x03, 0x04, 0x05, 0x07].contains op
def opRetired (op : Nat) : Bool := [0x01, 0x02, 0x03, 0x05, 0x07].contains op

/-- The keeper takes the oldest request of a mailbox, if it carries operation `op` or none that it knows, and performs `f`. -/
def keeperServe (d : Dev) (m op : Nat) (f : Dev → KeeperReq → List Byte → Dev) : Dev :=
  if !d.kpr.running then d else
    match slcFront d (40 + m) with
    | none => d
    | some bs =>
      let code := leAt bs 0 2
      let q : KeeperReq := ⟨m, code, leAt bs 2 2⟩
      if decide (1 ≤ code ∧ code ≤ 0x0B) && code != op then d else
        let d := slcRelease (slcTake d (40 + m)) (40 + m) 1
        if !opFormed bs then kprRespond d q .aborted false []
        else if !opAdmits d op m then kprRespond d q .securityDenied false []
        else if lifecycle d = 3 && !opRetired op then kprRespond d q .securityDenied false []
        else if !(fbit d KPR_PREC_STATUS_SIG_OK && fbit d SEC_STATUS_ID_OK) && !opGuaranteed op then kprRespond d q .notReady false []
        else f d q bs

/-- A word of a register as response data. -/
def regBytes (d : Dev) (o : Nat) : List Byte := leBytes 8 (rget d o).toNat

/-- STATUS. -/
def keeperStatus (d : Dev) (m : Fin 3) : Dev :=
  keeperServe d m 0x01 (fun d q _ => kprRespond d q .ok false
    ([KPR_READY, KPR_START, PWR_STATUS, PWR_CAP, THM_STATUS, TID_COUNT].flatMap (regBytes d) ++ leBytes 1 (lifecycle d) ++
      leBytes 1 d.pwr.state ++ zeros 6))

/-- FLOG_DUMP (R408). -/
def flogDump (d : Dev) (m : Fin 3) : Dev :=
  keeperServe d m 0x02 (fun d q bs =>
    match d.flog.find? (fun r => r.seq == leAt bs 8 8) with
    | some r => kprRespond d q .ok false ((List.range 56).map (fun i => flogByte d ((r.off + leAt bs 16 4 + i) % flogSize)))
    | none => kprRespond d q .notReady false [])

/-- QUOTE (R416, R433): the quote in entries of 56 bytes. -/
def keeperQuote (d : Dev) (m : Fin 3) : Dev :=
  keeperServe d m 0x03 (fun d q bs =>
    if !fbit d SEC_STATUS_ID_OK then kprRespond d q .notReady false [] else
      let v := quote d (bytesFrom bs 8 32)
      (List.range 15).foldl (fun d k => kprRespond d q .ok (k != 14) (bytesFrom v (56 * k) 56)) d)

/-- SCOPE_RESET (R398): the response follows when the levee is lowered. With nothing but the keeper powered, a scope of the other polders has
nothing to reset. -/
def scopeReset (d : Dev) (m : Fin 3) : Dev :=
  keeperServe d m 0x04 (fun d q bs =>
    let scope := leAt bs 8 1
    let target := leAt bs 10 2
    if !scopeValid scope target then kprRespond d q .aborted false []
    else if d.kpr.stop.isSome then kprRespond d q .resetAborted false []
    else if 3 ≤ d.pwr.state && scope ≤ 4 then kprRespond d q .ok false []
    else requestReset d scope target [q])

/-- POWER_OFF (R411): a DEVICE levee, and then power is removed in the order of Table 19-4. Resets in progress end with it. -/
def powerOff (d : Dev) (last : Nat) : Dev :=
  if 3 ≤ d.pwr.state || d.kpr.stop.isSome then d else
    let owed := d.kpr.resets.flatMap (fun r => r.owed)
    let d := resetDevice (leveeRecord (endDebug d) (4, 0))
    let d := noteResets { d with kpr := { d.kpr with resets := [] }, levees := [] }
    let d := stopLatch (fcount d KPR_RESET_STATUS_RESETS 1) last
    owed.foldl (fun d q => kprRespond d q .ok false []) d

/-- POWER_OFF. -/
def keeperPowerOff (d : Dev) (m : Fin 3) : Dev :=
  keeperServe d m 0x05 (fun d q _ => kprRespond (powerOff d 1) q .ok false [])

/-- Whether COOL_FAIL_N and VIN_MAIN allow a power-on (R369). -/
def coolantOk (d : Dev) (t : Nat) : Bool := !d.kpr.coolLow && decide (d.kpr.coolAt + 1000000000 ≤ t) && d.kpr.vin

/-- POWER_ON (R369, R387): refused with NOT_READY, or the part starts afresh with cause 1. -/
def keeperPowerOn (d : Dev) (m : Fin 3) (carrier : Option (List Byte)) (t : Nat) : Dev :=
  keeperServe (atTime d t) m 0x06 (fun d q bs =>
    let confirm := leAt bs 8 1
    if confirm ≠ 0 ∧ confirm ≠ 0xC5 then kprRespond d q .aborted false []
    else if d.pwr.state < 3 && d.kpr.stop.isNone then kprRespond d q .ok false []
    else
      let held := fget d KPR_START_LAST_STOP = 4 ∧ ¬(m.val = 2 ∧ confirm = 0xC5)
      let d := if d.kpr.stop.isNone then readCarrier d carrier else d
      if d.kpr.stop.isSome || !coolantOk d d.now || held || !recordsOk d then kprRespond d q .notReady false []
      else
        let d := kprRespond { d with kpr := { d.kpr with armed := true } } q .ok false []
        if autoOk d then coldStart d 1 else noteWaiting d)

/-- COOLANT_STOP (R368, R411): the hardware path at once, with no levee. -/
def keeperCoolantStop (d : Dev) (m : Fin 3) : Dev :=
  keeperServe d m 0x07 (fun d q _ =>
    let d := match d.kpr.stop with
      | some (n, _) => { d with kpr := { d.kpr with stop := some (n, 4) } }
      | none => if 3 ≤ d.pwr.state then d else coolRecord (hwStop d 4) 2
    kprRespond d q .ok false [])

/-- A new rack cap in force (R359). -/
def setRackCap (d : Dev) (watts : Nat) : Dev := capUpdate (fset d PWR_CAP_RACK (capClamp watts))

/-- RACK_CAP (R359, R364): on the next edge, or at once while the tide is not RUNNING. -/
def keeperRackCap (d : Dev) (m : Fin 3) : Dev :=
  keeperServe d m 0x08 (fun d q bs =>
    let v := capClamp (leAt bs 8 2)
    let d := if tideRuns d then { d with pwr := { d.pwr with rackNew := some v } } else setRackCap d v
    kprRespond d q .ok false (leBytes 2 v))

/-- POWER_READ (R364). -/
def powerRead (d : Dev) (m : Fin 3) : Dev :=
  keeperServe d m 0x09 (fun d q _ => kprRespond d q .ok false ([PWR_CAP, PWR_MEAS, PWR_DEBT, PWR_SLACK].flatMap (regBytes d)))

/-- SET_OWNER (R347), from MCTP endpoint `eid`. -/
def keeperSetOwner (d : Dev) (m : Fin 3) (eid : Fin 256) : Dev :=
  keeperServe d m 0x0A (fun d q bs =>
    let p := leAt bs 8 1
    if 1 < p then kprRespond d q .aborted false [] else
      let d := cancelOffers (fset d HIF_CTRL_OWNER p)
      let (d, st) := freeStatus d
      kprRespond (addFault d 0x10 st 0 7 p 0 p eid 0 []) q .ok false (leBytes 1 p))

/-- A write of TID_CFG (R227): it takes effect only while the tide is not RUNNING. A LOST device then waits for an edge message (R232). -/
def tidCfgSet (d : Dev) (role src up delay : Nat) : Dev :=
  if tideState d = 1 then d else
    let d := fset (fset d TID_CFG_ROLE (if role = 3 then 0 else role)) TID_CFG_SRC src
    let d := fset (fset d TID_CFG_UP_PORT (if 12 ≤ up then 15 else up)) TID_CFG_PIN_DELAY delay
    { d with tide := { d.tide with cfgWritten := true } }

/-- TIDE_ROLE (R227). -/
def keeperTideRole (d : Dev) (m : Fin 3) : Dev :=
  keeperServe d m 0x0B (fun d q bs =>
    let d := tidCfgSet d (leAt bs 8 1 % 4) (leAt bs 10 1 % 2) (leAt bs 9 1 % 16) (leAt bs 12 2)
    kprRespond d q .ok false (regBytes d TID_CFG))

/-! ## The watchdog (R412, R419) -/

/-- A KEEPER_RESTART record: the operations in progress. -/
def restartRecord (d : Dev) : Dev :=
  let (d, st) := freeStatus d
  addFault d 0x11 st 0 0 0 0 1 (d.kpr.resets.flatMap (fun r => r.owed)).length 0 []

/-- KEEPER_WATCHDOG (R412, R419): the firmware restarts; `patched` says that the loaded patch caused it. A second such restart within 10 s
drops the patch. -/
def keeperWatchdog (d : Dev) (patched : Bool) (t : Nat) : Dev :=
  if !d.kpr.running then d else
    let d := restartRecord (atTime d t)
    if !patched || d.kpr.patch.isNone then d else
      let soon := match d.kpr.wdAt with
        | some t0 => decide (d.now ≤ t0 + 10000000000)
        | none => false
      if soon then
        let d := { d with kpr := { d.kpr with patch := none, wdAt := none } }
        fset (fset (fset d SEC_STATUS_FW_PATCHED 0) SEC_STATUS_FW_DROPPED 1) SEC_FW_INFO_SVN 0
      else { d with kpr := { d.kpr with wdAt := some d.now } }

end Sys2Proof.Machine
end

