-- ==== Sys2Proof/Machine/Security.lean ====
section
/-! DEFINITION. Security (R415 to R434): tokens, keeper firmware patches, trust anchors, and the SPDM responder. -/
namespace Sys2Proof.Machine

/-! ## Work that SEC_STATUS.BUSY reports -/

/-- Whether a writer's action of SEC_CTL has an effect (R424, R434). -/
def secWrites (d : Dev) (by_ : Option PciePort) : Bool := ownerWrites d by_ && !fbit d SEC_STATUS_BUSY && d.kpr.running

/-- A job begun, and a job ended. -/
def secBegin (d : Dev) (j : SecJob) : Dev := fset { d with sec := { d.sec with job := some j } } SEC_STATUS_BUSY 1
def secEnd (d : Dev) : Dev := fset { d with sec := { d.sec with job := none } } SEC_STATUS_BUSY 0

/-- Whether the memories can be read at all: the base die has its supply and no stop is under way. -/
def memPowered (d : Dev) : Bool := decide (d.pwr.state < 3) && d.kpr.stop.isNone

/-- SEC_SUBMIT (R424): the token is taken with the nonce in force, and a new nonce is drawn. -/
def secSubmit (d : Dev) (by_ : Option PciePort) : Dev :=
  if !secWrites d by_ then d else
    drawNonce (secBegin d (.token (fget d SEC_TOKEN_ADDR_ADDR * 64) (fget d SEC_TOKEN_LEN_LEN)
      (rget d (SEC_DBG_NONCE 0)).toNat (rget d (SEC_DBG_NONCE 1)).toNat))

/-- SEC_FW_LOAD (R418). -/
def secFwLoad (d : Dev) (by_ : Option PciePort) : Dev :=
  if !secWrites d by_ then d else secBegin d (.firmware (rget d SEC_FW_ADDR).toNat (fget d SEC_FW_LEN_LEN))

/-- SEC_ANCHOR_ADD (R420). -/
def secAnchorAdd (d : Dev) (by_ : Option PciePort) : Dev :=
  if !secWrites d by_ then d else
    secBegin d (.anchor (rget d SEC_ANCHOR_ADDR).toNat (fget d SEC_ANCHOR_CFG_SLOT)
      (fget d SEC_ANCHOR_CFG_PATTERN + 2 * fget d SEC_ANCHOR_CFG_DEBUG))

/-- SEC_LOCK_ANCHORS (R420). -/
def secLockAnchors (d : Dev) (by_ : Option PciePort) : Dev := if secWrites d by_ then fset d SEC_STATUS_ANCHOR_LOCK 1 else d

/-- SEC_RELOCK (R398, R425): a DEVICE reset, which ends a debug session. -/
def secRelock (d : Dev) (by_ : Option PciePort) : Dev :=
  if secWrites d by_ && memPowered d then requestReset d 4 0 [] else d

/-! ## Tokens (R423 to R427) -/

/-- A token well formed (Table 23-2). -/
def tokenFormed (bs : List Byte) : Bool :=
  let kind := leAt bs 6 2
  decide (64 ≤ bs.length) && bytesFrom bs 0 4 == [0x53, 0x4C, 0x44, 0x54] && leAt bs 4 2 == 1 && (kind == 1 || kind == 2) &&
    zeroAt bs 48 16 && decide (leAt bs 40 8 < 64) && (kind == 1 || leAt bs 40 8 == 0) && (parseSig (bs.drop 64)).isSome

/-- TOKEN_RESULT of a token against the nonce of its submission. -/
def tokenVerdict (d : Dev) (bs : List Byte) (nonce : Nat) : Nat :=
  let serial := match d.kpr.prec with | some p => p.serial | none => []
  let roots := Config.romAnchor 1 :: anchorsWith d 1
  if !tokenFormed bs then 2
  else if bytesFrom bs 8 16 ≠ serial then 3
  else if leAt bs 24 16 ≠ nonce then 4
  else if !sigVerifies roots (bs.take 64) (bs.drop 64) then 5
  else if leAt bs 6 2 = 1 then (if lifecycle d = 1 then 1 else 6)
  else if lifecycle d = 3 then 6
  else if 8192 ≤ fget d KPR_PREC_STATUS_LOG_ENTRIES then 7
  else 1

/-- A DEBUG token accepted (R425). -/
def enterDebug (d : Dev) (bs : List Byte) : Dev :=
  let d := fcount { d with sec := { d.sec with token := bs.take 64 } } SEC_STATUS_DBG_SESSIONS 1
  lifecycleChange d 2 (leAt bs 40 8)

/-- A RETIRE token accepted (R426): the entry is committed, and the part powers off. -/
def enterRetired (d : Dev) : Dev :=
  let d := fcount { d with kpr := { d.kpr with prec := d.kpr.prec.map (fun p => { p with retired := true }) } } KPR_PREC_STATUS_LOG_ENTRIES 1
  powerOff (lifecycleChange d 3 0) 1

/-- TOKEN_CHECK_DONE (R423 to R426): the token is read at its input address with R, and checked. -/
def tokenCheckDone (d : Dev) (far : SMap Byte) (e : EccHits) : Dev :=
  match d.sec.job with
  | some (.token addr len n0 n1) =>
    let (d, got) := if memPowered d then fetchRange d e .dmaRead far addr len 0 0xFFFF else (d, .refused)
    let d := secEnd d
    (match got with
    | .bytes bs false =>
      let v := tokenVerdict d bs (n0 + n1 * 2 ^ 64)
      let d := fset d SEC_STATUS_TOKEN_RESULT v
      if v ≠ 1 then d else if leAt bs 6 2 = 1 then enterDebug d bs else enterRetired d
    | _ => fset d SEC_STATUS_TOKEN_RESULT 2)
  | _ => d

/-! ## Keeper firmware patches (R418) -/

/-- Bytes read at a physical node-local address, if the memory gives them clean. -/
def readPhys (d : Dev) (e : EccHits) (a n : Nat) : Dev × Option (List Byte) :=
  if !memPowered d || rangeStatus d a n ≠ .ok then (d, none) else
    let (d, bs, bad) := agentLoad d e a n
    (d, if bad then none else some bs)

/-- FW_RESULT of a patch image. -/
def fwVerdict (d : Dev) (bs : List Byte) : Nat :=
  let len := leAt bs 16 4
  let svn := leAt bs 8 4
  let minSvn := match d.kpr.prec with | some p => p.minSvn | none => 0
  if bs.length < 64 ∨ bytesFrom bs 0 4 ≠ [0x53, 0x4C, 0x4B, 0x46] ∨ leAt bs 4 2 ≠ 1 ∨ !zeroAt bs 6 2 ∨ !zeroAt bs 20 44 ∨
      (parseSig (bs.drop (64 + len))).isNone ∨ leAt bs 12 4 ≠ fget d SEC_FW_INFO_ROM_VERSION then 2
  else if !sigVerifies [Config.romAnchor 2] (bs.take (64 + len)) (bs.drop (64 + len)) then 3
  else if svn < minSvn ∨ svn < d.kpr.svnFloor then 4
  else 1

/-- FW_LOAD_DONE (R418): refused, or in effect through a firmware restart. -/
def fwLoadDone (d : Dev) (e : EccHits) : Dev :=
  match d.sec.job with
  | some (.firmware addr len) =>
    let (d, got) := readPhys d e addr len
    let d := secEnd d
    (match got with
    | none => fset d SEC_STATUS_FW_RESULT 2
    | some bs =>
      let v := fwVerdict d bs
      let d := fset d SEC_STATUS_FW_RESULT v
      if v ≠ 1 then d else
        let svn := leAt bs 8 4
        let x : FwPatch := { svn := svn, sum := Config.sha384 (bs.take (64 + leAt bs 16 4)) }
        let d := { d with kpr := { d.kpr with patch := some x, svnFloor := max d.kpr.svnFloor svn, wdAt := none } }
        restartRecord (fset (fset d SEC_STATUS_FW_PATCHED 1) SEC_FW_INFO_SVN svn))
  | _ => d

/-! ## Trust anchors (R420) -/

/-- Bytes of a DER value, from its first four. -/
def derLength (bs : List Byte) : Nat :=
  let b := leAt bs 1 1
  if b < 128 then 2 + b else if b = 129 then 3 + leAt bs 2 1 else 4 + beNat (bytesFrom bs 2 2)

/-- ANCHOR_ADD_DONE (R420): installed in place of what the slot held, or refused. -/
def anchorAddDone (d : Dev) (e : EccHits) : Dev :=
  match d.sec.job with
  | some (.anchor addr slot roles) =>
    let (d, head) := readPhys d e addr 4
    let (d, got) := match head with
      | some h => readPhys d e addr (derLength h)
      | none => (d, none)
    let d := secEnd d
    let cert := got.getD []
    if fbit d SEC_STATUS_ANCHOR_LOCK then fset d SEC_STATUS_ANCHOR_RESULT 3
    else if slot = 0 then fset d SEC_STATUS_ANCHOR_RESULT 4
    else if got.isNone || roles == 0 || !Config.certOk cert then fset d SEC_STATUS_ANCHOR_RESULT 2
    else
      let d := { d with sec := { d.sec with anchors := smSet (fun _ => none) d.sec.anchors slot (some ⟨roles, cert⟩) } }
      fset (fset d ⟨SEC_ANCHOR_STATUS, 2 * slot, 2⟩ roles) SEC_STATUS_ANCHOR_RESULT 1
  | _ => d

/-! ## SPDM (R429, R430): transports 0 and 1 are the DOE of the ports, 2 is MCTP -/

/-- Whether a transport reaches the keeper. -/
def spdmOpen (d : Dev) (via : Nat) : Bool :=
  d.kpr.running && (via == 2 || ((getPcie d via).cfgReady && fbit d (HIF_LINK_UP via)))

/-- How far a transport has negotiated: 1 version, 2 capabilities, 3 algorithms. -/
def spdmStage (d : Dev) (via : Nat) : Nat := smGet (fun _ => 0) d.sec.stage via
def setStage (d : Dev) (via n : Nat) : Dev := { d with sec := { d.sec with stage := smSet (fun _ => 0) d.sec.stage via n } }

/-- A request answered: none where the transport is down, NOT_READY where the identity is not verified (R416), and out of the order of
the standard as UnexpectedRequest. -/
def spdmServe (d : Dev) (via need : Nat) (f : Dev → Dev) : Dev :=
  if !spdmOpen d via then d
  else if !fbit d SEC_STATUS_ID_OK then emit d (.spdm via .notReady [])
  else if spdmStage d via < need then emit d (.spdm via .unexpectedRequest [])
  else f d

/-- GET_VERSION. -/
def spdmVersion (d : Dev) (via : Fin 3) : Dev := spdmServe d via 0 (fun d => emit (setStage d via 1) (.spdm via .version []))

/-- GET_CAPABILITIES. -/
def spdmCapabilities (d : Dev) (via : Fin 3) : Dev :=
  spdmServe d via 1 (fun d => emit (setStage d via (max 2 (spdmStage d via))) (.spdm via .capabilities []))

/-- NEGOTIATE_ALGORITHMS: the fixed ones. -/
def spdmAlgorithms (d : Dev) (via : Fin 3) : Dev :=
  spdmServe d via 2 (fun d => emit (setStage d via 3) (.spdm via .algorithms []))

/-- GET_DIGESTS: of slot 0, the only one provisioned. -/
def spdmDigests (d : Dev) (via : Fin 3) : Dev :=
  spdmServe d via 3 (fun d => emit d (.spdm via .digests (beBytes 48 (Config.sha384 Config.certChain))))

/-- GET_CERTIFICATE: a part of the slot-0 chain. -/
def spdmCertificate (d : Dev) (via : Fin 3) (slot : Fin 8) (off len : Nat) : Dev :=
  spdmServe d via 3 (fun d =>
    if slot ≠ 0 then emit d (.spdm via .invalidRequest []) else emit d (.spdm via .certificate (bytesFrom Config.certChain off len)))

/-- CHALLENGE: signed by the identity key. -/
def spdmChallenge (d : Dev) (via : Fin 3) (slot : Fin 8) (nonce : List Byte) : Dev :=
  spdmServe d via 3 (fun d =>
    if slot ≠ 0 then emit d (.spdm via .invalidRequest []) else emit d (.spdm via .challengeAuth (sigBytes (nonce ++ measurements d))))

/-- GET_MEASUREMENTS (R432): one index, or 0xFF for all, from one snapshot, signed where asked; index 0 asks for their number. -/
def spdmMeasurements (d : Dev) (via : Fin 3) (index : Fin 256) (nonce : Option (List Byte)) : Dev :=
  spdmServe d via 3 (fun d =>
    let i := index.val
    let body := if i = 0xFF then measurements d else if i = 0 then [10] else measurement d i
    if 10 < i ∧ i ≠ 0xFF then emit d (.spdm via .invalidRequest [])
    else emit d (.spdm via .measurements (body ++ (match nonce with | some n => sigBytes (n ++ body) | none => []))))

/-- KEY_EXCHANGE: a session opened, up to four per transport. -/
def spdmKeyExchange (d : Dev) (via : Fin 3) : Dev :=
  spdmServe d via 3 (fun d =>
    if 4 ≤ sessionsOf d via then emit d (.spdm via .sessionLimitExceeded []) else
      let id := d.sec.nextId
      let s : SpdmSession := { via := via, id := id, done := false }
      let d := noteSessions { d with sec := { d.sec with sessions := d.sec.sessions ++ [s], nextId := id + 1 } }
      emit d (.spdm via .keyExchange (leBytes 2 id ++ sigBytes (leBytes 2 id))))

/-- A request within a session of its transport. -/
def inSession (d : Dev) (via id : Nat) (done : Bool) (f : Dev → Dev) : Dev :=
  if d.sec.sessions.any (fun s => s.via == via && s.id == id && s.done == done) then f d
  else emit d (.spdm via .unexpectedRequest [])

/-- SPDM_FINISH: the handshake of a session completes. -/
def spdmFinish (d : Dev) (via : Fin 3) (id : Nat) : Dev :=
  spdmServe d via 3 (fun d => inSession d via id false (fun d =>
    emit { d with sec := { d.sec with sessions := d.sec.sessions.map (fun s =>
      if s.via = via.val ∧ s.id = id then { s with done := true } else s) } } (.spdm via .finish [])))

/-- HEARTBEAT. -/
def spdmHeartbeat (d : Dev) (via : Fin 3) (id : Nat) : Dev :=
  spdmServe d via 3 (fun d => inSession d via id true (fun d => emit d (.spdm via .heartbeatAck [])))

/-- KEY_UPDATE. -/
def spdmKeyUpdate (d : Dev) (via : Fin 3) (id : Nat) : Dev :=
  spdmServe d via 3 (fun d => inSession d via id true (fun d => emit d (.spdm via .keyUpdateAck [])))

/-- END_SESSION. -/
def spdmEndSession (d : Dev) (via : Fin 3) (id : Nat) : Dev :=
  spdmServe d via 3 (fun d => inSession d via id true (fun d =>
    emit (noteSessions { d with sec := { d.sec with sessions := d.sec.sessions.filter (fun s => s.via != via.val || s.id != id) } })
      (.spdm via .endSessionAck [])))

/-- What an IDE_KM message does to the port's streams. -/
def ideKm (d : Dev) (p : Nat) : IdeKm → Dev
  | .query => d
  | .keyProg _ => d
  | .go s => rsetBit d (HIF_LINK p) (20 + s) true
  | .stop s => rsetBit d (HIF_LINK p) (20 + s) false

/-- VENDOR_DEFINED_REQUEST (R429): IDE_KM only, and only in a secured session on the same port. -/
def spdmVendorDefined (d : Dev) (via : Fin 3) (id : Nat) (msg : Option IdeKm) : Dev :=
  spdmServe d via 3 (fun d =>
    match msg with
    | none => emit d (.spdm via .unsupportedRequest [])
    | some m =>
      if via = 2 then emit d (.spdm via .unsupportedRequest [])
      else inSession d via id true (fun d => emit (ideKm d via m) (.spdm via .vendorDefined [])))

/-- SPDM_UNSUPPORTED_REQUEST: any other request. -/
def spdmUnsupported (d : Dev) (via : Fin 3) : Dev := spdmServe d via 0 (fun d => emit d (.spdm via .unsupportedRequest []))

end Sys2Proof.Machine
end

