-- ==== Sys2Proof/Machine/Debug.lean ====
section
/-! DEFINITION. Trace, debug and telemetry (R438 to R445, R447). All of it lies in P78. -/
namespace Sys2Proof.Machine

/-- Whether a write of the DBG block has an effect: P78 on, and the control-owner port or the keeper. -/
def dbgWrites (d : Dev) (by_ : Option PciePort) : Bool := polderHi d 14 && ownerWrites d by_

/-- Whether a permission of Table 23-3 is in force. -/
def perm (d : Dev) (k : Nat) : Bool := (fget d SEC_DBG_PERMS_PERMS).testBit k

/-! ## Trace control (R438) -/

/-- TRC_START: tracing runs. -/
def trcStart (d : Dev) (by_ : Option PciePort) : Dev :=
  if dbgWrites d by_ && decide (lifecycle d ≠ 3) then fset d DBG_TRC_STATUS_RUNNING 1 else d

/-- TRC_STOP. -/
def trcStop (d : Dev) (by_ : Option PciePort) : Dev :=
  if dbgWrites d by_ && decide (lifecycle d ≠ 3) then fset d DBG_TRC_STATUS_RUNNING 0 else d

/-- TRC_CLEAR: the write pointer returns to 0 while tracing is stopped. -/
def trcClear (d : Dev) (by_ : Option PciePort) : Dev :=
  if dbgWrites d by_ && decide (lifecycle d ≠ 3) && !fbit d DBG_TRC_STATUS_RUNNING then fset d DBG_TRC_STATUS_WPTR 0 else d

/-! ## Resuming (R443) -/

/-- A thread in BREAK resumes, traced: it goes back to the next stitch it has. -/
def resumeThread (d : Dev) (c t : Nat) : Dev :=
  let th := thread d c t
  if th.st ≠ .brk then d else traceEv (modTh d c t (fun th =>
      if th.draining then { th with st := .stall, stallOn := 6 } else { th with st := .run })) 6 0x51 th.lastTag c t .ok (0, 0)

/-- A held host command starts, traced. -/
def resumeCmd (d : Dev) (k seq tag : Nat) : Dev :=
  traceEv (modCmd d k seq (fun c => { c with brk := false })) 6 0x51 tag (0x1020 + k / 16) k .ok (0, 0)

/-- DBG_RESUME_ALL. -/
def dbgResumeAll (d : Dev) (by_ : Option PciePort) : Dev :=
  if !dbgWrites d by_ then d else
    let ths := d.cells.flatMap (fun e => (e.2.threads.filter (fun t => t.2.st == .brk)).map (fun t => (e.1, t.1)))
    let cmds := (allCmds d).filter (fun e => e.2.brk)
    let d := ths.foldl (fun d p => resumeThread d p.1 p.2) d
    tryArrive (cmds.foldl (fun d e => resumeCmd d e.1 e.2.seq e.2.tag) d)

/-- DBG_RESUME_ONE: the thread, or the oldest held command of the ring, that DBG_RESUME_SEL names. -/
def dbgResumeOne (d : Dev) (by_ : Option PciePort) : Dev :=
  if !dbgWrites d by_ then d else
    let i := fget d DBG_RESUME_SEL_CELL
    let t := fget d DBG_RESUME_SEL_THREAD
    if fbit d DBG_RESUME_SEL_HOST then
      if 2 ≤ t ∨ 16 ≤ i then d else
        let k := ringNo t i
        match (getRing d k).cmds.find? (fun c => c.brk) with
        | some c => resumeCmd d k c.seq c.tag
        | none => d
    else if 4096 ≤ i then d else tryArrive (resumeThread d i t)

/-! ## Stitch writes and region freeze (R444, R445) -/

/-- Element program p with its word at place i written raw; the part does not decode it when it is written. -/
def rawOps (x : Cell) (w i : Nat) : Cell :=
  let p := i / 64
  let ops := match smGet (fun _ => ProgSlot.empty) x.progs p with
    | .ops l => l
    | .empty => []
  let ops := (ops ++ List.replicate (i % 64 + 1 - ops.length) (EleOp.undef 0)).set (i % 64) ((Config.rawOp w).getD (.undef w))
  { x with progs := smSet (fun _ => ProgSlot.empty) x.progs p (.ops ops) }

/-- STITCH_COMMIT (R444): one 32 B word of stitch or program memory, if every thread of the cell is in BREAK, IDLE or FAULT. -/
def stitchCommit (d : Dev) (by_ : Option PciePort) : Dev :=
  if !dbgWrites d by_ || !perm d 2 then d else
    let c := fget d DBG_STITCH_SEL_CELL
    let i := fget d DBG_STITCH_SEL_INDEX
    let still := [0, 1, 2, 3].all (fun t => let st := (thread d c t).st; st = .brk || st = .idle || st = .fault)
    if 4096 ≤ c || !rbit d KPR_RGN_READY (regionOf c) || !still then fset d DBG_STATUS_STITCH_REJ 1 else
      let w := ([0, 1, 2, 3].map (fun j => (rget d (DBG_STITCH_DATA j)).toNat * 2 ^ (64 * j))).sum
      modCell d c (fun x =>
        if fbit d DBG_STITCH_SEL_TARGET then rawOps x w i
        else { x with stitches := smSet (fun _ => StitchWord.asm emptyStitch) x.stitches i (.raw w) })

/-- DBG_FREEZE_WRITE (R445): a set bit stops the region's clocks; a cleared one restarts nothing. -/
def dbgFreezeWrite (d : Dev) (by_ : Option PciePort) (v : Word) : Dev :=
  if !dbgWrites d by_ || !perm d 5 then d else
    rset { d with frozen := d.frozen.lor v.toNat } DBG_FREEZE v

/-! ## Comparators and tag counters (R439, R441, R447) -/

/-- DBG_BP_WRITE: a comparator configured; arming it clears MATCHES, and COUNT 0 is stored as 1. -/
def dbgBpWrite (d : Dev) (by_ : Option PciePort) (k : Fin 8) (v : Word) : Dev :=
  if !dbgWrites d by_ || !perm d 0 then d else
    let keep := [(63, 1), (62, 1), (61, 1), (59, 2), (56, 3), (36, 12), (20, 12), (0, 16)]
    let w := (keep.map (fun f => bitsOf v f.1 f.2 * 2 ^ f.1)).sum
    let d := rset d (DBG_BP k) (BitVec.ofNat 64 w)
    let d := if fget d (DBG_BP_COUNT k) = 0 then fset d (DBG_BP_COUNT k) 1 else d
    if v.toNat.testBit 63 then fset d (DBG_BP_CNT_MATCHES k) 0 else d

/-- DBG_BP_CNT_WRITE: the tag value; MATCHES clears. -/
def dbgBpCntWrite (d : Dev) (by_ : Option PciePort) (k : Fin 8) (v : Word) : Dev :=
  if !dbgWrites d by_ || !perm d 0 then d else
    fset (fset d (DBG_BP_CNT_TAG_VAL k) (bitsOf v 32 16)) (DBG_BP_CNT_MATCHES k) 0

/-- DBG_TAGCTR_CFG_WRITE: a counter's configuration; the counter clears. -/
def dbgTagctrCfgWrite (d : Dev) (by_ : Option PciePort) (j : Fin 16) (v : Word) : Dev :=
  if !dbgWrites d by_ then d else
    rset (rset d (DBG_TAGCTR_CFG j) (BitVec.ofNat 64 (v.toNat % 2 ^ 35))) (DBG_TAGCTR j) 0

/-! ## Telemetry (R440) -/

/-- TELEMETRY_SNAPSHOT: SEQ is made odd, the fields of Table 24-4 written, and SEQ made even. -/
def telemetrySnapshot (d : Dev) : Dev :=
  if !polderHi d 14 then d else
    let seq := (rget d (DBG_TELEM 0)).toNat
    let d := ([TID_COUNT, TID_LAST_TIME, PWR_MEAS, PWR_CAP, PWR_DEBT, THM_STATUS, KPR_READY, FAR_CTR, TRF_STATUS, CLV_CTR].zipIdx).foldl
      (fun d f => rset d (DBG_TELEM (f.2 + 1)) (rget d f.1)) d
    rset d (DBG_TELEM 0) (BitVec.ofNat 64 (seq + 2))

end Sys2Proof.Machine
end

