-- ==== Sys2Proof/Machine/TestPort.lean ====
section
/-! DEFINITION. The test access port (R446, R468, Table 24-5). It lies in P78: while P78 is off nothing has an effect. -/
namespace Sys2Proof.Machine

/-- An instruction decoded, or BYPASS where the state does not allow it. -/
def tapDecode (d : Dev) (code : Nat) (allowed : Bool) (f : Dev → Dev) : Dev :=
  if !polderHi d 14 then d
  else if allowed then f { d with tap := { d.tap with ir := code } }
  else { d with tap := { d.tap with ir := 0xFF } }

/-- EXTEST, CLAMP and HIGHZ: in MANUFACTURE, and elsewhere only while SYS_RST_N is asserted. -/
def pinsAllowed (d : Dev) : Bool := lifecycle d == 0 || d.kpr.rstLow

/-- Frozen regions that a DEBUG session with SCAN opens. -/
def scanAllowed (d : Dev) : Bool := lifecycle d == 2 && perm d 5 && d.frozen != 0

/-- TAP_RESET (R468): TRST_N low resets the port. -/
def tapReset_ (d : Dev) : Dev := if polderHi d 14 then { d with tap := tapReset } else d

/-- The boundary cells shifted: the levels at the inputs come out, and a new preload goes in. -/
def boundary (d : Dev) (pins shiftIn : Nat) : Dev :=
  emit { d with tap := { d.tap with sampled := pins, preload := shiftIn } } (.tap pins)

/-- EXTEST: the outputs take the boundary cells. -/
def tapExtest (d : Dev) (pins shiftIn : Nat) : Dev := tapDecode d 0x00 (pinsAllowed d) (fun d => boundary d pins shiftIn)

/-- IDCODE: 0x1710_4B67. -/
def tapIdcode (d : Dev) : Dev := tapDecode d 0x01 true (fun d => emit d (.tap 0x17104B67))

/-- SAMPLE/PRELOAD. -/
def tapSamplePreload (d : Dev) (pins shiftIn : Nat) : Dev := tapDecode d 0x02 true (fun d => boundary d pins shiftIn)

/-- CLAMP: the outputs hold the preloaded levels, and the bypass register is selected. -/
def tapClamp (d : Dev) : Dev := tapDecode d 0x04 (pinsAllowed d) (fun d => d)

/-- HIGHZ: every output in high impedance. -/
def tapHighz (d : Dev) : Dev := tapDecode d 0x05 (pinsAllowed d) (fun d => d)

/-- STACK_SEL: the IEEE 1838 die wrappers. -/
def tapStackSel (d : Dev) : Dev := tapDecode d 0x10 (lifecycle d == 0 || scanAllowed d) (fun d => d)

/-- SCAN: internal scan. -/
def tapScan (d : Dev) : Dev := tapDecode d 0x11 ((lifecycle d == 0 && d.kpr.rstLow) || scanAllowed d) (fun d => d)

/-- BYPASS. -/
def tapBypass (d : Dev) : Dev := tapDecode d 0xFF true (fun d => d)

end Sys2Proof.Machine
end

