-- ==== Sys2Proof/Machine/RegWrite.lean ====
section
/-! DEFINITION. Register accesses (R9 to R12, R316): what a write does to fields without behaviour of their own, and what a read of any
register or read-only window returns. -/
namespace Sys2Proof.Machine

/-- Whether `off` is one of n registers a stride apart from `base`. -/
def oneOf (off base stride n : Nat) : Bool := decide (base ≤ off ∧ off < base + stride * n ∧ (off - base) % stride = 0)

/-- Registers that have a command of their own in this model: REGISTER_WRITE leaves them. -/
def ownCommand (off : Nat) : Bool :=
  [XLT_PROBE_ADDR, TID_CFG, TRF_NODE_CFG, SLC_PINSEL, PWR_POLDER_OFF, PWR_POLDER_OFF_HI, DBG_FREEZE].contains off ||
    oneOf off (HBM_CH_CTL 0) 0x400 192 || oneOf off (DDR_CH_CTL 0) 0x400 8 || oneOf off (TRF_PORT_CTL 0) 0x400 12 ||
    oneOf off (TRF_CMIS_CTL 0) 0x400 12 || oneOf off (SLC_WM 0) 0x20 46 || oneOf off (HIF_BAR2_BASE 0) 0x400 2 ||
    oneOf off (DBG_BP 0) 0x10 8 || oneOf off (DBG_BP_CNT 0) 0x10 8 || oneOf off (DBG_TAGCTR_CFG 0) 0x10 16

/-- The port that a port's own register belongs to (R317, R349). -/
def portOfReg (off : Nat) : Nat := if off < 0x770000 then (off - 0x760000) / 0x400 else (off - 0x770000) / 0x1000

/-- Whether a writer may write a register; `none` is the keeper, which may write every one. Pattern registers, the debug block and the
trace registers follow R222, R434, R438 and R447. -/
def mayWrite (d : Dev) (by_ : Option PciePort) (r : RegRow) (off : Nat) : Bool :=
  (match r.by_, by_ with
    | _, none => true
    | .any, _ => true
    | .owner, some p => p.val == ownerPort d
    | .port, some p => p.val == portOfReg off) &&
  (decide (off < 0x7C0000 ∨ 0x7D0000 ≤ off) || polderHi d 14) &&
  (([DBG_TRC_CFG, DBG_TRC_RGN].contains off && decide (lifecycle d = 3)) == false)

/-- What a field holds after a write of v to it (Table 0-1). -/
def fieldAfter (f : FieldRow) (old v : Nat) : Nat :=
  match f.acc with
  | .ro => old
  | .wo => old
  | .rw => v
  | .rws => v
  | .w1c => old &&& (2 ^ f.wid - 1 - v)
  | .w1s => old ||| v

/-- A register after a write of v to bytes lo to hi − 1 of it (R9, R12): W1C and W1S act on those bits alone, and every other byte keeps
what it holds. -/
def wordAfter (fs : List FieldRow) (old v : Word) (lo hi : Nat) : Word :=
  fs.foldl (fun w f =>
    let bits := List.range f.wid
    let o := bitsOf old f.lo f.wid
    let given := bitsOf v f.lo f.wid
    let seen := (bits.filter (fun i => decide (8 * lo ≤ f.lo + i ∧ f.lo + i < 8 * hi))).foldl (fun m i => m + 2 ^ i) 0
    let kept := 2 ^ f.wid - 1 - seen
    let want := match f.acc with
      | .rw => (given &&& seen) + (o &&& kept)
      | .rws => (given &&& seen) + (o &&& kept)
      | _ => given &&& seen
    setBits w f.lo f.wid (fieldAfter f o want)) old

/-- A field brought within bounds. -/
def boundFld (d : Dev) (f : Fld) (lo hi : Nat) : Dev := fset d f (max lo (min hi (fget d f)))

/-- Values that the manual stores otherwise than written: the nearer bound, or 1 for 0. LANE_WINDOW below 10 is free, since the manual
says nothing of it (log entry 3). -/
def storedAs (d : Dev) (off : Nat) : Dev :=
  if off = HBM_RINSE then boundFld d HBM_RINSE_LOG2 6 20
  else if off = DDR_RINSE then boundFld d DDR_RINSE_LOG2 6 20
  else if oneOf off (COL_RINSE 0) 0x400 64 then
    let r := (off - COL_RINSE 0) / 0x400
    boundFld (boundFld d (COL_RINSE_SRAM_LOG2 r) 8 24) (COL_RINSE_DRAM_LOG2 r) 8 24
  else if off = TRF_CFG then boundFld d TRF_CFG_REMOTE_TIMEOUT 10 65535
  else if off = TRF_RETIRE_CFG then
    let d := boundFld d TRF_RETIRE_CFG_UCW_LIMIT 1 255
    if fget d TRF_RETIRE_CFG_LANE_WINDOW < 10 then
      let (n, d) := takeFree d
      fset d TRF_RETIRE_CFG_LANE_WINDOW (Config.free n)
    else d
  else if off = CLV_CFG then boundFld d CLV_CFG_TIMEOUT_US 100 (2 ^ 32 - 1)
  else if off = PWR_WARDEN then boundFld d PWR_WARDEN_ALPHA 1 6
  else if off = PWR_SHIFT_CFG then boundFld d PWR_SHIFT_CFG_INTERVAL 1 65535
  else if oneOf off (HIF_RING_CFG 0) 0x100 16 || oneOf off (HIF_RING_CFG 16) 0x100 16 then
    let k := if off < HIF_RING_CFG 16 then (off - HIF_RING_CFG 0) / 0x100 else 16 + (off - HIF_RING_CFG 16) / 0x100
    boundFld (boundFld d (HIF_RING_CFG_LOG2 k) 4 16) (HIF_RING_CFG_MOD_COUNT k) 1 255
  else d

/-- A write to the overrun record changes nothing but HDR.VALID, which it clears (R239). -/
def ovrWrite (d : Dev) (off n : Nat) (v : Word) : Dev :=
  let hit := (decide (off = 0x800000 ∧ n = 8) && v.toNat.testBit 63) || (decide (off = 0x800004 ∧ n = 4) && v.toNat.testBit 31)
  if hit then { d with tide := { d.tide with ovr := { d.tide.ovr with valid := false } } } else d

/-- REGISTER_WRITE (R9, R10, R12, R316): a write of n bytes at a BAR0 offset, by a port or by the keeper. -/
def registerWrite (d : Dev) (by_ : Option PciePort) (off n : Nat) (v : Word) : Dev :=
  if (n ≠ 4 ∧ n ≠ 8) ∨ off % n ≠ 0 then d
  else if 0x800000 ≤ off ∧ off < 0x890000 then ovrWrite d off n v
  else
    let reg := off / 8 * 8
    match regRow reg with
    | none => d
    | some r =>
      if ownCommand reg || !mayWrite d by_ r reg then d else
        let lo := off % 8
        let v := BitVec.ofNat 64 (v.toNat % 2 ^ (8 * n) * 2 ^ (8 * lo))
        storedAs (rset d reg (wordAfter r.fields (rget d reg) v lo (lo + n))) reg

/-! ## Reads -/

/-- CEL_ID (Table 3-1): the physical row follows the darn of the cell's column (R23). -/
def celId (d : Dev) (c : Nat) : Nat :=
  let x := c % 64
  let y := c / 64
  let r := regionOf c
  let faulty := match d.kpr.prec with | some p => p.faulty | none => []
  let row := match faulty.find? (fun s => s.1 == r && s.2.1 == x % 8) with
    | some s => if y % 8 < s.2.2 then y % 8 else y % 8 + 1
    | none => y % 8
  (if (getCell d c).retired then 2 ^ 40 else 0) + row * 2 ^ 32 + x % 8 * 2 ^ 24 + r * 2 ^ 16 + y * 2 ^ 8 + x

/-- A register of a cell's block (Tables 3-6 to 3-9). -/
def cellReg (d : Dev) (c o : Nat) : Option Nat :=
  let x := getCell d c
  let t := o % 0x20 / 8
  let th := getTh x t
  if o = 0 then some (celId d c)
  else if 0x100 ≤ o ∧ o < 0x120 then some (thrStatusWord x t).toNat
  else if 0x120 ≤ o ∧ o < 0x140 then some (th.winLen * 2 ^ 32 + th.winEntry * 2 ^ 16 + th.winBase)
  else if 0x140 ≤ o ∧ o < 0x160 then some th.waitN
  else if 0x160 ≤ o ∧ o < 0x180 then some (th.waitSrc.patch.val * 2 ^ 8 + th.waitSrc.gauge.val)
  else if 0x1000 ≤ o ∧ o < 0x1200 then some (cellGauge x ((o - 0x1000) / 8))
  else none

/-- A register of an element engine's block that State holds otherwise (Tables 7-8 and 7-12). -/
def eleReg (d : Dev) (c o : Nat) : Option Nat :=
  let x := getCell d c
  let tag := fun (ty : EType) => match ty with | .w32 => 0 | .fp32 => 1 | .i32 => 2
  if o = 0x18 then some ((List.range 8).foldl (fun v n => v + tag (smGet (fun _ => EType.w32) x.ttypes n) * 2 ^ (2 * n)) 0)
  else if o = 0x28 then some ((List.range 4).foldl (fun v t => v + (if (getTh x t).sumInt then 2 ^ t else 0)) 0)
  else if 0x100 ≤ o ∧ o < 0x200 then some (smGet (fun _ => 0) (getTh x ((o - 0x100) / 0x40)).sums (o % 0x40 / 8)).toNat
  else none

/-- SLC_STATUS (Table 16-4). -/
def slcStatus (d : Dev) (i : Nat) : Nat :=
  let s := getSlc d i
  let c := slcCap i
  (if s.hi then 2 ^ 63 else 0) + (if s.lo then 2 ^ 62 else 0) + (if s.mark.isSome then 2 ^ 61 else 0) +
    fget d (SLC_STATUS_DROPPED i) * 2 ^ 60 + sluiceLog2 i * 2 ^ 56 + slcOcc c s * 2 ^ 39 + slcAvail c s * 2 ^ 26 +
    slcHeld c s * 2 ^ 13 + slcCredits c s

/-- The bytes of the overrun record (Tables 12-3 and 12-5). -/
def ovrBytes (d : Dev) : List Byte :=
  let o := d.tide.ovr
  leBytes 8 ((if o.valid then 2 ^ 63 else 0) + o.dropped * 2 ^ 32 + (if o.fault then 2 ^ 24 else 0) + o.entries.length) ++
      leBytes 8 o.edge ++ leBytes 8 o.time ++ leBytes 8 (o.first * 2 ^ 48 + o.missing * 2 ^ 32 + o.stretch % 2 ^ 32) ++
      leBytes 32 0 ++ o.entries.flatMap (fun e => leBytes 2 e.cell ++ leBytes 1 e.thread ++ leBytes 1 e.st ++ leBytes 1 e.stallOn ++
        leBytes 1 e.patch ++ leBytes 1 e.waitPatch ++ leBytes 1 e.waitGauge ++ leBytes 8 e.threshold ++ leBytes 8 e.value ++
        leBytes 2 e.pc ++ leBytes 2 e.tag ++ leBytes 1 e.fault ++ leBytes 3 0)

/-- The 64 bits of a read-only window: the fault log (R408), the overrun record (R239), the trace buffer (R436). -/
def windowWord (d : Dev) (off : Nat) : Option Nat :=
  if 0x200000 ≤ off ∧ off < 0x600000 then some (leNat ((List.range 8).map (fun i => flogByte d (off - 0x200000 + i))))
  else if 0x800000 ≤ off ∧ off < 0x890000 then some (leNat (bytesFrom (ovrBytes d) (off - 0x800000) 8))
  else if 0xC00000 ≤ off ∧ off < 0x1000000 then
    some (if polderHi d 14 then smGet (fun _ => 0) d.trace ((off - 0xC00000) / 16) / 2 ^ (8 * (off % 16)) % 2 ^ 64 else 0)
  else none

/-- What a register reads as where State holds it otherwise than in `regs`; `p` is the port that reads. -/
def viewWord (d : Dev) (p off : Nat) : Option Nat :=
  if off = XLT_NODE_ID then some (rget d TRF_NODE_CFG).toNat
  else if off = TID_TIME then some d.now
  else if off = TID_STATUS ∧ tideRole d = 2 then some ((rget d TID_STATUS).toNat ||| 2 ^ 5)
  else if off = HIF_WHOAMI then some p
  else if off = DBG_TRC_CFG ∧ !perm d 4 then some (setBits (rget d DBG_TRC_CFG) 49 1 0).toNat
  else if oneOf off (SLC_STATUS 0) 0x20 46 then some (slcStatus d ((off - SLC_STATUS 0) / 0x20))
  else if 0x1000000 ≤ off ∧ off < 0x3000000 then cellReg d ((off - 0x1000000) / 0x2000) (off % 0x2000)
  else if 0x3000000 ≤ off ∧ off < 0x3400000 ∧ off % 0x400 = 0x28 then some d.tide.seed.toNat
  else if 0x3000000 ≤ off ∧ off < 0x3400000 ∧ off % 0x400 = 0x30 then
    some (if (getCell d ((off - 0x3000000) / 0x400)).stepOff then 0 else d.tide.step)
  else if 0x3400000 ≤ off ∧ off < 0x3800000 then eleReg d ((off - 0x3400000) / 0x400) (off % 0x400)
  else none

/-- What port p reads in the register at a BAR0 offset: WO and reserved fields read zero (R10, R12), and so does an offset that names
no register. -/
def readReg (d : Dev) (p off : Nat) : Word :=
  let named := fun (w : Nat) => match regRow off with
    | some r => r.fields.foldl (fun v f => if f.acc = .wo then v else v + bitsOf (BitVec.ofNat 64 w) f.lo f.wid * 2 ^ f.lo) 0
    | none => 0
  match windowWord d off with
  | some w => BitVec.ofNat 64 w
  | none => BitVec.ofNat 64 (named ((viewWord d p off).getD (rget d off).toNat))

end Sys2Proof.Machine
end

