-- ==== Sys2Proof/Machine/Switch.lean ====
section
/-! DEFINITION. What a Pattern changes on its switch edge (R215, Table 11-7), and how a scheduled switch ends. -/
namespace Sys2Proof.Machine

/-! ## Cells (R45 to R47, R63, R72, R119, R133) -/

/-- Whether a Pattern takes effect in a cell: its region has been brought up and it is not retired. -/
def cellTakes (d : Dev) (c : Nat) : Bool := cellCounts d c

/-- A thread with the window that a Pattern gives it: it enters RUN at base + entry, or is IDLE. A thread in FAULT stays there
(Table 3-3), and what its last wait, its last tag and its open memory accesses are stays too. -/
def switchThread (th : Thread) (w : Nat × Nat × Nat) : Thread :=
  { threadReset with
    st := if th.st = .fault then .fault else if w.2.1 = 0 then .idle else .run
    faultWith := if th.st = .fault then th.faultWith else .ok
    pc := w.1 + w.2.2, winBase := w.1, winLen := w.2.1, winEntry := w.2.2
    waitN := th.waitN, waitSrc := th.waitSrc, lastTag := th.lastTag
    loads := th.loads, openStores := th.openStores, openCmds := th.openCmds }

/-- What a cell that no CELL section covers gets. -/
def noImage : CellImage := { stitches := [], windows := [], progs := [], short := false }

/-- A cell in which a Pattern takes effect. -/
def switchCell (x : Cell) (i : CellImage) : Cell :=
  let threads := (List.range 4).foldl (fun m t =>
    smSet (fun _ => threadReset) m t (switchThread (getTh x t) (i.windows.getD t (0, 0, 0)))) []
  let words := (i.stitches.take 2048).zipIdx.foldl (fun m w => smSet (fun _ => stitchReset) m w.2 w.1) []
  let progs := i.progs.foldl (fun m p => smSet (fun _ => ProgSlot.empty) m p.1 p.2) []
  { x with
    threads := threads, stitches := words, stitchBad := [], progs := progs, progBad := [], gauges := [], patchView := []
    tiles := [], ttypes := [], dmaSeq := 0, short := i.short }

/-- The column ranges of a cell in its registers (R154, Table 8-8). -/
def rangeRegs (d : Dev) (c : Nat) (rs : List ColRange) : Dev :=
  (List.range 8).foldl (fun d j =>
    let d := rset d (COL_RANGE c j) 0
    match rs[j]? with
    | none => d
    | some r =>
      let d := fset (fset (fset d (COL_RANGE_VALID c j) 1) (COL_RANGE_KIND c j) r.kind) (COL_RANGE_CLASS c j) r.cls
      fset (fset (fset d (COL_RANGE_FWRITE c j) (if r.fwrite then 1 else 0)) (COL_RANGE_LENGTH c j) r.len) (COL_RANGE_BASE c j) r.base) d

/-- A Pattern takes effect in one cell: its state, its predictor, its accumulator mode and its column ranges. -/
def switchOne (b : PatBody) (d : Dev) (c : Nat) : Dev :=
  if !cellTakes d c then d else
    let img := match b.cells.find? (fun e => e.1.val == c) with | some e => e.2 | none => noImage
    let rs := match b.columns.find? (fun e => e.1.val == c) with | some e => e.2 | none => []
    let d := (List.range 64).foldl (fun d j => fset d (MTX_PRED_VALID c j) 0) (modCell d c (fun x => switchCell x img))
    rangeRegs (fset d (MTX_STATUS_ACC_MODE c) (if img.short then 1 else 0)) c rs

/-- A Pattern takes effect in every cell. -/
def switchCells (d : Dev) (b : PatBody) : Dev := (List.range 4096).foldl (switchOne b) d

/-! ## The device's own tables -/

/-- Patches (R216, R219): their registers, their size-table entries and gauges that read zero. -/
def switchPatches (d : Dev) : Dev :=
  let d := wipeRegs d (fun o => decide (PAT_PATCH_BASE 0 ≤ o ∧ o < PAT_PATCH_BASE 256) || decide (SIZ_HDR 1 ≤ o ∧ o < SIZ_HDR 256))
  let d := { d with pat := { d.pat with gauges := [], siz := [], sums := [] } }
  (patchList d).foldl (fun d p =>
    let k := p.num
    let d := rset d (PAT_PATCH_BASE k) (BitVec.ofNat 64 p.base)
    let d := fset (fset d (PAT_PATCH_LEN_HOME k) p.home) (PAT_PATCH_LEN_LEN k) p.len
    let d := fset (fset d (SIZ_HDR_VALID k) 1) (SIZ_HDR_LEVEL k) (levelCode p.level)
    fset (fset d (SIZ_HDR_PARENT k) p.parent) (SIZ_HDR_NODES k) (max 1 p.nodes.length)) d

/-- The tide's parameters in TID_PARAM and TID_STRETCH_MAX (R224). -/
def setTide (d : Dev) (t : TideSec) : Dev :=
  let d := fset (fset d TID_PARAM_POLICY (if t.fault then 1 else 0)) TID_PARAM_LEAD_NS t.lead
  fset (fset d TID_PARAM_PERIOD_NS t.period) TID_STRETCH_MAX_NS t.stretch

/-- Arbitration weights, the highest field first; 0 is stored as 1. -/
def setWeights (d : Dev) (reg : Nat) (ws : List Nat) : Dev :=
  rset d reg (BitVec.ofNat 64 ((List.range 5).foldl (fun v i => v + max 1 (ws.getD i 1 % 16) * 2 ^ (16 - 4 * i)) 0))

/-- HBM_ARB, DDR_ARB and FAR_PF_CFG (R164, R192), at their reset values where the Pattern has no MEMORY section. -/
def switchMemory (d : Dev) (m : Option MemSec) : Dev :=
  match m with
  | none => wipeRegs d (fun o => o == HBM_ARB || o == DDR_ARB || o == FAR_PF_CFG)
  | some m =>
    let d := setWeights (setWeights d HBM_ARB m.hbm) DDR_ARB m.ddr
    fset (fset d FAR_PF_CFG_EN (if m.pfOn then 1 else 0)) FAR_PF_CFG_DEPTH (max 1 (min 32 m.depth))

/-- Slots and needs of a warden (R362), from the POWER section or untrained, and shifts back at 0 (R367). -/
def switchPower (d : Dev) (b : PatBody) (n : Nat) : Dev :=
  let needs := b.needs.zipIdx.foldl (fun m s => s.1.zipIdx.foldl (fun m v =>
    smSet (fun _ => (-1 : Rat)) m (64 * s.2 + v.2) ((v.1 : Rat) / 16)) m) []
  let other := b.other.zipIdx.foldl (fun m s => [s.1.1, s.1.2.1, s.1.2.2].zipIdx.foldl (fun m v =>
    smSet (fun _ => (-1 : Rat)) m (3 * s.2 + v.2) ((v.1 : Rat) / 16)) m) []
  let d := { d with pwr := { d.pwr with needs := needs, needOther := other, slotBase := n, tides := 0, slacks := [], pool := [],
                                          quiet := 0, sinceMove := 0, shiftNew := none } }
  let d := fset (fset d PWR_WARDEN_SLOTS (max 1 (min 64 b.slots))) PWR_WARDEN_TRAINED (if b.needs.isEmpty then 0 else 1)
  setShift (notePool d) 0

/-- The publish records of every set of a section cleared (R293). -/
def clearPubs (d : Dev) : Dev :=
  match collSec d with
  | none => d
  | some c => c.sets.foldl (fun d s => match setSetup d s.num with
    | some (s, _, l) => clearPub d s l
    | none => d) d

/-- The registers of the Pattern stage after a committed switch (R215, R222). -/
def switchRegs (d : Dev) (i : PatImage) (n : Nat) : Dev :=
  let d := rset (rset d (PAT_ACTIVE_ID 0) (BitVec.ofNat 64 i.id)) (PAT_ACTIVE_ID 1) (BitVec.ofNat 64 (i.id / 2 ^ 64))
  let d := rset (rset d PAT_ACTIVE_VER (BitVec.ofNat 64 (i.version % 2 ^ 32))) PAT_ACTIVE_JOB (BitVec.ofNat 64 i.job)
  let d := rset (fcount (fset d PAT_STATUS_ACTIVE 1) PAT_STATUS_SWITCHES 1) PAT_SWITCH_DONE (BitVec.ofNat 64 n)
  raiseBoth (fset (fset d PAT_STATUS_REASON 0) PAT_STATUS_LAST_STATUS 0) 18

/-- A switch committed at edge n (R215, Table 11-7). -/
def commitSwitch (d : Dev) (n : Nat) : Dev :=
  match d.pat.staged with
  | none => d
  | some i =>
    let key := d.pat.swCmd
    let b := i.body
    let d := clearPubs d
    let d := emptyStage (switchRegs d i n)
    let d := { d with pat := { d.pat with active := some { i with edge := n } }, map := some b.map
                      far := { d.far with streams := [] }
                      tide := { d.tide with ready := [], heardWithdraw := false } }
    let d := fset (fset d XLT_STATUS_BOOT 0) XLT_STATUS_STORE_USED (mapUnits b.map)
    let d := switchMemory (netInstall (switchCells d b) b.net) b.mem
    let d := switchPower (setTide (switchPatches d) b.tide) b n
    let d := clearPubs (clvInstall d b.coll)
    let d := fset (fset d SEC_STATUS_ANCHOR_LOCK 1) TID_STATUS_SWITCH_EDGE 1
    match key with
    | some (k, seq) => writeFinal d k seq .ok 0 n n
    | none => d

/-- A scheduled switch whose edge comes without the flag fails (R214): `why` is the master's reason, 17 where it gives none. A device
that withdrew goes back to EMPTY. -/
def failSwitch (d : Dev) (why n : Nat) : Dev :=
  let mine := d.tide.withdrawn
  let reason := if mine then 16 else if why = 15 ∨ why = 16 then why else 17
  let d := patFail d reason (if reason = 17 then .tideOverrun else .aborted) mine n
  { d with tide := { d.tide with ready := [], heardWithdraw := false } }

/-- Order 3 of Table 12-4, the switch: committed on an edge with the flag, failed on one without, untouched before its edge. -/
def switchEdge (d : Dev) (flag : Bool) (why n : Nat) : Dev :=
  let d := fset d TID_STATUS_SWITCH_EDGE 0
  if patStage d ≠ 3 then d
  else if flag && !d.tide.withdrawn then commitSwitch d n
  else if d.pat.due ≤ n then failSwitch d why n
  else d

end Sys2Proof.Machine
end

