-- ==== Sys2Proof/Machine/Tide.lean ====
section
/-! DEFINITION. The tide (R223 to R241, R464): its control, its messages, the governor and the warden on an edge (R357 to R367), and the
edge itself with its events in the order of Table 12-4. -/
namespace Sys2Proof.Machine

/-! ## Announcing an edge (R229, R236) -/

/-- TID_PARAM and TID_STRETCH_MAX, as an edge message carries them. -/
def tideParams (d : Dev) : TideSec :=
  { period := fget d TID_PARAM_PERIOD_NS, fault := fbit d TID_PARAM_POLICY, stretch := fget d TID_STRETCH_MAX_NS,
    lead := fget d TID_PARAM_LEAD_NS }

/-- Number of the last edge. -/
def tideNo (d : Dev) : Nat := (rget d TID_COUNT).toNat

/-- Children whose ARRIVE of the current tide is absent, in port order; none is missing before the first tide. -/
def missingKids (d : Dev) : List Nat :=
  if tideNo d = 0 then [] else (List.range 12).filter (fun p => d.tide.children.contains p && !d.tide.arrived.contains p)

/-- Whether this device and everything below it has arrived. -/
def belowArrived (d : Dev) : Bool := allArrived d && (missingKids d).isEmpty

/-- Whether a thread of the device is in BREAK, frozen regions among them (R234, R445). -/
def breakHere (d : Dev) : Bool := d.frozen != 0 || d.cells.any (fun e => e.2.threads.any (fun t => t.2.st = .brk))

/-- The edge message to every child (R229). -/
def sendEdge (d : Dev) (a : Announce) : Dev :=
  d.tide.children.foldl (fun d p =>
    sendSide d p (.tide (.edge a.n a.fireAt a.overrun a.switch a.stop a.why a.param)) 15) d

/-- An edge announced by the root: held until its fire time, and sent to its children. -/
def announceEdge (d : Dev) (fireAt : Nat) (overrun : Bool) (verdict : Nat) : Dev :=
  let a : Announce :=
    { n := tideNo d + 1, fireAt := fireAt, overrun := overrun, switch := verdict == 1 && !overrun
      why := if verdict = 15 ∨ verdict = 16 then verdict else if verdict = 2 ∨ overrun = true then 17 else 0
      stop := d.tide.stopAsked, param := tideParams d, heardAt := d.now }
  sendEdge { d with tide := { d.tide with next := some a, stopAsked := false, startAsked := false } } a

/-- An edge announced at once, one lead ahead (R228, R238). Under STRETCH it carries OVERRUN if anything is missing. -/
def announceNow (d : Dev) : Dev :=
  let v := switchVerdict d (tideNo d + 1)
  let missing := !belowArrived d || v == 2
  announceEdge d (d.now + fget d TID_PARAM_LEAD_NS) (missing && !fbit d TID_PARAM_POLICY) v

/-- START and RESUME on a ROOT in the state each needs; a thread in BREAK holds the edge back (R234). -/
def beginTide (d : Dev) (by_ : Option PciePort) (state : Nat) (held : Bool) (t : Nat) : Dev :=
  if !ownerWrites d by_ || tideRole d ≠ 2 || tideState d ≠ state || d.tide.next.isSome then d else
    let d := atTime d t
    if held || breakHere d then { d with tide := { d.tide with startAsked := true } } else announceNow d

/-- TID_CTL_START (R228). -/
def tidCtlStart (d : Dev) (by_ : Option PciePort) (held : Bool) (t : Nat) : Dev := beginTide d by_ 0 held t

/-- TID_CTL_RESUME (R238). -/
def tidCtlResume (d : Dev) (by_ : Option PciePort) (held : Bool) (t : Nat) : Dev := beginTide d by_ 2 held t

/-- TID_CTL_STOP (R228): the tide stops after the next edge; children that know of that edge already hear again. -/
def tidCtlStop (d : Dev) (by_ : Option PciePort) : Dev :=
  if !ownerWrites d by_ || tideRole d ≠ 2 then d else
    match d.tide.next with
    | some a => sendEdge { d with tide := { d.tide with next := some { a with stop := true } } } { a with stop := true }
    | none =>
      if tideState d = 1 || d.tide.startAsked then { d with tide := { d.tide with stopAsked := true } } else d

/-- TID_CFG_WRITE (R227). -/
def tidCfgWrite (d : Dev) (by_ : Option PciePort) (v : Word) : Dev :=
  if ownerWrites d by_ then tidCfgSet d (bitsOf v 62 2) (bitsOf v 61 1) (bitsOf v 48 4) (bitsOf v 0 16) else d

/-- TID_CTR_CLR (R241). -/
def tidCtrClr (d : Dev) (v : Word) : Dev := if v.toNat.testBit 0 then rset d TID_CTR 0 else d

/-- EDGE_ANNOUNCE (R236, Table 12-2): at time t the root announces the next edge if its policy lets it; `held` says that a thread
elsewhere in the domain is in BREAK (R234). -/
def edgeAnnounce (d : Dev) (held : Bool) (t : Nat) : Dev :=
  if tideRole d ≠ 2 || d.tide.next.isSome || held || breakHere d then d else
    let d := atTime d t
    let lead := fget d TID_PARAM_LEAD_NS
    let nominal := (rget d TID_LAST_TIME).toNat + fget d TID_PARAM_PERIOD_NS
    let last := nominal + fget d TID_STRETCH_MAX_NS
    let v := switchVerdict d (tideNo d + 1)
    let soon := d.now + lead
    if tideState d ≠ 1 then if d.tide.startAsked then announceNow d else d
    else if soon < nominal then d
    else if fbit d TID_PARAM_POLICY || (belowArrived d && v != 2) then announceEdge d (max nominal soon) false v
    else if last ≤ soon then announceEdge d (max last soon) true v
    else d

/-- A switch flag already sent that a withdrawal takes back (R214): a tide master's edge goes on without it. -/
def amendEdge (d : Dev) : Dev :=
  match d.tide.next with
  | some a =>
    if a.switch && decide (tideRole d ≠ 0) && (d.tide.withdrawn || d.tide.heardWithdraw) then
      let b := { a with switch := false, why := 16 }
      sendEdge { d with tide := { d.tide with next := some b } } b
    else d
  | none => d

/-! ## Messages of the tide tree (R229 to R233) -/

/-- What a device makes of an edge message: a MASTER sets its own gang's flag and reason. -/
def ownEdge (d : Dev) (a : Announce) : Announce :=
  if tideRole d = 1 then
    let v := switchVerdict d a.n
    { a with switch := v == 1 && !a.overrun
             why := if v = 15 ∨ v = 16 then v else if v = 2 ∨ a.overrun = true then 17 else 0 }
  else a

/-- EDGE_MESSAGE (R229, R232): the edge message from upstream is held and forwarded. A LOST device takes one only after TID_CFG has
been written; a message of an edge that has fired says nothing new. -/
def edgeMessage (d : Dev) (t : Nat) : Dev :=
  let up := fget d TID_CFG_UP_PORT
  match takeMsg d (fun m => m.rid == up && (match m.body with | .tide (.edge _ _ _ _ _ _ _) => true | _ => false)) with
  | none => d
  | some (m, d) =>
    match m.body with
    | .tide (.edge n fireAt overrun switch stop why param) =>
      let d := atTime d t
      if tideRole d = 2 || n == tideNo d || (tideState d == 3 && !d.tide.cfgWritten) then d else
        let heard := match d.tide.next with
          | some b => if b.n = n then b.heardAt else d.now
          | none => d.now
        let a := ownEdge d { n := n, fireAt := fireAt, overrun := overrun, switch := switch, why := why, stop := stop
                             param := param, heardAt := heard }
        let d := if tideState d = 3 then fset d TID_STATUS_STATE 1 else d
        sendEdge { d with tide := { d.tide with next := some a, cfgWritten := false } } a
    | _ => d

/-- ARRIVE_MESSAGE (R233): a child's ARRIVE of the current tide counts; an older one does not, and a newer one waits. -/
def arriveMessage (d : Dev) : Dev :=
  let now := tideNo d
  match takeMsg d (fun m => match m.body with | .tide (.arrive n) => decide (n ≤ now) | _ => false) with
  | none => d
  | some (m, d) =>
    let kids := if d.tide.children.contains m.rid then d.tide.children else d.tide.children ++ [m.rid]
    let d := { d with tide := { d.tide with children := kids } }
    if m.body = .tide (.arrive now) then
      tryArrive { d with tide := { d.tide with arrived := if d.tide.arrived.contains m.rid then d.tide.arrived else d.tide.arrived ++ [m.rid] } }
    else d

/-- TIME_SYNC (R231): a request from downstream is answered and its port noted as a child; the answer of the upstream neighbour puts
the time base at t and locks it; with neither, a request goes upstream. -/
def timeSync (d : Dev) (t : Nat) : Dev :=
  let up := fget d TID_CFG_UP_PORT
  match takeMsg d (fun m => match m.body with | .tide (.timeSync _) => true | _ => false) with
  | some (m, d) =>
    if m.rid = up && decide (tideRole d ≠ 2) then { fset d TID_STATUS_LOCKED 1 with now := t }
    else
      let d := atTime d t
      let kids := if d.tide.children.contains m.rid then d.tide.children else d.tide.children ++ [m.rid]
      sendSide { d with tide := { d.tide with children := kids } } m.rid (.tide (.timeSync d.now)) 15
  | none =>
    let d := atTime d t
    if tideRole d ≠ 2 && decide (up < 12) then sendSide d up (.tide (.timeSync d.now)) 15 else d

/-- TIDE_LOST_TIMEOUT (R232, R367): no edge message has come in time. -/
def tideLostTimeout (d : Dev) (t : Nat) : Dev :=
  let limit := (rget d TID_LAST_TIME).toNat + fget d TID_PARAM_PERIOD_NS + fget d TID_STRETCH_MAX_NS + 1000000
  if tideRole d = 2 || tideState d ≠ 1 || d.tide.next.isSome || decide (t ≤ limit) then d else
    let d := raiseBoth (fset (atTime d t) TID_STATUS_STATE 3) 17
    let d := { d with tide := { d.tide with cfgWritten := false }, pwr := { d.pwr with shiftNew := none } }
    setShift d 0

/-! ## Order 1: the tide that ends (R233, R237, R239) -/

/-- The innermost patch of a cell: the smallest REGION or STAGE patch that lists it, or 1. -/
def innerPatch (d : Dev) (c : Nat) : Nat :=
  let ps := (patchList d).filter (fun p => (p.level = .region || p.level = .stage) && p.cells.any (fun x => x.val == c))
  match ps.foldl (fun m p => match m with
      | none => some p
      | some q => if p.cells.length < q.cells.length then some p else some q) (none : Option PatchDef) with
  | some p => p.num
  | none => 1

/-- The entry of a thread that has not arrived (Table 12-5). -/
def ovrEntry (d : Dev) (c : Nat) (x : Cell) (t : Nat) (th : Thread) : OvrEntry :=
  { cell := c, thread := t, st := thCode th.st, stallOn := if th.st = .stall then th.stallOn else 0, patch := innerPatch d c,
    waitPatch := th.waitSrc.patch, waitGauge := th.waitSrc.gauge, threshold := th.waitN, value := seenGauge x th.waitSrc,
    pc := th.pc, tag := th.lastTag, fault := if th.st = .fault then statusCode th.faultWith else 0 }

/-- Entries of every thread that has not arrived, by cell and thread. -/
def ovrEntries (d : Dev) : List OvrEntry :=
  d.cells.flatMap (fun e => (e.2.threads.filter (fun t => !thArrived t.2)).map (fun t => ovrEntry d e.1 e.2 t.1 t.2))

/-- The overrun record of edge n at time t (R239); while one stands, only DROPPED counts. The first edge has no nominal time, so its
STRETCH_NS is free. -/
def ovrWriteRec (d : Dev) (n t : Nat) (nominal : Option Nat) : Dev :=
  let o := d.tide.ovr
  if o.valid || o.ready then { d with tide := { d.tide with ovr := { o with dropped := min (o.dropped + 1) 65535 } } } else
    let miss := missingKids d
    let first := match miss with | p :: _ => fget d (TRF_PORT_PEER_NODE p) | [] => 0
    let (late, d) := match nominal with
      | some m => ((((t : Int) - m) % 2 ^ 32).toNat, d)
      | none => let (k, d) := takeFree d; (Config.free k % 2 ^ 32, d)
    let r : OvrRec :=
      { valid := false, dropped := o.dropped, fault := fbit d TID_PARAM_POLICY, edge := n, time := t, first := first,
        missing := miss.length, stretch := late, entries := (ovrEntries d).take 16384, ready := true }
    { d with tide := { d.tide with ovr := r } }

/-- OVERRUN_RECORD_DONE (R239): VALID is set last, and the record goes to the fault log. -/
def overrunRecordDone (d : Dev) : Dev :=
  let o := d.tide.ovr
  if !o.ready then d else
    let d := { d with tide := { d.tide with ovr := { o with valid := true, ready := false } } }
    addFault d 0x03 .tideOverrun 0 0 0 0 (if o.fault then 1 else 0) o.edge o.stretch (ovrBytes d)

/-- Every thread changed. -/
def mapThreads (d : Dev) (f : Thread → Thread) : Dev :=
  (d.cells.map (fun e => e.1)).foldl (fun d c =>
    modCell d c (fun x => (x.threads.map (fun t => t.1)).foldl (fun x t => setTh x t (f (getTh x t))) x)) d

/-- A thread that has not arrived at an overrun edge (R237): FAULT with TIDE_OVERRUN, unless it has a fault already. -/
def overrunThread (th : Thread) : Thread :=
  if thArrived th || th.st = .fault then th
  else { th with st := .fault, stallOn := 0, faultWith := .tideOverrun, draining := false, fence := none }

/-- A fault held by an arrived thread takes effect (R233). -/
def heldThread (th : Thread) : Thread :=
  if thArrived th && decide (th.faultWith ≠ .ok) then { th with st := .fault } else th

/-- A thread released from its barrier (R235). -/
def releaseThread (th : Thread) : Thread := if th.st = .barrier then { th with st := .run } else th

/-- Whether an edge is an overrun edge for this device (R236, R237): flagged by the root under STRETCH; under FAULT if it has not
arrived, a ROOT also if a child is missing, or if a switch was due and not ready. -/
def isOverrun (d : Dev) (a : Announce) : Bool :=
  a.overrun || (fbit d TID_PARAM_POLICY &&
    (!allArrived d || (decide (tideRole d = 2) && !(missingKids d).isEmpty) || a.why == 17))

/-- Order 1 of Table 12-4. -/
def arrivalCheck (d : Dev) (over_ : Bool) (n t : Nat) (nominal : Option Nat) : Dev :=
  let d := if over_ then
      let d := fcount (fset d TID_STATUS_OVERRUN 1) TID_CTR_OVERRUNS 1
      let d := if belowArrived d then d else ovrWriteRec d n t nominal
      mapThreads d overrunThread
    else d
  mapThreads d heldThread

/-! ## Power of the tide that ends (R361, R362, R365) -/

/-- Ceiling of a region at a step, in mW: its trim, or Table 19-3. -/
def ceilOf (d : Dev) (r k : Nat) : Nat :=
  let table := [6500, 9500, 14000, 19000, 25500, 33000].getD (k - 3) 33000
  match d.kpr.prec with
  | some p => (match p.ceilings.find? (fun c => c.1 == r && c.2.1 == k) with | some c => c.2.2 | none => table)
  | none => table

/-- Need of a region in a slot, in W: its ceiling at step 8 while nothing else is known. -/
def needOf (d : Dev) (s r : Nat) : Rat :=
  let v := smGet (fun _ => (-1 : Rat)) d.pwr.needs (64 * s + r)
  if v < 0 then (ceilOf d r 8 : Rat) / 1000 else v

/-- Need of LINK, MEMORY or CORE in a slot, in W. -/
def needClass (d : Dev) (s c : Nat) : Rat :=
  let v := smGet (fun _ => (-1 : Rat)) d.pwr.needOther (3 * s + c)
  if v < 0 then (Config.needStart c : Rat) / 16 else v

/-- The mean of the warden, moved toward a new value. -/
def learnTo (d : Dev) (old new : Rat) : Rat := old + (new - old) / 2 ^ (fget d PWR_WARDEN_ALPHA)

/-- The warden learns from the tide of a slot (R362). -/
def wardenLearn (d : Dev) (len : Nat) (en : TideEnergy) : Dev :=
  let s := fget d PWR_STATUS_SLOT
  let watts := fun (n : Nat) => (n : Rat) / len
  let needs := (List.range 64).foldl (fun m r =>
    if rbit d PWR_POLDER_ON r then
      let e8 := watts (en.regions.getD r 0) * ceilOf d r 8 / ceilOf d r (fget d (PWR_RGN_STEP r))
      smSet (fun _ => (-1 : Rat)) m (64 * s + r) (learnTo d (needOf d s r) e8)
    else m) d.pwr.needs
  let other := [en.link, en.memory, en.core].zipIdx.foldl (fun m e =>
    smSet (fun _ => (-1 : Rat)) m (3 * s + e.2) (learnTo d (needClass d s e.2) (watts e.1))) d.pwr.needOther
  { d with pwr := { d.pwr with needs := needs, needOther := other } }

/-- What was drawn in the tide that ends, which began at `last`: PWR_MEAS, the regions' energies, the debt (R361), the warden. -/
def tideEnergy (d : Dev) (last t : Nat) (en : TideEnergy) : Dev :=
  let len := t - last
  if len = 0 then d else
    let comp := (List.range 64).foldl (fun n r => n + en.regions.getD r 0) 0
    let total := comp + en.link + en.memory + en.core
    let watts := fun (n : Nat) => min 65535 (n / len)
    let d := fset (fset d PWR_MEAS_LINK (watts en.link)) PWR_MEAS_MEMORY (watts en.memory)
    let d := fset (fset d PWR_MEAS_COMPUTE (watts comp)) PWR_MEAS_TOTAL (watts total)
    let d := (List.range 64).foldl (fun d r => fset d (PWR_RGN_ENERGY r) (min (2 ^ 32 - 1) (en.regions.getD r 0 / 1000))) d
    let debt := d.pwr.debt + total - fget d PWR_CAP_EFFECTIVE * len
    let d := fset { d with pwr := { d.pwr with debt := debt } } PWR_DEBT_MJ (min (2 ^ 32 - 1) (debt / 1000000))
    wardenLearn d len en

/-- The slack of the tide that ends (R365). -/
def tideSlack (d : Dev) (t : Nat) : Nat := match d.tide.arrivedAt with | some a => t - a | none => 0

/-- The slack in PWR_SLACK, and to the home of the pool (R365). -/
def reportSlack (d : Dev) (tide slack : Nat) : Dev :=
  let n := shiftInt d
  let slacks := (slack :: d.pwr.slacks).take n
  let d := fset { d with pwr := { d.pwr with slacks := slacks } } PWR_SLACK_LAST (min (2 ^ 32 - 1) slack)
  let d := if slacks.length = n then fset d PWR_SLACK_MEAN (min (2 ^ 32 - 1) (slacks.sum / n)) else d
  match poolPatch d with
  | some p => sendMgmt d p.home (.slackReport tide slack (capBase d) (shiftWatts d) (fget d PWR_RESERVE_CARRIER))
  | none => d

/-! ## Orders 2 to 5: commands, groups, caps -/

/-- Commands of rings whose work has ended and that commit on this edge. -/
def duePlain (d : Dev) : List (Nat × HostCmd) :=
  (allCmds d).filter (fun e => e.2.ended && e.2.workEnd.isSome && e.2.final.isNone && !isGaugeOp e.2)

/-- GAUGE and GAUGE_LIST commands that commit on this edge, in the order of R338: the control-owner port first, then ring, then SEQ. -/
def dueGauges (d : Dev) : List (Nat × HostCmd) :=
  let key := fun (e : Nat × HostCmd) => (if e.1 / 16 = ownerPort d then 0 else 1) * 2 ^ 40 + e.1 % 16 * 2 ^ 34 + e.2.seq
  ((allCmds d).filter (fun e => e.2.ended && e.2.workEnd.isSome && e.2.final.isNone && isGaugeOp e.2)).insertionSort
    (fun a b => key a ≤ key b)

/-- Commands that wait for this edge, in the order they were accepted. -/
def dueAt (d : Dev) (n : Nat) : List (Nat × HostCmd) :=
  ((allCmds d).filter (fun e => e.2.started && e.2.final.isNone && decide (e.2.due ≠ 0 ∧ e.2.due ≤ n))).insertionSort
    (fun a b => a.2.latch ≤ b.2.latch)

/-- Order 4: layouts of CLV_LAYOUT (R267). A slot or layout that the Pattern does not define ends ABORTED. -/
def layoutsDue (d : Dev) (n : Nat) : Dev :=
  (dueAt d n).foldl (fun d e => match e.2.op with
    | .clvLayout slot layout _ =>
      (match groupDef d slot with
      | some g => if layout < g.layouts.length then writeFinal (layoutChange d slot layout) e.1 e.2.seq .ok 0 n n
          else writeFinal d e.1 e.2.seq .aborted 1 0 n
      | none => writeFinal d e.1 e.2.seq .aborted 1 0 n)
    | _ => d) d

/-- Order 5: caps and shifts (R359, R366, R367). -/
def capsDue (d : Dev) (halts : Bool) (n : Nat) : Dev :=
  let d := (dueAt d n).foldl (fun d e => match e.2.op with
    | .capSet w _ => writeFinal (setHostCap d w) e.1 e.2.seq .ok 0 n n
    | _ => d) d
  let d := match d.pwr.rackNew with
    | some w => setRackCap { d with pwr := { d.pwr with rackNew := none } } w
    | none => d
  let shift := if halts then some 0 else d.pwr.shiftNew
  let d := { d with pwr := { d.pwr with shiftNew := none } }
  match shift with
  | some v => setShift d v
  | none => d

/-! ## Order 6: the governor (R357 to R362) -/

/-- The compute budget of a slot, in W (R362); with no need at all its quotient is free. -/
def slotBudget (d : Dev) (s : Nat) : Dev × Rat :=
  let slots := fget d PWR_WARDEN_SLOTS
  let other := ((List.range slots).map (fun t => needClass d t 0 + needClass d t 1 + needClass d t 2)).sum
  let avail := (slots : Rat) * fget d PWR_CAP_EFFECTIVE - other
  let n := fun (t : Nat) => ((List.range 64).map (needOf d t)).sum
  let all := ((List.range slots).map n).sum
  if all = 0 then
    let (k, d) := takeFree d
    (d, Config.free k)
  else (d, avail * n s / all)

/-- The region of the highest step, of the highest number among equals, unless every one is at step 3. -/
def highestRegion (steps : List (Nat × Nat)) : Option (Nat × Nat) :=
  steps.foldl (fun m e => if e.2 ≤ 3 then m else match m with
    | some b => if b.2 ≤ e.2 then some e else m
    | none => some e) none

/-- Whether the conditions of R360 hold for steps of regions. -/
def stepsFit (d : Dev) (predict : Bool) (s : Nat) (b : Rat) (steps : List (Nat × Nat)) : Bool :=
  let ceil := (steps.map (fun e => ceilOf d e.1 e.2)).sum
  let res := 1000 * (fget d PWR_RESERVE_LINK + fget d PWR_RESERVE_MEMORY + fget d PWR_RESERVE_CORE)
  let pred := (steps.map (fun e => needOf d s e.1 * ceilOf d e.1 e.2 / ceilOf d e.1 8)).sum
  decide (ceil + res ≤ 2600000) &&
    (if predict then decide (pred ≤ b) else decide (ceil + res ≤ 1000 * fget d PWR_CAP_EFFECTIVE))

/-- Steps lowered one by one until the conditions hold or every region is at step 3. -/
def lowerSteps (d : Dev) (predict : Bool) (s : Nat) (b : Rat) : Nat → List (Nat × Nat) → List (Nat × Nat)
  | 0, steps => steps
  | k + 1, steps =>
    if stepsFit d predict s b steps then steps
    else match highestRegion steps with
      | none => steps
      | some h => lowerSteps d predict s b k (steps.map (fun e => if e.1 = h.1 then (e.1, e.2 - 1) else e))

/-- The governor chooses the steps of the tide that edge n begins (R360, R362). -/
def governor (d : Dev) (n : Nat) : Dev :=
  let slots := max 1 (fget d PWR_WARDEN_SLOTS)
  let s := (n - d.pwr.slotBase) % slots
  let period := fget d TID_PARAM_PERIOD_NS
  let predict := decide (period ≤ 10000000) && decide (d.pwr.debt < 26000000000)
  let (d, budget) := slotBudget d s
  let b := budget - (d.pwr.debt : Rat) / period
  let start := ((List.range 64).filter (fun r => rbit d PWR_POLDER_ON r)).map (fun r => (r, min 8 (fget d (PWR_RGN_THM_STEP r))))
  let steps := lowerSteps d predict s b 384 start
  let fits := stepsFit d predict s b steps
  let d := steps.foldl (fun d e =>
    let was := min 8 (fget d (PWR_RGN_THM_STEP e.1))
    fset d (PWR_RGN_GOV_STEP e.1) (if e.2 < was then e.2 else 8)) d
  let d := (List.range 64).foldl (fun d r => fset d (PWR_RGN_NEED r) (min 65535 (16 * needOf d s r).floor.toNat)) d
  let d := fset (fset (fset d PWR_STATUS_SLOT s) PWR_STATUS_MODE (if predict then 0 else 1)) PWR_STATUS_FLOOR (if fits then 0 else 1)
  let d := if predict then d else fcount d PWR_CTR_CEILING_TIDES 1
  let d : Dev := { d with pwr := { d.pwr with tides := d.pwr.tides + 1 } }
  if 64 ≤ d.pwr.tides then fset d PWR_WARDEN_TRAINED 1 else d

/-- Order 6: the thermal steps come into force, then the governor's (R357, R360). -/
def stepsDue (d : Dev) (n : Nat) : Dev := governor ((List.range 64).foldl takeThmStep d) n

/-! ## Orders 7 to 9, and what the edge leaves -/

/-- Order 7: the device seed of SR_SEED commands, and the step value of every cell (R114). -/
def seedDue (d : Dev) (over_ : Bool) (n : Nat) : Dev :=
  let d := if over_ then d else (dueAt d n).foldl (fun d e => match e.2.op with
    | .srSeed v _ => writeFinal { d with tide := { d.tide with seed := BitVec.ofNat 64 v } } e.1 e.2.seq .ok 0 n n
    | _ => d) d
  let step := match d.pat.active with
    | some a => (match a.body.stepGauge with | some g => homeGauge d (patchKey 1 g) | none => 0)
    | none => 0
  let d := { d with tide := { d.tide with step := step } }
  (d.cells.map (fun e => e.1)).foldl (fun d c => modCell d c (fun x => { x with stepOff := false })) d

/-- The state that edge n leaves the tide in (R228, R237), with nothing yet arrived in the tide it begins. -/
def tideAfter (d : Dev) (over_ stop : Bool) : Dev :=
  let d := { d with tide := { d.tide with arrived := [], sentArr := false, arrivedAt := none, next := none } }
  let d := fset d TID_STATUS_ARRIVED 0
  if over_ then raiseBoth (fset d TID_STATUS_STATE 2) 17
  else if stop then fset d TID_STATUS_STATE 0
  else fset d TID_STATUS_STATE 1

/-- The counter, time and status that edge `a` gives at time t (R223, R229, R231, R236), with the pulse of TIDE_OUT. -/
def edgeHead (d : Dev) (a : Announce) (t : Nat) (late : Bool) (nominal : Option Nat) : Dev :=
  let ran := tideState d = 1
  let stretched := ran && !a.overrun && (match nominal with | some m => decide (m < t) | none => false)
  let d := atTime d t
  let d := rset (rset d TID_COUNT (BitVec.ofNat 64 a.n)) TID_LAST_TIME (BitVec.ofNat 64 t)
  let d := fset d TID_STATUS_STATE 1
  let d := fset d TID_STATUS_STRETCHED (if stretched then 1 else 0)
  let d := if stretched then fcount d TID_CTR_STRETCHED 1 else d
  let d := if late then fcount (fset d TID_STATUS_LATE_EDGE 1) TID_CTR_LATE_EDGES 1 else d
  emit (if tideRole d = 2 then d else setTide d a.param) (.pin "TIDE_OUT" true)

/-- An edge fires at time t (R240): the events of Table 12-4 in their order. -/
def fireEdge (d : Dev) (a : Announce) (t : Nat) (late : Bool) (en : TideEnergy) : Dev :=
  let before := tideNo d
  let last := (rget d TID_LAST_TIME).toNat
  let nominal := if before = 0 then none else some (last + fget d TID_PARAM_PERIOD_NS)
  let slack := tideSlack d t
  let d := if before = 0 then { d with tide := { d.tide with arrived := d.tide.children } } else tideEnergy d last t en
  let n := a.n
  let d := edgeHead d a t late nominal
  let over_ := isOverrun d a
  let d := traceEv d 5 (if over_ then 0x41 else 0x40) 0 0xFFFF 0 .ok (0, 0)
  let d := arrivalCheck d over_ n t nominal
  let d := resolveWins (startAborts d) n
  let plain := duePlain d
  let d := plain.foldl (fun d e => commitCmd d e.1 e.2 n) d
  let d := switchEdge d (a.switch && !over_) (if over_ then 17 else a.why) n
  let d := resolveLate (commitGauges d (dueGauges d) n) n
  let d := if over_ then d else layoutsDue d n
  let d := regionsDue d
  let d := if d.pwr.d3Due then d3Enter d else d
  let d := stepsDue (capsDue d over_ n) n
  let d := seedDue d over_ n
  let d := if over_ then d else mapThreads (sizUpdate d true) releaseThread
  let d := setsEdge (clvEdge d)
  let d := tideAfter d over_ a.stop
  let d := if before = 0 then d else reportSlack d before slack
  let d := { d with pwr := { d.pwr with quiet := d.pwr.quiet + 1, sinceMove := d.pwr.sinceMove + 1 } }
  let d := plain.foldl (fun d e => match resetAsked e.2 with
    | some (scope, target) => requestReset d scope target []
    | none => d) d
  tryArrive d

/-- TIDE_EDGE (R229, R231): a device whose edges come from the message fires at its fire time, or on receipt if that has passed. -/
def tideEdge (d : Dev) (en : TideEnergy) : Dev :=
  match d.tide.next with
  | none => d
  | some a =>
    if fbit d TID_CFG_SRC && decide (tideRole d ≠ 2) then d
    else fireEdge d a (max a.fireAt a.heardAt) (decide (a.fireAt < a.heardAt)) en

/-- TIDE_IN_EDGE (R230, R464): a rising edge on TIDE_IN, stamped, fires a pending edge if it falls in its window. -/
def tideInEdge (d : Dev) (stamp : Nat) (en : TideEnergy) : Dev :=
  match d.tide.next with
  | none => d
  | some a =>
    let t := stamp + fget d TID_CFG_PIN_DELAY
    if !fbit d TID_CFG_SRC || tideRole d = 2 || decide (t + 1000 < a.fireAt) || decide (a.fireAt + 1000 < t) then d
    else fireEdge d a t (decide (a.fireAt < a.heardAt)) en

/-- TIDE_IN_WINDOW_EXPIRE (R464): with no edge on TIDE_IN the device fires 1 µs late. -/
def tideInWindowExpire (d : Dev) (en : TideEnergy) : Dev :=
  match d.tide.next with
  | none => d
  | some a =>
    if !fbit d TID_CFG_SRC || tideRole d = 2 then d else fireEdge d a (max (a.fireAt + 1000) a.heardAt) true en

end Sys2Proof.Machine
end

