-- ==== Sys2Proof/Machine/ExecAttach.lean ====
section
/-! DEFINITION. The meanings of the commands of the PCI Express ports, one for each, over the shared operations. -/
namespace Sys2Proof.Machine

/-- CONFIG_REQUEST (R313). -/
def execConfigRequest (p : PciePort) (write : Bool) (reg : Fin 1024) (mask : Fin 16) (v : BitVec 32) (s : State) : Host.Outcome State Fault Refusal :=
  run s (fun d => configRequest d p write reg mask v)

/-- REGISTER_WRITE (R10). -/
def execRegisterWrite (by_ : Option PciePort) (off : Nat) (n : Nat) (v : Word) (s : State) : Host.Outcome State Fault Refusal :=
  run s (fun d => registerWrite d by_ off n v)

/-- BAR2_READ (R317). -/
def execBar2Read (p : PciePort) (secure : Bool) (off : Nat) (n : Nat) (e : EccHits) (s : State) : Host.Outcome State Fault Refusal :=
  run s (fun d => bar2Read d p secure off n e)

/-- BAR2_WRITE (R317). -/
def execBar2Write (p : PciePort) (secure : Bool) (off : Nat) (bytes : List Byte) (ep : Bool) (s : State) : Host.Outcome State Fault Refusal :=
  run s (fun d => bar2Write d p secure off bytes ep)

/-- HIF_BAR2_BASE_WRITE (R317). -/
def execHifBar2BaseWrite (by_ : Option PciePort) (p : PciePort) (v : Word) (s : State) : Host.Outcome State Fault Refusal :=
  run s (fun d => hifBar2BaseWrite d by_ p v)

/-- UNSUPPORTED_TLP (R318). -/
def execUnsupportedTlp (p : PciePort) (posted : Bool) (s : State) : Host.Outcome State Fault Refusal :=
  run s (fun d => unsupportedTlp d p posted)

/-- INGEST_WINDOW_WRITE (R316). -/
def execIngestWindowWrite (p : PciePort) (secure : Bool) (off : Nat) (bytes : List Byte) (s : State) : Host.Outcome State Fault Refusal :=
  run s (fun d => ingestWindowWrite d p secure off bytes)

/-- DOORBELL (R328). -/
def execDoorbell (p : PciePort) (s : State) : Host.Outcome State Fault Refusal :=
  run s (fun d => doorbell d p)

/-- MBX_PUSH (R314). -/
def execMbxPush (p : PciePort) (s : State) : Host.Outcome State Fault Refusal :=
  run s (fun d => mbxPush d p)

/-- MBX_POP (R314). -/
def execMbxPop (p : PciePort) (s : State) : Host.Outcome State Fault Refusal :=
  run s (fun d => mbxPop d p)

/-- FUNCTION_LEVEL_RESET (R322). -/
def execFunctionLevelReset (p : PciePort) (s : State) : Host.Outcome State Fault Refusal :=
  run s (fun d => functionLevelReset d p)

/-- HOT_RESET (R322). -/
def execHotReset (p : PciePort) (s : State) : Host.Outcome State Fault Refusal :=
  run s (fun d => hotReset d p)

/-- PCIE_LINK_DOWN (R322). -/
def execPcieLinkDown (p : PciePort) (s : State) : Host.Outcome State Fault Refusal :=
  run s (fun d => pcieLinkDown d p)

/-- PCIE_LINK_UP (R311). -/
def execPcieLinkUp (p : PciePort) (rate : Nat) (width : Nat) (l0p : Nat) (s : State) : Host.Outcome State Fault Refusal :=
  run s (fun d => pcieLinkUp d p rate width l0p)

/-- PERST_ASSERT (R462). -/
def execPerstAssert (p : PciePort) (s : State) : Host.Outcome State Fault Refusal :=
  run s (fun d => perstAssert d p)

/-- PERST_DEASSERT (R462). -/
def execPerstDeassert (p : PciePort) (s : State) : Host.Outcome State Fault Refusal :=
  run s (fun d => perstDeassert d p)

/-- CONFIG_SPACE_READY (R462). -/
def execConfigSpaceReady (p : PciePort) (s : State) : Host.Outcome State Fault Refusal :=
  run s (fun d => configSpaceReady d p)

/-- D_STATE_CHANGE (R320). -/
def execDStateChange (p : PciePort) (d3 : Bool) (s : State) : Host.Outcome State Fault Refusal :=
  run s (fun d => dStateChange d p d3)

/-- IDE_INTEGRITY_FAIL (R321). -/
def execIdeIntegrityFail (p : PciePort) (stream : Fin 3) (s : State) : Host.Outcome State Fault Refusal :=
  run s (fun d => ideIntegrityFail d p stream)

/-- MSI_X_TABLE_WRITE (R319). -/
def execMsiXTableWrite (p : PciePort) (n : Fin 64) (addr : Nat) (data : Nat) (masked : Bool) (s : State) : Host.Outcome State Fault Refusal :=
  run s (fun d => msixTableWrite d p n addr data masked)

/-- HIF_CTR_CLR (R323). -/
def execHifCtrClr (p : PciePort) (v : Word) (s : State) : Host.Outcome State Fault Refusal :=
  run s (fun d => hifCtrClr d p v)

end Sys2Proof.Machine
end

