-- ==== Sys2Proof/Machine/ExecCells.lean ====
section
/-! DEFINITION. The meanings of the commands of the cells, threads and gauges, one for each, over the shared operations. -/
namespace Sys2Proof.Machine

/-- STITCH_ISSUE (R39). -/
def execStitchIssue (c : CellId) (e : EccHits) (s : State) : Host.Outcome State Fault Refusal :=
  run s (fun d => stitchIssue d c e)

/-- GAUGE_WAIT_SATISFIED (R54). -/
def execGaugeWaitSatisfied (c : CellId) (t : ThreadId) (s : State) : Host.Outcome State Fault Refusal :=
  run s (fun d => gaugeWaitSatisfied d c t)

/-- SCALAR_LOAD_RETURN (R43). -/
def execScalarLoadReturn (c : CellId) (t : ThreadId) (id : Nat) (s : State) : Host.Outcome State Fault Refusal :=
  run s (fun d => scalarLoadReturn d c t id)

/-- FENCE_REL_PERFORMED (R199). -/
def execFenceRelPerformed (c : CellId) (t : ThreadId) (s : State) : Host.Outcome State Fault Refusal :=
  run s (fun d => fenceRelPerformed d c t)

/-- FENCE_ACQ_PERFORMED (R200). -/
def execFenceAcqPerformed (c : CellId) (t : ThreadId) (s : State) : Host.Outcome State Fault Refusal :=
  run s (fun d => fenceAcqPerformed d c t)

/-- DRAIN_COMPLETE (R44). -/
def execDrainComplete (c : CellId) (t : ThreadId) (s : State) : Host.Outcome State Fault Refusal :=
  run s (fun d => drainComplete d c t)

/-- PATCH_GAUGE_UPDATE (R217). -/
def execPatchGaugeUpdate (patch : Fin 256) (gauge : Fin 64) (n : Nat) (s : State) : Host.Outcome State Fault Refusal :=
  run s (fun d => patchGaugeUpdate d patch gauge n)

/-- PATCH_GAUGE_ARRIVAL (R55). -/
def execPatchGaugeArrival (c : CellId) (patch : Fin 256) (gauge : Fin 64) (remote : Option Word) (s : State) : Host.Outcome State Fault Refusal :=
  run s (fun d => patchGaugeArrival d c patch gauge remote)

/-- CEL_GAUGE_WR (R57). -/
def execCelGaugeWr (c : CellId) (g : Fin 64) (v : Word) (s : State) : Host.Outcome State Fault Refusal :=
  run s (fun d => gaugeWrite d c g v)

end Sys2Proof.Machine
end

