-- ==== Sys2Proof/Machine/ExecCollectives.lean ====
section
/-! DEFINITION. The meanings of the commands of the collectives and of the training state, one for each, over the shared operations. -/
namespace Sys2Proof.Machine

/-- CLV_LAUNCH (R268). -/
def execClvLaunch (slot : Fin 256) (rank : Nat) (s : State) : Host.Outcome State Fault Refusal :=
  run s (fun d => clvLaunch d slot rank)

/-- DATA (R271). -/
def execData (s : State) : Host.Outcome State Fault Refusal :=
  run s (fun d => clvData d)

/-- RESULT (R272). -/
def execResult (s : State) : Host.Outcome State Fault Refusal :=
  run s (fun d => clvResult d)

/-- CREDIT (R270). -/
def execCredit (s : State) : Host.Outcome State Fault Refusal :=
  run s (fun d => clvCredit d)

/-- CLV_COMBINE (R270). -/
def execClvCombine (slot : Fin 256) (rank : Nat) (k : Nat) (e : EccHits) (s : State) : Host.Outcome State Fault Refusal :=
  run s (fun d => clvCombine d slot rank k e)

/-- CLV_ACK_SEND (R279). -/
def execClvAckSend (slot : Fin 256) (rank : Nat) (s : State) : Host.Outcome State Fault Refusal :=
  run s (fun d => clvAckSend d slot rank)

/-- ACK (R279). -/
def execAck (s : State) : Host.Outcome State Fault Refusal :=
  run s (fun d => clvAck d)

/-- COMMIT (R279). -/
def execCommit (s : State) : Host.Outcome State Fault Refusal :=
  run s (fun d => clvCommit d)

/-- CLV_ABORT (R281). -/
def execClvAbort (s : State) : Host.Outcome State Fault Refusal :=
  run s (fun d => clvAbort d)

/-- FAIL (R281). -/
def execFail (s : State) : Host.Outcome State Fault Refusal :=
  run s (fun d => clvFail d)

/-- CLV_TIMEOUT (R282). -/
def execClvTimeout (chain : Bool) (k : Nat) (tag : Nat) (rank : Nat) (t : Nat) (s : State) : Host.Outcome State Fault Refusal :=
  run s (fun d => clvTimeout d chain k tag rank t)

/-- CLV_CTR_CLR (R286). -/
def execClvCtrClr (v : Word) (s : State) : Host.Outcome State Fault Refusal :=
  run s (fun d => clvCtrClr d v)

/-- SS_PUBLISH (R289). -/
def execSsPublish (k : Fin 64) (e : EccHits) (s : State) : Host.Outcome State Fault Refusal :=
  run s (fun d => ssPublish d k e)

/-- SS_FETCH (R291). -/
def execSsFetch (k : Fin 64) (s : State) : Host.Outcome State Fault Refusal :=
  run s (fun d => ssFetch d k)

/-- FETCH_SHARD_RETRY (R291). -/
def execFetchShardRetry (k : Fin 64) (sh : Nat) (t : Nat) (s : State) : Host.Outcome State Fault Refusal :=
  run s (fun d => fetchShardRetry d k sh t)

/-- SS_FETCH_DONE (R292). -/
def execSsFetchDone (k : Fin 64) (s : State) : Host.Outcome State Fault Refusal :=
  run s (fun d => ssFetchDone d k)

/-- SS_CHECK (R294). -/
def execSsCheck (k : Fin 64) (e : EccHits) (s : State) : Host.Outcome State Fault Refusal :=
  run s (fun d => ssCheck d k e)

/-- STATE_EXPORT (R297). -/
def execStateExport (k : Fin 32) (e : EccHits) (s : State) : Host.Outcome State Fault Refusal :=
  run s (fun d => stateExport d k e)

/-- STATE_IMPORT (R298). -/
def execStateImport (k : Fin 32) (e : EccHits) (s : State) : Host.Outcome State Fault Refusal :=
  run s (fun d => stateImport d k e)

end Sys2Proof.Machine
end

