-- ==== Sys2Proof/Machine/ExecEngines.lean ====
section
/-! DEFINITION. The meanings of the commands of the matrix and element engines and of the DMA tags, one for each, over the shared operations. -/
namespace Sys2Proof.Machine

/-- MMA (R65). -/
def execMma (c : CellId) (e : EccHits) (s : State) : Host.Outcome State Fault Refusal :=
  run s (fun d => mtxDispatch d c e .mma)

/-- CHAIN_ADD (R476). -/
def execChainAdd (c : CellId) (e : EccHits) (s : State) : Host.Outcome State Fault Refusal :=
  run s (fun d => mtxDispatch d c e .chainAdd)

/-- FINISH (R82). -/
def execFinish (c : CellId) (e : EccHits) (s : State) : Host.Outcome State Fault Refusal :=
  run s (fun d => mtxDispatch d c e .finish)

/-- MATRIX_COMPLETE (R56). -/
def execMatrixComplete (c : CellId) (s : State) : Host.Outcome State Fault Refusal :=
  run s (fun d => matrixComplete d c)

/-- TILE (R276). -/
def execTile (s : State) : Host.Outcome State Fault Refusal :=
  run s (fun d => chainTile d)

/-- POST (R276). -/
def execPost (s : State) : Host.Outcome State Fault Refusal :=
  run s (fun d => chainPostIn d)

/-- RERUN (R77). -/
def execRerun (s : State) : Host.Outcome State Fault Refusal :=
  run s (fun d => chainRerun d)

/-- DONE (R79). -/
def execDone (s : State) : Host.Outcome State Fault Refusal :=
  run s (fun d => chainDone d)

/-- PROGRAM (R123). -/
def execProgram (c : CellId) (e : EccHits) (s : State) : Host.Outcome State Fault Refusal :=
  run s (fun d => eleDispatch d c e .program)

/-- PRESS (R134). -/
def execPress (c : CellId) (e : EccHits) (s : State) : Host.Outcome State Fault Refusal :=
  run s (fun d => eleDispatch d c e .press)

/-- UPDATE (R135). -/
def execUpdate (c : CellId) (e : EccHits) (s : State) : Host.Outcome State Fault Refusal :=
  run s (fun d => eleDispatch d c e .update)

/-- RESEAT (R115). -/
def execReseat (c : CellId) (e : EccHits) (s : State) : Host.Outcome State Fault Refusal :=
  run s (fun d => eleDispatch d c e .reseat)

/-- CONVERT (R135). -/
def execConvert (c : CellId) (e : EccHits) (s : State) : Host.Outcome State Fault Refusal :=
  run s (fun d => eleDispatch d c e .convert)

/-- GATHER (R129). -/
def execGather (c : CellId) (e : EccHits) (s : State) : Host.Outcome State Fault Refusal :=
  run s (fun d => eleDispatch d c e .gather)

/-- GATHER_LANE_RETURN (R129). -/
def execGatherLaneReturn (c : CellId) (lane : Nat) (s : State) : Host.Outcome State Fault Refusal :=
  run s (fun d => gatherLaneReturn d c lane)

/-- SCATTER (R130). -/
def execScatter (c : CellId) (e : EccHits) (s : State) : Host.Outcome State Fault Refusal :=
  run s (fun d => eleDispatch d c e .scatter)

/-- ELEMENT_COMPLETE (R131). -/
def execElementComplete (c : CellId) (s : State) : Host.Outcome State Fault Refusal :=
  run s (fun d => elementComplete d c)

/-- DMA_DISPATCH (R48). -/
def execDmaDispatch (c : CellId) (e : EccHits) (s : State) : Host.Outcome State Fault Refusal :=
  run s (fun d => dmaDispatch d c e)

/-- DMA_DESCRIPTOR (R196). -/
def execDmaDescriptor (c : CellId) (n : Fin 8) (e : EccHits) (s : State) : Host.Outcome State Fault Refusal :=
  run s (fun d => dmaDescriptor d c n e)

/-- DMA_COMPLETE (R56). -/
def execDmaComplete (c : CellId) (n : Fin 8) (s : State) : Host.Outcome State Fault Refusal :=
  run s (fun d => dmaComplete d c n)

/-- MTX_CTR_CLR (R87). -/
def execMtxCtrClr (c : CellId) (v : Word) (s : State) : Host.Outcome State Fault Refusal :=
  run s (fun d => mtxCtrClr d c v)

/-- ELE_CTR_CLR (R138). -/
def execEleCtrClr (c : CellId) (v : Word) (s : State) : Host.Outcome State Fault Refusal :=
  run s (fun d => eleCtrClr d c v)

end Sys2Proof.Machine
end

