-- ==== Sys2Proof/Machine/ExecKeepers.lean ====
section
/-! DEFINITION. The meanings of the commands of the keeper and of security, one for each, over the shared operations. -/
namespace Sys2Proof.Machine

/-- KEEPER_WATCHDOG (R412). -/
def execKeeperWatchdog (patched : Bool) (t : Nat) (s : State) : Host.Outcome State Fault Refusal :=
  run s (fun d => keeperWatchdog d patched t)

/-- STATUS (R410). -/
def execStatus (m : Fin 3) (s : State) : Host.Outcome State Fault Refusal :=
  run s (fun d => keeperStatus d m)

/-- FLOG_DUMP (R408). -/
def execFlogDump (m : Fin 3) (s : State) : Host.Outcome State Fault Refusal :=
  run s (fun d => flogDump d m)

/-- QUOTE (R433). -/
def execQuote (m : Fin 3) (s : State) : Host.Outcome State Fault Refusal :=
  run s (fun d => keeperQuote d m)

/-- SCOPE_RESET (R398). -/
def execScopeReset (m : Fin 3) (s : State) : Host.Outcome State Fault Refusal :=
  run s (fun d => scopeReset d m)

/-- POWER_OFF (R411). -/
def execPowerOff (m : Fin 3) (s : State) : Host.Outcome State Fault Refusal :=
  run s (fun d => keeperPowerOff d m)

/-- POWER_ON (R369). -/
def execPowerOn (m : Fin 3) (carrier : Option (List Byte)) (t : Nat) (s : State) : Host.Outcome State Fault Refusal :=
  run s (fun d => keeperPowerOn d m carrier t)

/-- COOLANT_STOP (R411). -/
def execCoolantStop (m : Fin 3) (s : State) : Host.Outcome State Fault Refusal :=
  run s (fun d => keeperCoolantStop d m)

/-- RACK_CAP (R359). -/
def execRackCap (m : Fin 3) (s : State) : Host.Outcome State Fault Refusal :=
  run s (fun d => keeperRackCap d m)

/-- POWER_READ (R364). -/
def execPowerRead (m : Fin 3) (s : State) : Host.Outcome State Fault Refusal :=
  run s (fun d => powerRead d m)

/-- SET_OWNER (R347). -/
def execSetOwner (m : Fin 3) (eid : Fin 256) (s : State) : Host.Outcome State Fault Refusal :=
  run s (fun d => keeperSetOwner d m eid)

/-- TIDE_ROLE (R227). -/
def execTideRole (m : Fin 3) (s : State) : Host.Outcome State Fault Refusal :=
  run s (fun d => keeperTideRole d m)

/-- SEC_SUBMIT (R424). -/
def execSecSubmit (by_ : Option PciePort) (s : State) : Host.Outcome State Fault Refusal :=
  run s (fun d => secSubmit d by_)

/-- TOKEN_CHECK_DONE (R425). -/
def execTokenCheckDone (far : List (Nat × Byte)) (e : EccHits) (s : State) : Host.Outcome State Fault Refusal :=
  run s (fun d => tokenCheckDone d far e)

/-- SEC_FW_LOAD (R418). -/
def execSecFwLoad (by_ : Option PciePort) (s : State) : Host.Outcome State Fault Refusal :=
  run s (fun d => secFwLoad d by_)

/-- FW_LOAD_DONE (R418). -/
def execFwLoadDone (e : EccHits) (s : State) : Host.Outcome State Fault Refusal :=
  run s (fun d => fwLoadDone d e)

/-- SEC_ANCHOR_ADD (R420). -/
def execSecAnchorAdd (by_ : Option PciePort) (s : State) : Host.Outcome State Fault Refusal :=
  run s (fun d => secAnchorAdd d by_)

/-- ANCHOR_ADD_DONE (R420). -/
def execAnchorAddDone (e : EccHits) (s : State) : Host.Outcome State Fault Refusal :=
  run s (fun d => anchorAddDone d e)

/-- SEC_LOCK_ANCHORS (R420). -/
def execSecLockAnchors (by_ : Option PciePort) (s : State) : Host.Outcome State Fault Refusal :=
  run s (fun d => secLockAnchors d by_)

/-- SEC_RELOCK (R425). -/
def execSecRelock (by_ : Option PciePort) (s : State) : Host.Outcome State Fault Refusal :=
  run s (fun d => secRelock d by_)

/-- GET_VERSION (R429). -/
def execGetVersion (via : Fin 3) (s : State) : Host.Outcome State Fault Refusal :=
  run s (fun d => spdmVersion d via)

/-- GET_CAPABILITIES (R429). -/
def execGetCapabilities (via : Fin 3) (s : State) : Host.Outcome State Fault Refusal :=
  run s (fun d => spdmCapabilities d via)

/-- NEGOTIATE_ALGORITHMS (R429). -/
def execNegotiateAlgorithms (via : Fin 3) (s : State) : Host.Outcome State Fault Refusal :=
  run s (fun d => spdmAlgorithms d via)

/-- GET_DIGESTS (R429). -/
def execGetDigests (via : Fin 3) (s : State) : Host.Outcome State Fault Refusal :=
  run s (fun d => spdmDigests d via)

/-- GET_CERTIFICATE (R429). -/
def execGetCertificate (via : Fin 3) (slot : Fin 8) (off : Nat) (len : Nat) (s : State) : Host.Outcome State Fault Refusal :=
  run s (fun d => spdmCertificate d via slot off len)

/-- CHALLENGE (R429). -/
def execChallenge (via : Fin 3) (slot : Fin 8) (nonce : List Byte) (s : State) : Host.Outcome State Fault Refusal :=
  run s (fun d => spdmChallenge d via slot nonce)

/-- GET_MEASUREMENTS (R432). -/
def execGetMeasurements (via : Fin 3) (index : Fin 256) (nonce : Option (List Byte)) (s : State) : Host.Outcome State Fault Refusal :=
  run s (fun d => spdmMeasurements d via index nonce)

/-- KEY_EXCHANGE (R429). -/
def execKeyExchange (via : Fin 3) (s : State) : Host.Outcome State Fault Refusal :=
  run s (fun d => spdmKeyExchange d via)

/-- SPDM_FINISH (R429). -/
def execSpdmFinish (via : Fin 3) (id : Nat) (s : State) : Host.Outcome State Fault Refusal :=
  run s (fun d => spdmFinish d via id)

/-- HEARTBEAT (R429). -/
def execHeartbeat (via : Fin 3) (id : Nat) (s : State) : Host.Outcome State Fault Refusal :=
  run s (fun d => spdmHeartbeat d via id)

/-- KEY_UPDATE (R429). -/
def execKeyUpdate (via : Fin 3) (id : Nat) (s : State) : Host.Outcome State Fault Refusal :=
  run s (fun d => spdmKeyUpdate d via id)

/-- END_SESSION (R429). -/
def execEndSession (via : Fin 3) (id : Nat) (s : State) : Host.Outcome State Fault Refusal :=
  run s (fun d => spdmEndSession d via id)

/-- VENDOR_DEFINED_REQUEST (R429). -/
def execVendorDefinedRequest (via : Fin 3) (id : Nat) (msg : Option IdeKm) (s : State) : Host.Outcome State Fault Refusal :=
  run s (fun d => spdmVendorDefined d via id msg)

/-- SPDM_UNSUPPORTED_REQUEST (R429). -/
def execSpdmUnsupportedRequest (via : Fin 3) (s : State) : Host.Outcome State Fault Refusal :=
  run s (fun d => spdmUnsupported d via)

end Sys2Proof.Machine
end

