-- ==== Sys2Proof/Machine/ExecMemory.lean ====
section
/-! DEFINITION. The meanings of the commands of the near and far memories, the far cache and the mesh, one for each, over the shared operations. -/
namespace Sys2Proof.Machine

/-- FOREIGN_REQUEST (R155). -/
def execForeignRequest (idx : Nat) (e : EccHits) (s : State) : Host.Outcome State Fault Refusal :=
  run s (fun d => foreignRequest d idx e)

/-- RINSE_TICK (R148). -/
def execRinseTick (c : CellId) (dram : Bool) (e : EccHits) (s : State) : Host.Outcome State Fault Refusal :=
  run s (fun d => rinseTick d c dram e)

/-- VERTICAL_BEAT_ERROR (R404). -/
def execVerticalBeatError (c : CellId) (bundle : Nat) (good : Bool) (s : State) : Host.Outcome State Fault Refusal :=
  run s (fun d => verticalBeatError d c bundle good)

/-- COL_CTR_CLR (R158). -/
def execColCtrClr (c : CellId) (v : Word) (s : State) : Host.Outcome State Fault Refusal :=
  run s (fun d => colCtrClr d c v)

/-- TIER_REQUEST (R164). -/
def execTierRequest (idx : Nat) (retries : Nat) (hard : Bool) (e : EccHits) (s : State) : Host.Outcome State Fault Refusal :=
  run s (fun d => tierRequest d idx retries hard e)

/-- REQUEST_PROMOTE (R165). -/
def execRequestPromote (idx : Nat) (s : State) : Host.Outcome State Fault Refusal :=
  run s (fun d => requestPromote d idx)

/-- TIER_RINSE_TICK (R168). -/
def execTierRinseTick (ddr : Bool) (ch : Nat) (e : EccHits) (s : State) : Host.Outcome State Fault Refusal :=
  run s (fun d => tierRinseTick d ddr ch e)

/-- HBM_TEMP_READ (R169). -/
def execHbmTempRead (stk : Fin 6) (t : Nat) (s : State) : Host.Outcome State Fault Refusal :=
  run s (fun d => hbmTempRead d stk t)

/-- DDR_TEMP_READ (R169). -/
def execDdrTempRead (k : Fin 8) (t : Nat) (s : State) : Host.Outcome State Fault Refusal :=
  run s (fun d => ddrTempRead d k t)

/-- CE_WINDOW_EXPIRE (R171). -/
def execCeWindowExpire (ddr : Bool) (ch : Nat) (s : State) : Host.Outcome State Fault Refusal :=
  run s (fun d => ceWindowExpire d ddr ch)

/-- TIER_LIST_FIX (R163). -/
def execTierListFix (ddr : Bool) (s : State) : Host.Outcome State Fault Refusal :=
  run s (fun d => endBringUp (tierListFix d ddr))

/-- HBM_CH_CTL_WRITE (R175). -/
def execHbmChCtlWrite (by_ : Option PciePort) (ddr : Bool) (ch : Nat) (v : Word) (s : State) : Host.Outcome State Fault Refusal :=
  run s (fun d => hbmChCtlWrite d by_ ddr ch v)

/-- TG_START (R176). -/
def execTgStart (by_ : Option PciePort) (ddr : Bool) (ch : Nat) (v : Word) (s : State) : Host.Outcome State Fault Refusal :=
  run s (fun d => tgStart d by_ ddr ch v)

/-- TG_RUN_END (R177). -/
def execTgRunEnd (ddr : Bool) (ch : Nat) (errs : List (Nat × Nat)) (s : State) : Host.Outcome State Fault Refusal :=
  run s (fun d => tgRunEnd d ddr ch errs)

/-- FAR_CACHE_REQUEST (R188). -/
def execFarCacheRequest (idx : Nat) (e : EccHits) (s : State) : Host.Outcome State Fault Refusal :=
  run s (fun d => farCacheRequest d idx e)

/-- FAR_CACHE_FILL (R190). -/
def execFarCacheFill (idx : Nat) (victim : Option (Nat × Nat)) (s : State) : Host.Outcome State Fault Refusal :=
  run s (fun d => farCacheFill d idx victim)

/-- PREFETCH_FILL (R194). -/
def execPrefetchFill (idx : Nat) (victim : Option (Nat × Nat)) (s : State) : Host.Outcome State Fault Refusal :=
  run s (fun d => prefetchFill d idx victim)

/-- XLT_PROBE_ADDR_WRITE (R181). -/
def execXltProbeAddrWrite (v : Word) (s : State) : Host.Outcome State Fault Refusal :=
  run s (fun d => xltProbeAddrWrite d v)

/-- XLT_PROBE_DONE (R181). -/
def execXltProbeDone (s : State) : Host.Outcome State Fault Refusal :=
  run s (fun d => xltProbeDone d)

/-- FAR_CTR_CLR (R204). -/
def execFarCtrClr (v : Word) (s : State) : Host.Outcome State Fault Refusal :=
  run s (fun d => farCtrClr d v)

/-- MESH_HOP_ERROR (R405). -/
def execMeshHopError (c : CellId) (vertical : Bool) (good : Bool) (s : State) : Host.Outcome State Fault Refusal :=
  run s (fun d => meshHopError d c vertical good)

end Sys2Proof.Machine
end

