-- ==== Sys2Proof/Machine/ExecPatterns.lean ====
section
/-! DEFINITION. The meanings of the commands of the Pattern stage and the size table, one for each, over the shared operations. -/
namespace Sys2Proof.Machine

/-- PAT_CTL_LOAD (R210). -/
def execPatCtlLoad (by_ : Option PciePort) (s : State) : Host.Outcome State Fault Refusal :=
  run s (fun d => patCtlLoad d by_)

/-- PAT_CTL_SWITCH (R212). -/
def execPatCtlSwitch (by_ : Option PciePort) (s : State) : Host.Outcome State Fault Refusal :=
  run s (fun d => patCtlSwitch d by_)

/-- PAT_CTL_DISCARD (R210). -/
def execPatCtlDiscard (by_ : Option PciePort) (s : State) : Host.Outcome State Fault Refusal :=
  run s (fun d => amendEdge (patCtlDiscard d by_))

/-- PAT_LOAD_DONE (R209). -/
def execPatLoadDone (body : Option PatBody) (far : List (Nat × Byte)) (e : EccHits) (s : State) : Host.Outcome State Fault Refusal :=
  run s (fun d => patLoadDone d body far e)

/-- SWITCH_READY (R213). -/
def execSwitchReady (s : State) : Host.Outcome State Fault Refusal :=
  run s (fun d => switchReady d)

/-- READY_MESSAGE (R214). -/
def execReadyMessage (s : State) : Host.Outcome State Fault Refusal :=
  run s (fun d => readyMessage d)

/-- SWITCH_WITHDRAWAL (R214). -/
def execSwitchWithdrawal (s : State) : Host.Outcome State Fault Refusal :=
  run s (fun d => amendEdge (switchWithdrawal d))

/-- SIZ_REPORT (R220). -/
def execSizReport (s : State) : Host.Outcome State Fault Refusal :=
  run s (fun d => sizReport d)

/-- SIZ_SUM (R220). -/
def execSizSum (s : State) : Host.Outcome State Fault Refusal :=
  run s (fun d => sizSum d)

/-- SIZ_IDLE_UPDATE (R220). -/
def execSizIdleUpdate (s : State) : Host.Outcome State Fault Refusal :=
  run s (fun d => sizIdleUpdate d)

end Sys2Proof.Machine
end

