-- ==== Sys2Proof/Machine/ExecPorts.lean ====
section
/-! DEFINITION. The meanings of the commands of Trafort, one for each, over the shared operations. -/
namespace Sys2Proof.Machine

/-- CABLE_PRESENT (R243). -/
def execCablePresent (p : TrfPort) (present : Bool) (accepted : Bool) (s : State) : Host.Outcome State Fault Refusal :=
  run s (fun d => cablePresent d p present accepted)

/-- PORT_UP (R243). -/
def execPortUp (p : TrfPort) (peerNode : Nat) (peerPort : Nat) (s : State) : Host.Outcome State Fault Refusal :=
  run s (fun d => trfPortUp d p peerNode peerPort)

/-- PORT_TRAIN_TIMEOUT (R243). -/
def execPortTrainTimeout (p : TrfPort) (s : State) : Host.Outcome State Fault Refusal :=
  run s (fun d => portTrainTimeout d p)

/-- PORT_TRAIN_RETRY (R243). -/
def execPortTrainRetry (p : TrfPort) (accepted : Bool) (s : State) : Host.Outcome State Fault Refusal :=
  run s (fun d => portTrainRetry d p accepted)

/-- CMIS_POLL (R245). -/
def execCmisPoll (p : TrfPort) (flags : BitVec 8) (t : Nat) (s : State) : Host.Outcome State Fault Refusal :=
  run s (fun d => cmisPoll d p flags t)

/-- A node ID written where it may be lets the Trafort polders come on (R244, R388); a write that has no effect changes nothing. -/
def nodeIdTaken (d : Dev) (by_ : Option PciePort) (v : Word) : Dev :=
  if !ownerWrites d by_ || fbit d PAT_STATUS_ACTIVE then d else powerNote (trafortStart (nodeIdWrite d by_ v))

/-- NODE_ID_WRITE (R244). -/
def execNodeIdWrite (by_ : Option PciePort) (v : Word) (s : State) : Host.Outcome State Fault Refusal :=
  run s (fun d => nodeIdTaken d by_ v)

/-- FLIT_RECEIVE (R248). -/
def execFlitReceive (p : TrfPort) (f : Flit) (s : State) : Host.Outcome State Fault Refusal :=
  run s (fun d => flitReceive d p f)

/-- FLIT_TRANSMIT (R248). -/
def execFlitTransmit (p : TrfPort) (s : State) : Host.Outcome State Fault Refusal :=
  run s (fun d => flitTransmit d p)

/-- REPLAY_TIMEOUT (R248). -/
def execReplayTimeout (p : TrfPort) (s : State) : Host.Outcome State Fault Refusal :=
  run s (fun d => replayTimeout d p)

/-- PORT_RETRAIN_DONE (R249). -/
def execPortRetrainDone (p : TrfPort) (locked : Bool) (s : State) : Host.Outcome State Fault Refusal :=
  run s (fun d => portRetrainDone d p locked)

/-- LANE_CONTROL_BLOCK (R250). -/
def execLaneControlBlock (p : TrfPort) (own : List (Nat × Nat)) (ask : Option (Fin 8 × Nat × Nat)) (t : Nat) (s : State) : Host.Outcome State Fault Refusal :=
  run s (fun d => laneControlBlock d p own ask t)

/-- LANE_LOSS_OF_LOCK (R250). -/
def execLaneLossOfLock (p : TrfPort) (l : Fin 8) (flag : Bool) (t : Nat) (s : State) : Host.Outcome State Fault Refusal :=
  run s (fun d => laneLossOfLock d p l flag t)

/-- LANE_WINDOW_EXPIRE (R250). -/
def execLaneWindowExpire (p : TrfPort) (l : Fin 8) (s : State) : Host.Outcome State Fault Refusal :=
  run s (fun d => laneWindowExpire d p l)

/-- WIDTH_CHANGE (R251). -/
def execWidthChange (p : TrfPort) (s : State) : Host.Outcome State Fault Refusal :=
  run s (fun d => widthChange d p)

/-- RECONFIG_DONE (R251). -/
def execReconfigDone (p : TrfPort) (s : State) : Host.Outcome State Fault Refusal :=
  run s (fun d => reconfigDone d p)

/-- MESSAGE_ROUTE (R257). -/
def execMessageRoute (t : Nat) (s : State) : Host.Outcome State Fault Refusal :=
  run s (fun d => messageRoute d t)

/-- RD (R261). -/
def execRd (e : EccHits) (s : State) : Host.Outcome State Fault Refusal :=
  run s (fun d => remoteRd d e)

/-- WR (R261). -/
def execWr (s : State) : Host.Outcome State Fault Refusal :=
  run s (fun d => remoteWr d)

/-- REMOTE_GAUGE (R261). -/
def execRemoteGauge (s : State) : Host.Outcome State Fault Refusal :=
  run s (fun d => remoteGauge d)

/-- RD_RSP (R259). -/
def execRdRsp (s : State) : Host.Outcome State Fault Refusal :=
  run s (fun d => rdRsp d)

/-- WR_RSP (R259). -/
def execWrRsp (s : State) : Host.Outcome State Fault Refusal :=
  run s (fun d => wrRsp d)

/-- GAUGE_RSP (R259). -/
def execGaugeRsp (s : State) : Host.Outcome State Fault Refusal :=
  run s (fun d => gaugeRsp d)

/-- REMOTE_TIMEOUT (R259). -/
def execRemoteTimeout (rid : Nat) (t : Nat) (s : State) : Host.Outcome State Fault Refusal :=
  run s (fun d => remoteTimeout d rid t)

/-- RID_REUSE_TIMEOUT (R259). -/
def execRidReuseTimeout (rid : Nat) (t : Nat) (s : State) : Host.Outcome State Fault Refusal :=
  run s (fun d => ridReuseTimeout d rid t)

/-- TRF_PORT_DISABLE (R263). -/
def execTrfPortDisable (by_ : Option PciePort) (p : TrfPort) (v : Word) (accepted : Bool) (s : State) : Host.Outcome State Fault Refusal :=
  run s (fun d => trfPortDisable d by_ p v accepted)

/-- TRF_PORT_RETRAIN (R263). -/
def execTrfPortRetrain (by_ : Option PciePort) (p : TrfPort) (v : Word) (s : State) : Host.Outcome State Fault Refusal :=
  run s (fun d => trfPortRetrain d by_ p v)

/-- TRF_CMIS_GO (R263). -/
def execTrfCmisGo (p : TrfPort) (v : Word) (s : State) : Host.Outcome State Fault Refusal :=
  run s (fun d => trfCmisGo d p v)

/-- TRF_CMIS_DONE (R263). -/
def execTrfCmisDone (p : TrfPort) (data : Option Word) (s : State) : Host.Outcome State Fault Refusal :=
  run s (fun d => trfCmisDone d p data)

/-- TRF_CTR_CLR (R263). -/
def execTrfCtrClr (v : Word) (s : State) : Host.Outcome State Fault Refusal :=
  run s (fun d => trfCtrClr d v)

end Sys2Proof.Machine
end

