-- ==== Sys2Proof/Machine/ExecPowers.lean ====
section
/-! DEFINITION. The meanings of the commands of power and thermal protection, one for each, over the shared operations. -/
namespace Sys2Proof.Machine

/-- PWR_POLDER_OFF_WRITE (R353). -/
def execPwrPolderOffWrite (by_ : Option PciePort) (v : Word) (s : State) : Host.Outcome State Fault Refusal :=
  run s (fun d => pwrPolderOffWrite d by_ v)

/-- PWR_POLDER_OFF_HI_WRITE (R353). -/
def execPwrPolderOffHiWrite (by_ : Option PciePort) (v : Word) (s : State) : Host.Outcome State Fault Refusal :=
  run s (fun d => pwrPolderOffHiWrite d by_ v)

/-- SLACK_REPORT (R365). -/
def execSlackReport (s : State) : Host.Outcome State Fault Refusal :=
  run s (fun d => slackReport d)

/-- SLACK_REPORT_ACK (R367). -/
def execSlackReportAck (s : State) : Host.Outcome State Fault Refusal :=
  run s (fun d => slackReportAck d)

/-- SHIFT_INTERVAL (R366). -/
def execShiftInterval (s : State) : Host.Outcome State Fault Refusal :=
  run s (fun d => shiftInterval d)

/-- BUDGET_SHIFT (R366). -/
def execBudgetShift (s : State) : Host.Outcome State Fault Refusal :=
  run s (fun d => budgetShift d)

/-- SHIFT_TIMEOUT (R367). -/
def execShiftTimeout (s : State) : Host.Outcome State Fault Refusal :=
  run s (fun d => shiftTimeout d)

/-- COOL_FAIL_ASSERT (R368). -/
def execCoolFailAssert (s : State) : Host.Outcome State Fault Refusal :=
  run s (fun d => coolFailAssert d)

/-- COOL_FAIL_DEASSERT (R460). -/
def execCoolFailDeassert (t : Nat) (s : State) : Host.Outcome State Fault Refusal :=
  run s (fun d => coolFailDeassert d t)

/-- COOLANT_STOP_STAGE (R368). -/
def execCoolantStopStage (s : State) : Host.Outcome State Fault Refusal :=
  run s (fun d => coolantStopStage d)

/-- PWR_CTR_CLR (R370). -/
def execPwrCtrClr (v : Word) (s : State) : Host.Outcome State Fault Refusal :=
  run s (fun d => pwrCtrClr d v)

/-- THERMAL_SAMPLE (R374). -/
def execThermalSample (ms : List ThmSample) (t : Nat) (s : State) : Host.Outcome State Fault Refusal :=
  run s (fun d => thermalSample d ms t)

/-- THROTTLE_LEVEL_TIMER (R379). -/
def execThrottleLevelTimer (r : RegionId) (s : State) : Host.Outcome State Fault Refusal :=
  run s (fun d => throttleLevelTimer d r)

/-- DIE_COMPARATOR_TRIP (R381). -/
def execDieComparatorTrip (r : RegionId) (s : State) : Host.Outcome State Fault Refusal :=
  run s (fun d => dieComparatorTrip d r)

/-- TRIP_RESTART (R382). -/
def execTripRestart (r : RegionId) (s : State) : Host.Outcome State Fault Refusal :=
  run s (fun d => tripRestart d r)

/-- THM_CTR_CLR (R385). -/
def execThmCtrClr (v : Word) (s : State) : Host.Outcome State Fault Refusal :=
  run s (fun d => thmCtrClr d v)

end Sys2Proof.Machine
end

