-- ==== Sys2Proof/Machine/ExecRings.lean ====
section
/-! DEFINITION. The meanings of the commands of the command rings, one for each, over the shared operations. -/
namespace Sys2Proof.Machine

/-- RING_ENABLE (R326). -/
def execRingEnable (by_ : Option PciePort) (k : Fin 32) (s : State) : Host.Outcome State Fault Refusal :=
  run s (fun d => ringEnable d by_ k)

/-- RING_RESUME (R348). -/
def execRingResume (by_ : Option PciePort) (k : Fin 32) (s : State) : Host.Outcome State Fault Refusal :=
  run s (fun d => ringResume d by_ k)

/-- RING_STOP (R326). -/
def execRingStop (by_ : Option PciePort) (k : Fin 32) (s : State) : Host.Outcome State Fault Refusal :=
  run s (fun d => ringStop d by_ k)

/-- RING_DISABLE (R326). -/
def execRingDisable (by_ : Option PciePort) (k : Fin 32) (s : State) : Host.Outcome State Fault Refusal :=
  run s (fun d => ringDisable d by_ k)

/-- DESCRIPTOR_FETCH (R329). -/
def execDescriptorFetch (k : Fin 32) (bytes : Option (List Byte)) (e : EccHits) (far : List (Nat × Byte)) (s : State) : Host.Outcome State Fault Refusal :=
  run s (fun d => descriptorFetch d k bytes e far)

/-- COMMAND_WORK_END (R340). -/
def execCommandWorkEnd (k : Fin 32) (seq : Nat) (s : State) : Host.Outcome State Fault Refusal :=
  run s (fun d => commandWorkEnd d k seq)

/-- COMPLETION_POST (R332). -/
def execCompletionPost (k : Fin 32) (good : Bool) (s : State) : Host.Outcome State Fault Refusal :=
  run s (fun d => completionPost d k good)

/-- MOD_TIME_EXPIRE (R333). -/
def execModTimeExpire (k : Fin 32) (s : State) : Host.Outcome State Fault Refusal :=
  run s (fun d => modTimeExpire d k)

/-- NOP (R334). -/
def execNop (k : Fin 32) (s : State) : Host.Outcome State Fault Refusal :=
  run s (fun d => hostNop d k)

/-- COPY (R337). -/
def execCopy (k : Fin 32) (host : Option (List Byte)) (hostBad : List Nat) (e : EccHits) (s : State) : Host.Outcome State Fault Refusal :=
  run s (fun d => hostCopy d k host hostBad e)

/-- GAUGE (R338). -/
def execGauge (k : Fin 32) (s : State) : Host.Outcome State Fault Refusal :=
  run s (fun d => hostGauge d k)

/-- GAUGE_LIST (R339). -/
def execGaugeList (k : Fin 32) (s : State) : Host.Outcome State Fault Refusal :=
  run s (fun d => hostGaugeList d k)

/-- INGEST_SET (R343). -/
def execIngestSet (k : Fin 32) (s : State) : Host.Outcome State Fault Refusal :=
  run s (fun d => hostIngestSet d k)

/-- INGEST_BATCH (R343). -/
def execIngestBatch (p : PciePort) (n : Nat) (s : State) : Host.Outcome State Fault Refusal :=
  run s (fun d => ingestBatch d p n)

/-- PAT_LOAD (R208). -/
def execPatLoad (k : Fin 32) (s : State) : Host.Outcome State Fault Refusal :=
  run s (fun d => hostPatLoad d k)

/-- PAT_SWITCH (R212). -/
def execPatSwitch (k : Fin 32) (s : State) : Host.Outcome State Fault Refusal :=
  run s (fun d => hostPatSwitch d k)

/-- PAT_DISCARD (R210). -/
def execPatDiscard (k : Fin 32) (s : State) : Host.Outcome State Fault Refusal :=
  run s (fun d => amendEdge (hostPatDiscard d k))

/-- SR_SEED (R114). -/
def execSrSeed (k : Fin 32) (s : State) : Host.Outcome State Fault Refusal :=
  run s (fun d => hostSrSeed d k)

/-- CLV_LAYOUT (R267). -/
def execClvLayout (k : Fin 32) (s : State) : Host.Outcome State Fault Refusal :=
  run s (fun d => hostClvLayout d k)

/-- ABORT (R341). -/
def execAbort (k : Fin 32) (s : State) : Host.Outcome State Fault Refusal :=
  run s (fun d => amendEdge (hostAbort d k))

/-- HANDOVER (R346). -/
def execHandover (k : Fin 32) (s : State) : Host.Outcome State Fault Refusal :=
  run s (fun d => hostHandover d k)

/-- HANDOVER_ACK (R346). -/
def execHandoverAck (k : Fin 32) (s : State) : Host.Outcome State Fault Refusal :=
  run s (fun d => hostHandoverAck d k)

/-- HANDOVER_EXPIRE (R346). -/
def execHandoverExpire (p : PciePort) (s : State) : Host.Outcome State Fault Refusal :=
  run s (fun d => handoverExpire d p)

/-- CAP_SET (R359). -/
def execCapSet (k : Fin 32) (s : State) : Host.Outcome State Fault Refusal :=
  run s (fun d => hostCapSet d k)

/-- RESET (R398). -/
def execReset (k : Fin 32) (s : State) : Host.Outcome State Fault Refusal :=
  run s (fun d => hostReset d k)

end Sys2Proof.Machine
end

