-- ==== Sys2Proof/Machine/ExecSluices.lean ====
section
/-! DEFINITION. The meanings of the commands of the sluices, one for each, over the shared operations. -/
namespace Sys2Proof.Machine

/-- SLUICE_WRITE (R303). -/
def execSluiceWrite (j : Fin 46) (entry : List Byte) (s : State) : Host.Outcome State Fault Refusal :=
  run s (fun d => sluiceWrite d j entry)

/-- SLUICE_READ (R304). -/
def execSluiceRead (j : Fin 46) (s : State) : Host.Outcome State Fault Refusal :=
  run s (fun d => sluiceRead d j)

/-- SLUICE_MARK (R305). -/
def execSluiceMark (j : Fin 46) (s : State) : Host.Outcome State Fault Refusal :=
  run s (fun d => sluiceMark d j)

/-- SLUICE_REWIND (R305). -/
def execSluiceRewind (j : Fin 46) (s : State) : Host.Outcome State Fault Refusal :=
  run s (fun d => sluiceRewind d j)

/-- SLUICE_RELEASE (R305). -/
def execSluiceRelease (j : Fin 46) (n : Nat) (s : State) : Host.Outcome State Fault Refusal :=
  run s (fun d => sluiceRelease d j n)

/-- SLUICE_POINTER_SYNC (R302). -/
def execSluicePointerSync (j : Fin 46) (release : Bool) (s : State) : Host.Outcome State Fault Refusal :=
  run s (fun d => sluicePointerSync d j release)

/-- SLC_PINSEL_WRITE (R308). -/
def execSlcPinselWrite (by_ : Option PciePort) (v : Word) (s : State) : Host.Outcome State Fault Refusal :=
  run s (fun d => slcPinselWrite d by_ v)

/-- SLC_WM_WRITE (R307). -/
def execSlcWmWrite (by_ : Option PciePort) (j : Fin 46) (v : Word) (s : State) : Host.Outcome State Fault Refusal :=
  run s (fun d => slcWmWrite d by_ j v)

/-- SLC_CTR_CLR (R310). -/
def execSlcCtrClr (v : Word) (s : State) : Host.Outcome State Fault Refusal :=
  run s (fun d => slcCtrClr d v)

end Sys2Proof.Machine
end

