-- ==== Sys2Proof/Machine/ExecStart.lean ====
section
/-! DEFINITION. The meanings of the commands of start-up and resets, one for each, over the shared operations. -/
namespace Sys2Proof.Machine

/-- VAUX_PRESENT (R451). -/
def execVauxPresent (s : State) : Host.Outcome State Fault Refusal :=
  run s (fun d => vauxPresent d)

/-- VAUX_LOSS (R453). -/
def execVauxLoss (s : State) : Host.Outcome State Fault Refusal :=
  run s (fun d => vauxLoss d)

/-- VIN_MAIN_PRESENT (R451). -/
def execVinMainPresent (s : State) : Host.Outcome State Fault Refusal :=
  run s (fun d => vinMainPresent d)

/-- VIN_MAIN_LOSS (R452). -/
def execVinMainLoss (s : State) : Host.Outcome State Fault Refusal :=
  run s (fun d => vinMainLoss d)

/-- VDDQ_D_PRESENT (R454). -/
def execVddqDPresent (s : State) : Host.Outcome State Fault Refusal :=
  run s (fun d => vddqPresent d)

/-- VDDQ_D_LOSS (R454). -/
def execVddqDLoss (s : State) : Host.Outcome State Fault Refusal :=
  run s (fun d => vddqLoss d)

/-- VDDQ_WAIT_TIMEOUT (R454). -/
def execVddqWaitTimeout (s : State) : Host.Outcome State Fault Refusal :=
  run s (fun d => vddqWaitTimeout d)

/-- SYSCLK_STABLE (R455). -/
def execSysclkStable (s : State) : Host.Outcome State Fault Refusal :=
  run s (fun d => sysclkStable d)

/-- STRAP_LATCH (R459). -/
def execStrapLatch (tide : Bool) (own : Bool) (s : State) : Host.Outcome State Fault Refusal :=
  run s (fun d => strapLatch d tide own)

/-- KEEPER_START (R386). -/
def execKeeperStart (prec : Option PkgRec) (carrier : Option (List Byte)) (t : Nat) (s : State) : Host.Outcome State Fault Refusal :=
  run s (fun d => keeperStart d prec carrier t)

/-- BRING_UP (R387). -/
def execBringUp (carrier : Option (List Byte)) (t : Nat) (s : State) : Host.Outcome State Fault Refusal :=
  run s (fun d => bringUp d carrier t)

/-- CORE_READY (R388). -/
def execCoreReady (s : State) : Host.Outcome State Fault Refusal :=
  run s (fun d => coreReady d)

/-- REGION_GROUP_ON (R388). -/
def execRegionGroupOn (s : State) : Host.Outcome State Fault Refusal :=
  run s (fun d => regionGroupOn d)

/-- REGION_SETTLED (R389). -/
def execRegionSettled (r : RegionId) (test : RegionTest) (s : State) : Host.Outcome State Fault Refusal :=
  run s (fun d => regionSettled d r test)

/-- HBM_STACK_SETTLED (R389). -/
def execHbmStackSettled (stk : Fin 6) (id : Nat) (fails : List (Nat × Nat)) (s : State) : Host.Outcome State Fault Refusal :=
  run s (fun d => hbmStackSettled d stk id fails)

/-- DDR_CHANNEL_SETTLED (R389). -/
def execDdrChannelSettled (k : Fin 8) (why : Fin 4) (s : State) : Host.Outcome State Fault Refusal :=
  run s (fun d => ddrChannelSettled d k why)

/-- SYS_RST_ASSERT (R461). -/
def execSysRstAssert (s : State) : Host.Outcome State Fault Refusal :=
  run s (fun d => sysRstAssert d)

/-- SYS_RST_DEASSERT (R461). -/
def execSysRstDeassert (s : State) : Host.Outcome State Fault Refusal :=
  run s (fun d => sysRstDeassert d)

/-- LEVEE_RAISE (R400). -/
def execLeveeRaise (scope : Nat) (target : Nat) (s : State) : Host.Outcome State Fault Refusal :=
  run s (fun d => leveeRaise d scope target)

/-- LEVEE_LOWER (R402). -/
def execLeveeLower (scope : Nat) (target : Nat) (s : State) : Host.Outcome State Fault Refusal :=
  run s (fun d => leveeLower d scope target)

/-- DYNAMIC_ADDRESS_ASSIGN (R467). -/
def execDynamicAddressAssign (addr : Fin 128) (s : State) : Host.Outcome State Fault Refusal :=
  run s (fun d => dynamicAddressAssign d addr)

end Sys2Proof.Machine
end

