-- ==== Sys2Proof/Machine/ExecTests.lean ====
section
/-! DEFINITION. The meanings of the commands of trace, debug and test, one for each, over the shared operations. -/
namespace Sys2Proof.Machine

/-- DBG_RESUME_ALL (R443). -/
def execDbgResumeAll (by_ : Option PciePort) (s : State) : Host.Outcome State Fault Refusal :=
  run s (fun d => dbgResumeAll d by_)

/-- DBG_RESUME_ONE (R443). -/
def execDbgResumeOne (by_ : Option PciePort) (s : State) : Host.Outcome State Fault Refusal :=
  run s (fun d => dbgResumeOne d by_)

/-- TRC_START (R438). -/
def execTrcStart (by_ : Option PciePort) (s : State) : Host.Outcome State Fault Refusal :=
  run s (fun d => trcStart d by_)

/-- TRC_STOP (R438). -/
def execTrcStop (by_ : Option PciePort) (s : State) : Host.Outcome State Fault Refusal :=
  run s (fun d => trcStop d by_)

/-- TRC_CLEAR (R438). -/
def execTrcClear (by_ : Option PciePort) (s : State) : Host.Outcome State Fault Refusal :=
  run s (fun d => trcClear d by_)

/-- STITCH_COMMIT (R444). -/
def execStitchCommit (by_ : Option PciePort) (s : State) : Host.Outcome State Fault Refusal :=
  run s (fun d => stitchCommit d by_)

/-- DBG_FREEZE_WRITE (R445). -/
def execDbgFreezeWrite (by_ : Option PciePort) (v : Word) (s : State) : Host.Outcome State Fault Refusal :=
  run s (fun d => dbgFreezeWrite d by_ v)

/-- DBG_BP_WRITE (R441). -/
def execDbgBpWrite (by_ : Option PciePort) (k : Fin 8) (v : Word) (s : State) : Host.Outcome State Fault Refusal :=
  run s (fun d => dbgBpWrite d by_ k v)

/-- DBG_BP_CNT_WRITE (R447). -/
def execDbgBpCntWrite (by_ : Option PciePort) (k : Fin 8) (v : Word) (s : State) : Host.Outcome State Fault Refusal :=
  run s (fun d => dbgBpCntWrite d by_ k v)

/-- DBG_TAGCTR_CFG_WRITE (R439). -/
def execDbgTagctrCfgWrite (by_ : Option PciePort) (j : Fin 16) (v : Word) (s : State) : Host.Outcome State Fault Refusal :=
  run s (fun d => dbgTagctrCfgWrite d by_ j v)

/-- TELEMETRY_SNAPSHOT (R440). -/
def execTelemetrySnapshot (s : State) : Host.Outcome State Fault Refusal :=
  run s (fun d => telemetrySnapshot d)

/-- TAP_RESET (R468). -/
def execTapReset (s : State) : Host.Outcome State Fault Refusal :=
  run s (fun d => tapReset_ d)

/-- EXTEST (R446). -/
def execExtest (pins : Nat) (shiftIn : Nat) (s : State) : Host.Outcome State Fault Refusal :=
  run s (fun d => tapExtest d pins shiftIn)

/-- IDCODE (R446). -/
def execIdcode (s : State) : Host.Outcome State Fault Refusal :=
  run s (fun d => tapIdcode d)

/-- SAMPLE_PRELOAD (R446). -/
def execSamplePreload (pins : Nat) (shiftIn : Nat) (s : State) : Host.Outcome State Fault Refusal :=
  run s (fun d => tapSamplePreload d pins shiftIn)

/-- CLAMP (R446). -/
def execClamp (s : State) : Host.Outcome State Fault Refusal :=
  run s (fun d => tapClamp d)

/-- HIGHZ (R446). -/
def execHighz (s : State) : Host.Outcome State Fault Refusal :=
  run s (fun d => tapHighz d)

/-- STACK_SEL (R446). -/
def execStackSel (s : State) : Host.Outcome State Fault Refusal :=
  run s (fun d => tapStackSel d)

/-- SCAN (R446). -/
def execScan (s : State) : Host.Outcome State Fault Refusal :=
  run s (fun d => tapScan d)

/-- BYPASS (R446). -/
def execBypass (s : State) : Host.Outcome State Fault Refusal :=
  run s (fun d => tapBypass d)

end Sys2Proof.Machine
end

