-- ==== Sys2Proof/Machine/ExecTides.lean ====
section
/-! DEFINITION. The meanings of the commands of the tide, one for each, over the shared operations. -/
namespace Sys2Proof.Machine

/-- TID_CTL_START (R228). -/
def execTidCtlStart (by_ : Option PciePort) (held : Bool) (t : Nat) (s : State) : Host.Outcome State Fault Refusal :=
  run s (fun d => tidCtlStart d by_ held t)

/-- TID_CTL_STOP (R228). -/
def execTidCtlStop (by_ : Option PciePort) (s : State) : Host.Outcome State Fault Refusal :=
  run s (fun d => tidCtlStop d by_)

/-- TID_CTL_RESUME (R238). -/
def execTidCtlResume (by_ : Option PciePort) (held : Bool) (t : Nat) (s : State) : Host.Outcome State Fault Refusal :=
  run s (fun d => tidCtlResume d by_ held t)

/-- TID_CFG_WRITE (R227). -/
def execTidCfgWrite (by_ : Option PciePort) (v : Word) (s : State) : Host.Outcome State Fault Refusal :=
  run s (fun d => tidCfgWrite d by_ v)

/-- EDGE_ANNOUNCE (R236). -/
def execEdgeAnnounce (held : Bool) (t : Nat) (s : State) : Host.Outcome State Fault Refusal :=
  run s (fun d => edgeAnnounce d held t)

/-- EDGE_MESSAGE (R229). -/
def execEdgeMessage (t : Nat) (s : State) : Host.Outcome State Fault Refusal :=
  run s (fun d => edgeMessage d t)

/-- TIDE_EDGE (R240). -/
def execTideEdge (en : TideEnergy) (s : State) : Host.Outcome State Fault Refusal :=
  run s (fun d => tideEdge d en)

/-- TIDE_IN_EDGE (R464). -/
def execTideInEdge (stamp : Nat) (en : TideEnergy) (s : State) : Host.Outcome State Fault Refusal :=
  run s (fun d => tideInEdge d stamp en)

/-- TIDE_IN_WINDOW_EXPIRE (R464). -/
def execTideInWindowExpire (en : TideEnergy) (s : State) : Host.Outcome State Fault Refusal :=
  run s (fun d => tideInWindowExpire d en)

/-- TIME_SYNC (R231). -/
def execTimeSync (t : Nat) (s : State) : Host.Outcome State Fault Refusal :=
  run s (fun d => timeSync d t)

/-- TIDE_LOST_TIMEOUT (R232). -/
def execTideLostTimeout (t : Nat) (s : State) : Host.Outcome State Fault Refusal :=
  run s (fun d => tideLostTimeout d t)

/-- ARRIVE_MESSAGE (R233). -/
def execArriveMessage (s : State) : Host.Outcome State Fault Refusal :=
  run s (fun d => arriveMessage d)

/-- OVERRUN_RECORD_DONE (R239). -/
def execOverrunRecordDone (s : State) : Host.Outcome State Fault Refusal :=
  run s (fun d => overrunRecordDone d)

/-- FREQ_STEP_COMPLETE (R356). -/
def execFreqStepComplete (r : RegionId) (s : State) : Host.Outcome State Fault Refusal :=
  run s (fun d => freqStepComplete d r)

/-- TID_CTR_CLR (R241). -/
def execTidCtrClr (v : Word) (s : State) : Host.Outcome State Fault Refusal :=
  run s (fun d => tidCtrClr d v)

end Sys2Proof.Machine
end

