-- ==== Sys2Proof/Machine/Dispatch.lean ====
section
/-! DEFINITION. The dispatch: one arm per command. -/
namespace Sys2Proof.Machine

/-- A command's effect on everything but the queue. -/
def exec (i : Instr) (s : State) : Host.Outcome State Fault Refusal :=
  match i with
  | .stitchIssue c e => Sys2Proof.Machine.execStitchIssue c e s
  | .gaugeWaitSatisfied c t => Sys2Proof.Machine.execGaugeWaitSatisfied c t s
  | .scalarLoadReturn c t id => Sys2Proof.Machine.execScalarLoadReturn c t id s
  | .fenceRelPerformed c t => Sys2Proof.Machine.execFenceRelPerformed c t s
  | .fenceAcqPerformed c t => Sys2Proof.Machine.execFenceAcqPerformed c t s
  | .drainComplete c t => Sys2Proof.Machine.execDrainComplete c t s
  | .patchGaugeUpdate patch gauge n => Sys2Proof.Machine.execPatchGaugeUpdate patch gauge n s
  | .patchGaugeArrival c patch gauge remote => Sys2Proof.Machine.execPatchGaugeArrival c patch gauge remote s
  | .celGaugeWr c g v => Sys2Proof.Machine.execCelGaugeWr c g v s
  | .mma c e => Sys2Proof.Machine.execMma c e s
  | .chainAdd c e => Sys2Proof.Machine.execChainAdd c e s
  | .finish c e => Sys2Proof.Machine.execFinish c e s
  | .matrixComplete c => Sys2Proof.Machine.execMatrixComplete c s
  | .tile => Sys2Proof.Machine.execTile s
  | .post => Sys2Proof.Machine.execPost s
  | .rerun => Sys2Proof.Machine.execRerun s
  | .done => Sys2Proof.Machine.execDone s
  | .program c e => Sys2Proof.Machine.execProgram c e s
  | .press c e => Sys2Proof.Machine.execPress c e s
  | .update c e => Sys2Proof.Machine.execUpdate c e s
  | .reseat c e => Sys2Proof.Machine.execReseat c e s
  | .convert c e => Sys2Proof.Machine.execConvert c e s
  | .gather c e => Sys2Proof.Machine.execGather c e s
  | .gatherLaneReturn c lane => Sys2Proof.Machine.execGatherLaneReturn c lane s
  | .scatter c e => Sys2Proof.Machine.execScatter c e s
  | .elementComplete c => Sys2Proof.Machine.execElementComplete c s
  | .dmaDispatch c e => Sys2Proof.Machine.execDmaDispatch c e s
  | .dmaDescriptor c n e => Sys2Proof.Machine.execDmaDescriptor c n e s
  | .dmaComplete c n => Sys2Proof.Machine.execDmaComplete c n s
  | .foreignRequest idx e => Sys2Proof.Machine.execForeignRequest idx e s
  | .rinseTick c dram e => Sys2Proof.Machine.execRinseTick c dram e s
  | .verticalBeatError c bundle good => Sys2Proof.Machine.execVerticalBeatError c bundle good s
  | .colCtrClr c v => Sys2Proof.Machine.execColCtrClr c v s
  | .tierRequest idx retries hard e => Sys2Proof.Machine.execTierRequest idx retries hard e s
  | .requestPromote idx => Sys2Proof.Machine.execRequestPromote idx s
  | .tierRinseTick ddr ch e => Sys2Proof.Machine.execTierRinseTick ddr ch e s
  | .hbmTempRead stk t => Sys2Proof.Machine.execHbmTempRead stk t s
  | .ddrTempRead k t => Sys2Proof.Machine.execDdrTempRead k t s
  | .ceWindowExpire ddr ch => Sys2Proof.Machine.execCeWindowExpire ddr ch s
  | .tierListFix ddr => Sys2Proof.Machine.execTierListFix ddr s
  | .hbmChCtlWrite by_ ddr ch v => Sys2Proof.Machine.execHbmChCtlWrite by_ ddr ch v s
  | .tgStart by_ ddr ch v => Sys2Proof.Machine.execTgStart by_ ddr ch v s
  | .tgRunEnd ddr ch errs => Sys2Proof.Machine.execTgRunEnd ddr ch errs s
  | .farCacheRequest idx e => Sys2Proof.Machine.execFarCacheRequest idx e s
  | .farCacheFill idx victim => Sys2Proof.Machine.execFarCacheFill idx victim s
  | .prefetchFill idx victim => Sys2Proof.Machine.execPrefetchFill idx victim s
  | .xltProbeAddrWrite v => Sys2Proof.Machine.execXltProbeAddrWrite v s
  | .xltProbeDone => Sys2Proof.Machine.execXltProbeDone s
  | .farCtrClr v => Sys2Proof.Machine.execFarCtrClr v s
  | .patCtlLoad by_ => Sys2Proof.Machine.execPatCtlLoad by_ s
  | .patCtlSwitch by_ => Sys2Proof.Machine.execPatCtlSwitch by_ s
  | .patCtlDiscard by_ => Sys2Proof.Machine.execPatCtlDiscard by_ s
  | .patLoadDone body far e => Sys2Proof.Machine.execPatLoadDone body far e s
  | .switchReady => Sys2Proof.Machine.execSwitchReady s
  | .readyMessage => Sys2Proof.Machine.execReadyMessage s
  | .switchWithdrawal => Sys2Proof.Machine.execSwitchWithdrawal s
  | .sizReport => Sys2Proof.Machine.execSizReport s
  | .sizSum => Sys2Proof.Machine.execSizSum s
  | .sizIdleUpdate => Sys2Proof.Machine.execSizIdleUpdate s
  | .tidCtlStart by_ held t => Sys2Proof.Machine.execTidCtlStart by_ held t s
  | .tidCtlStop by_ => Sys2Proof.Machine.execTidCtlStop by_ s
  | .tidCtlResume by_ held t => Sys2Proof.Machine.execTidCtlResume by_ held t s
  | .tidCfgWrite by_ v => Sys2Proof.Machine.execTidCfgWrite by_ v s
  | .edgeAnnounce held t => Sys2Proof.Machine.execEdgeAnnounce held t s
  | .edgeMessage t => Sys2Proof.Machine.execEdgeMessage t s
  | .tideEdge en => Sys2Proof.Machine.execTideEdge en s
  | .tideInEdge stamp en => Sys2Proof.Machine.execTideInEdge stamp en s
  | .tideInWindowExpire en => Sys2Proof.Machine.execTideInWindowExpire en s
  | .timeSync t => Sys2Proof.Machine.execTimeSync t s
  | .tideLostTimeout t => Sys2Proof.Machine.execTideLostTimeout t s
  | .arriveMessage => Sys2Proof.Machine.execArriveMessage s
  | .overrunRecordDone => Sys2Proof.Machine.execOverrunRecordDone s
  | .freqStepComplete r => Sys2Proof.Machine.execFreqStepComplete r s
  | .tidCtrClr v => Sys2Proof.Machine.execTidCtrClr v s
  | .cablePresent p present accepted => Sys2Proof.Machine.execCablePresent p present accepted s
  | .portUp p peerNode peerPort => Sys2Proof.Machine.execPortUp p peerNode peerPort s
  | .portTrainTimeout p => Sys2Proof.Machine.execPortTrainTimeout p s
  | .portTrainRetry p accepted => Sys2Proof.Machine.execPortTrainRetry p accepted s
  | .cmisPoll p flags t => Sys2Proof.Machine.execCmisPoll p flags t s
  | .nodeIdWrite by_ v => Sys2Proof.Machine.execNodeIdWrite by_ v s
  | .flitReceive p f => Sys2Proof.Machine.execFlitReceive p f s
  | .flitTransmit p => Sys2Proof.Machine.execFlitTransmit p s
  | .replayTimeout p => Sys2Proof.Machine.execReplayTimeout p s
  | .portRetrainDone p locked => Sys2Proof.Machine.execPortRetrainDone p locked s
  | .laneControlBlock p own ask t => Sys2Proof.Machine.execLaneControlBlock p own ask t s
  | .laneLossOfLock p l flag t => Sys2Proof.Machine.execLaneLossOfLock p l flag t s
  | .laneWindowExpire p l => Sys2Proof.Machine.execLaneWindowExpire p l s
  | .widthChange p => Sys2Proof.Machine.execWidthChange p s
  | .reconfigDone p => Sys2Proof.Machine.execReconfigDone p s
  | .messageRoute t => Sys2Proof.Machine.execMessageRoute t s
  | .rd e => Sys2Proof.Machine.execRd e s
  | .wr => Sys2Proof.Machine.execWr s
  | .remoteGauge => Sys2Proof.Machine.execRemoteGauge s
  | .rdRsp => Sys2Proof.Machine.execRdRsp s
  | .wrRsp => Sys2Proof.Machine.execWrRsp s
  | .gaugeRsp => Sys2Proof.Machine.execGaugeRsp s
  | .remoteTimeout rid t => Sys2Proof.Machine.execRemoteTimeout rid t s
  | .trfPortDisable by_ p v accepted => Sys2Proof.Machine.execTrfPortDisable by_ p v accepted s
  | .trfPortRetrain by_ p v => Sys2Proof.Machine.execTrfPortRetrain by_ p v s
  | .trfCmisGo p v => Sys2Proof.Machine.execTrfCmisGo p v s
  | .trfCmisDone p data => Sys2Proof.Machine.execTrfCmisDone p data s
  | .trfCtrClr v => Sys2Proof.Machine.execTrfCtrClr v s
  | .clvLaunch slot rank => Sys2Proof.Machine.execClvLaunch slot rank s
  | .data => Sys2Proof.Machine.execData s
  | .result => Sys2Proof.Machine.execResult s
  | .credit => Sys2Proof.Machine.execCredit s
  | .clvCombine slot rank k e => Sys2Proof.Machine.execClvCombine slot rank k e s
  | .clvAckSend slot rank => Sys2Proof.Machine.execClvAckSend slot rank s
  | .ack => Sys2Proof.Machine.execAck s
  | .commit => Sys2Proof.Machine.execCommit s
  | .clvAbort => Sys2Proof.Machine.execClvAbort s
  | .fail => Sys2Proof.Machine.execFail s
  | .clvTimeout chain k tag rank t => Sys2Proof.Machine.execClvTimeout chain k tag rank t s
  | .clvCtrClr v => Sys2Proof.Machine.execClvCtrClr v s
  | .ssPublish k e => Sys2Proof.Machine.execSsPublish k e s
  | .ssFetch k => Sys2Proof.Machine.execSsFetch k s
  | .fetchShardRetry k sh t => Sys2Proof.Machine.execFetchShardRetry k sh t s
  | .ssFetchDone k => Sys2Proof.Machine.execSsFetchDone k s
  | .ssCheck k e => Sys2Proof.Machine.execSsCheck k e s
  | .stateExport k e => Sys2Proof.Machine.execStateExport k e s
  | .stateImport k e => Sys2Proof.Machine.execStateImport k e s
  | .sluiceWrite j entry => Sys2Proof.Machine.execSluiceWrite j entry s
  | .sluiceRead j => Sys2Proof.Machine.execSluiceRead j s
  | .sluiceMark j => Sys2Proof.Machine.execSluiceMark j s
  | .sluiceRewind j => Sys2Proof.Machine.execSluiceRewind j s
  | .sluiceRelease j n => Sys2Proof.Machine.execSluiceRelease j n s
  | .sluicePointerSync j release => Sys2Proof.Machine.execSluicePointerSync j release s
  | .slcPinselWrite by_ v => Sys2Proof.Machine.execSlcPinselWrite by_ v s
  | .slcWmWrite by_ j v => Sys2Proof.Machine.execSlcWmWrite by_ j v s
  | .slcCtrClr v => Sys2Proof.Machine.execSlcCtrClr v s
  | .configRequest p write reg mask v => Sys2Proof.Machine.execConfigRequest p write reg mask v s
  | .registerWrite by_ off n v => Sys2Proof.Machine.execRegisterWrite by_ off n v s
  | .bar2Read p secure off n e => Sys2Proof.Machine.execBar2Read p secure off n e s
  | .bar2Write p secure off bytes ep => Sys2Proof.Machine.execBar2Write p secure off bytes ep s
  | .hifBar2BaseWrite by_ p v => Sys2Proof.Machine.execHifBar2BaseWrite by_ p v s
  | .unsupportedTlp p posted => Sys2Proof.Machine.execUnsupportedTlp p posted s
  | .ingestWindowWrite p secure off bytes => Sys2Proof.Machine.execIngestWindowWrite p secure off bytes s
  | .doorbell p => Sys2Proof.Machine.execDoorbell p s
  | .mbxPush p => Sys2Proof.Machine.execMbxPush p s
  | .mbxPop p => Sys2Proof.Machine.execMbxPop p s
  | .functionLevelReset p => Sys2Proof.Machine.execFunctionLevelReset p s
  | .hotReset p => Sys2Proof.Machine.execHotReset p s
  | .pcieLinkDown p => Sys2Proof.Machine.execPcieLinkDown p s
  | .pcieLinkUp p rate width l0p => Sys2Proof.Machine.execPcieLinkUp p rate width l0p s
  | .perstAssert p => Sys2Proof.Machine.execPerstAssert p s
  | .perstDeassert p => Sys2Proof.Machine.execPerstDeassert p s
  | .dStateChange p d3 => Sys2Proof.Machine.execDStateChange p d3 s
  | .ideIntegrityFail p stream => Sys2Proof.Machine.execIdeIntegrityFail p stream s
  | .hifCtrClr p v => Sys2Proof.Machine.execHifCtrClr p v s
  | .ringEnable by_ k => Sys2Proof.Machine.execRingEnable by_ k s
  | .ringResume by_ k => Sys2Proof.Machine.execRingResume by_ k s
  | .ringStop by_ k => Sys2Proof.Machine.execRingStop by_ k s
  | .ringDisable by_ k => Sys2Proof.Machine.execRingDisable by_ k s
  | .descriptorFetch k bytes e far => Sys2Proof.Machine.execDescriptorFetch k bytes e far s
  | .commandWorkEnd k seq => Sys2Proof.Machine.execCommandWorkEnd k seq s
  | .completionPost k good => Sys2Proof.Machine.execCompletionPost k good s
  | .modTimeExpire k => Sys2Proof.Machine.execModTimeExpire k s
  | .nop k => Sys2Proof.Machine.execNop k s
  | .copy k host hostBad e => Sys2Proof.Machine.execCopy k host hostBad e s
  | .gauge k => Sys2Proof.Machine.execGauge k s
  | .gaugeList k => Sys2Proof.Machine.execGaugeList k s
  | .ingestSet k => Sys2Proof.Machine.execIngestSet k s
  | .ingestBatch p n => Sys2Proof.Machine.execIngestBatch p n s
  | .patLoad k => Sys2Proof.Machine.execPatLoad k s
  | .patSwitch k => Sys2Proof.Machine.execPatSwitch k s
  | .patDiscard k => Sys2Proof.Machine.execPatDiscard k s
  | .srSeed k => Sys2Proof.Machine.execSrSeed k s
  | .clvLayout k => Sys2Proof.Machine.execClvLayout k s
  | .abort k => Sys2Proof.Machine.execAbort k s
  | .handover k => Sys2Proof.Machine.execHandover k s
  | .handoverAck k => Sys2Proof.Machine.execHandoverAck k s
  | .handoverExpire p => Sys2Proof.Machine.execHandoverExpire p s
  | .capSet k => Sys2Proof.Machine.execCapSet k s
  | .reset k => Sys2Proof.Machine.execReset k s
  | .pwrPolderOffWrite by_ v => Sys2Proof.Machine.execPwrPolderOffWrite by_ v s
  | .pwrPolderOffHiWrite by_ v => Sys2Proof.Machine.execPwrPolderOffHiWrite by_ v s
  | .slackReport => Sys2Proof.Machine.execSlackReport s
  | .shiftInterval => Sys2Proof.Machine.execShiftInterval s
  | .budgetShift => Sys2Proof.Machine.execBudgetShift s
  | .shiftTimeout => Sys2Proof.Machine.execShiftTimeout s
  | .coolFailAssert => Sys2Proof.Machine.execCoolFailAssert s
  | .coolantStopStage => Sys2Proof.Machine.execCoolantStopStage s
  | .pwrCtrClr v => Sys2Proof.Machine.execPwrCtrClr v s
  | .thermalSample ms t => Sys2Proof.Machine.execThermalSample ms t s
  | .throttleLevelTimer r => Sys2Proof.Machine.execThrottleLevelTimer r s
  | .dieComparatorTrip r => Sys2Proof.Machine.execDieComparatorTrip r s
  | .tripRestart r => Sys2Proof.Machine.execTripRestart r s
  | .thmCtrClr v => Sys2Proof.Machine.execThmCtrClr v s
  | .vauxPresent => Sys2Proof.Machine.execVauxPresent s
  | .vauxLoss => Sys2Proof.Machine.execVauxLoss s
  | .vinMainPresent => Sys2Proof.Machine.execVinMainPresent s
  | .vinMainLoss => Sys2Proof.Machine.execVinMainLoss s
  | .vddqDPresent => Sys2Proof.Machine.execVddqDPresent s
  | .vddqDLoss => Sys2Proof.Machine.execVddqDLoss s
  | .vddqWaitTimeout => Sys2Proof.Machine.execVddqWaitTimeout s
  | .sysclkStable => Sys2Proof.Machine.execSysclkStable s
  | .strapLatch tide own => Sys2Proof.Machine.execStrapLatch tide own s
  | .keeperStart prec carrier t => Sys2Proof.Machine.execKeeperStart prec carrier t s
  | .bringUp carrier t => Sys2Proof.Machine.execBringUp carrier t s
  | .regionGroupOn => Sys2Proof.Machine.execRegionGroupOn s
  | .regionSettled r test => Sys2Proof.Machine.execRegionSettled r test s
  | .hbmStackSettled stk id fails => Sys2Proof.Machine.execHbmStackSettled stk id fails s
  | .ddrChannelSettled k why => Sys2Proof.Machine.execDdrChannelSettled k why s
  | .sysRstAssert => Sys2Proof.Machine.execSysRstAssert s
  | .sysRstDeassert => Sys2Proof.Machine.execSysRstDeassert s
  | .leveeRaise scope target => Sys2Proof.Machine.execLeveeRaise scope target s
  | .leveeLower scope target => Sys2Proof.Machine.execLeveeLower scope target s
  | .meshHopError c vertical good => Sys2Proof.Machine.execMeshHopError c vertical good s
  | .keeperWatchdog patched t => Sys2Proof.Machine.execKeeperWatchdog patched t s
  | .status m => Sys2Proof.Machine.execStatus m s
  | .flogDump m => Sys2Proof.Machine.execFlogDump m s
  | .quote m => Sys2Proof.Machine.execQuote m s
  | .scopeReset m => Sys2Proof.Machine.execScopeReset m s
  | .powerOff m => Sys2Proof.Machine.execPowerOff m s
  | .powerOn m carrier t => Sys2Proof.Machine.execPowerOn m carrier t s
  | .coolantStop m => Sys2Proof.Machine.execCoolantStop m s
  | .rackCap m => Sys2Proof.Machine.execRackCap m s
  | .powerRead m => Sys2Proof.Machine.execPowerRead m s
  | .setOwner m eid => Sys2Proof.Machine.execSetOwner m eid s
  | .tideRole m => Sys2Proof.Machine.execTideRole m s
  | .secSubmit by_ => Sys2Proof.Machine.execSecSubmit by_ s
  | .tokenCheckDone far e => Sys2Proof.Machine.execTokenCheckDone far e s
  | .secFwLoad by_ => Sys2Proof.Machine.execSecFwLoad by_ s
  | .fwLoadDone e => Sys2Proof.Machine.execFwLoadDone e s
  | .secAnchorAdd by_ => Sys2Proof.Machine.execSecAnchorAdd by_ s
  | .anchorAddDone e => Sys2Proof.Machine.execAnchorAddDone e s
  | .secLockAnchors by_ => Sys2Proof.Machine.execSecLockAnchors by_ s
  | .secRelock by_ => Sys2Proof.Machine.execSecRelock by_ s
  | .getVersion via => Sys2Proof.Machine.execGetVersion via s
  | .getCapabilities via => Sys2Proof.Machine.execGetCapabilities via s
  | .negotiateAlgorithms via => Sys2Proof.Machine.execNegotiateAlgorithms via s
  | .getDigests via => Sys2Proof.Machine.execGetDigests via s
  | .getCertificate via slot off len => Sys2Proof.Machine.execGetCertificate via slot off len s
  | .challenge via slot nonce => Sys2Proof.Machine.execChallenge via slot nonce s
  | .getMeasurements via index nonce => Sys2Proof.Machine.execGetMeasurements via index nonce s
  | .keyExchange via => Sys2Proof.Machine.execKeyExchange via s
  | .heartbeat via id => Sys2Proof.Machine.execHeartbeat via id s
  | .keyUpdate via id => Sys2Proof.Machine.execKeyUpdate via id s
  | .endSession via id => Sys2Proof.Machine.execEndSession via id s
  | .vendorDefinedRequest via id msg => Sys2Proof.Machine.execVendorDefinedRequest via id msg s
  | .spdmUnsupportedRequest via => Sys2Proof.Machine.execSpdmUnsupportedRequest via s
  | .dbgResumeAll by_ => Sys2Proof.Machine.execDbgResumeAll by_ s
  | .dbgResumeOne by_ => Sys2Proof.Machine.execDbgResumeOne by_ s
  | .trcStart by_ => Sys2Proof.Machine.execTrcStart by_ s
  | .trcStop by_ => Sys2Proof.Machine.execTrcStop by_ s
  | .trcClear by_ => Sys2Proof.Machine.execTrcClear by_ s
  | .stitchCommit by_ => Sys2Proof.Machine.execStitchCommit by_ s
  | .dbgFreezeWrite by_ v => Sys2Proof.Machine.execDbgFreezeWrite by_ v s
  | .dbgBpWrite by_ k v => Sys2Proof.Machine.execDbgBpWrite by_ k v s
  | .dbgBpCntWrite by_ k v => Sys2Proof.Machine.execDbgBpCntWrite by_ k v s
  | .dbgTagctrCfgWrite by_ j v => Sys2Proof.Machine.execDbgTagctrCfgWrite by_ j v s
  | .telemetrySnapshot => Sys2Proof.Machine.execTelemetrySnapshot s
  | .tapReset => Sys2Proof.Machine.execTapReset s
  | .extest pins shiftIn => Sys2Proof.Machine.execExtest pins shiftIn s
  | .idcode => Sys2Proof.Machine.execIdcode s
  | .samplePreload pins shiftIn => Sys2Proof.Machine.execSamplePreload pins shiftIn s
  | .clamp => Sys2Proof.Machine.execClamp s
  | .highz => Sys2Proof.Machine.execHighz s
  | .stackSel => Sys2Proof.Machine.execStackSel s
  | .scan => Sys2Proof.Machine.execScan s
  | .bypass => Sys2Proof.Machine.execBypass s
  | .mtxCtrClr c v => Sys2Proof.Machine.execMtxCtrClr c v s
  | .eleCtrClr c v => Sys2Proof.Machine.execEleCtrClr c v s
  | .spdmFinish via id => Sys2Proof.Machine.execSpdmFinish via id s
  | .coolFailDeassert t => Sys2Proof.Machine.execCoolFailDeassert t s
  | .coreReady => Sys2Proof.Machine.execCoreReady s
  | .configSpaceReady p => Sys2Proof.Machine.execConfigSpaceReady p s
  | .slackReportAck => Sys2Proof.Machine.execSlackReportAck s
  | .dynamicAddressAssign addr => Sys2Proof.Machine.execDynamicAddressAssign addr s
  | .msiXTableWrite p n addr data masked => Sys2Proof.Machine.execMsiXTableWrite p n addr data masked s
  | .ridReuseTimeout rid t => Sys2Proof.Machine.execRidReuseTimeout rid t s

end Sys2Proof.Machine
end

