-- ==== Sys2Proof/WellFormed.lean ====
section
/-! DEFINITION. Well-formed commands: the checks of the operands whose types are wider than the manual lets them be. -/
namespace Sys2Proof

/-- No word is both corrected and uncorrectable (Table 22-3). -/
def eccOk (e : EccHits) : Bool := e.corrected.all (fun a => !e.uncorrectable.contains a)

/-- A channel that its tier has: 192 of HBM, 8 of DDR (R159, R160). -/
def chanOk (ddr : Bool) (ch : Nat) : Bool := decide (ch < if ddr then 8 else 192)

/-- A time that TID_TIME can hold (R241). -/
def timeOk (t : Nat) : Bool := decide (t < 2 ^ 64)

/-- One energy for each of the 64 regions (R358). -/
def energyOk (en : TideEnergy) : Bool := en.regions.length == 64

/-- A 16-bit number, as a node ID, a RID or a rank is. -/
def nodeOk (n : Nat) : Bool := decide (n < 65536)

/-- A byte string of a length. -/
def lenOk (n : Nat) (bs : List Byte) : Bool := bs.length == n

/-- What is absent, or passes a check. -/
def optOk {α : Type} (f : α → Bool) : Option α → Bool
  | none => true
  | some x => f x

/-- Bytes that other devices return, each address once. -/
def keysOk (m : List (Nat × Byte)) : Bool := decide (m.map (fun e => e.1)).Nodup

/-- A BAR0 access that R316 performs: 4 or 8 bytes, naturally aligned, within BAR0. -/
def accessOk (off n : Nat) : Bool := (n == 4 || n == 8) && off % n == 0 && decide (off + n ≤ 2 ^ 26)

/-- A reset scope and its target (Table 22-1). -/
def scopeOk (scope target : Nat) : Bool :=
  decide (target < [4096, 64, 6, 1, 1, 1].getD scope 0)

/-- 16-bit sequence numbers and at most 15 units (Table 13-2). -/
def flitOk (f : Flit) : Bool := decide (f.seq < 65536 ∧ f.ack < 65536 ∧ f.used ≤ 15)

/-- Twelve readings of each of the 64 regions (R371). -/
def samplesOk (ms : List ThmSample) : Bool := ms.length == 64 && ms.all (fun m => m.reads.length == 12)

/-- A package record with three reserves, and faulty sites of regions that exist (Table 2-4). -/
def precOk (p : PkgRec) : Bool := p.reserves.length == 3 && p.faulty.all (fun s => decide (s.1 < 64))

/-- Whether a command's operands are ones that the manual lets it carry. -/
def WellFormed (i : Instr) : Bool :=
  match i with
  | .stitchIssue _ e => eccOk e
  | .gaugeWaitSatisfied _ t => timeOk t
  | .scalarLoadReturn _ t _ => timeOk t
  | .fenceRelPerformed _ t => timeOk t
  | .fenceAcqPerformed _ t => timeOk t
  | .drainComplete _ t => timeOk t
  | .patchGaugeUpdate _ _ n => decide (0 < n)
  | .patchGaugeArrival _ _ _ _ => true
  | .celGaugeWr _ _ _ => true
  | .mma _ e => eccOk e
  | .chainAdd _ e => eccOk e
  | .finish _ e => eccOk e
  | .matrixComplete _ => true
  | .tile => true
  | .post => true
  | .rerun => true
  | .done => true
  | .program _ e => eccOk e
  | .press _ e => eccOk e
  | .update _ e => eccOk e
  | .reseat _ e => eccOk e
  | .convert _ e => eccOk e
  | .gather _ e => eccOk e
  | .gatherLaneReturn _ lane => decide (lane < 1024)
  | .scatter _ e => eccOk e
  | .elementComplete _ => true
  | .dmaDispatch _ e => eccOk e
  | .dmaDescriptor _ _ e => eccOk e
  | .dmaComplete _ _ => true
  | .foreignRequest _ e => eccOk e
  | .rinseTick _ _ e => eccOk e
  | .verticalBeatError _ bundle _ => decide (bundle < 54)
  | .colCtrClr _ _ => true
  | .tierRequest _ _ _ e => eccOk e
  | .requestPromote _ => true
  | .tierRinseTick ddr ch e => chanOk ddr ch && eccOk e
  | .hbmTempRead _ t => timeOk t
  | .ddrTempRead _ t => timeOk t
  | .ceWindowExpire ddr ch => chanOk ddr ch
  | .tierListFix _ => true
  | .hbmChCtlWrite _ ddr ch _ => chanOk ddr ch
  | .tgStart _ ddr ch _ => chanOk ddr ch
  | .tgRunEnd ddr ch _ => chanOk ddr ch
  | .farCacheRequest _ e => eccOk e
  | .farCacheFill _ _ => true
  | .prefetchFill _ _ => true
  | .xltProbeAddrWrite _ => true
  | .xltProbeDone => true
  | .farCtrClr _ => true
  | .patCtlLoad _ => true
  | .patCtlSwitch _ => true
  | .patCtlDiscard _ => true
  | .patLoadDone _ far e => keysOk far && eccOk e
  | .switchReady => true
  | .readyMessage => true
  | .switchWithdrawal => true
  | .sizReport => true
  | .sizSum => true
  | .sizIdleUpdate => true
  | .tidCtlStart _ _ t => timeOk t
  | .tidCtlStop _ => true
  | .tidCtlResume _ _ t => timeOk t
  | .tidCfgWrite _ _ => true
  | .edgeAnnounce _ t => timeOk t
  | .edgeMessage t => timeOk t
  | .tideEdge en => energyOk en
  | .tideInEdge stamp en => timeOk stamp && energyOk en
  | .tideInWindowExpire en => energyOk en
  | .timeSync t => timeOk t
  | .tideLostTimeout t => timeOk t
  | .arriveMessage => true
  | .overrunRecordDone => true
  | .freqStepComplete _ => true
  | .tidCtrClr _ => true
  | .cablePresent _ _ _ => true
  | .portUp _ peerNode peerPort => nodeOk peerNode && decide (peerPort < 12)
  | .portTrainTimeout _ => true
  | .portTrainRetry _ _ => true
  | .cmisPoll _ _ t => timeOk t
  | .nodeIdWrite _ _ => true
  | .flitReceive _ f => flitOk f
  | .flitTransmit _ => true
  | .replayTimeout _ => true
  | .portRetrainDone _ _ => true
  | .laneControlBlock _ _ _ t => timeOk t
  | .laneLossOfLock _ _ _ t => timeOk t
  | .laneWindowExpire _ _ => true
  | .widthChange _ => true
  | .reconfigDone _ => true
  | .messageRoute t => timeOk t
  | .rd e => eccOk e
  | .wr => true
  | .remoteGauge => true
  | .rdRsp => true
  | .wrRsp => true
  | .gaugeRsp => true
  | .remoteTimeout rid t => nodeOk rid && timeOk t
  | .trfPortDisable _ _ _ _ => true
  | .trfPortRetrain _ _ _ => true
  | .trfCmisGo _ _ => true
  | .trfCmisDone _ _ => true
  | .trfCtrClr _ => true
  | .clvLaunch _ rank => nodeOk rank
  | .data => true
  | .result => true
  | .credit => true
  | .clvCombine _ rank _ e => nodeOk rank && eccOk e
  | .clvAckSend _ rank => nodeOk rank
  | .ack => true
  | .commit => true
  | .clvAbort => true
  | .fail => true
  | .clvTimeout _ _ _ rank t => nodeOk rank && timeOk t
  | .clvCtrClr _ => true
  | .ssPublish _ e => eccOk e
  | .ssFetch _ => true
  | .fetchShardRetry _ _ t => timeOk t
  | .ssFetchDone _ => true
  | .ssCheck _ e => eccOk e
  | .stateExport _ e => eccOk e
  | .stateImport _ e => eccOk e
  | .sluiceWrite _ entry => lenOk 64 entry
  | .sluiceRead _ => true
  | .sluiceMark _ => true
  | .sluiceRewind _ => true
  | .sluiceRelease _ _ => true
  | .sluicePointerSync _ _ => true
  | .slcPinselWrite _ _ => true
  | .slcWmWrite _ _ _ => true
  | .slcCtrClr _ => true
  | .configRequest _ _ _ _ _ => true
  | .registerWrite _ off n _ => accessOk off n
  | .bar2Read _ _ off n e => eccOk e && decide (0 < n ∧ n ≤ 4096 ∧ off + n ≤ 2 ^ 36)
  | .bar2Write _ _ off bytes _ => decide (0 < bytes.length ∧ bytes.length ≤ 512 ∧ off + bytes.length ≤ 2 ^ 36)
  | .hifBar2BaseWrite _ _ _ => true
  | .unsupportedTlp _ _ => true
  | .ingestWindowWrite _ _ off bytes => decide (0 < bytes.length ∧ bytes.length ≤ 512 ∧ off + bytes.length ≤ 0x80000)
  | .doorbell _ => true
  | .mbxPush _ => true
  | .mbxPop _ => true
  | .functionLevelReset _ => true
  | .hotReset _ => true
  | .pcieLinkDown _ => true
  | .pcieLinkUp _ rate width l0p => decide (1 ≤ rate ∧ rate ≤ 6) && List.contains [1, 2, 4, 8] width && List.contains [0, 1, 2, 4, 8] l0p
  | .perstAssert _ => true
  | .perstDeassert _ => true
  | .dStateChange _ _ => true
  | .ideIntegrityFail _ _ => true
  | .hifCtrClr _ _ => true
  | .ringEnable _ _ => true
  | .ringResume _ _ => true
  | .ringStop _ _ => true
  | .ringDisable _ _ => true
  | .descriptorFetch _ bytes e far => eccOk e && keysOk far && optOk (lenOk 64) bytes
  | .commandWorkEnd _ _ => true
  | .completionPost _ _ => true
  | .modTimeExpire _ => true
  | .nop _ => true
  | .copy _ _ _ e => eccOk e
  | .gauge _ => true
  | .gaugeList _ => true
  | .ingestSet _ => true
  | .ingestBatch _ _ => true
  | .patLoad _ => true
  | .patSwitch _ => true
  | .patDiscard _ => true
  | .srSeed _ => true
  | .clvLayout _ => true
  | .abort _ => true
  | .handover _ => true
  | .handoverAck _ => true
  | .handoverExpire _ => true
  | .capSet _ => true
  | .reset _ => true
  | .pwrPolderOffWrite _ _ => true
  | .pwrPolderOffHiWrite _ _ => true
  | .slackReport => true
  | .shiftInterval => true
  | .budgetShift => true
  | .shiftTimeout => true
  | .coolFailAssert => true
  | .coolantStopStage => true
  | .pwrCtrClr _ => true
  | .thermalSample ms t => samplesOk ms && timeOk t
  | .throttleLevelTimer _ => true
  | .dieComparatorTrip _ => true
  | .tripRestart _ => true
  | .thmCtrClr _ => true
  | .vauxPresent => true
  | .vauxLoss => true
  | .vinMainPresent => true
  | .vinMainLoss => true
  | .vddqDPresent => true
  | .vddqDLoss => true
  | .vddqWaitTimeout => true
  | .sysclkStable => true
  | .strapLatch _ _ => true
  | .keeperStart prec _ t => optOk precOk prec && timeOk t
  | .bringUp _ t => timeOk t
  | .regionGroupOn => true
  | .regionSettled _ _ => true
  | .hbmStackSettled _ _ _ => true
  | .ddrChannelSettled _ _ => true
  | .sysRstAssert => true
  | .sysRstDeassert => true
  | .leveeRaise scope target => scopeOk scope target
  | .leveeLower scope target => scopeOk scope target
  | .meshHopError _ _ _ => true
  | .keeperWatchdog _ t => timeOk t
  | .status _ => true
  | .flogDump _ => true
  | .quote _ => true
  | .scopeReset _ => true
  | .powerOff _ => true
  | .powerOn _ _ t => timeOk t
  | .coolantStop _ => true
  | .rackCap _ => true
  | .powerRead _ => true
  | .setOwner _ _ => true
  | .tideRole _ => true
  | .secSubmit _ => true
  | .tokenCheckDone far e => keysOk far && eccOk e
  | .secFwLoad _ => true
  | .fwLoadDone e => eccOk e
  | .secAnchorAdd _ => true
  | .anchorAddDone e => eccOk e
  | .secLockAnchors _ => true
  | .secRelock _ => true
  | .getVersion _ => true
  | .getCapabilities _ => true
  | .negotiateAlgorithms _ => true
  | .getDigests _ => true
  | .getCertificate _ _ off len => decide (off < 65536 ∧ len < 65536)
  | .challenge _ _ nonce => lenOk 32 nonce
  | .getMeasurements _ _ nonce => optOk (lenOk 32) nonce
  | .keyExchange _ => true
  | .heartbeat _ _ => true
  | .keyUpdate _ _ => true
  | .endSession _ _ => true
  | .vendorDefinedRequest _ _ _ => true
  | .spdmUnsupportedRequest _ => true
  | .dbgResumeAll _ => true
  | .dbgResumeOne _ => true
  | .trcStart _ => true
  | .trcStop _ => true
  | .trcClear _ => true
  | .stitchCommit _ => true
  | .dbgFreezeWrite _ _ => true
  | .dbgBpWrite _ _ _ => true
  | .dbgBpCntWrite _ _ _ => true
  | .dbgTagctrCfgWrite _ _ _ => true
  | .telemetrySnapshot => true
  | .tapReset => true
  | .extest _ _ => true
  | .idcode => true
  | .samplePreload _ _ => true
  | .clamp => true
  | .highz => true
  | .stackSel => true
  | .scan => true
  | .bypass => true
  | .mtxCtrClr _ _ => true
  | .eleCtrClr _ _ => true
  | .spdmFinish _ _ => true
  | .coolFailDeassert t => timeOk t
  | .coreReady => true
  | .configSpaceReady _ => true
  | .slackReportAck => true
  | .dynamicAddressAssign _ => true
  | .msiXTableWrite _ _ addr data _ => decide (addr < 2 ^ 64 ∧ data < 2 ^ 32)
  | .ridReuseTimeout rid t => nodeOk rid && timeOk t

end Sys2Proof
end

