-- ==== Sys2Proof/Safety.lean ====
section
/-! DEFINITION. What a sound state is, and the words that the statements use: a command that runs, and what it leaves. -/
namespace Sys2Proof.Machine

/-- Memory in its canonical form: addresses strictly rising, and no entry that reads as an unlisted address does. -/
abbrev Memory.wf (d : Dev) : Prop := smWf (fun _ => (0 : Byte)) d.mem

/-- The register file in its canonical form. -/
abbrev Registers.wf (d : Dev) : Prop := smWf regDefault d.regs

/-- The maps of a device that hold memory, poison and registers, all canonical: equal contents are equal data. -/
structure Dev.Canonical (d : Dev) : Prop where
  mem    : Memory.wf d
  regs   : Registers.wf d
  poison : smWf (fun _ => false) d.poison

/-- A state whose device is canonical. -/
def State.Canonical (s : State) : Prop := s.dev.Canonical

/-- Command i completes at s: exec answers a next state, which keeps the queue of s, and `P` holds of its device. -/
def Runs (i : Instr) (s : State) (P : Dev → Prop) : Prop :=
  ∃ d : Dev, exec i s = .next { s with dev := d } ∧ P d

/-- Every byte of memory reads as before. -/
def MemSame (d d' : Dev) : Prop := ∀ a, rdByte d' a = rdByte d a

/-- Every register content but those at the listed offsets is as before. -/
def RegsBut (os : List Nat) (d d' : Dev) : Prop := ∀ o, o ∉ os → rget d' o = rget d o

/-- Nothing but register contents has changed. -/
def OnlyRegs (d d' : Dev) : Prop := d' = { d with regs := d'.regs }

/-- Every cell but c is as before. -/
def CellsBut (c : Nat) (d d' : Dev) : Prop := ∀ k, k ≠ c → getCell d' k = getCell d k

end Sys2Proof.Machine
end

