-- ==== Sys2Proof/Certificates/Slice0/Obligations.lean ====
section
/-! DEFINITION. The statements for the provers, one definition each. `Runs i s P` says that exec answers a next state whose device P describes. -/
open Sys2Proof Sys2Proof.Machine

/-- The block's step (INSTRUCTIONS): the command at the front of the queue runs on the state whose queue is the rest. -/
def Obligations.StepRunsFront : Prop :=
  ∀ (s : State) (c : Instr) (rest : List Instr), s.pending = c :: rest → step s = exec c { s with pending := rest }

/-- Log entry 1, the model's choice: with no command waiting the block idles; and every command completes in every state, and leaves the
queue to the step. -/
def Obligations.EveryStepCompletes : Prop :=
  (∀ s : State, s.pending = [] → step s = .next s) ∧ (∀ (s : State) (c : Instr), ∃ d, exec c s = .next { s with dev := d })

/-- What the field tables give after reset, for fields whose reset value is not zero, and that nothing is under way: no command waits, no memory
byte is listed, no Pattern is in effect and no tide runs. -/
def Obligations.ResetValues : Prop :=
  let d := State.reset.dev
  State.reset.pending = [] ∧ d.mem = [] ∧ d.cells = [] ∧ d.pat.active = none ∧ d.flog = [] ∧ d.levees = [] ∧ tideState d = 0 ∧
  (∀ r : RegionId, fget d (COL_THROTTLE_SRAM_LIMIT r) = 64 ∧ fget d (COL_THROTTLE_DRAM_LIMIT r) = 64 ∧ fget d (PWR_RGN_GOV_STEP r) = 8 ∧
    fget d (PWR_RGN_THM_STEP r) = 8) ∧
  (∀ k : Fin 32, fget d (HIF_RING_CFG_LOG2 k) = 4 ∧ fget d (HIF_RING_CFG_MOD_COUNT k) = 1) ∧
  (∀ p : TrfPort, fget d ⟨TRF_LANE p 0, 62, 2⟩ = 3) ∧
  (∀ k : Fin 8, fget d (DBG_BP_COUNT k) = 1 ∧ fget d (DDR_TG_CFG_LOOPS k) = 1 ∧ fget d (DDR_TG_CFG_STRIDE k) = 1) ∧
  fget d FAR_PF_CFG_DEPTH = 8 ∧ fget d XLT_PROBE_RES_SIZE = 3 ∧
  fget d TID_CFG_UP_PORT = 15 ∧ fget d TID_PARAM_LEAD_NS = 20000 ∧ fget d TID_PARAM_PERIOD_NS = 1000000 ∧
  fget d TRF_RETIRE_CFG_PORT_WINDOW = 3600 ∧ fget d TRF_RETIRE_CFG_UCW_LIMIT = 8 ∧ fget d TRF_RETIRE_CFG_LANE_WINDOW = 1000 ∧
  fget d TRF_RETIRE_CFG_CE_LIMIT = 2097152 ∧
  fget d PWR_STATUS_MODE = 1 ∧ fget d PWR_CAP_EFFECTIVE = 2600 ∧ fget d PWR_CAP_HOST = 2600 ∧ fget d PWR_CAP_RACK = 2600 ∧
  fget d HBM_ARB_W_PREFETCH = 1 ∧ fget d DDR_ARB_W_PREFETCH = 1

/-- The state after reset is canonical. -/
def Obligations.ResetIsCanonical : Prop := State.reset.Canonical

/-- Every step keeps the canonical form of memory, of the poison marks and of the register file, from every state that has it. -/
def Obligations.StepKeepsCanonical : Prop := ∀ s s' : State, s.Canonical → step s = .next s' → s'.Canonical

/-- R52. Updates that reach one gauge of a cell in one cycle take effect together: with a set among them, the adds are applied to the value of the
set whose source stands highest, host command, collective completion, DMA completion, stitch by thread; with two sets or more the gauge's bit
in CEL_GAUGE_CONFLICT is set. -/
def Obligations.GaugeUpdatesMeet : Prop :=
  ∀ (d : Dev) (c : CellId) (g : Fin 64) (us : List GaugeUpd), us ≠ [] → (∀ u ∈ us, u.cell = c.val ∧ u.node = nodeId d) →
    let after := cellGauge (getCell (applyCellGauge d c g us) c) g
    let adds := (us.map (fun u => match u.op with | .add n => n | .set _ => 0)).sum
    ((∀ u ∈ us, ∃ n, u.op = .add n) → after = min (cellGauge (getCell d c) g + adds) (2 ^ 64 - 1)) ∧
    (∀ (w : GaugeUpd) (v : Nat), w ∈ us → w.op = .set v → (∀ u ∈ us, ∀ x, u.op = .set x → u = w ∨ sourceRank w.src < sourceRank u.src) →
      after = min (v + adds) (2 ^ 64 - 1)) ∧
    (∀ (w x : GaugeUpd) (i j : Nat), us[i]? = some w → us[j]? = some x → i ≠ j → (∃ v, w.op = .set v) → (∃ v, x.op = .set v) →
      rbit (applyCellGauge d c g us) (CEL_GAUGE_CONFLICT c) g = true) ∧
    (sourceRank .host < sourceRank .collective ∧ sourceRank .collective < sourceRank .dma ∧
      (∀ t : ThreadId, sourceRank .dma < sourceRank (.stitch t)) ∧
      ∀ t u : ThreadId, t < u → sourceRank (.stitch t) < sourceRank (.stitch u))

/-- R53. An add that would take a gauge over 2^64 − 1 leaves it there and sets its bit in CEL_GAUGE_SAT; no add makes a gauge smaller. -/
def Obligations.GaugesSaturate : Prop :=
  ∀ (d : Dev) (c : CellId) (g : Fin 64) (u : GaugeUpd) (n : Nat), u.op = .add n →
    let old := cellGauge (getCell d c) g
    let d1 := applyCellGauge d c g [u]
    (2 ^ 64 - 1 < old + n → cellGauge (getCell d1 c) g = 2 ^ 64 - 1 ∧ rbit d1 (CEL_GAUGE_SAT c) g = true) ∧
    (old + n ≤ 2 ^ 64 - 1 → cellGauge (getCell d1 c) g = old + n ∧ ∀ k, rbit d1 (CEL_GAUGE_SAT c) k = rbit d (CEL_GAUGE_SAT c) k) ∧
    old ≤ cellGauge (getCell d1 c) g

/-- R175, R208, R241, R263, R308, R323, R325, R353, R434, R447. A write of a command register by the port that is not the control owner changes nothing;
so does one of a ring's control registers or of a BAR2 base by the port that is not its own. -/
def Obligations.OtherPortWrites : Prop :=
  ∀ (s : State) (p : PciePort),
    (p.val ≠ fget s.dev HIF_CTRL_OWNER →
      (∀ ddr ch v, Runs (.hbmChCtlWrite (some p) ddr ch v) s (fun d => d = s.dev) ∧ Runs (.tgStart (some p) ddr ch v) s (fun d => d = s.dev)) ∧
      (∀ held t, Runs (.tidCtlStart (some p) held t) s (fun d => d = s.dev) ∧ Runs (.tidCtlResume (some p) held t) s (fun d => d = s.dev)) ∧
      (∀ q acc v, Runs (.trfPortDisable (some p) q v acc) s (fun d => d = s.dev) ∧ Runs (.trfPortRetrain (some p) q v) s (fun d => d = s.dev)) ∧
      (∀ j v, Runs (.slcWmWrite (some p) j v) s (fun d => d = s.dev)) ∧
      (∀ k j v, ∀ i ∈ [Instr.patCtlLoad (some p), .patCtlSwitch (some p), .tidCtlStop (some p), .tidCfgWrite (some p) v, .nodeIdWrite (some p) v,
          .slcPinselWrite (some p) v, .pwrPolderOffWrite (some p) v, .pwrPolderOffHiWrite (some p) v, .secSubmit (some p), .secFwLoad (some p),
          .secAnchorAdd (some p), .secLockAnchors (some p), .secRelock (some p), .dbgResumeAll (some p), .dbgResumeOne (some p), .trcStart (some p),
          .trcStop (some p), .trcClear (some p), .stitchCommit (some p), .dbgFreezeWrite (some p) v, .dbgBpWrite (some p) k v,
          .dbgBpCntWrite (some p) k v, .dbgTagctrCfgWrite (some p) j v],
        Runs i s (fun d => d = s.dev))) ∧
    (∀ k : Fin 32, p.val ≠ k.val / 16 → ∀ i ∈ [Instr.ringEnable (some p) k, .ringResume (some p) k, .ringStop (some p) k, .ringDisable (some p) k],
      Runs i s (fun d => d = s.dev)) ∧
    (∀ q v, q ≠ p → Runs (.hifBar2BaseWrite (some p) q v) s (fun d => d = s.dev))

/-- R57, R52, R217. A host write under GAUGE_WR sets the cell's gauge to the value written; updates that reach a patch gauge's home
together leave it at their combined value (R52, R53); a member cell's copy of a patch gauge homed here takes the home's value.
Nothing else changes but the waits that the new value satisfies, in that cell. -/
def Obligations.GaugeCommands : Prop :=
  ∀ (s : State) (c : CellId) (g : Fin 64),
    (∀ v : Word, (fget s.dev SEC_DBG_PERMS_PERMS).testBit 1 = true → nearStatus s.dev c false = .ok →
      Runs (.celGaugeWr c g v) s (fun d => cellGauge (getCell d c) g = v.toNat ∧ CellsBut c s.dev d ∧ MemSame s.dev d ∧
        RegsBut [CEL_GAUGE_SAT c, CEL_GAUGE_CONFLICT c] s.dev d)) ∧
    (∀ (patch : Fin 256) (n : Nat) (us : List GaugeUpd), us ≠ [] →
      (s.dev.gaugeq.filter (fun u => u.patch == patch.val && u.gauge == g.val)).take n = us →
      Runs (.patchGaugeUpdate patch g n) s (fun d =>
        homeGauge d (patchKey patch g) = (combineGauge (homeGauge s.dev (patchKey patch g)) us).1 % 2 ^ 64 ∧
        MemSame s.dev d ∧ RegsBut [] s.dev d ∧ d.cells = s.dev.cells)) ∧
    (∀ (patch : Fin 256) (p : PatchDef) (r : Option Word), patch.val ≠ 0 → patchDef s.dev patch = some p → p.home = nodeId s.dev →
      Runs (.patchGaugeArrival c patch g r) s (fun d =>
        seenGauge (getCell d c) ⟨patch, g⟩ = homeGauge s.dev (patchKey patch g) ∧
        CellsBut c s.dev d ∧ MemSame s.dev d ∧ RegsBut [] s.dev d))

/-- R43, R44, R54, R199, R200. What the events of a thread do: a wait that its gauge has satisfied ends, the thread runs and may
issue; an 8-byte load that has come writes its X register and is no longer awaited; a release fence whose stores and commands
are performed ends; an acquire fence ends and counts at gang or hall scope; a drained barrier is entered. -/
def Obligations.ThreadEvents : Prop :=
  ∀ (s : State) (c : CellId) (t : ThreadId),
    ((thread s.dev c t).st = .wait → (thread s.dev c t).waitOk = true →
      verdict (setTh (getCell s.dev c) t { thread s.dev c t with st := .run }) t = .go →
      Runs (.gaugeWaitSatisfied c t) s (fun d => (thread d c t).st = .run ∧ (thread d c t).stallOn = 0 ∧
        CellsBut c s.dev d ∧ MemSame s.dev d ∧ RegsBut [] s.dev d)) ∧
    (∀ (l : PendingLoad) (v : Nat), (thread s.dev c t).loads.find? (fun k => k.id == l.id) = some l → l.bytes = 8 → l.st = .ready v →
      Runs (.scalarLoadReturn c t l.id) s (fun d => xreg (thread d c t) l.reg = BitVec.ofNat 64 v ∧
        (∀ r, r ≠ l.reg.val → xreg (thread d c t) r = xreg (thread s.dev c t) r) ∧
        (thread d c t).loads = (thread s.dev c t).loads.filter (fun k => k.id != l.id) ∧
        CellsBut c s.dev d ∧ MemSame s.dev d ∧ RegsBut [] s.dev d)) ∧
    (∀ scope, (thread s.dev c t).fence = some (false, scope) → (thread s.dev c t).openStores = 0 → (thread s.dev c t).openCmds = 0 →
      (getCell s.dev c).held = [] →
      Runs (.fenceRelPerformed c t) s (fun d => thread d c t = { thread s.dev c t with fence := none } ∧
        CellsBut c s.dev d ∧ MemSame s.dev d ∧ RegsBut [] s.dev d)) ∧
    (∀ scope, (thread s.dev c t).fence = some (true, scope) →
      Runs (.fenceAcqPerformed c t) s (fun d => thread d c t = { thread s.dev c t with fence := none } ∧
        CellsBut c s.dev d ∧ MemSame s.dev d ∧ RegsBut [FAR_ACQ] s.dev d ∧
        (scope = .gang ∨ scope = .hall → fget d FAR_ACQ_ACQUIRES = min (fget s.dev FAR_ACQ_ACQUIRES + 1) (2 ^ 32 - 1)) ∧
        (scope = .hall → ∀ node a, node ≠ nodeId s.dev → a < 2 ^ 41 → getLine d node a = none))) ∧
    ((thread s.dev c t).st = .stall → (thread s.dev c t).draining = true → (thread s.dev c t).openCmds = 0 →
      Runs (.drainComplete c t) s (fun d =>
        thread d c t = { thread s.dev c t with st := .barrier, stallOn := 0, draining := false } ∧
        CellsBut c s.dev d ∧ MemSame s.dev d ∧ RegsBut [TID_STATUS] s.dev d))

/-- R39, R41, R473. A stitch whose only action is a scalar operation, issued by the one thread of a running cell that is not idle
and whose stitch nothing holds: the result is in its X register, the stitch pointer has advanced, and nothing else has changed. -/
def Obligations.ScalarStitchIssues : Prop :=
  ∀ (s : State) (c : CellId) (t : ThreadId) (e : EccHits) (a : ScalarAct),
    cellRuns s.dev c = true → (∀ k, k < 4 → k ≠ t.val → (thread s.dev c k).st = .idle) → (thread s.dev c t).st = .run →
    verdict (getCell s.dev c) t = .go →
    stitchAt (getCell s.dev c) (thread s.dev c t).pc = { emptyStitch with scalar := some a } →
    (fget s.dev SEC_DBG_PERMS_PERMS).testBit 0 = false →
    Runs (.stitchIssue c e) s (fun d =>
      xreg (thread d c t) a.d = scalarVal a.op (srcVal (thread s.dev c t) (thrStatusWord (getCell s.dev c) t) a.a)
        (srcVal (thread s.dev c t) (thrStatusWord (getCell s.dev c) t) a.b)
        (srcVal (thread s.dev c t) (thrStatusWord (getCell s.dev c) t) a.c) ∧
      (∀ r, r ≠ a.d.val → xreg (thread d c t) r = xreg (thread s.dev c t) r) ∧
      (thread d c t).pc = (thread s.dev c t).pc + 1 ∧ (thread d c t).st = .run ∧ (getCell d c).lastIssue = t ∧
      (∀ k, k ≠ t.val → thread d c k = thread s.dev c k) ∧
      CellsBut c s.dev d ∧ MemSame s.dev d ∧ RegsBut [] s.dev d)

/-- R48, R63, R65, R476, R82. The head of the matrix queue of a running cell, valid, outside a chain and with no group to wait for, leaves the
queue when its engine is idle, and the engine is busy with it; the other cells keep what they hold, but for writes of a finisher that wait on a
command that reads their place (R64), and no register changes but the cell's own of the matrix engine. In long mode an MMA in the middle of an
open group adds its block contributions and flags into the group's slots; a CHAIN_ADD with START and role NONE opens the group with the tile's
anchor and adds the tile; a FINISH writes what the finisher makes of the group. -/
def Obligations.MatrixCommandsRun : Prop :=
  ∀ (s : State) (c : CellId) (e : MtxEntry) (rest : List MtxEntry),
    let d0 := modCell s.dev c (fun x => { x with mq := rest })
    let m := e.cmd
    let tile := readTile m.shape (rdBytes s.dev (spAddr c m.longIn) (tileBytes m.shape))
    let runs := fun (d : Dev) => (getCell d c).mq = rest ∧ (∃ r, (getCell d c).mrun = some r ∧ r.entry = e) ∧ fget d (MTX_STATUS_BUSY c) = 1 ∧
      RegsBut [MTX_STATUS c, MTX_REPEAT c, MTX_SKIP c, MTX_PRED c m.entry] s.dev d ∧
      ∀ k, k ≠ c.val → { getCell d k with held := [] } = { getCell s.dev k with held := [] }
    cellRuns s.dev c = true → (getCell s.dev c).mrun = none → (getCell s.dev c).redo = [] → (getCell s.dev c).mq = e :: rest →
    m.chain = .none → startWaits (getCell s.dev c) m = false → mtxInvalid d0 c m = false → tileMisfit m tile = false →
    (m.op = .mma → Runs (.mma c ⟨[], []⟩) s runs) ∧ (m.op = .chainAdd → Runs (.chainAdd c ⟨[], []⟩) s runs) ∧
    (m.op = .finish → Runs (.finish c ⟨[], []⟩) s runs) ∧
    ((getCell s.dev c).short = false →
      (∀ g, m.op = .mma → m.start = false → m.last = false → getGroup (getCell s.dev c) m.group = some g →
        Runs (.mma c ⟨[], []⟩) s (fun d => CellsBut c s.dev d ∧ MemSame s.dev d ∧
          let p := mmaPass d0 c m g.anchor []
          let n := g.blocks + (m.kCmd + 31) / 32
          let bad := g.poisoned || rangesBad d0 c (readRanges m) || decide (nBlocks g.kTotal < n) || decide (p.excess ≠ 0)
          getGroup (getCell d c) m.group = some (addSums { g with blocks := n, poisoned := bad } p.sums p.flags))) ∧
      (m.op = .chainAdd → m.start = true → m.last = false → tile.rerun = false →
        Runs (.chainAdd c ⟨[], []⟩) s (fun d => CellsBut c s.dev d ∧ MemSame s.dev d ∧
          getGroup (getCell d c) m.group = some
            { addSums { freshGroup m tile.anchor with kTotal := tile.kTotal } tile.sums tile.flags with poisoned := rangesBad d0 c (readRanges m) })) ∧
      (∀ g, m.op = .finish → getGroup (getCell s.dev c) m.group = some g →
        Runs (.finish c ⟨[], []⟩) s (fun d => MemSame (finish d0 c false g m (g.poisoned || rangesBad d0 c (finReads m))).1 d)))

/-- R56, R52. A matrix command outside a chain, an element command whose lanes have all returned, and a DMA command with nothing
left to do, complete: the engine or the tag is free, the thread has one command fewer outstanding, and the gauge of the cell that
the command names is its value before plus the increment, no more than 2^64 − 1. The status registers of the engine hold the tag
and the status; memory and the other cells are as they were. -/
def Obligations.EngineCommandsComplete : Prop :=
  ∀ (s : State) (c : CellId),
    let ends := fun (t : ThreadId) (k : Completion) (d : Dev) =>
      (thread d c t).openCmds = (thread s.dev c t).openCmds - 1 ∧
      cellGauge (getCell d c) k.gauge.gauge = min (cellGauge (getCell s.dev c) k.gauge.gauge + k.inc) (2 ^ 64 - 1) ∧
      MemSame s.dev d ∧ CellsBut c s.dev d
    (∀ r, (getCell s.dev c).mrun = some r → r.entry.cmd.chain = .none → (getCell s.dev c).held = [] →
      r.entry.cmd.done.gauge.patch = 0 →
      Runs (.matrixComplete c) s (fun d => (getCell d c).mrun = none ∧ fget d (MTX_STATUS_BUSY c) = 0 ∧
        fget d (MTX_STATUS_LAST_TAG c) = r.entry.cmd.done.tag % 2 ^ 16 ∧ fget d (MTX_STATUS_LAST_STATUS c) = statusCode r.status ∧
        (r.closes = true → getGroup (getCell d c) r.entry.cmd.group = none) ∧ ends r.entry.thread r.entry.cmd.done d)) ∧
    (∀ r, (getCell s.dev c).erun = some r → r.lanes = [] → r.entry.cmd.done.gauge.patch = 0 →
      Runs (.elementComplete c) s (fun d => (getCell d c).erun = none ∧ fget d (ELE_STATUS_BUSY c) = 0 ∧
        fget d (ELE_STATUS_LAST_TAG c) = r.entry.cmd.done.tag % 2 ^ 16 ∧ fget d (ELE_STATUS_LAST_STATUS c) = statusCode r.status ∧
        ends r.entry.thread r.entry.cmd.done d)) ∧
    (∀ (n : Fin 8) tg, dmaTag s.dev c n = some tg → tg.cur = none → tg.openReq = 0 → tg.held = 0 →
      (tg.status ≠ .ok ∨ tg.listN = 0 ∧ tg.todo = []) → tg.entry.cmd.done.gauge.patch = 0 →
      Runs (.dmaComplete c n) s (fun d => dmaTag d c n = none ∧ ends tg.entry.thread tg.entry.cmd.done d))

/-- R302 to R305, R307, R308. What the operations of a sluice do to its pointers, each modulo twice its capacity C: a producer's write with
credit puts the entry at W and moves W; without credit the host's write is discarded and counted, and any other changes nothing; a read with an
entry readable returns it with a status word (V, M, the entries readable and held after it, the entry's place) and moves R, and with none
returns zero with V = 0; MARK notes R; REWIND returns R to the mark, or to L, and is counted; RELEASE moves L past the entries it frees, no more
than are held, and the mark goes if L passes it; a synchroniser delivers W. A threshold or pin selection written by the control owner is
taken where LO_SET < LO_CLR ≤ HI_CLR < HI_SET ≤ C, and changes nothing else. Neither memory nor another sluice changes. -/
def Obligations.SluiceOperations : Prop :=
  ∀ (s : State) (i : Fin 46),
    let q := getSlc s.dev i
    let c := slcCap i
    let others := fun (d : Dev) => MemSame s.dev d ∧ ∀ j, j ≠ i.val → getSlc d j = getSlc s.dev j
    (∀ entry,
      (slcCredits c q ≠ 0 → Runs (.sluiceWrite i entry) s (fun d => d = slcMarks (setSlc s.dev i
        { q with w := (q.w + 1) % (2 * c), data := smSet (fun _ => []) q.data (q.w % c) entry }) i)) ∧
      (slcCredits c q = 0 → slcHost i = true → Runs (.sluiceWrite i entry) s (fun d => getSlc d i = q ∧
        fget d (SLC_STATUS_DROPPED i) = 1 ∧ OnlyRegs s.dev d)) ∧
      (slcCredits c q = 0 → slcHost i = false → Runs (.sluiceWrite i entry) s (fun d => d = s.dev))) ∧
    (slcAvail c q ≠ 0 →
      Runs (.sluiceRead i) s (fun d => ∃ word, d = { s.dev with
        slc := smSet (fun _ => sluiceReset) s.dev.slc i { q with r := (q.r + 1) % (2 * c) },
        out := s.dev.out ++ [.sluice i word (smGet (fun _ => []) q.data (q.r % c))] } ∧
        word / 2 ^ 63 = 1 ∧ (word / 2 ^ 62 % 2 = 1 ↔ q.mark.isSome = true) ∧ word % 2 ^ 16 = q.r % c)) ∧
    (slcAvail c q = 0 →
      Runs (.sluiceRead i) s (fun d => ∃ word, d = emit s.dev (.sluice i word (List.replicate 64 0)) ∧ word / 2 ^ 63 = 0)) ∧
    Runs (.sluiceMark i) s (fun d => d = setSlc s.dev i { q with mark := some q.r }) ∧
    Runs (.sluiceRewind i) s (fun d => getSlc d i = { q with r := q.mark.getD q.l } ∧ RegsBut [SLC_CTR i] s.dev d ∧ others d) ∧
    (∀ n, let k := min n (slcHeld c q)
      Runs (.sluiceRelease i n) s (fun d => (getSlc d i).l = (q.l + k) % (2 * c) ∧ (getSlc d i).w = q.w ∧ (getSlc d i).r = q.r ∧
        (getSlc d i).mark = (match q.mark with | some m => if slcDiff c m q.l < k then none else some m | none => none) ∧
        RegsBut (if slcHeld c q < n then [SLC_CTR i] else []) s.dev d ∧ others d)) ∧
    Runs (.sluicePointerSync i false) s (fun d => d = setSlc s.dev i { q with wSync := q.w }) ∧
    Runs (.sluicePointerSync i true) s (fun d => d = respFlush (slcMarks (setSlc s.dev i { q with lSync := q.l }) i) i) ∧
    (∀ by_ v, ownerWrites s.dev by_ = true →
      Runs (.slcPinselWrite by_ v) s (fun d => d = pinsFollow (fset s.dev SLC_PINSEL_SEL (v.toNat % 64))) ∧
      (bitsOf v 0 13 < bitsOf v 13 13 ∧ bitsOf v 13 13 ≤ bitsOf v 26 13 ∧ bitsOf v 26 13 < bitsOf v 39 13 ∧ bitsOf v 39 13 ≤ c →
        Runs (.slcWmWrite by_ i v) s (fun d => d = slcMarks (rset s.dev (SLC_WM i) (BitVec.ofNat 64 (v.toNat % 2 ^ 52))) i)) ∧
      (¬ (bitsOf v 0 13 < bitsOf v 13 13 ∧ bitsOf v 13 13 ≤ bitsOf v 26 13 ∧ bitsOf v 26 13 < bitsOf v 39 13 ∧ bitsOf v 39 13 ≤ c) →
        Runs (.slcWmWrite by_ i v) s (fun d => d = s.dev)))

/-- R48, R119, R123, R129, R130, R134, R135, R115. The head of the element queue of a running cell, its engine idle and its command
valid, leaves the queue and runs, and the engine is busy with it: a program performs its operations in order over the elements that
are active at dispatch; PRESS, UPDATE, RESEAT and CONVERT are performed whole; a GATHER asks for its lanes; a SCATTER stores its
lanes. -/
def Obligations.ElementCommandsRun : Prop :=
  ∀ (s : State) (c : CellId) (ecc : EccHits) (e : EleEntry) (rest : List EleEntry),
    let x := getCell s.dev c
    let d0 := modCell s.dev c (fun x => { x with eq := rest })
    let active := activeOf x e.cmd
    let runs := fun (d r : Dev) => d = r ∧ (∃ q, (getCell d c).erun = some q ∧ q.entry = e) ∧ fget d (ELE_STATUS_BUSY c) = 1
    cellRuns s.dev c = true → x.erun = none → x.eq = e :: rest → eleReason x e.cmd active = 0 →
    (∀ ops, e.cmd.kind = .program → smGet (fun _ => ProgSlot.empty) x.progs e.cmd.prog.val = .ops ops →
      smGet (fun _ => false) x.progBad e.cmd.prog.val = false →
      Runs (.program c ecc) s (fun d => runs d (runProgram d0 c ecc e active ops))) ∧
    (e.cmd.kind = .press → Runs (.press c ecc) s (fun d => runs d (runFixed d0 c ecc e))) ∧
    (e.cmd.kind = .update → Runs (.update c ecc) s (fun d => runs d (runFixed d0 c ecc e))) ∧
    (e.cmd.kind = .reseat → Runs (.reseat c ecc) s (fun d => runs d (runFixed d0 c ecc e))) ∧
    (e.cmd.kind = .convert → Runs (.convert c ecc) s (fun d => runs d (runFixed d0 c ecc e))) ∧
    (e.cmd.kind = .gather → Runs (.gather c ecc) s (fun d => runs d (runGather d0 c e active))) ∧
    (e.cmd.kind = .scatter → Runs (.scatter c ecc) s (fun d => runs d (runScatter d0 c ecc e active)))

/-- R129. A lane of a running GATHER whose 4-byte integer has come writes that element of the destination register and returns; the
lane's other elements, the other cells and memory stay. -/
def Obligations.GatherLaneReturns : Prop :=
  ∀ (s : State) (c : CellId) (r : EleRun) (lane w : Nat),
    (getCell s.dev c).erun = some r → r.lanes.find? (fun l => l.1 == lane) = some (lane, .ready w) → r.entry.cmd.src = .i32 →
    lane < 1024 →
    Runs (.gatherLaneReturn c lane) s (fun d =>
      tileBits (getCell d c) r.entry.cmd.reg lane = w % 2 ^ 32 ∧
      (∀ n p, p < 1024 → (n ≠ r.entry.cmd.reg ∨ p ≠ lane) → tileBits (getCell d c) n p = tileBits (getCell s.dev c) n p) ∧
      (∃ q, (getCell d c).erun = some q ∧ q.lanes = r.lanes.filter (fun l => l.1 != lane) ∧ q.status = r.status) ∧
      MemSame s.dev d ∧ RegsBut [] s.dev d ∧ CellsBut c s.dev d)

/-- R155, R188 to R190, R194. The far-cache path: a request to a near memory of this device is served there if the owner's ranges
admit it, and refused with XLT_FAULT, counted and recorded, if not; an uncached request to this device is served at its home; a
demand read of a present line is a hit, one of an absent line takes a free miss register; a fill that has been answered frees its
register, installs its line and serves the requests that wait, after the victim is written back. -/
def Obligations.FarCachePath : Prop :=
  ∀ (s : State) (i : Nat) (e : EccHits),
    (∀ q, s.dev.far.queue[i]? = some q → q.node = nodeId s.dev → isNear q.addr = true →
      ownerOk s.dev (.cell q.cell) q.addr q.bytes (farWrites q) = true →
      Runs (.foreignRequest i e) s (fun d => d = serveHome (dropReq s.dev i) q e)) ∧
    (∀ q, s.dev.far.queue[i]? = some q → q.node = nodeId s.dev → isNear q.addr = true →
      ownerOk s.dev (.cell q.cell) q.addr q.bytes (farWrites q) = false →
      Runs (.foreignRequest i e) s (fun d => d =
        finishFar (recordRefusal (countDeny (dropReq s.dev i) q.addr) (farInput q) 5 0xFF (farReqCode q) 0 q.cell) q .xltFault [] false)) ∧
    (∀ q, s.dev.far.queue[i]? = some q → q.node = nodeId s.dev → isNear q.addr = false → q.cache = false →
      Runs (.farCacheRequest i e) s (fun d => d = serveHome (dropReq s.dev i) q e)) ∧
    (∀ q, s.dev.far.queue[i]? = some q → isNear q.addr = false → q.cache = true → isTier q.addr = true → farWrites q = false →
      (getLine s.dev q.node q.addr).isSome = true →
      Runs (.farCacheRequest i e) s (fun d => d = trainPrefetch (serveLine (fcount (dropReq s.dev i) FAR_CTR_HITS 1) q) q)) ∧
    (∀ q, s.dev.far.queue[i]? = some q → isNear q.addr = false → q.cache = true → isTier q.addr = true → farWrites q = false →
      (getLine s.dev q.node q.addr).isSome = false → s.dev.far.misses.any (fun m => m.node == q.node && m.line == q.addr / 128) = false →
      s.dev.far.misses.length < 4096 →
      Runs (.farCacheRequest i e) s (fun d =>
        d = trainPrefetch (takeMiss (fcount (dropReq s.dev i) FAR_CTR_MISSES 1) q.node (q.addr / 128) [q] false) q)) ∧
    (∀ m st bytes v, s.dev.far.misses[i]? = some m → m.data = some (st, bytes) → m.prefetch = false →
      Runs (.farCacheFill i v) s (fun d => d = fillLine (evict s.dev v) i m st bytes)) ∧
    (∀ m st bytes v, s.dev.far.misses[i]? = some m → m.data = some (st, bytes) → m.prefetch = true →
      Runs (.prefetchFill i v) s (fun d => d = fillLine (evict s.dev v) i m st bytes))

/-- R164, R165, R168, R171, R175 to R177, R148. The tiers and the column memories: the tier answers a latency-critical read of a
channel in service; a weighted request that has waited becomes latency-critical; a rinse tick moves on to the next granule or
line; a window of corrected errors ends; OOS is written and the channel's state follows; a traffic generator on a channel out of
service starts, and on one in another state ends with RESULT 3; a READ_CHECK run without an error ends with DONE. -/
def Obligations.TierCommands : Prop :=
  ∀ (s : State) (ddr : Bool) (ch : Nat) (by_ : Option PciePort) (v : Word),
    (∀ i m retries t k, s.dev.far.misses[i]? = some m → waitsTier s.dev m = true → isCritical s.dev m = true →
      chOf s.dev (128 * m.line) = some (t, k) → memStatus s.dev (128 * m.line) = .ok →
      Runs (.tierRequest i retries false ⟨[], []⟩) s (fun d => d = { fcount s.dev (chRetries t k) retries with
        far := { s.dev.far with misses := s.dev.far.misses.set i { m with data := some (.ok, []) } } })) ∧
    (∀ i m, s.dev.far.misses[i]? = some m → waitsTier s.dev m = true → m.prefetch = false →
      Runs (.requestPromote i) s (fun d => d = { s.dev with
        far := { s.dev.far with misses := s.dev.far.misses.set i { m with promoted := true } } })) ∧
    (ch < chCount ddr → fget s.dev (chState ddr ch) = 2 →
      let key := if ddr then 192 + ch else ch
      let total := (chUnits ddr ch).length * unitBytes ddr / 256
      Runs (.tierRinseTick ddr ch ⟨[], []⟩) s (fun d => d = { s.dev with
        tierPos := smSet (fun _ => 0) s.dev.tierPos key ((smGet (fun _ => 0) s.dev.tierPos key + 1) % total) })) ∧
    Runs (.ceWindowExpire ddr ch) s (fun d => d = { s.dev with
      ceWin := smSet (fun _ => 0) s.dev.ceWin (if ddr then 192 + ch else ch) 0 }) ∧
    (ch < chCount ddr → ownerWrites s.dev by_ = true →
      Runs (.hbmChCtlWrite by_ ddr ch v) s (fun d => d = chSettle (fset s.dev (chOos ddr ch) (v.toNat % 2)) ddr ch)) ∧
    (ch < chCount ddr → ownerWrites s.dev by_ = true → v.toNat % 2 = 1 → fbit s.dev ⟨tgRes ddr ch, 62, 1⟩ = false →
      fget s.dev (chState ddr ch) = 3 →
      Runs (.tgStart by_ ddr ch v) s (fun d => d = rset s.dev (tgRes ddr ch) (BitVec.ofNat 64 (2 ^ 62)))) ∧
    (ch < chCount ddr → ownerWrites s.dev by_ = true → v.toNat % 2 = 1 → fbit s.dev ⟨tgRes ddr ch, 62, 1⟩ = false →
      fget s.dev (chState ddr ch) ≠ 3 →
      Runs (.tgStart by_ ddr ch v) s (fun d => d = raiseBoth (rset s.dev (tgRes ddr ch) (BitVec.ofNat 64 (2 ^ 63 + 3 * 2 ^ 60))) 23)) ∧
    (ch < chCount ddr → fbit s.dev ⟨tgRes ddr ch, 62, 1⟩ = true → tgMode s.dev ddr ch = 1 →
      Runs (.tgRunEnd ddr ch []) s (fun d => d = raiseBoth (rset s.dev (tgRes ddr ch) (BitVec.ofNat 64 (2 ^ 63))) 23))

/-- R148, R149, R169, R170, R383. A rinse tick of a column channel that runs reads the next line of the cell's SRAM or DRAM, moves its walker on by
one line, round at the end, and with no error met changes no byte of memory and no other cell.
A temperature read of an HBM stack leaves it and the refresh step of Table 9-3 in every channel of the stack; one
of a DDR module in its channel. -/
def Obligations.RinseAndTemperature : Prop :=
  ∀ (s : State) (c : CellId) (t : Nat),
    (rinseRuns s.dev c true = true →
      Runs (.rinseTick c true ⟨[], []⟩) s (fun d => (getCell d c).rinseDram = ((getCell s.dev c).rinseDram + 1) % 262144 ∧
        (getCell d c).rinseSram = (getCell s.dev c).rinseSram ∧ MemSame s.dev d ∧ CellsBut c s.dev d)) ∧
    (rinseRuns s.dev c false = true →
      Runs (.rinseTick c false ⟨[], []⟩) s (fun d => (getCell d c).rinseSram = ((getCell s.dev c).rinseSram + 1) % 4096 ∧
        (getCell d c).rinseDram = (getCell s.dev c).rinseDram ∧ MemSame s.dev d ∧ CellsBut c s.dev d)) ∧
    (∀ (stk : Fin 6) (k : Nat), k < 32 →
      Runs (.hbmTempRead stk t) s (fun d => fget d (HBM_CH_STATUS_TEMP (32 * stk.val + k)) = min t 255 ∧
        fget d (HBM_CH_STATUS_REFRESH (32 * stk.val + k)) = hbmStep (fget s.dev (HBM_CH_STATUS_REFRESH (32 * stk.val + k))) t ∧
        MemSame s.dev d)) ∧
    (∀ (k : Fin 8),
      Runs (.ddrTempRead k t) s (fun d => fget d (DDR_CH_STATUS_TEMP k) = min t 255 ∧
        fget d (DDR_CH_STATUS_REFRESH k) = ddrStep (fget s.dev (DDR_CH_STATUS_REFRESH k)) t ∧ MemSame s.dev d))

/-- R162, R163, R181, R204. Once every stack or module of a tier has settled, its list holds every unit whose channel is usable, in
rising order, and is fixed; a lookup probe is started by a write of its address, and ends with what the map in force gives. -/
def Obligations.ListsAndProbes : Prop :=
  ∀ (s : State),
    let good := fun (f : Fld) => fget s.dev f = 2 ∨ fget s.dev f = 3 ∨ fget s.dev f = 4
    (fbit s.dev DDR_TIER_STATUS_FIXED = false → fget s.dev ⟨KPR_SETTLED, 16, 8⟩ = 0xFF → s.dev.ddrList = [] →
      Runs (.tierListFix true) s (fun d => d.ddrList = (List.range 8).filter (fun k => decide (good (DDR_CH_STATUS_STATE k))) ∧
        fget d DDR_TIER_STATUS_FIXED = 1 ∧ fget d DDR_TIER_STATUS_N_UNITS = d.ddrList.length ∧ d.hbmList = s.dev.hbmList)) ∧
    (fbit s.dev HBM_TIER_STATUS_FIXED = false → fget s.dev ⟨KPR_SETTLED, 8, 6⟩ = 0x3F → s.dev.hbmList = [] →
      Runs (.tierListFix false) s (fun d =>
        d.hbmList = (List.range 384).filter (fun u => decide (good (HBM_CH_STATUS_STATE (hbmChan u)))) ∧
        fget d HBM_TIER_STATUS_FIXED = 1 ∧ fget d HBM_TIER_STATUS_N_UNITS = d.hbmList.length ∧ d.ddrList = s.dev.ddrList)) ∧
    (∀ v, Runs (.xltProbeAddrWrite v) s (fun d => d.probing = true ∧ rget d XLT_PROBE_ADDR = v ∧ fget d XLT_PROBE_RES_DONE = 0 ∧
      RegsBut [XLT_PROBE_ADDR, XLT_PROBE_RES] s.dev d ∧ MemSame s.dev d)) ∧
    (∀ level, s.dev.probing = true → lookup s.dev (rget s.dev XLT_PROBE_ADDR).toNat = .none level →
      Runs .xltProbeDone s (fun d => d.probing = false ∧ rget d XLT_PROBE_RES = BitVec.ofNat 64 (2 ^ 63 + 3 * 2 ^ 60) ∧
        RegsBut [XLT_PROBE_RES, XLT_CTR] s.dev d ∧ MemSame s.dev d)) ∧
    (∀ l level, s.dev.probing = true → lookup s.dev (rget s.dev XLT_PROBE_ADDR).toNat = .leaf l level →
      Runs .xltProbeDone s (fun d => d.probing = false ∧
        rget d XLT_PROBE_RES = BitVec.ofNat 64 (2 ^ 63 + 2 ^ 62 + l.size * 2 ^ 60 + attrCode l.attr * 2 ^ 53 + l.node * 2 ^ 32 + l.addr / 2 ^ 16 % 2 ^ 32) ∧
        RegsBut [XLT_PROBE_RES, XLT_CTR] s.dev d ∧ MemSame s.dev d))

/-- R208, R210, R212. The actions of PAT_CTL by a writer that may write it: LOAD from EMPTY or STAGED starts a load of the image that
PAT_LOAD_ADDR and PAT_LOAD_LEN name; SWITCH of a staged image schedules it for the edge it names, or the next; DISCARD of a staged
image empties the stage. In the other stages LOAD and SWITCH change nothing. -/
def Obligations.PatternStageActions : Prop :=
  ∀ (s : State) (by_ : Option PciePort), ownerWrites s.dev by_ = true →
    ((patStage s.dev = 0 ∨ patStage s.dev = 2) →
      Runs (.patCtlLoad by_) s (fun d => patStage d = 1 ∧
        d.pat.loading = some ((rget s.dev PAT_LOAD_ADDR).toNat, fget s.dev PAT_LOAD_LEN_LEN) ∧ d.pat.staged = none ∧
        d.pat.active = s.dev.pat.active ∧ MemSame s.dev d ∧ RegsBut [PAT_STATUS, PAT_STAGED_ID 0, PAT_STAGED_ID 1] s.dev d)) ∧
    (patStage s.dev ≠ 0 → patStage s.dev ≠ 2 → Runs (.patCtlLoad by_) s (fun d => d = s.dev)) ∧
    (patStage s.dev = 2 →
      let e := (rget s.dev PAT_SWITCH_EDGE).toNat
      let n := (rget s.dev TID_COUNT).toNat
      Runs (.patCtlSwitch by_) s (fun d => patStage d = 3 ∧ d.pat.due = (if e ≤ n then n + 1 else e) ∧
        d.pat.staged = s.dev.pat.staged ∧ rget d PAT_SWITCH_DONE = BitVec.ofNat 64 d.pat.due ∧ MemSame s.dev d ∧
        RegsBut [PAT_STATUS, PAT_SWITCH_DONE] s.dev d)) ∧
    (patStage s.dev ≠ 2 → Runs (.patCtlSwitch by_) s (fun d => d = s.dev)) ∧
    (patStage s.dev = 2 → Runs (.patCtlDiscard by_) s (fun d => patStage d = 0 ∧ d.pat.staged = none ∧ d.pat.active = s.dev.pat.active ∧
      MemSame s.dev d ∧ RegsBut [PAT_STATUS, PAT_STAGED_ID 0, PAT_STAGED_ID 1] s.dev d))

/-- R209. A load whose image has been read whole and clean, and which every check of Table 11-5 passes, stages the image and raises
event 18; one that a check refuses ends EMPTY with the reason and the status of that check. -/
def Obligations.PatternLoadEnds : Prop :=
  ∀ (s : State) (body : Option PatBody) (far : List (Nat × Byte)) (e : EccHits) (addr len : Nat) (d0 : Dev) (bs : List Byte),
    s.dev.pat.loading = some (addr, len) → fetchRange s.dev e .fetch far addr len 0 0xFFFF = (d0, .bytes bs false) → d0.pat.loadCmd = none →
    (∀ b, body = some b → loadVerdict d0 bs len body = none →
      Runs (.patLoadDone body far e) s (fun d => patStage d = 2 ∧ d.pat.staged = some (stageImage bs b) ∧ d.pat.loading = none ∧
        fget d PAT_STATUS_REASON = 0 ∧ rbit d (HIF_EVENT 0) 18 = true ∧ rbit d (HIF_EVENT 1) 18 = true)) ∧
    (∀ reason st, reason < 18 → loadVerdict d0 bs len body = some (reason, st) →
      Runs (.patLoadDone body far e) s (fun d => patStage d = 0 ∧ d.pat.staged = none ∧ d.pat.loading = none ∧
        fget d PAT_STATUS_REASON = reason ∧ fget d PAT_STATUS_LAST_STATUS = statusCode st ∧
        rbit d (HIF_EVENT 0) 18 = true ∧ rbit d (HIF_EVENT 1) 18 = true))

/-- R213, R214, R220. The messages of a switch and of the size table at a tide master or a home: the device's own readiness and a
device's ready message are kept; a withdrawal is noted; a member's size figures are kept and the sums go to every member; a
member keeps the sums for the next edge; with no tide running the entries change at once. -/
def Obligations.AgreementAndSizes : Prop :=
  ∀ (s : State) (m : Msg) (d0 : Dev),
    (patStage s.dev = 3 → s.dev.tide.sentReady = false → s.dev.tide.withdrawn = false → quiesced s.dev = true → tideRole s.dev ≠ 0 →
      let f := readyFigures s.dev
      Runs .switchReady s (fun d => d = tryArrive (keepReady { s.dev with tide := { s.dev.tide with sentReady := true } }
        (nodeId s.dev) f.1 f.2.1 f.2.2))) ∧
    (∀ job id digest, takeMsg s.dev (fun m => match m.body with | .mgmt (.ready _ _ _) => true | _ => false) = some (m, d0) →
      m.body = .mgmt (.ready job id digest) → tideRole s.dev ≠ 0 →
      Runs .readyMessage s (fun d => d = tryArrive (keepReady d0 m.src job id digest))) ∧
    (takeMsg s.dev (fun m => match m.body with | .mgmt (.withdraw _ _ _) => true | _ => false) = some (m, d0) → tideRole s.dev ≠ 0 →
      Runs .switchWithdrawal s (fun d => d = amendEdge (tryArrive { d0 with tide := { d0.tide with heardWithdraw := true } }))) ∧
    (∀ k words p, takeMsg s.dev (fun m => match m.body with | .mgmt (.sizReport _ _) => true | _ => false) = some (m, d0) →
      m.body = .mgmt (.sizReport k words) → patchDef d0 k = some p → p.home = nodeId d0 →
      let reps := d0.pat.siz.filter (fun e => e.1 != k * 65536 + m.src) ++ [(k * 65536 + m.src, words)]
      let sum := (reps.filter (fun e => e.1 / 65536 == k)).foldl (fun s e => addFigures s e.2) []
      Runs .sizReport s (fun d => d = p.nodes.foldl (fun d n => sendMgmt d n (.sizSum k sum)) { d0 with pat := { d0.pat with siz := reps } })) ∧
    (∀ k words, takeMsg s.dev (fun m => match m.body with | .mgmt (.sizSum _ _) => true | _ => false) = some (m, d0) →
      m.body = .mgmt (.sizSum k words) →
      Runs .sizSum s (fun d => d = { d0 with pat := { d0.pat with sums := d0.pat.sums.filter (fun s => s.1 != k) ++ [(k, words)] } })) ∧
    (tideState s.dev ≠ 1 → Runs .sizIdleUpdate s (fun d => d = sizUpdate s.dev true))

/-- R228, R236, R238. A ROOT that may begin its tide: START of a stopped tide and RESUME of a halted one, with no edge pending and no
thread in BREAK, announce the next edge one lead ahead; STOP of a pending edge marks it and sends it again; a running ROOT under
FAULT announces its edge at the nominal time, or one lead ahead if that is later. -/
def Obligations.TideControl : Prop :=
  ∀ (s : State) (by_ : Option PciePort) (t : Nat),
    let lead := fget s.dev TID_PARAM_LEAD_NS
    let nominal := (rget s.dev TID_LAST_TIME).toNat + fget s.dev TID_PARAM_PERIOD_NS
    ownerWrites s.dev by_ = true → tideRole s.dev = 2 →
    (tideState s.dev = 0 → s.dev.tide.next = none → breakHere s.dev = false →
      Runs (.tidCtlStart by_ false t) s (fun d => ∃ a, d.tide.next = some a ∧ a.n = tideNo s.dev + 1 ∧ a.fireAt = max s.dev.now t + lead ∧
        a.stop = s.dev.tide.stopAsked ∧ MemSame s.dev d ∧ RegsBut [] s.dev d ∧ d.cells = s.dev.cells)) ∧
    (tideState s.dev = 2 → s.dev.tide.next = none → breakHere s.dev = false →
      Runs (.tidCtlResume by_ false t) s (fun d => ∃ a, d.tide.next = some a ∧ a.n = tideNo s.dev + 1 ∧ a.fireAt = max s.dev.now t + lead ∧
        MemSame s.dev d ∧ RegsBut [] s.dev d ∧ d.cells = s.dev.cells)) ∧
    (∀ a, s.dev.tide.next = some a →
      Runs (.tidCtlStop by_) s (fun d => d.tide.next = some { a with stop := true } ∧ MemSame s.dev d ∧ RegsBut [] s.dev d ∧
        d.cells = s.dev.cells)) ∧
    (tideState s.dev = 1 → s.dev.tide.next = none → Runs (.tidCtlStop by_) s (fun d => d = { s.dev with tide := { s.dev.tide with stopAsked := true } })) ∧
    (tideState s.dev = 1 → s.dev.tide.next = none → breakHere s.dev = false → fbit s.dev TID_PARAM_POLICY = true → nominal ≤ max s.dev.now t + lead →
      Runs (.edgeAnnounce false t) s (fun d => ∃ a, d.tide.next = some a ∧ a.n = tideNo s.dev + 1 ∧
        a.fireAt = max nominal (max s.dev.now t + lead) ∧ a.overrun = false ∧ MemSame s.dev d ∧ RegsBut [] s.dev d ∧ d.cells = s.dev.cells))

/-- R229, R230, R464. A pending edge fires: by the message at its fire time, or at once if that had passed when it was heard; by TIDE_IN
at the stamped time plus the pin's delay, when that lies within 1 µs of the fire time; and 1 µs late when the pin's window passes.
With no edge pending nothing fires. -/
def Obligations.TideEdgesFire : Prop :=
  ∀ (s : State) (en : TideEnergy),
    (∀ a, s.dev.tide.next = some a → fbit s.dev TID_CFG_SRC = false →
      Runs (.tideEdge en) s (fun d => d = fireEdge s.dev a (max a.fireAt a.heardAt) (decide (a.fireAt < a.heardAt)) en)) ∧
    (∀ a stamp, s.dev.tide.next = some a → fbit s.dev TID_CFG_SRC = true → tideRole s.dev ≠ 2 →
      let t := stamp + fget s.dev TID_CFG_PIN_DELAY
      a.fireAt ≤ t + 1000 → t ≤ a.fireAt + 1000 →
      Runs (.tideInEdge stamp en) s (fun d => d = fireEdge s.dev a t (decide (a.fireAt < a.heardAt)) en)) ∧
    (∀ a, s.dev.tide.next = some a → fbit s.dev TID_CFG_SRC = true → tideRole s.dev ≠ 2 →
      Runs (.tideInWindowExpire en) s (fun d => d = fireEdge s.dev a (max (a.fireAt + 1000) a.heardAt) true en)) ∧
    (s.dev.tide.next = none → Runs (.tideEdge en) s (fun d => d = s.dev))

/-- R227, R229, R231 to R233, R239. The tide's other events: TID_CFG is written by a writer that may; an edge message of an edge to come is
held at a device that is no ROOT; a child's ARRIVE of the current tide counts; a request for the time is answered and the answer
of the upstream neighbour sets the time base; a tide whose edges stay away is lost; an overrun record becomes valid and goes to the
fault log. -/
def Obligations.TideEvents : Prop :=
  ∀ (s : State) (t : Nat) (m : Msg) (d0 : Dev),
    (∀ by_ v, ownerWrites s.dev by_ = true →
      Runs (.tidCfgWrite by_ v) s (fun d => d = tidCfgSet s.dev (bitsOf v 62 2) (bitsOf v 61 1) (bitsOf v 48 4) (bitsOf v 0 16))) ∧
    (∀ n fireAt o sw st why param,
      takeMsg s.dev (fun m => m.rid == fget s.dev TID_CFG_UP_PORT && (match m.body with | .tide (.edge _ _ _ _ _ _ _) => true | _ => false)) = some (m, d0) →
      m.body = .tide (.edge n fireAt o sw st why param) → tideRole s.dev = 0 → n ≠ tideNo s.dev → tideState s.dev = 1 → s.dev.tide.next = none →
      let a : Announce := ⟨n, fireAt, o, sw, why, st, param, max s.dev.now t⟩
      Runs (.edgeMessage t) s (fun d => d.tide.next = some a ∧ MemSame s.dev d ∧ RegsBut [] s.dev d ∧ d.cells = s.dev.cells)) ∧
    (takeMsg s.dev (fun m => match m.body with | .tide (.arrive n) => decide (n ≤ tideNo s.dev) | _ => false) = some (m, d0) →
      m.body = .tide (.arrive (tideNo s.dev)) → m.rid ∈ s.dev.tide.children → m.rid ∉ s.dev.tide.arrived →
      Runs .arriveMessage s (fun d => d = tryArrive { d0 with tide := { d0.tide with arrived := d0.tide.arrived ++ [m.rid] } })) ∧
    (takeMsg s.dev (fun m => match m.body with | .tide (.timeSync _) => true | _ => false) = some (m, d0) → tideRole s.dev ≠ 2 →
      m.rid = fget s.dev TID_CFG_UP_PORT → Runs (.timeSync t) s (fun d => d = { fset d0 TID_STATUS_LOCKED 1 with now := t })) ∧
    (tideRole s.dev ≠ 2 → tideState s.dev = 1 → s.dev.tide.next = none →
      (rget s.dev TID_LAST_TIME).toNat + fget s.dev TID_PARAM_PERIOD_NS + fget s.dev TID_STRETCH_MAX_NS + 1000000 < t →
      Runs (.tideLostTimeout t) s (fun d => tideState d = 3 ∧ d.tide.cfgWritten = false ∧ rbit d (HIF_EVENT 0) 17 = true ∧ MemSame s.dev d ∧
        d.cells = s.dev.cells)) ∧
    (s.dev.tide.ovr.ready = true →
      let o := { s.dev.tide.ovr with valid := true, ready := false }
      let d1 : Dev := { s.dev with tide := { s.dev.tide with ovr := o } }
      Runs .overrunRecordDone s (fun d => d = addFault d1 0x03 .tideOverrun 0 0 0 0 (if o.fault then 1 else 0) o.edge o.stretch (ovrBytes d1)))

/-- R356, R357. A region that is on takes the lower of its governor and thermal steps, no more than 8; only that step and the step
counters change. -/
def Obligations.StepsComplete : Prop :=
  ∀ (s : State) (r : RegionId), rbit s.dev PWR_POLDER_ON r = true →
    Runs (.freqStepComplete r) s (fun d =>
      fget d (PWR_RGN_STEP r) = min 8 (min (fget s.dev (PWR_RGN_GOV_STEP r)) (fget s.dev (PWR_RGN_THM_STEP r))) ∧
      (fget s.dev (PWR_RGN_STEP r) < fget d (PWR_RGN_STEP r) →
        fget d PWR_CTR_STEPS_UP = min (fget s.dev PWR_CTR_STEPS_UP + 1) (2 ^ PWR_CTR_STEPS_UP.wid - 1)) ∧
      MemSame s.dev d ∧ d.cells = s.dev.cells ∧ RegsBut [(PWR_RGN_STEP r).off, PWR_CTR] s.dev d)

/-- R353, R363 to R368. Polders and pools: a write of PWR_POLDER_OFF that changes no bit leaves the regions as they are; a write of
PWR_POLDER_OFF_HI that names part of a tier is ignored and counted; the pool's home keeps a member's report and acknowledges it; an
acknowledgement ends the silence; a shift that comes while the tide runs waits for the edge, and else is in force at once; a positive
shift is given up after 4 silent edges. -/
def Obligations.PowerCommands : Prop :=
  ∀ (s : State) (m : Msg) (d0 : Dev) (by_ : Option PciePort),
    (ownerWrites s.dev by_ = true →
      Runs (.pwrPolderOffWrite by_ (rget s.dev PWR_POLDER_OFF)) s (fun d => rget d PWR_POLDER_OFF = rget s.dev PWR_POLDER_OFF ∧
        rget d PWR_POLDER_ON = rget s.dev PWR_POLDER_ON ∧ MemSame s.dev d ∧ d.cells = s.dev.cells)) ∧
    (∀ v : Word, ownerWrites s.dev by_ = true → v.toNat % 64 ≠ 0 → v.toNat % 64 ≠ 63 →
      Runs (.pwrPolderOffHiWrite by_ v) s (fun d => d = fcount s.dev PWR_CTR_BAD_REQ 1)) ∧
    (∀ e slack base shift limit p, takeMsg s.dev (fun m => match m.body with | .mgmt (.slackReport _ _ _ _ _) => true | _ => false) = some (m, d0) →
      m.body = .mgmt (.slackReport e slack base shift limit) → poolPatch d0 = some p → p.home = nodeId d0 → m.src ∈ p.nodes →
      Runs .slackReport s (fun d => (∃ x ∈ d.pwr.pool, x.node = m.src ∧ x.slacks.head? = some slack ∧ x.base = base ∧ x.shift = shift ∧
        x.limit = limit) ∧ MemSame s.dev d ∧ RegsBut [] s.dev d ∧ d.cells = s.dev.cells)) ∧
    (takeMsg s.dev (fun m => match m.body with | .mgmt .slackAck => true | _ => false) = some (m, d0) →
      Runs .slackReportAck s (fun d => d = { d0 with pwr := { d0.pwr with quiet := 0 } })) ∧
    (∀ delta, takeMsg s.dev (fun m => match m.body with | .mgmt (.budgetShift _) => true | _ => false) = some (m, d0) →
      m.body = .mgmt (.budgetShift delta) →
      let v := s.dev.pwr.shiftNew.getD (shiftWatts s.dev) + delta
      let d1 : Dev := { d0 with pwr := { d0.pwr with quiet := 0 } }
      (tideState s.dev = 1 → Runs .budgetShift s (fun d => d = { d1 with pwr := { d1.pwr with shiftNew := some v } })) ∧
      (tideState s.dev ≠ 1 → Runs .budgetShift s (fun d => d = setShift d1 v))) ∧
    (0 < shiftWatts s.dev → 4 ≤ s.dev.pwr.quiet →
      Runs .shiftTimeout s (fun d => d = setShift { s.dev with pwr := { s.dev.pwr with shiftNew := none } } 0)) ∧
    (∀ p, poolPatch s.dev = some p → p.home = nodeId s.dev → shiftInt s.dev ≤ s.dev.pwr.sinceMove → shiftMove s.dev p = none →
      let pool := s.dev.pwr.pool.map (fun x => { x with slacks := [] })
      Runs .shiftInterval s (fun d => d = { s.dev with pwr := { s.dev.pwr with sinceMove := 0, pool := pool } }))

/-- R368, R369, R460. The stop by hardware: COOL_FAIL_N low begins it on a part whose base die is powered, with every ready bit but
KEEPER, PREC and CARRIER clear, and its stages follow in order: links, then regions and the test polder, then tiers, then
Keeper-only; COOL_FAIL_N high again starts the second of R369. -/
def Obligations.HardwareStop : Prop :=
  ∀ (s : State) (t : Nat),
    (s.dev.kpr.vaux = true → s.dev.pwr.state < 3 → s.dev.kpr.stop = none →
      Runs .coolFailAssert s (fun d => d.kpr.coolLow = true ∧ d.kpr.stop = some (0, 2) ∧ rget d KPR_RGN_READY = 0 ∧
        (rget d KPR_READY).toNat = (rget s.dev KPR_READY).toNat % 8)) ∧
    (s.dev.kpr.coolLow = true →
      let n := max s.dev.now t
      Runs (.coolFailDeassert t) s (fun d => d = { s.dev with now := n, kpr := { s.dev.kpr with coolLow := false, coolAt := n } })) ∧
    (∀ last, s.dev.kpr.stop = some (0, last) → Runs .coolantStopStage s (fun d => d.kpr.stop = some (1, last))) ∧
    (∀ last, s.dev.kpr.stop = some (1, last) → Runs .coolantStopStage s (fun d => d.kpr.stop = some (2, last) ∧
      ∀ a, nearIn (fun _ => true) a = true → rdByte d a = 0)) ∧
    (∀ last, s.dev.kpr.stop = some (2, last) → Runs .coolantStopStage s (fun d => d.kpr.stop = some (3, last) ∧ d.hbmList = [] ∧ d.ddrList = [] ∧
      ∀ a, a < 0x020000000000 → rdByte d a = 0)) ∧
    (∀ last, last < 8 → s.dev.kpr.stop = some (3, last) → s.dev.kpr.vaux = true →
      Runs .coolantStopStage s (fun d => d.kpr.stop = none ∧ d.pwr.state = 3 ∧ rget d PWR_POLDER_ON = 0 ∧ rget d PWR_POLDER_ON_HI = 0x8000 ∧
        fget d KPR_START_LAST_STOP = last ∧ d.cells = [] ∧ d.mem = [] ∧ d.flog = s.dev.flog))

/-- R379, R381, R382, R371. Throttling: a region with a trigger for 1 ms rises by one level, below level 8 and not above 3 before its step is in
force; one without for 10 ms falls by one, to no lower than the floor; a comparator trips its region, whose cells stop and whose ready bit
clears; a tripped region cool for 10 ms restarts at step 3. A sample while the keeper does not run changes nothing. -/
def Obligations.ThermalCommands : Prop :=
  ∀ (s : State) (r : RegionId),
    let lv := fget s.dev (THM_RGN_STATUS_LEVEL r)
    (rbit s.dev THM_TRIPPED r = false → 10 ≤ (getThm s.dev r).held → lv ≤ 3 →
      Runs (.throttleLevelTimer r) s (fun d => fget d (THM_RGN_STATUS_LEVEL r) = lv + 1 ∧ (getThm d r).held = 0 ∧
        fget d (COL_THROTTLE_SRAM_LIMIT r) = levelLimit (lv + 1) ∧ fget d (COL_THROTTLE_DRAM_LIMIT r) = levelLimit (lv + 1) ∧
        MemSame s.dev d ∧ d.cells = s.dev.cells)) ∧
    (rbit s.dev THM_TRIPPED r = false → (getThm s.dev r).held < 10 → 100 ≤ (getThm s.dev r).quiet → levelFloor s.dev r < lv →
      Runs (.throttleLevelTimer r) s (fun d => fget d (THM_RGN_STATUS_LEVEL r) = lv - 1 ∧ (getThm d r).quiet = 0 ∧
        fget d (COL_THROTTLE_SRAM_LIMIT r) = levelLimit (lv - 1) ∧ MemSame s.dev d ∧ d.cells = s.dev.cells)) ∧
    (rbit s.dev PWR_POLDER_ON r = true → rbit s.dev THM_TRIPPED r = false →
      Runs (.dieComparatorTrip r) s (fun d => rbit d THM_TRIPPED r = true ∧ rbit d KPR_RGN_READY r = false ∧ cellRuns d (64 * (8 * (r.val / 8)) + 8 * (r.val % 8)) = false ∧
        fget d (THM_RGN_STATUS_LEVEL r) = 9 ∧ MemSame s.dev d ∧ d.cells = s.dev.cells)) ∧
    (rbit s.dev THM_TRIPPED r = true → 100 ≤ (getThm s.dev r).cool →
      Runs (.tripRestart r) s (fun d => rbit d THM_TRIPPED r = false ∧ fget d (PWR_RGN_THM_STEP r) = 3 ∧
        fget d (PWR_RGN_STEP r) = min 3 (fget s.dev (PWR_RGN_GOV_STEP r)) ∧ MemSame s.dev d ∧ d.cells = s.dev.cells)) ∧
    (∀ ms t, s.dev.kpr.running = true → s.dev.pwr.state < 3 → (∀ k, k < 64 → rbit s.dev PWR_POLDER_ON k = false) →
      Runs (.thermalSample ms t) s (fun d => fget d THM_STATUS_DIE_MAX = 0 ∧ fget d THM_STATUS_MEM_MAX = 0 ∧ d.now = max s.dev.now t ∧
        MemSame s.dev d ∧ RegsBut [THM_STATUS] s.dev d))

/-- R270 to R272, R278, R279, R281. The messages of an instance at the member they are for: DATA is kept for the engine, once, on the DN
edge of its sender; RESULT is kept and passed on; CREDIT raises what the engine may send on its edge; ACK is noted; COMMIT and FAIL go
down the distribution tree and end the instance; ABORT makes the root send FAIL. Memory and registers stay as they are at DATA and at an
ACK that is not the root's. -/
def Obligations.CollectiveMessages : Prop :=
  ∀ (s : State) (d0 : Dev) (c : CollMsg) (g gs : GroupDef) (l ls : Layout) (i : CollInst) (sd : SlotDef), c.slot ≠ 256 →
    msgInst d0 c = some i → slotSetup d0 c.slot = some (sd, gs, ls) →
    (∀ e, takeColl s.dev .data = (d0, some (c, g, l)) → dnEdgeOf sd ls c.rank c.sender = some e → heldChunk i.rx e c.chunk = none →
      Runs .data s (fun d => (∃ x, findInst d c.slot c.rank = some x ∧ x.rx = i.rx ++ [(e, c.chunk, c.data)] ∧ x.tx = i.tx ∧ x.combined = i.combined) ∧
        MemSame s.dev d ∧ RegsBut [] s.dev d ∧ d.cells = s.dev.cells)) ∧
    (takeColl s.dev .result = (d0, some (c, g, l)) →
      let e := if isRing sd ls then 1 else 0
      edgeRank sd ls c.rank e = some c.sender →
      Runs .result s (fun d => d = pumpResults (keepChunk d0 c e) c.slot c.rank)) ∧
    (∀ e, takeColl s.dev .credit = (d0, some (c, g, l)) →
      (if edgeRank sd ls c.rank 0 = some c.sender then some 0 else dnEdgeOf sd ls c.rank c.sender) = some e →
      Runs .credit s (fun d => d = pumpResults (modInst d0 c.slot c.rank [e] (fun x =>
        { x with grant := smModify (fun _ => 0) x.grant e (fun n => max n (c.chunk + 1)) })) c.slot c.rank)) ∧
    (∀ p, takeColl s.dev .ack = (d0, some (c, g, l)) → (treeKids l i.rank).findIdx? (fun k => k == c.sender) = some p → c.rank ≠ 0 →
      ¬ i.acks.contains c.sender →
      Runs .ack s (fun d => (∃ x, findInst d c.slot c.rank = some x ∧ x.acks = c.sender :: i.acks ∧ x.ackSent = i.ackSent) ∧
        MemSame s.dev d ∧ RegsBut [] s.dev d ∧ d.cells = s.dev.cells)) ∧
    (takeColl s.dev .commit = (d0, some (c, g, l)) → Runs .commit s (fun d => d = spreadOutcome d0 c.slot c.rank .commit .ok)) ∧
    (takeColl s.dev .abort = (d0, some (c, g, l)) → Runs .clvAbort s (fun d => d = spreadOutcome d0 c.slot c.rank .fail c.status)) ∧
    (takeColl s.dev .fail = (d0, some (c, g, l)) → Runs .fail s (fun d => d = spreadOutcome d0 c.slot c.rank .fail c.status))

/-- R77, R275 to R277, R281. The messages of a matrix chain at a part of it: POST lets the part's own tile go up once it is ready, and
changes nothing if its PASS is another's; TILE is kept in its place, and the last one is combined and written for CHAIN_ADD; RERUN and DONE
go down the tree first, and then the part runs again at the raised target, or ends. -/
def Obligations.ChainMessages : Prop :=
  ∀ (s : State) (d0 : Dev) (c : CollMsg) (g : GroupDef) (l : Layout) (ch : Chain),
    (takeColl s.dev .post = (d0, some (c, g, l)) → msgChain d0 g c = some ch →
      (ch.pass ≠ c.pass → Runs .post s (fun d => d = d0)) ∧
      (ch.pass = c.pass → Runs .post s (fun d => d =
        chainSend (modChainHeard d0 ch.group ch.tag ch.rank [0] (fun x => { x with postsIn := true })) ch.group ch.tag ch.rank))) ∧
    (∀ p ch', takeColl s.dev .tile = (d0, some (c, g, l)) → msgChain d0 g c = some ch →
      (dnRanks l c.rank).findIdx? (fun k => k == c.sender) = some p → ch.pass = c.pass → ch.posted.isSome →
      let d1 := modChainHeard d0 ch.group ch.tag ch.rank [p + 1] (fun x =>
          if (heldChunk x.tiles (p + 1) c.chunk).isSome then x else { x with tiles := x.tiles ++ [(p + 1, c.chunk, c.data)] })
      findChain d1 ch.group ch.tag ch.rank = some ch' →
      Runs .tile s (fun d => d = placeTile d1 ch' l)) ∧
    (takeColl s.dev .done = (d0, some (c, g, l)) →
      let d1 := chainSpread d0 g l c.rank c
      msgChain d1 g c = some ch →
      let st := if ch.rank = 0 then c.status else .ok
      Runs .done s (fun d => d = countTag (finishChain d1 ch st c.value c.aObs true) 4 ch.tag st)) ∧
    (takeColl s.dev .rerun = (d0, some (c, g, l)) →
      let d1 := chainSpread d0 g l c.rank c
      msgChain d1 g c = some ch → ch.pass = true → Runs .rerun s (fun d => d = d1)) ∧
    (∀ e, takeColl s.dev .rerun = (d0, some (c, g, l)) →
      let d1 := chainSpread d0 g l c.rank c
      msgChain d1 g c = some ch → ch.pass = false → ch.posted = none →
      let d2 := fcount (modChainHeard (chainDigests d1 ch) ch.group ch.tag ch.rank [5] (fun x =>
        { x with pass := true, postsIn := false, ready := none, sentUp := none, tiles := [], combined := false }))
        (MTX_REPEAT_CHAIN_RERUNS ch.cell.val) 1
      waitingMma (getCell d2 ch.cell.val) ch.group ch.tag = some e →
      Runs .rerun s (fun d => d = modCell d2 ch.cell.val (fun x => { x with redo := x.redo ++
        [{ e with cmd := { e.cmd with anchor := .explicit, anchorV := ofSigned 64 c.value } }] }))) ∧
    (c.slot = 256 → takeColl s.dev .abort = (d0, some (c, g, l)) → msgChain d0 g c = some ch →
      Runs .clvAbort s (fun d => d = finishChain (chainSpread d0 g l c.rank { c with kind := .fail }) ch c.status 0 0 false)) ∧
    (c.slot = 256 → takeColl s.dev .fail = (d0, some (c, g, l)) → msgChain (chainSpread d0 g l c.rank c) g c = some ch →
      Runs .fail s (fun d => d = finishChain (chainSpread d0 g l c.rank c) ch c.status 0 0 false))

/-- R268, R270, R271, R274, R279 to R282. A slot's next instance launches once its launch gauge has come and the one before has ended; a
chunk is combined only when every DN edge's chunk is held and every edge it goes on has credit, and a native one sends the member's sum; a
member whose work is done sends ACK, and the root COMMIT; a wait over its limit latches RETIRED_RESOURCE. -/
def Obligations.CollectiveWork : Prop :=
  ∀ (s : State) (slot : Fin 256) (rank : Nat) (sd : SlotDef) (g : GroupDef) (l : Layout), slotSetup s.dev slot = some (sd, g, l) →
    (∀ n, n = smGet (fun _ => 0) s.dev.clv.launched (memberKey slot rank) →
     rank ∈ ranksHere s.dev l → findInst s.dev slot rank = none →
      ((n + 1) * sd.gauges.step ≤ seenGauge (getCell s.dev (memberCell l rank)) sd.gauges.launch →
        Runs (.clvLaunch slot rank) s (fun d => (∃ i, findInst d slot rank = some i ∧ i.num = n ∧
            i.half = smGet (fun _ => 0) s.dev.clv.committed (memberKey slot rank) % 2 ∧ i.combined = [] ∧ i.written = []) ∧
          smGet (fun _ => 0) d.clv.launched (memberKey slot rank) = n + 1 ∧ MemSame s.dev d ∧ d.cells = s.dev.cells)) ∧
      (seenGauge (getCell s.dev (memberCell l rank)) sd.gauges.launch < (n + 1) * sd.gauges.step →
        Runs (.clvLaunch slot rank) s (fun d => d = s.dev))) ∧
    (∀ i, findInst s.dev slot rank = some i →
      (∀ k e it j, findItem sd (collItems sd l rank) k = some (it, j) →
        ((i.latched.isSome ∨ k ∈ i.combined ∨ (∃ b, it.up = some b ∧ credited i 0 (b + j) = false) ∨
          (∃ p ∈ it.ins, heldChunk i.rx p.1 (p.2 + j) = none)) → Runs (.clvCombine slot rank k e) s (fun d => d = s.dev)) ∧
        (∀ b d1 own, i.latched = none → k ∉ i.combined → sd.compressed = false → it.own = true → it.up = some b → it.down = none → it.dst = none →
          credited i 0 (b + j) = true → (∀ p ∈ it.ins, (heldChunk i.rx p.1 (p.2 + j)).isSome) →
          engineRead s.dev e (memberCell l rank) (sd.src + it.src * slotElem sd + 128 * j) (min 128 (wireBytes sd it.count - 128 * j)) = (d1, .ok, own) →
          let sum := combineNative sd it j own (it.ins.map (fun p => (heldChunk i.rx p.1 (p.2 + j)).getD []))
          let d2 := sendChunk d1 sd g l slot rank 0 (b + j) (if it.result then .result else .data) sum.wire
          let d3 := it.ins.foldl (fun d p => grantMore d sd g l slot rank p.1) d2
          Runs (.clvCombine slot rank k e) s (fun d => d = modInst d3 slot rank [] (fun i => { i with combined := k :: i.combined })))) ∧
      (i.latched = none → i.ackSent = false → workDone sd l i = true → writesHeld s.dev sd = false → (∀ k ∈ treeKids l rank, i.acks.contains k) →
        (rank = 0 → Runs (.clvAckSend slot rank) s (fun d => d = spreadOutcome s.dev slot rank .commit .ok)) ∧
        (∀ p, treeParent rank = some p → Runs (.clvAckSend slot rank) s (fun d =>
          d = modInst (sendRank s.dev g l p (instMsg .ack g i)) slot rank [] (fun i => { i with ackSent := true }) ∧
          MemSame s.dev d ∧ RegsBut [] s.dev d ∧ d.cells = s.dev.cells))) ∧
      (workDone sd l i = false → Runs (.clvAckSend slot rank) s (fun d => d = s.dev)) ∧
      (∀ tag t, i.latched = none → waitsOver (atTime s.dev t) g i.waits = true →
        Runs (.clvTimeout false slot tag rank t) s (fun d => d = latchInst (fcount (atTime s.dev t) CLV_CTR_TIMEOUTS 1) slot rank .retiredResource)) ∧
      (∀ tag t, waitsOver (atTime s.dev t) g i.waits = false → Runs (.clvTimeout false slot tag rank t) s (fun d => d = atTime s.dev t)))

/-- R287 to R298. Publication, fetch and check of a shard set launch when the set is idle and its gauge has come, and count their
instance; what they read, write and ask for; an unpublished shard starts again after 2 µs; a fetch ends when every shard has its outcome;
an export copies the shard and then writes its digest unless the version changed; an import writes what a good header names, and
poisons it if the digest does not fit. -/
def Obligations.ShardSets : Prop :=
  ∀ (s : State) (k : Fin 64) (e : EccHits) (sd : SetDef) (g : GroupDef) (l : Layout), setSetup s.dev k = some (sd, g, l) →
    (∀ d1 st bad, let v := (setCounts s.dev k).1
      setMayLaunch s.dev k sd l .publish v = true →
      publishShards (traceEv (setCounted s.dev k (fun n => (n.1 + 1, n.2))) 4 0x20 sd.pub.tag 0x100C k .ok (0, 0)) e sd l v = (d1, st, bad) →
      Runs (.ssPublish k e) s (fun d => d = completeSet d1 k .publish st (causeOf st) (if st = .ok then 0 else bad))) ∧
    (∀ d1, setMayLaunch s.dev k sd l .fetch (setCounts s.dev k).2.1 = true →
      d1 = traceEv (fset (setCounted s.dev k (fun c => (c.1, c.2.1 + 1, c.2.2))) (CLV_SS_STATUS_INSTANCE k) ((setCounts s.dev k).2.1 + 1)) 4 0x20
        sd.fet.tag 0x100C k .ok (0, 0) →
      Runs (.ssFetch k) s (fun d => d = failUnasked ((foreignShards d1 l).foldl (fun d x => askRecord d sd l k x)
        { d1 with clv := { d1.clv with setRuns := d1.clv.setRuns ++ [{ set := k, op := .fetch, num := (setCounts s.dev k).2.1, refetch := false,
                                                                       shards := (foreignShards d1 l).map shardFresh, diffs := [] }] } }) k)) ∧
    (∀ d1 d2 run bad, setMayLaunch s.dev k sd l .check (setCounts s.dev k).2.2 = true →
      d1 = traceEv (setCounted s.dev k (fun c => (c.1, c.2.1, c.2.2 + 1))) 4 0x20 sd.chk.tag 0x100C k .ok (0, 0) →
      run = ({ set := k, op := .check, num := (setCounts s.dev k).2.2, refetch := false, shards := (foreignShards d1 l).map shardFresh, diffs := [] } : SetRun) →
      checkOwns d1 e sd l run = (d2, .ok, bad) →
      Runs (.ssCheck k e) s (fun d => d = settleRun (failUnasked ((foreignShards d1 l).foldl (fun d x => askRecord d sd l k x)
        { d2 with clv := { d2.clv with setRuns := d2.clv.setRuns ++ [run] } }) k) k)) ∧
    (∀ r, findRun s.dev k = some r → r.op = .fetch →
      (allSettled r = true → Runs (.ssFetchDone k) s (fun d => d = endRun s.dev l sd r)) ∧
      (allSettled r = false → Runs (.ssFetchDone k) s (fun d => d = s.dev))) ∧
    (∀ r x sh t, let d0 := atTime s.dev t
      findRun d0 k = some r → setSetup d0 k = some (sd, g, l) → r.shards.find? (fun y => y.shard == sh) = some x → x.stage = 3 → x.outcome = none →
      x.since + 2000 ≤ d0.now →
      (waitsOver d0 g x.waits = false → Runs (.fetchShardRetry k sh t) s (fun d => d = settleRun (failUnasked (startShard d0 sd l k sh) k) k)) ∧
      (waitsOver d0 g x.waits = true → Runs (.fetchShardRetry k sh t) s (fun d => d = settleRun (endShard d0 sd l r sh .retiredResource 3) k)))

/-- R297, R298. An export copies its shard and notes its version, and on the second step writes its digest unless the version has changed;
an import writes what a good header names, and poisons it where the digest does not fit. -/
def Obligations.FileCommands : Prop :=
  ∀ (s : State) (k : Fin 32) (e : EccHits) (cmd : HostCmd) (set : Fin 64) (addr : Nat) (sd : SetDef) (g : GroupDef) (l : Layout),
    setSetup s.dev set = some (sd, g, l) →
    let begun := (getRing s.dev k).cmds.find? (fun c => c.started && !c.ended && c.final.isNone && (match c.op with | .stateExport _ _ _ => true | _ => false))
    (∀ sh d1 n v sum, begun = none → nextCmd s.dev k = some cmd → cmd.op = .stateExport set sh addr → sh < layoutSize l → cmd.started = false →
      exportCopy s.dev e sd l sh addr = (d1, .ok, n, v, sum) →
      Runs (.stateExport k e) s (fun d => d = modCmd d1 k cmd.seq (fun c => { c with started := true, result := n, detail := v, spans := [(addr + 104, sum)] }))) ∧
    (∀ sh d1 d2 sum v, begun = some cmd → cmd.op = .stateExport set sh addr → sh < layoutSize l → cmd.started = true → cmd.spans = [(addr + 104, sum)] →
      pubVersion s.dev e sd l sh = (d1, .ok, v) →
      (v ≠ cmd.detail → Runs (.stateExport k e) s (fun d => d = endFileOp d1 k cmd.seq set .aborted 6 sh cmd.result)) ∧
      (v = cmd.detail → engineWrite d1 (setCellOf d1 l) (addr + 104) (leBytes 8 sum) = (d2, .ok) →
        Runs (.stateExport k e) s (fun d => d = endFileOp d2 k cmd.seq set .ok 0 0 cmd.result))) ∧
    (∀ d1 head, nextCmd s.dev k = some cmd → cmd.op = .stateImport set addr → engineRead s.dev e (setCellOf s.dev l) addr 128 = (d1, .ok, head) →
      ((fileHead sd head).ok = false → Runs (.stateImport k e) s (fun d => d = endFileOp d1 k cmd.seq set .aborted 5 0 0)) ∧
      (∀ d2 parts d4, (fileHead sd head).ok = true → importParts d1 e (setCellOf s.dev l) sd (fileHead sd head) addr = (d2, .ok, parts) →
        let ws := importWrites d2 sd l (fileHead sd head) parts
        let spans := ws.map (fun w => (w.1, w.2.length))
        let total := (ws.map (fun w => w.2.length)).sum
        writeSpans (modCmd d2 k cmd.seq (fun c => { c with started := true, spans := spans })) (setCellOf s.dev l) ws = (d4, .ok) →
        (crc64 (parts.flatMap (fun p => p.2)) = (fileHead sd head).digest →
          Runs (.stateImport k e) s (fun d => d = endFileOp d4 k cmd.seq set .ok 0 0 total)) ∧
        (crc64 (parts.flatMap (fun p => p.2)) ≠ (fileHead sd head).digest →
          Runs (.stateImport k e) s (fun d => d = endFileOp (poisonSpans d4 (setCellOf s.dev l) spans) k cmd.seq set .digestMismatch 1 0 total))))

/-- R48, R49, R196, R480. The oldest entry of a cell's DMA queue takes the lowest free tag: a single transfer starts, a list is read; with the
queue empty or no tag free nothing happens. A tag with nothing in progress starts the next descriptor of its list. -/
def Obligations.DmaCommands : Prop :=
  ∀ (s : State) (c : CellId) (e : EccHits),
    (∀ en rest n, (getCell s.dev c).dq = en :: rest →
      [0, 1, 2, 3, 4, 5, 6, 7].find? (fun n => (smGet (fun _ => (none : Option DmaTag)) (getCell s.dev c).tags n).isNone) = some n →
      cellRuns s.dev c = true → ∀ d1 seq, seq = ((getCell s.dev c).dmaSeq + 1) % 2 ^ 32 →
      d1 = setCell s.dev c { getCell s.dev c with dq := rest, dmaSeq := seq, tags := smSet (fun _ => none) (getCell s.dev c).tags n (some
        { entry := en, seq := seq, list := [], listN := 0, todo := [], cur := none, got := [], gotBad := [], writing := false, openReq := 0,
          held := 0, status := .ok }) } →
      (en.cmd.list = true → Runs (.dmaDispatch c e) s (fun d => d = startList d1 e c n en.cmd)) ∧
      (en.cmd.list = false → Runs (.dmaDispatch c e) s (fun d => d = startTransfer d1 e c n
        { src := en.cmd.src, dst := en.cmd.dst, len := en.cmd.len, stride := en.cmd.stride, cache := en.cmd.cache, bad := decide (2 ^ 32 ≤ en.cmd.len) }))) ∧
    ((getCell s.dev c).dq = [] ∨ (∀ n, n < 8 → (dmaTag s.dev c n).isSome) → Runs (.dmaDispatch c e) s (fun d => d = s.dev)) ∧
    (∀ (n : Fin 8) tg t rest, dmaTag s.dev c n = some tg → tg.cur = none → tg.openReq = 0 → tg.status = .ok → cellRuns s.dev c = true →
      (tg.listN = 0 → tg.todo = t :: rest →
        Runs (.dmaDescriptor c n e) s (fun d => d = startTransfer (modTag s.dev c n (fun _ => { tg with todo := rest })) e c n t)) ∧
      (0 < tg.listN →
        Runs (.dmaDescriptor c n e) s (fun d => d = startTransfer (modTag s.dev c n (fun _ =>
          { tg with todo := (List.range (tg.listN - 1)).map (fun i => parseDesc tg.list (i + 1)), listN := 0, list := [] })) e c n (parseDesc tg.list 0))))

/-- R404, R405. A beat that passes on a retry changes nothing; one that does not retires the cell for the session. A mesh hop error that
passes on a retry, or of a link the die does not have, changes nothing; one that does not retires the link with fault record 0x13, and
a router whose second link is retired has its cell retired as well. -/
def Obligations.HopErrors : Prop :=
  ∀ (s : State) (c : CellId) (bundle : Nat) (vertical : Bool),
    Runs (.verticalBeatError c bundle true) s (fun d => d = s.dev) ∧
    Runs (.verticalBeatError c bundle false) s (fun d => d = cellRetire s.dev c 2 bundle ∧ (getCell d c).retired = true ∧ MemSame s.dev d) ∧
    Runs (.meshHopError c vertical true) s (fun d => d = s.dev) ∧
    (linkEnds c vertical = none → Runs (.meshHopError c vertical false) s (fun d => d = s.dev)) ∧
    (∀ a b key n d1, linkEnds c vertical = some (a, b) → key = 2 * c.val + (if vertical then 1 else 0) → key ∉ s.dev.meshOff →
      n = Config.meshLink c (if vertical then 1 else 0) → d1 = ({ s.dev with meshOff := s.dev.meshOff ++ [key] } : Dev) →
      linksOff d1 a < 2 → linksOff d1 b < 2 →
      Runs (.meshHopError c vertical false) s (fun d => d = addFault d1 0x13 .retiredResource 1 11 n 0 0 n 0 []))

/-- The counter clear registers (R87, R138, R158, R204, R241, R263, R286, R299, R310, R323, R370, R385): a write with CLEAR set makes the
counters of its chapter read 0 and changes nothing else; one with CLEAR clear changes nothing. -/
def Obligations.CounterClears : Prop :=
  ∀ (s : State) (c : CellId) (p : PciePort) (v : Word),
    let clears := fun (i : Instr) (os : List Nat) =>
      (v.toNat % 2 = 1 → Runs i s (fun d => (∀ o ∈ os, rget d o = 0) ∧ RegsBut os s.dev d ∧ OnlyRegs s.dev d)) ∧
      (v.toNat % 2 = 0 → Runs i s (fun d => d = s.dev))
    clears (.eleCtrClr c v) [ELE_CTR c, ELE_GATHER c] ∧
    clears (.tidCtrClr v) [TID_CTR] ∧
    clears (.trfCtrClr v) (TRF_CTR :: (List.range 12).flatMap (fun k => [TRF_PORT_LINK k, TRF_PORT_FEC k])) ∧
    clears (.clvCtrClr v) (CLV_CTR :: (List.range 64).map CLV_SS_CTR ++ (List.range 12).flatMap (fun g => (List.range 10).map (CLV_GRP_DIG g))) ∧
    clears (.slcCtrClr v) ((List.range 46).map SLC_CTR) ∧
    clears (.hifCtrClr p v) [HIF_PORT_CTR p] ∧
    clears (.pwrCtrClr v) [PWR_CTR] ∧
    clears (.thmCtrClr v) [THM_CTR] ∧
    (v.toNat % 2 = 1 →
      Runs (.mtxCtrClr c v) s (fun d => rget d (MTX_REPEAT c) = 0 ∧ rget d (MTX_SKIP c) = 0 ∧ (∀ e, e < 64 → fget d (MTX_PRED_MISSES c e) = 0) ∧
        RegsBut (MTX_REPEAT c :: MTX_SKIP c :: (List.range 64).map (fun e => (MTX_PRED_MISSES c e).off)) s.dev d ∧ OnlyRegs s.dev d) ∧
      Runs (.colCtrClr c v) s (fun d => rget d (COL_ECC c) = 0 ∧ rget d (COL_SP_CONFLICT c) = 0 ∧ fget d (COL_STATUS_OWN_DENY c) = 0 ∧
        RegsBut [COL_ECC c, COL_SP_CONFLICT c, (COL_STATUS_OWN_DENY c).off] s.dev d ∧ OnlyRegs s.dev d) ∧
      Runs (.farCtrClr v) s (fun d => (∀ o ∈ [FAR_CTR, FAR_PF, FAR_PF_DROP, FAR_ACQ, XLT_CTR], rget d o = 0) ∧ fget d FAR_STATUS_MISS_HWM = 0 ∧
        RegsBut [FAR_CTR, FAR_PF, FAR_PF_DROP, FAR_ACQ, XLT_CTR, FAR_STATUS_MISS_HWM.off] s.dev d ∧ OnlyRegs s.dev d)) ∧
    (v.toNat % 2 = 0 → Runs (.mtxCtrClr c v) s (fun d => d = s.dev) ∧ Runs (.colCtrClr c v) s (fun d => d = s.dev) ∧
      Runs (.farCtrClr v) s (fun d => d = s.dev))

/-- R451 to R455, R459. Supplies and straps: with VAUX the part is Keeper-only and every other register reads as at reset; without it the
keeper is off too, or a stop by hardware begins; VIN_MAIN lost begins one with LAST_STOP 3; VDDQ_D starts a DDR tier that waits for it, its
loss empties the tier, and 1 s without it settles every DDR channel; straps are read before the keeper runs. -/
def Obligations.Supplies : Prop :=
  ∀ (s : State),
    (s.dev.kpr.vaux = false → Runs .vauxPresent s (fun d => d.kpr.vaux = true ∧ d.kpr.running = false ∧ d.pwr.state = 3 ∧
      rget d PWR_POLDER_ON_HI = 0x8000 ∧ (∀ o, o ≠ PWR_POLDER_ON_HI → rget d o = regDefault o) ∧ d.mem = [] ∧ d.cells = [])) ∧
    (s.dev.kpr.vaux = true → Runs .vauxPresent s (fun d => d = s.dev)) ∧
    (s.dev.kpr.vaux = true → 3 ≤ s.dev.pwr.state → Runs .vauxLoss s (fun d => d.kpr.vaux = false ∧ d.kpr.running = false ∧ d.mem = [] ∧ d.cells = [] ∧
      ∀ o, rget d o = regDefault o)) ∧
    (s.dev.kpr.vaux = true → s.dev.pwr.state < 3 → s.dev.kpr.stop = none → Runs .vauxLoss s (fun d => d.kpr.vaux = false ∧
      d.kpr.stop = some (0, fget s.dev KPR_START_LAST_STOP) ∧ rget d KPR_RGN_READY = 0 ∧ MemSame s.dev d)) ∧
    Runs .vinMainPresent s (fun d => d.kpr = { s.dev.kpr with vin := true } ∧ d.pwr = s.dev.pwr ∧ MemSame s.dev d ∧ RegsBut [KPR_START] s.dev d) ∧
    (s.dev.pwr.state < 3 → s.dev.kpr.stop = none → Runs .vinMainLoss s (fun d => d.kpr.vin = false ∧ d.kpr.stop = some (0, 3) ∧
      rget d KPR_RGN_READY = 0 ∧ MemSame s.dev d)) ∧
    (s.dev.kpr.vddqWait = false → Runs .vddqDPresent s (fun d => d = { s.dev with kpr := { s.dev.kpr with vddq := true } })) ∧
    (s.dev.kpr.vddqWait = true → Runs .vddqDPresent s (fun d => d.kpr = { s.dev.kpr with vddq := true, vddqWait := false } ∧
      fget d ⟨PWR_POLDER_ON_HI, 6, 2⟩ = 3 ∧ fget d ⟨KPR_SETTLED, 16, 8⟩ = 0 ∧ MemSame s.dev d)) ∧
    (polderHi s.dev 6 = false → Runs .vddqDLoss s (fun d => d = { s.dev with kpr := { s.dev.kpr with vddq := false } })) ∧
    (polderHi s.dev 6 = true → Runs .vddqDLoss s (fun d => d.kpr = { s.dev.kpr with vddq := false, vddqWait := true } ∧
      fget d ⟨PWR_POLDER_ON_HI, 6, 2⟩ = 0 ∧ d.ddrList = [] ∧ d.hbmList = s.dev.hbmList ∧
      ∀ a, rdByte d a = if ddrBase ≤ a ∧ a < cdramBase then 0 else rdByte s.dev a)) ∧
    (s.dev.kpr.vddqWait = true → s.dev.kpr.vddq = false → fget s.dev ⟨KPR_SETTLED, 16, 8⟩ = 0 → Runs .vddqWaitTimeout s (fun d =>
      d.kpr = { s.dev.kpr with vddqWait := false } ∧ fget d ⟨KPR_SETTLED, 16, 8⟩ = 0xFF ∧
      (∀ k, k < 8 → fget d (DDR_CH_STATUS_STATE k) = 0 ∧ fget d (DDR_CH_STATUS_REASON k) = 1) ∧ MemSame s.dev d ∧ d.cells = s.dev.cells)) ∧
    Runs .sysclkStable s (fun d => d = { s.dev with kpr := { s.dev.kpr with sysclk := true } }) ∧
    (∀ tide own, s.dev.kpr.vaux = true → s.dev.kpr.running = false → Runs (.strapLatch tide own) s (fun d =>
      d.kpr = { s.dev.kpr with strapTide := tide, strapOwn := own } ∧ fget d TID_CFG_ROLE = (if tide then 2 else 0) ∧
      fget d HIF_CTRL_STRAP = (if own then 1 else 0) ∧ fget d HIF_CTRL_OWNER = (if own then 1 else 0) ∧ MemSame s.dev d ∧
      RegsBut [TID_CFG, HIF_CTRL] s.dev d))

/-- R386 to R393, R415, R422. The keeper starts with its records; bring-up begins from Keeper-only once nothing holds it back, and waits
else; CORE comes with the system clock and switches the ports and the HBM tier on; each step switches eight more regions on. -/
def Obligations.StartUp : Prop :=
  ∀ (s : State) (carrier : Option (List Byte)) (t : Nat),
    (∀ prec, s.dev.kpr.vaux = true → s.dev.kpr.running = false → s.dev.pwr.state = 3 →
      Runs (.keeperStart prec carrier t) s (fun d => d.kpr.running = true ∧ d.kpr.prec = prec ∧ d.kpr.carrier = carrier ∧
        fget d KPR_READY_KEEPER = 1 ∧ fget d KPR_START_CAR_REASON = carReason carrier ∧ fget d KPR_READY_CARRIER = (if carReason carrier = 0 then 1 else 0) ∧
        (∀ p, prec = some p → p.fail = 0 → fget d KPR_READY_PREC = 1 ∧ fget d KPR_PREC_STATUS_SIG_OK = 1 ∧
          fget d SEC_STATUS_ID_OK = (if p.idOk then 1 else 0) ∧ lifecycle d = (if p.retired then 3 else if p.manufact then 0 else 1)) ∧
        MemSame s.dev d ∧ d.cells = s.dev.cells ∧ d.pwr = s.dev.pwr)) ∧
    (∀ d1, d1 = readCarrier (atTime s.dev t) carrier → autoOk s.dev = true →
      (autoOk d1 = true → Runs (.bringUp carrier t) s (fun d => d.kpr.bringing = true ∧ d.kpr.armed = false ∧ d.kpr.groups = 0 ∧ d.pwr.state = 1 ∧
        fget d KPR_START_WAITING = 0 ∧ fget d KPR_START_CAUSE = (if d1.kpr.armed then 1 else if fget d1 KPR_START_LAST_STOP = 3 then 2 else 0) ∧
        rget d KPR_RGN_SETTLED = 0 ∧ MemSame s.dev d ∧ d.cells = s.dev.cells)) ∧
      (autoOk d1 = false → Runs (.bringUp carrier t) s (fun d => d = noteWaiting d1))) ∧
    (autoOk s.dev = false → resetDue s.dev = false → Runs (.bringUp carrier t) s (fun d => d = s.dev)) ∧
    (s.dev.kpr.bringing = true → s.dev.kpr.sysclk = true → fget s.dev KPR_READY_CORE = 0 → Runs .coreReady s (fun d => fget d KPR_READY_CORE = 1 ∧
      rbit d KPR_SETTLED 48 = true ∧ fget d ⟨PWR_POLDER_ON_HI, 12, 2⟩ = 3 ∧
      (rbit s.dev PWR_POLDER_OFF_HI 0 = false → fget d ⟨PWR_POLDER_ON_HI, 0, 6⟩ = 0x3F) ∧ MemSame s.dev d ∧ d.cells = s.dev.cells)) ∧
    (s.dev.kpr.bringing = true → fget s.dev KPR_READY_CORE = 1 → s.dev.kpr.groups < 8 → Runs .regionGroupOn s (fun d =>
      d.kpr.groups = s.dev.kpr.groups + 1 ∧ (∀ i, i < 8 → rbit s.dev PWR_POLDER_OFF (8 * s.dev.kpr.groups + i) = false →
        rbit d PWR_POLDER_ON (8 * s.dev.kpr.groups + i) = true) ∧
      (∀ k, k < 64 → k / 8 ≠ s.dev.kpr.groups → rbit d PWR_POLDER_ON k = rbit s.dev PWR_POLDER_ON k) ∧ MemSame s.dev d ∧ d.cells = s.dev.cells))

/-- R22, R389, R394. The end of bring-up of a region, an HBM stack and a DDR channel: a region that passes is ready, one with a bad I0
bundle is retired; a stack whose device ID the package record does not hold has reason 2 on every channel, and each is settled. -/
def Obligations.BringUpEnds : Prop :=
  ∀ (s : State) (r : RegionId) (stk : Fin 6) (k : Fin 8),
    (∀ test, rbit s.dev PWR_POLDER_ON r = true → rbit s.dev KPR_RGN_SETTLED r = false → test.badI0 = none → test.badLogic = false →
      Runs (.regionSettled r test) s (fun d => rbit d KPR_RGN_READY r = true ∧ rbit d KPR_RGN_SETTLED r = true ∧ d.rgnUp.testBit r = true ∧ MemSame s.dev d)) ∧
    (∀ test b, rbit s.dev PWR_POLDER_ON r = true → rbit s.dev KPR_RGN_SETTLED r = false → test.badI0 = some b →
      Runs (.regionSettled r test) s (fun d => rbit d KPR_RGN_READY r = false ∧ rbit d KPR_RGN_SETTLED r = true ∧ rbit d KPR_DARN_RETIRED r = true ∧
        rbit d PWR_POLDER_ON r = false)) ∧
    (∀ id, polderHi s.dev stk = true → rbit s.dev KPR_SETTLED (8 + stk) = false → fget s.dev KPR_READY_CORE = 1 →
      Runs (.hbmStackSettled stk id []) s (fun d => rbit d KPR_SETTLED (8 + stk) = true ∧ MemSame s.dev d ∧ d.cells = s.dev.cells ∧
        ∀ i, i < 32 → fget d (HBM_CH_STATUS_REASON (32 * stk + i)) =
          if (match s.dev.kpr.prec with | some p => p.hbmIds.getD stk 0 == id | none => false) then 0 else 2)) ∧
    (∀ why, polderHi s.dev (6 + k.val / 4) = true → rbit s.dev KPR_SETTLED (16 + k) = false → fget s.dev KPR_READY_CORE = 1 →
      Runs (.ddrChannelSettled k why) s (fun d => rbit d KPR_SETTLED (16 + k) = true ∧ fget d (DDR_CH_STATUS_REASON k) = why.val ∧
        MemSame s.dev d ∧ d.cells = s.dev.cells))

/-- R399 to R402, R412, R419, R461, R467. SYS_RST_N low asks for a DEVICE reset; a reset's levee is raised once, its scope resets, and it is
lowered when its functions have settled, with an answer to every request; the watchdog restarts the firmware, and drops a patch that
failed twice in 10 s; a target of the I3C bus takes the address it is given. -/
def Obligations.ResetsAndLevees : Prop :=
  ∀ (s : State) (scope target : Nat),
    (s.dev.kpr.vin = true → s.dev.kpr.running = true → s.dev.pwr.state < 3 → s.dev.kpr.stop = none → s.dev.kpr.resets = [] →
      Runs .sysRstAssert s (fun d => d.kpr.rstLow = true ∧ d.kpr.resets = [{ scope := 4, target := 0, raised := false, owed := [] }] ∧
        fget d KPR_RESET_STATUS_BUSY = 1 ∧ fget d KPR_RESET_STATUS_SCOPE = 4 ∧ MemSame s.dev d ∧ d.cells = s.dev.cells)) ∧
    Runs .sysRstDeassert s (fun d => d.kpr = { s.dev.kpr with rstLow := false } ∧ MemSame s.dev d ∧ RegsBut [KPR_START] s.dev d) ∧
    (∀ run rs ls d1, run ∈ s.dev.kpr.resets → run.scope = scope → run.target = target → run.raised = false →
      rs = s.dev.kpr.resets.map (fun r => if r.scope == scope && r.target == target && !r.raised then { r with raised := true } else r) →
      ls = s.dev.levees.filter (fun l => !scopeHas (scope, target) l) ++ [(scope, target)] →
      d1 = ({ s.dev with kpr := { s.dev.kpr with resets := rs }, levees := ls } : Dev) →
      Runs (.leveeRaise scope target) s (fun d => d = bar2Wake (noteResets (resetScope (leveeRecord d1 (scope, target)) (scope, target))))) ∧
    ((∀ r ∈ s.dev.kpr.resets, ¬(r.scope = scope ∧ r.target = target ∧ r.raised = false)) → Runs (.leveeRaise scope target) s (fun d => d = s.dev)) ∧
    (∀ run, s.dev.kpr.resets.find? (fun r => r.scope == scope && r.target == target && r.raised) = some run → run.owed = [] → scopeSettled s.dev scope = true →
      Runs (.leveeLower scope target) s (fun d => d.kpr = { s.dev.kpr with resets := s.dev.kpr.resets.erase run } ∧
        d.levees = s.dev.levees.filter (fun l => l != (scope, target)) ∧ fget d KPR_RESET_STATUS_BUSY = (if s.dev.kpr.resets.erase run = [] then 0 else 1) ∧
        MemSame s.dev d ∧ d.cells = s.dev.cells)) ∧
    (∀ run, s.dev.kpr.resets.find? (fun r => r.scope == scope && r.target == target && r.raised) = some run → scopeSettled s.dev scope = false →
      Runs (.leveeLower scope target) s (fun d => d = s.dev)) ∧
    (∀ t, s.dev.kpr.running = true → Runs (.keeperWatchdog false t) s (fun d => d = restartRecord (atTime s.dev t))) ∧
    (∀ t t0, s.dev.kpr.running = true → s.dev.kpr.patch.isSome → s.dev.kpr.wdAt = some t0 →
      (max s.dev.now t ≤ t0 + 10000000000 → Runs (.keeperWatchdog true t) s (fun d => d.kpr.patch = none ∧ fget d SEC_STATUS_FW_PATCHED = 0 ∧
        fget d SEC_STATUS_FW_DROPPED = 1 ∧ MemSame s.dev d ∧ d.cells = s.dev.cells)) ∧
      (t0 + 10000000000 < max s.dev.now t → Runs (.keeperWatchdog true t) s (fun d => d.kpr.patch = s.dev.kpr.patch ∧
        d.kpr.wdAt = some (max s.dev.now t) ∧ MemSame s.dev d ∧ d.cells = s.dev.cells))) ∧
    (∀ addr, s.dev.kpr.running = true → fget s.dev KPR_READY_CARRIER = 1 → (recField (s.dev.kpr.carrier.getD []) 51 1).testBit 1 = true →
      Runs (.dynamicAddressAssign addr) s (fun d => d = { s.dev with kpr := { s.dev.kpr with i3c := true, dynAddr := some addr.val } }))

/-- R347, R359, R364, R368, R369, R398, R408, R410, R411, R433. What each keeper operation does with a well-formed request that its mailbox may
make, while the package record and the identity are verified: the request is taken, and its effect and response follow. -/
def Obligations.KeeperOperations : Prop :=
  ∀ (s : State) (m : Fin 3) (bs : List Byte) (d1 : Dev) (q : KeeperReq), s.dev.kpr.running = true →
    slcFront s.dev (40 + m) = some bs → opFormed bs = true → d1 = slcRelease (slcTake s.dev (40 + m)) (40 + m) 1 →
    q = ⟨m, leAt bs 0 2, leAt bs 2 2⟩ → fget d1 KPR_PREC_STATUS_SIG_OK = 1 → fget d1 SEC_STATUS_ID_OK = 1 → opAdmits d1 q.op m = true →
    (lifecycle d1 ≠ 3 ∨ opRetired q.op = true) →
    (q.op = 0x01 → Runs (.status m) s (fun d => d = kprRespond d1 q .ok false
      ([KPR_READY, KPR_START, PWR_STATUS, PWR_CAP, THM_STATUS, TID_COUNT].flatMap (regBytes d1) ++ leBytes 1 (lifecycle d1) ++ leBytes 1 d1.pwr.state ++ zeros 6))) ∧
    (q.op = 0x02 → ∀ r, d1.flog.find? (fun r => r.seq == leAt bs 8 8) = some r →
      Runs (.flogDump m) s (fun d => d = kprRespond d1 q .ok false ((List.range 56).map (fun i => flogByte d1 ((r.off + leAt bs 16 4 + i) % flogSize))))) ∧
    (q.op = 0x03 → Runs (.quote m) s (fun d => d = (List.range 15).foldl (fun d k =>
      kprRespond d q .ok (k != 14) (bytesFrom (quote d1 (bytesFrom bs 8 32)) (56 * k) 56)) d1)) ∧
    (q.op = 0x04 → scopeValid (leAt bs 8 1) (leAt bs 10 2) = true → d1.kpr.stop = none → d1.pwr.state < 3 →
      Runs (.scopeReset m) s (fun d => d = requestReset d1 (leAt bs 8 1) (leAt bs 10 2) [q])) ∧
    (q.op = 0x05 → Runs (.powerOff m) s (fun d => d = kprRespond (powerOff d1 1) q .ok false [])) ∧
    (∀ carrier d2 d3, q.op = 0x06 → leAt bs 8 1 = 0 →
      (d1.pwr.state < 3 → d1.kpr.stop = none → Runs (.powerOn m carrier 0) s (fun d => d = kprRespond d1 q .ok false [])) ∧
      (d1.pwr.state = 3 → d1.kpr.stop = none → d2 = readCarrier d1 carrier → fget d1 KPR_START_LAST_STOP ≠ 4 →
        ((coolantOk d2 d2.now = false ∨ recordsOk d2 = false) → Runs (.powerOn m carrier 0) s (fun d => d = kprRespond d2 q .notReady false [])) ∧
        (coolantOk d2 d2.now = true → recordsOk d2 = true → d3 = kprRespond { d2 with kpr := { d2.kpr with armed := true } } q .ok false [] →
          (autoOk d3 = true → Runs (.powerOn m carrier 0) s (fun d => d = coldStart d3 1)) ∧
          (autoOk d3 = false → Runs (.powerOn m carrier 0) s (fun d => d = noteWaiting d3))))) ∧
    (q.op = 0x07 → d1.kpr.stop = none → d1.pwr.state < 3 → Runs (.coolantStop m) s (fun d => d = kprRespond (coolRecord (hwStop d1 4) 2) q .ok false [])) ∧
    (∀ v, q.op = 0x08 → v = capClamp (leAt bs 8 2) →
      (tideState d1 = 1 → Runs (.rackCap m) s (fun d => d = kprRespond { d1 with pwr := { d1.pwr with rackNew := some v } } q .ok false (leBytes 2 v))) ∧
      (tideState d1 ≠ 1 → Runs (.rackCap m) s (fun d => d = kprRespond (capUpdate (fset d1 PWR_CAP_RACK v)) q .ok false (leBytes 2 v)))) ∧
    (q.op = 0x09 → Runs (.powerRead m) s (fun d => d = kprRespond d1 q .ok false ([PWR_CAP, PWR_MEAS, PWR_DEBT, PWR_SLACK].flatMap (regBytes d1)))) ∧
    (∀ eid, q.op = 0x0A → leAt bs 8 1 ≤ 1 → Runs (.setOwner m eid) s (fun d => ∃ st d2, freeStatus (cancelOffers (fset d1 HIF_CTRL_OWNER (leAt bs 8 1))) = (d2, st) ∧
      d = kprRespond (addFault d2 0x10 st 0 7 (leAt bs 8 1) 0 (leAt bs 8 1) eid 0 []) q .ok false (leBytes 1 (leAt bs 8 1)))) ∧
    (∀ d2, q.op = 0x0B → d2 = tidCfgSet d1 (leAt bs 8 1 % 4) (leAt bs 10 1 % 2) (leAt bs 9 1 % 16) (leAt bs 12 2) →
      Runs (.tideRole m) s (fun d => d = kprRespond d2 q .ok false (regBytes d2 TID_CFG)))

/-- R410, R411, R426. What the keeper turns away, whatever the operation: a malformed request ABORTED; one that its mailbox may not make, or that
RETIRED does not leave, SECURITY_DENIED; one that is not guaranteed, with the records not verified, NOT_READY. With no request in the mailbox, or
no keeper running, nothing happens. -/
def Obligations.KeeperRefusals : Prop :=
  ∀ (s : State) (m : Fin 3) (carrier : Option (List Byte)) (eid : Fin 256) (i : Nat × Instr),
    i ∈ [(0x01, Instr.status m), (0x02, .flogDump m), (0x03, .quote m), (0x04, .scopeReset m), (0x05, .powerOff m), (0x06, .powerOn m carrier 0),
      (0x07, .coolantStop m), (0x08, .rackCap m), (0x09, .powerRead m), (0x0A, .setOwner m eid), (0x0B, .tideRole m)] →
    (s.dev.kpr.running = false → Runs i.2 s (fun d => d = s.dev)) ∧
    (slcFront s.dev (40 + m) = none → Runs i.2 s (fun d => d = s.dev)) ∧
    (∀ bs d1 q, s.dev.kpr.running = true → slcFront s.dev (40 + m) = some bs → d1 = slcRelease (slcTake s.dev (40 + m)) (40 + m) 1 →
      q = (⟨m, leAt bs 0 2, leAt bs 2 2⟩ : KeeperReq) → q.op = i.1 →
      (opFormed bs = false → Runs i.2 s (fun d => d = kprRespond d1 q .aborted false [])) ∧
      (opFormed bs = true → opAdmits d1 q.op m = false → Runs i.2 s (fun d => d = kprRespond d1 q .securityDenied false [])) ∧
      (opFormed bs = true → opAdmits d1 q.op m = true →
        (lifecycle d1 = 3 → opRetired q.op = false → Runs i.2 s (fun d => d = kprRespond d1 q .securityDenied false [])) ∧
        (lifecycle d1 ≠ 3 → (fget d1 KPR_PREC_STATUS_SIG_OK = 0 ∨ fget d1 SEC_STATUS_ID_OK = 0) → opGuaranteed q.op = false →
          Runs i.2 s (fun d => d = kprRespond d1 q .notReady false []))))

/-- R418, R420, R423 to R426, R434. Security actions: each takes its operands from its registers and shows BUSY; the end of a token, a patch
or an anchor leaves its result, and what it changes if it is accepted; an action that may not be made changes nothing. -/
def Obligations.SecurityActions : Prop :=
  ∀ (s : State) (by_ : Option PciePort) (e : EccHits),
    (secWrites s.dev by_ = true →
      Runs (.secSubmit by_) s (fun d => d.sec.job = some (.token (fget s.dev SEC_TOKEN_ADDR_ADDR * 64) (fget s.dev SEC_TOKEN_LEN_LEN)
          (rget s.dev (SEC_DBG_NONCE 0)).toNat (rget s.dev (SEC_DBG_NONCE 1)).toNat) ∧ d.sec.draws = s.dev.sec.draws + 1 ∧ fget d SEC_STATUS_BUSY = 1 ∧
        MemSame s.dev d ∧ RegsBut [SEC_STATUS, SEC_DBG_NONCE 0, SEC_DBG_NONCE 1] s.dev d) ∧
      Runs (.secFwLoad by_) s (fun d => d = secBegin s.dev (.firmware (rget s.dev SEC_FW_ADDR).toNat (fget s.dev SEC_FW_LEN_LEN))) ∧
      Runs (.secAnchorAdd by_) s (fun d => d = secBegin s.dev (.anchor (rget s.dev SEC_ANCHOR_ADDR).toNat (fget s.dev SEC_ANCHOR_CFG_SLOT)
        (fget s.dev SEC_ANCHOR_CFG_PATTERN + 2 * fget s.dev SEC_ANCHOR_CFG_DEBUG))) ∧
      Runs (.secLockAnchors by_) s (fun d => d = fset s.dev SEC_STATUS_ANCHOR_LOCK 1) ∧
      (memPowered s.dev = true → Runs (.secRelock by_) s (fun d => d = requestReset s.dev 4 0 []))) ∧
    (secWrites s.dev by_ = false → ∀ i ∈ [Instr.secSubmit by_, .secFwLoad by_, .secAnchorAdd by_, .secLockAnchors by_, .secRelock by_],
      Runs i s (fun d => d = s.dev)) ∧
    (∀ addr len n0 n1 far d1 bs v, s.dev.sec.job = some (.token addr len n0 n1) → memPowered s.dev = true →
      fetchRange s.dev e .dmaRead far addr len 0 0xFFFF = (d1, .bytes bs false) → v = tokenVerdict (secEnd d1) bs (n0 + n1 * 2 ^ 64) →
      (v ≠ 1 → Runs (.tokenCheckDone far e) s (fun d => d = fset (secEnd d1) SEC_STATUS_TOKEN_RESULT v)) ∧
      (v = 1 → leAt bs 6 2 = 1 → Runs (.tokenCheckDone far e) s (fun d => lifecycle d = 2 ∧ rget d SEC_DBG_PERMS = BitVec.ofNat 64 (leAt bs 40 8) ∧
        d.sec.token = bs.take 64 ∧ d.sec.job = none)) ∧
      (v = 1 → leAt bs 6 2 ≠ 1 → Runs (.tokenCheckDone far e) s (fun d => d = enterRetired (fset (secEnd d1) SEC_STATUS_TOKEN_RESULT 1)))) ∧
    (∀ addr len d1 got, s.dev.sec.job = some (.firmware addr len) → readPhys s.dev e addr len = (d1, got) →
      (got = none → Runs (.fwLoadDone e) s (fun d => d = fset (secEnd d1) SEC_STATUS_FW_RESULT 2)) ∧
      (∀ bs, got = some bs → fwVerdict (secEnd d1) bs ≠ 1 → Runs (.fwLoadDone e) s (fun d => d = fset (secEnd d1) SEC_STATUS_FW_RESULT (fwVerdict (secEnd d1) bs))) ∧
      (∀ bs, got = some bs → fwVerdict (secEnd d1) bs = 1 → Runs (.fwLoadDone e) s (fun d => fget d SEC_STATUS_FW_RESULT = 1 ∧ fget d SEC_STATUS_FW_PATCHED = 1 ∧
        d.kpr.patch = some { svn := leAt bs 8 4, sum := Config.sha384 (bs.take (64 + leAt bs 16 4)) } ∧ d.kpr.svnFloor = max d1.kpr.svnFloor (leAt bs 8 4) ∧
        d.kpr.wdAt = none ∧ d.sec.job = none))) ∧
    (∀ addr slot roles d1 h d2 cert, s.dev.sec.job = some (.anchor addr slot roles) → readPhys s.dev e addr 4 = (d1, some h) →
      readPhys d1 e addr (derLength h) = (d2, some cert) →
      (fget (secEnd d2) SEC_STATUS_ANCHOR_LOCK ≠ 0 → Runs (.anchorAddDone e) s (fun d => d = fset (secEnd d2) SEC_STATUS_ANCHOR_RESULT 3)) ∧
      (fget (secEnd d2) SEC_STATUS_ANCHOR_LOCK = 0 → slot = 0 → Runs (.anchorAddDone e) s (fun d => d = fset (secEnd d2) SEC_STATUS_ANCHOR_RESULT 4)) ∧
      (fget (secEnd d2) SEC_STATUS_ANCHOR_LOCK = 0 → slot ≠ 0 → roles ≠ 0 → Config.certOk cert = true →
        Runs (.anchorAddDone e) s (fun d => smGet (fun _ => none) d.sec.anchors slot = some ⟨roles, cert⟩ ∧
          (∀ k, k ≠ slot → smGet (fun _ => none) d.sec.anchors k = smGet (fun _ => none) d2.sec.anchors k) ∧ fget d SEC_STATUS_ANCHOR_RESULT = 1)))

/-- R416, R429, R430, R432. The SPDM responder: no answer from a transport that is down, NOT_READY without an identity, and for each request its
answer and its effect on the negotiation and the sessions; all but slot 0 is refused, and IDE_KM is taken in a secured session of a port only. -/
def Obligations.SpdmResponder : Prop :=
  ∀ (s : State) (via : Fin 3) (id : Nat), let spdm := fun (d : Dev) (c : SpdmAnswer) (bs : List Byte) => emit d (.spdm via c bs)
    (∀ i ∈ [Instr.getVersion via, .getCapabilities via, .negotiateAlgorithms via, .getDigests via, .keyExchange via, .spdmFinish via id, .heartbeat via id,
        .keyUpdate via id, .endSession via id, .spdmUnsupportedRequest via],
      (spdmOpen s.dev via = false → Runs i s (fun d => d = s.dev)) ∧
      (spdmOpen s.dev via = true → fget s.dev SEC_STATUS_ID_OK = 0 → Runs i s (fun d => d = spdm s.dev .notReady []))) ∧
    (spdmOpen s.dev via = true → fget s.dev SEC_STATUS_ID_OK = 1 →
      Runs (.getVersion via) s (fun d => d = spdm (setStage s.dev via 1) .version []) ∧
      Runs (.spdmUnsupportedRequest via) s (fun d => d = spdm s.dev .unsupportedRequest []) ∧
      (spdmStage s.dev via = 1 → Runs (.getCapabilities via) s (fun d => d = spdm (setStage s.dev via 2) .capabilities [])) ∧
      (spdmStage s.dev via = 2 → Runs (.negotiateAlgorithms via) s (fun d => d = spdm (setStage s.dev via 3) .algorithms [])) ∧
      (spdmStage s.dev via < 3 → Runs (.getDigests via) s (fun d => d = spdm s.dev .unexpectedRequest [])) ∧
      (3 ≤ spdmStage s.dev via →
        Runs (.getDigests via) s (fun d => d = spdm s.dev .digests (beBytes 48 (Config.sha384 Config.certChain))) ∧
        (∀ off len, Runs (.getCertificate via 0 off len) s (fun d => d = spdm s.dev .certificate (bytesFrom Config.certChain off len))) ∧
        (∀ slot off len, slot ≠ 0 → Runs (.getCertificate via slot off len) s (fun d => d = spdm s.dev .invalidRequest [])) ∧
        (∀ nonce, Runs (.challenge via 0 nonce) s (fun d => d = spdm s.dev .challengeAuth (sigBytes (nonce ++ measurements s.dev)))) ∧
        Runs (.getMeasurements via 0xFF none) s (fun d => d = spdm s.dev .measurements (measurements s.dev)) ∧
        (∀ index : Fin 256, 10 < index.val → index ≠ 0xFF → Runs (.getMeasurements via index none) s (fun d => d = spdm s.dev .invalidRequest [])) ∧
        (4 ≤ sessionsOf s.dev via → Runs (.keyExchange via) s (fun d => d = spdm s.dev .sessionLimitExceeded [])) ∧
        (sessionsOf s.dev via < 4 → Runs (.keyExchange via) s (fun d => d.sec.sessions = s.dev.sec.sessions ++ [{ via := via, id := s.dev.sec.nextId, done := false }] ∧
          d.sec.nextId = s.dev.sec.nextId + 1 ∧ MemSame s.dev d ∧ d.cells = s.dev.cells)) ∧
        ({ via := via, id := id, done := false } ∈ s.dev.sec.sessions → Runs (.spdmFinish via id) s (fun d => d.sec.sessions =
          s.dev.sec.sessions.map (fun x => if x.via = via.val ∧ x.id = id then { x with done := true } else x) ∧ MemSame s.dev d ∧ RegsBut [] s.dev d)) ∧
        ({ via := via, id := id, done := true } ∈ s.dev.sec.sessions →
          Runs (.heartbeat via id) s (fun d => d = spdm s.dev .heartbeatAck []) ∧ Runs (.keyUpdate via id) s (fun d => d = spdm s.dev .keyUpdateAck []) ∧
          Runs (.endSession via id) s (fun d => d.sec.sessions = s.dev.sec.sessions.filter (fun x => x.via != via.val || x.id != id) ∧ MemSame s.dev d) ∧
          (via ≠ 2 → ∀ x, Runs (.vendorDefinedRequest via id (some x)) s (fun d => d = spdm (ideKm s.dev via x) .vendorDefined []))) ∧
        (via = 2 → ∀ x, Runs (.vendorDefinedRequest via id x) s (fun d => d = spdm s.dev .unsupportedRequest []))))

/-- R438 to R441, R443 to R445, R447. The DBG block, while P78 is on and the writer may write it: trace control, resume, freeze, comparators and
tag counters, and the telemetry page, whose SEQ moves by 2 with the fields copied from their registers. -/
def Obligations.DebugControls : Prop :=
  ∀ (s : State) (by_ : Option PciePort) (v : Word),
    (dbgWrites s.dev by_ = true →
      (lifecycle s.dev ≠ 3 → Runs (.trcStart by_) s (fun d => d = fset s.dev DBG_TRC_STATUS_RUNNING 1) ∧
        Runs (.trcStop by_) s (fun d => d = fset s.dev DBG_TRC_STATUS_RUNNING 0) ∧
        (fget s.dev DBG_TRC_STATUS_RUNNING = 0 → Runs (.trcClear by_) s (fun d => d = fset s.dev DBG_TRC_STATUS_WPTR 0))) ∧
      ((∀ c t, (thread s.dev c t).st ≠ .brk) →
        (fget s.dev DBG_RESUME_SEL_HOST = 0 → Runs (.dbgResumeOne by_) s (fun d => MemSame s.dev d ∧ d.cells = s.dev.cells ∧ RegsBut [TID_STATUS] s.dev d))) ∧
      (∀ c t th, fget s.dev DBG_RESUME_SEL_CELL = c → fget s.dev DBG_RESUME_SEL_THREAD = t → fget s.dev DBG_RESUME_SEL_HOST = 0 → c < 4096 →
        th = thread s.dev c t → th.st = .brk → th.draining = false →
        Runs (.dbgResumeOne by_) s (fun d => thread d c t = { th with st := .run } ∧ CellsBut c s.dev d ∧ MemSame s.dev d ∧
          RegsBut [TID_STATUS, DBG_TRC_STATUS] s.dev d)) ∧
      (∀ c t x th, s.dev.cells = [(c, x)] → x.threads = [(t, th)] → th.st = .brk → th.draining = false → (∀ x ∈ allCmds s.dev, x.2.brk = false) →
        Runs (.dbgResumeAll by_) s (fun d => thread d c t = { th with st := .run } ∧ MemSame s.dev d ∧ RegsBut [TID_STATUS, DBG_TRC_STATUS] s.dev d)) ∧
      (perm s.dev 5 = true → Runs (.dbgFreezeWrite by_ v) s (fun d => rget d DBG_FREEZE = v ∧ d.frozen = s.dev.frozen.lor v.toNat ∧ MemSame s.dev d ∧
        RegsBut [DBG_FREEZE] s.dev d ∧ d.cells = s.dev.cells)) ∧
      (perm s.dev 5 = false → Runs (.dbgFreezeWrite by_ v) s (fun d => d = s.dev)) ∧
      (∀ k, perm s.dev 0 = true →
        Runs (.dbgBpWrite by_ k v) s (fun d => fget d (DBG_BP_COUNT k) = max 1 (bitsOf v (DBG_BP_COUNT k).lo (DBG_BP_COUNT k).wid) ∧
          (v.toNat.testBit 63 = true → fget d (DBG_BP_CNT_MATCHES k) = 0) ∧ MemSame s.dev d ∧ RegsBut [DBG_BP k, (DBG_BP_CNT_MATCHES k).off] s.dev d) ∧
        Runs (.dbgBpCntWrite by_ k v) s (fun d => fget d (DBG_BP_CNT_TAG_VAL k) = bitsOf v 32 16 ∧ fget d (DBG_BP_CNT_MATCHES k) = 0 ∧
          MemSame s.dev d ∧ RegsBut [(DBG_BP_CNT_MATCHES k).off] s.dev d)) ∧
      (∀ j, Runs (.dbgTagctrCfgWrite by_ j v) s (fun d => rget d (DBG_TAGCTR_CFG j) = BitVec.ofNat 64 (v.toNat % 2 ^ 35) ∧ rget d (DBG_TAGCTR j) = 0 ∧
        MemSame s.dev d ∧ RegsBut [DBG_TAGCTR_CFG j, DBG_TAGCTR j] s.dev d)) ∧
      (∀ c i w, perm s.dev 2 = true → fget s.dev DBG_STITCH_SEL_CELL = c → fget s.dev DBG_STITCH_SEL_INDEX = i → fget s.dev DBG_STITCH_SEL_TARGET = 0 →
        c < 4096 → w = ([0, 1, 2, 3].map (fun j => (rget s.dev (DBG_STITCH_DATA j)).toNat * 2 ^ (64 * j))).sum →
        (rbit s.dev KPR_RGN_READY (regionOf c) = true → (∀ t, t < 4 → (thread s.dev c t).st = .idle) →
          Runs (.stitchCommit by_) s (fun d => d = modCell s.dev c (fun x =>
            { x with stitches := smSet (fun _ => StitchWord.asm emptyStitch) x.stitches i (.raw w) }))) ∧
        ((∃ t, t < 4 ∧ (thread s.dev c t).st = .run) → Runs (.stitchCommit by_) s (fun d => d = fset s.dev DBG_STATUS_STITCH_REJ 1)))) ∧
    (dbgWrites s.dev by_ = false → ∀ (k : Fin 8) (j : Fin 16), ∀ i ∈ [Instr.trcStart by_, .trcStop by_, .trcClear by_, .dbgResumeAll by_, .dbgResumeOne by_, .stitchCommit by_,
        .dbgFreezeWrite by_ v, .dbgBpWrite by_ k v, .dbgBpCntWrite by_ k v, .dbgTagctrCfgWrite by_ j v], Runs i s (fun d => d = s.dev)) ∧
    (polderHi s.dev 14 = true → Runs .telemetrySnapshot s (fun d => (rget d (DBG_TELEM 0)).toNat = ((rget s.dev (DBG_TELEM 0)).toNat + 2) % 2 ^ 64 ∧
      (∀ x ∈ [(1, TID_COUNT), (2, TID_LAST_TIME), (3, PWR_MEAS), (4, PWR_CAP), (5, PWR_DEBT), (6, THM_STATUS), (7, KPR_READY), (8, FAR_CTR), (9, TRF_STATUS), (10, CLV_CTR)],
        rget d (DBG_TELEM x.1) = rget s.dev x.2) ∧ MemSame s.dev d ∧ OnlyRegs s.dev d)) ∧
    (polderHi s.dev 14 = false → Runs .telemetrySnapshot s (fun d => d = s.dev))

/-- R446, R468. The test access port, while P78 is on: each instruction is decoded, or BYPASS where the lifecycle state and SYS_RST_N do not allow
it; the boundary cells and the identity come out. With P78 off nothing happens. -/
def Obligations.TestPort : Prop :=
  ∀ (s : State) (pins shiftIn : Nat),
    let ir := fun (n : Nat) => ({ s.dev with tap := { s.dev.tap with ir := n } } : Dev)
    (polderHi s.dev 14 = true →
      Runs .tapReset s (fun d => d = { s.dev with tap := Machine.tapReset }) ∧
      Runs .idcode s (fun d => d = emit (ir 0x01) (.tap 0x17104B67)) ∧
      Runs (.samplePreload pins shiftIn) s (fun d => d = boundary (ir 0x02) pins shiftIn) ∧
      Runs .bypass s (fun d => d = ir 0xFF) ∧
      (pinsAllowed s.dev = true → Runs (.extest pins shiftIn) s (fun d => d = boundary (ir 0x00) pins shiftIn) ∧ Runs .clamp s (fun d => d = ir 0x04) ∧
        Runs .highz s (fun d => d = ir 0x05)) ∧
      (pinsAllowed s.dev = false → ∀ i ∈ [Instr.extest pins shiftIn, .clamp, .highz], Runs i s (fun d => d = ir 0xFF)) ∧
      (lifecycle s.dev = 0 → Runs .stackSel s (fun d => d = ir 0x10) ∧ (s.dev.kpr.rstLow = true → Runs .scan s (fun d => d = ir 0x11))) ∧
      (lifecycle s.dev ≠ 0 → scanAllowed s.dev = false → Runs .stackSel s (fun d => d = ir 0xFF) ∧ Runs .scan s (fun d => d = ir 0xFF))) ∧
    (polderHi s.dev 14 = false → ∀ i ∈ [Instr.tapReset, .idcode, .samplePreload pins shiftIn, .bypass, .extest pins shiftIn, .clamp, .highz, .stackSel, .scan],
      Runs i s (fun d => d = s.dev))

/-- R243 to R245, R249, R263. Ports: a cable that is accepted lets a powered, enabled port with a node ID train, one that is not leaves it DOWN
with REASON 2; training ends in UP with the peer's identity, or in DOWN; the node ID may be written while no Pattern is in effect; DISABLE
takes a port down; a CMIS read shows its bytes or its error. -/
def Obligations.PortBringUp : Prop :=
  ∀ (s : State) (p : TrfPort) (by_ : Option PciePort) (v : Word) (accepted : Bool),
    (fget s.dev TRF_NODE_CFG_VALID = 1 → portPowered s.dev p = true → fget s.dev (TRF_PORT_CTL_DISABLE p) = 0 → portState s.dev p = 0 →
      (∀ i, (i = Instr.cablePresent p true accepted ∨ i = .portTrainRetry p accepted ∧ (getPort s.dev p).cable = true) →
        Runs i s (fun d => (accepted = true → portState d p = 2) ∧ (accepted = false → portState d p = 0 ∧ fget d (TRF_PORT_STATUS_REASON p) = 2) ∧
          (getPort d p).cable = true ∧ (getPort d p).cableOk = accepted ∧ MemSame s.dev d ∧ d.cells = s.dev.cells))) ∧
    (portState s.dev p ≠ 5 → portState s.dev p ≠ 6 → unackedMsgs (getPort s.dev p) = [] →
      Runs (.cablePresent p false accepted) s (fun d => portState d p = 0 ∧ fget d (TRF_PORT_STATUS_REASON p) = 1 ∧ (getPort d p).cable = false ∧
        (getPort d p).held = [] ∧ MemSame s.dev d ∧ d.cells = s.dev.cells)) ∧
    (∀ node port, node < 2 ^ 16 → port < 16 → portState s.dev p = 2 →
      (node ≠ nodeId s.dev → Runs (.portUp p node port) s (fun d => portState d p = 3 ∧ fget d (TRF_PORT_PEER_VALID p) = 1 ∧
        fget d (TRF_PORT_PEER_NODE p) = node ∧ fget d (TRF_PORT_PEER_PORT p) = port ∧ MemSame s.dev d ∧ d.cells = s.dev.cells)) ∧
      (node = nodeId s.dev → Runs (.portUp p node port) s (fun d => d = setPortState s.dev p 0 4))) ∧
    (portState s.dev p = 2 → Runs (.portTrainTimeout p) s (fun d => d = setPortState s.dev p 0 3)) ∧
    (portState s.dev p ≠ 2 → Runs (.portTrainTimeout p) s (fun d => d = s.dev)) ∧
    (ownerWrites s.dev by_ = true → fget s.dev PAT_STATUS_ACTIVE = 0 → Runs (.nodeIdWrite by_ v) s (fun d => nodeId d = bitsOf v 0 16 ∧
      fget d TRF_NODE_CFG_VALID = 1 ∧ fget d KPR_READY_NODE_ID = 1 ∧ MemSame s.dev d ∧ d.cells = s.dev.cells)) ∧
    (fget s.dev PAT_STATUS_ACTIVE = 1 → Runs (.nodeIdWrite by_ v) s (fun d => d = s.dev)) ∧
    (ownerWrites s.dev by_ = true → v.toNat % 2 = 1 → fget s.dev (TRF_PORT_CTL_DISABLE p) = 0 → portState s.dev p ≠ 5 → unackedMsgs (getPort s.dev p) = [] →
      Runs (.trfPortDisable by_ p v accepted) s (fun d => portState d p = 6 ∧ fget d (TRF_PORT_STATUS_REASON p) = 8 ∧ fget d (TRF_PORT_CTL_DISABLE p) = 1 ∧
        MemSame s.dev d ∧ d.cells = s.dev.cells)) ∧
    (ownerWrites s.dev by_ = true → v.toNat % 2 = 0 → portState s.dev p = 6 → Runs (.trfPortDisable by_ p v accepted) s (fun d =>
      d = portTrain (setPortState (fset s.dev (TRF_PORT_CTL_DISABLE p) 0) p 0 0) p accepted)) ∧
    (ownerWrites s.dev by_ = true → v.toNat.testBit 1 = true → portState s.dev p = 3 → (getPort s.dev p).retrying = false →
      Runs (.trfPortRetrain by_ p v) s (fun d => d = startRetrain s.dev p)) ∧
    (v.toNat.testBit 63 = true → Runs (.trfCmisGo p v) s (fun d => fget d (TRF_CMIS_CTL_PAGE p) = bitsOf v 16 8 ∧ fget d (TRF_CMIS_CTL_OFFSET p) = bitsOf v 8 8 ∧
      fget d (TRF_CMIS_CTL_DONE p) = 0 ∧ fget d (TRF_CMIS_CTL_ERR p) = 0 ∧ (getPort d p).cmisWait = true ∧ MemSame s.dev d ∧
      RegsBut [(TRF_CMIS_CTL_DONE p).off] s.dev d)) ∧
    ((getPort s.dev p).cmisWait = true →
      Runs (.trfCmisDone p (some v)) s (fun d => fget d (TRF_CMIS_CTL_DONE p) = 1 ∧ rget d (TRF_CMIS_DATA p) = v ∧ (getPort d p).cmisWait = false ∧ MemSame s.dev d) ∧
      Runs (.trfCmisDone p none) s (fun d => fget d (TRF_CMIS_CTL_DONE p) = 1 ∧ fget d (TRF_CMIS_CTL_ERR p) = 1 ∧ rget d (TRF_CMIS_DATA p) = rget s.dev (TRF_CMIS_DATA p)))

/-- R247 to R249, R254, R255. Flits, on a port that is UP and not retraining: one with a bad CRC, or out of its turn, makes one NAK due and is
dropped; one with the expected SEQ is accepted, its messages delivered in order; the next flit sent is one to send again, a message flit with the
next SEQ, or an idle flit; a replay time-out sends the held flits again, and so does a retrain that ends well. -/
def Obligations.Flits : Prop :=
  ∀ (s : State) (p : TrfPort) (q : Port), q = getPort s.dev p → portState s.dev p = 3 →
    (q.retrying = false →
      (∀ f : Flit, f.crcOk = false → Runs (.flitReceive p f) s (fun d => (getPort d p).skipping = true ∧ (getPort d p).nakOwed = (q.nakOwed || !q.skipping) ∧
        (getPort d p).expSeq = q.expSeq ∧ d.inbox = s.dev.inbox ∧ d.toRoute = s.dev.toRoute ∧ MemSame s.dev d ∧ d.cells = s.dev.cells)) ∧
      (∀ (f : Flit) d1 d2, f.crcOk = true →
        d1 = modPort s.dev p (fun q => { q with credits := f.credits.foldl (fun m c => smModify (fun _ => 0) m c.1 (· - c.2)) q.credits }) →
        d2 = (if f.nak then resendAll (ackUpTo d1 p f.ack) p else ackUpTo d1 p ((f.ack + 1) % 65536)) →
        (f.message = false → Runs (.flitReceive p f) s (fun d => d = fset d2 (TRF_PORT_STATUS_HELD p) (getPort d2 p).held.length)) ∧
        (f.message = true → f.seq = q.expSeq → Runs (.flitReceive p f) s (fun d => d = f.msgs.foldl (acceptMsg p)
          (modPort (fset d2 (TRF_PORT_STATUS_HELD p) (getPort d2 p).held.length) p (fun q => { q with expSeq := (q.expSeq + 1) % 65536, skipping := false })))) ∧
        (f.message = true → f.seq ≠ q.expSeq → Runs (.flitReceive p f) s (fun d => (getPort d p).skipping = true ∧ (getPort d p).expSeq = q.expSeq ∧
          (getPort d p).nakOwed = (q.nakOwed || !q.skipping) ∧ d.inbox = s.dev.inbox ∧ d.toRoute = s.dev.toRoute))) ∧
      (∀ ack nak cr q', q.resend = [] → q.held.length < 1024 → (fillFlit s.dev q).room = 15 → flitFields q = (ack, nak, cr, q') →
        Runs (.flitTransmit p) s (fun d => d = sendFlit s.dev p q'
          { seq := 0, ack := ack, message := false, nak := nak, used := 0, credits := cr, msgs := [], crcOk := true })) ∧
      (∀ ack nak cr q' f, q.resend = [] → q.held.length < 1024 → (fillFlit s.dev q).room ≠ 15 → flitFields (fillFlit s.dev q).port = (ack, nak, cr, q') →
        f = ({ seq := q'.nextSeq, ack := ack, message := true, nak := nak, used := 15 - (fillFlit s.dev q).room, credits := cr,
               msgs := (fillFlit s.dev q).ends, crcOk := true } : Flit) →
        Runs (.flitTransmit p) s (fun d => d = sendFlit (slcFlit s.dev p) p { q' with nextSeq := (q'.nextSeq + 1) % 65536, held := q'.held ++ [{ flit := f, begins := (fillFlit s.dev q).begins, resent := 0 }] } f)) ∧
      (∀ n rest h, q.resend = n :: rest → q.held.find? (fun h => h.flit.seq == n) = some h →
        (h.resent < 8 → Runs (.flitTransmit p) s (fun d => d = sendAgain s.dev p h rest)) ∧
        (8 ≤ h.resent → Runs (.flitTransmit p) s (fun d => d = retryLimit s.dev p))) ∧
      Runs (.replayTimeout p) s (fun d => d = resendAll s.dev p) ∧
      (∀ locked, Runs (.portRetrainDone p locked) s (fun d => d = s.dev))) ∧
    (q.retrying = true →
      (∀ f, Runs (.flitReceive p f) s (fun d => d = s.dev)) ∧ Runs (.flitTransmit p) s (fun d => d = s.dev) ∧ Runs (.replayTimeout p) s (fun d => d = s.dev) ∧
      Runs (.portRetrainDone p true) s (fun d => d = resendAll (modPort s.dev p (fun q => { q with retrying := false })) p) ∧
      (3 ≤ q.trainFail → Runs (.portRetrainDone p false) s (fun d => d = portRetire s.dev p 7)) ∧
      (q.trainFail < 3 → Runs (.portRetrainDone p false) s (fun d => d = startRetrain (modPort s.dev p (fun q => { q with trainFail := q.trainFail + 1 })) p)))

/-- R245, R250, R251. Lanes: a lane that loses lock is retired with its cause and asks for the next width, where enough lanes are left and no other
was lost before; a window's end clears the counts of its lane; at its epoch a port takes the new width and stands in RECONFIG, and then comes UP
again. -/
def Obligations.Lanes : Prop :=
  ∀ (s : State) (p : TrfPort) (l : Fin 8) (t : Nat),
    (∀ flag, portCarries s.dev p = true → fget s.dev (TRF_LANE_STATE p l) ≠ 2 → (getPort s.dev p).laneLost = none → 5 ≤ (goodLanes s.dev p).length →
      Runs (.laneLossOfLock p l flag t) s (fun d => fget d (TRF_LANE_STATE p l) = 2 ∧ fget d (TRF_LANE_CAUSE p l) = (if flag then 4 else 3) ∧
        (getPort d p).laneLost = some (max s.dev.now t) ∧ (getPort d p).wantWidth = some (nextEpoch s.dev p) ∧ portState d p = portState s.dev p ∧
        MemSame s.dev d ∧ d.cells = s.dev.cells)) ∧
    (∀ flag, fget s.dev (TRF_LANE_STATE p l) = 2 → Runs (.laneLossOfLock p l flag t) s (fun d => d = atTime s.dev t)) ∧
    (∀ own ask, portCarries s.dev p = true → Runs (.laneControlBlock p own ask t) s (fun d =>
      let d1 := (own.take 8).zipIdx.foldl (fun d x => laneCounts d p x.2 x.1.1 x.1.2) (atTime s.dev t)
      d = match ask with
        | some (l, cause, epoch) => laneRetire d1 p l cause epoch
        | none => d1)) ∧
    (∀ own ask, portCarries s.dev p = false → Runs (.laneControlBlock p own ask t) s (fun d => d = atTime s.dev t)) ∧
    (∀ flags : BitVec 8, portState s.dev p = 3 → Runs (.cmisPoll p flags t) s (fun d => d = (List.range 8).foldl (fun d l =>
      if flags.toNat.testBit l then laneRetire d p l 4 (nextEpoch d p) else d) (atTime s.dev t))) ∧
    Runs (.laneWindowExpire p l) s (fun d => fget d (TRF_LANE_CE_WIN p l) = 0 ∧ fget d (TRF_LANE_UCW_WIN p l) = 0 ∧
      RegsBut [(TRF_LANE_CE_WIN p l).off, (TRF_LANE_UCW_WIN p l).off] s.dev d ∧ OnlyRegs s.dev d) ∧
    (∀ epoch, (getPort s.dev p).wantWidth = some epoch → portState s.dev p = 3 → Runs (.widthChange p) s (fun d => portState d p = 4 ∧
      fget d (TRF_PORT_STATUS_EPOCH p) = epoch % 65536 ∧ fget d (TRF_PORT_STATUS_WIDTH p) = widthOf (goodLanes s.dev p).length ∧
      (getPort d p).wantWidth = none ∧ MemSame s.dev d ∧ d.cells = s.dev.cells)) ∧
    ((getPort s.dev p).wantWidth = none → Runs (.widthChange p) s (fun d => d = s.dev)) ∧
    (portState s.dev p = 4 → Runs (.reconfigDone p) s (fun d => d = resendAll (setPortState s.dev p 3 0) p))

/-- R256 to R258. The oldest message that waits for its route is delivered here if it is for this device, and else joins the queue of its flow's
port; with no port of its route in service it is discarded and counted. -/
def Obligations.MessageRouting : Prop :=
  ∀ (s : State) (t : Nat) (m : Msg) (rest : List Msg) (d0 : Dev), s.dev.toRoute = m :: rest → d0 = { atTime s.dev t with toRoute := rest } →
    (m.dest = nodeId s.dev → Runs (.messageRoute t) s (fun d => d = { d0 with inbox := d0.inbox ++ [m] })) ∧
    (∀ p, m.dest ≠ nodeId s.dev → flowPort d0 m = some p → Runs (.messageRoute t) s (fun d => d = queueMsg d0 p m ∧ (getPort d p).side = (getPort s.dev p).side ++ (if 14 ≤ m.vc then [m] else []) ∧
      MemSame s.dev d ∧ RegsBut [] s.dev d ∧ d.cells = s.dev.cells)) ∧
    (m.dest ≠ nodeId s.dev → flowPort d0 m = none → Runs (.messageRoute t) s (fun d => d = discardMsg (fcount d0 TRF_CTR_UNROUTABLE 1) m))

/-- R259, R261. Requests of other devices: a read or write that this device's map and owners allow is performed and answered, and one that they
refuse is answered XLT_FAULT, counted and recorded; a gauge request is applied at the gauge's home. A response ends the request of its RID, or is
counted as late; a request without one ends with RETIRED_RESOURCE after the time-out, and its RID rests for twice that time. -/
def Obligations.RemoteAccess : Prop :=
  ∀ (s : State) (e : EccHits) (m : Msg) (d0 : Dev),
    (∀ a n, takeMsg s.dev (fun m => match m.body with | .rd _ _ => true | _ => false) = some (m, d0) → m.body = .rd a n →
      (∀ cause, targetRefusal (countWalk d0) m.src a n false = some cause →
        Runs (.rd e) s (fun d => d = respond (refuseRemote (countWalk d0) m a n false cause) m (.rdRsp .xltFault []))) ∧
      (∀ d2 bs bad, targetRefusal (countWalk d0) m.src a n false = none → rangeStatus (countWalk d0) a n = .ok →
        agentLoad (countWalk d0) e a n = (d2, bs, bad) → Runs (.rd e) s (fun d => d = respond d2 m (if bad then .rdRsp .poisoned [] else .rdRsp .ok bs)))) ∧
    (∀ a bytes poison, takeMsg s.dev (fun m => match m.body with | .wr _ _ _ => true | _ => false) = some (m, d0) → m.body = .wr a bytes poison →
      (∀ cause, targetRefusal (countWalk d0) m.src a bytes.length true = some cause →
        Runs .wr s (fun d => d = respond (refuseRemote (countWalk d0) m a bytes.length true cause) m (.wrRsp .xltFault) ∧ MemSame s.dev d)) ∧
      (∀ d2, targetRefusal (countWalk d0) m.src a bytes.length true = none → rangeStatus (countWalk d0) a bytes.length = .ok →
        agentStore (countWalk d0) a bytes poison (.remote m.src m.rid) = (d2, 0) → Runs .wr s (fun d => d = respond d2 m (.wrRsp .ok)))) ∧
    (∀ cell ref src op, takeMsg s.dev (fun m => match m.body with | .gauge _ _ _ _ => true | _ => false) = some (m, d0) → m.body = .gauge cell ref src op →
      ref.patch = 0 → (getCell d0 (cell % 4096)).retired = false → nearStatus d0 (cell % 4096) false = .ok →
      Runs .remoteGauge s (fun d => cellGauge (getCell d (cell % 4096)) ref.gauge = (combineGauge (cellGauge (getCell s.dev (cell % 4096)) ref.gauge)
          [{ patch := ref.patch, gauge := ref.gauge, src := src, cell := cell, node := m.src, op := op }]).1 ∧
        CellsBut (cell % 4096) s.dev d ∧ MemSame s.dev d)) ∧
    (∀ i st bytes, (i = Instr.rdRsp ∧ takeMsg s.dev (fun m => match m.body with | .rdRsp _ _ => true | _ => false) = some (m, d0) ∧ m.body = .rdRsp st bytes ∨
        i = .wrRsp ∧ takeMsg s.dev (fun m => match m.body with | .wrRsp _ => true | _ => false) = some (m, d0) ∧ m.body = .wrRsp st ∧ bytes = [] ∨
        i = .gaugeRsp ∧ takeMsg s.dev (fun m => match m.body with | .gaugeRsp _ => true | _ => false) = some (m, d0) ∧ m.body = .gaugeRsp st ∧ bytes = []) →
      (ridOf d0 m.rid = none → Runs i s (fun d => d = fcount d0 TRF_CTR_LATE_RSP 1)) ∧
      (∀ r, ridOf d0 m.rid = some r → r.rests = true → Runs i s (fun d => d = fcount d0 TRF_CTR_LATE_RSP 1)) ∧
      (∀ r, ridOf d0 m.rid = some r → r.rests = false → Runs i s (fun d => d = completeRid d0 m.rid st bytes))) ∧
    (∀ rid t r d1, d1 = atTime s.dev t → ridOf s.dev rid = some r →
      (r.rests = false → r.since + 1000 * fget s.dev TRF_CFG_REMOTE_TIMEOUT ≤ d1.now → ∀ rest d2, rest = ({ r with use := .dropped, since := d1.now, rests := true } : RidRec) →
        d2 = fcount d1 TRF_CTR_TIMEOUTS 1 →
        Runs (.remoteTimeout rid t) s (fun d => d = endUse { d2 with rids := smSet (fun _ => none) d2.rids rid (some rest) } r .retiredResource [])) ∧
      (d1.now < r.since + 1000 * fget s.dev TRF_CFG_REMOTE_TIMEOUT → Runs (.remoteTimeout rid t) s (fun d => d = d1)) ∧
      (r.rests = true → r.since + 2000 * fget s.dev TRF_CFG_REMOTE_TIMEOUT ≤ d1.now → Runs (.ridReuseTimeout rid t) s (fun d => d = freeRid d1 rid)) ∧
      (r.rests = false → Runs (.ridReuseTimeout rid t) s (fun d => d = d1)))

/-- R312 to R314, R319, R462. The configuration space of a port answers Request Retry Status until it is ready, its first dword is the vendor and
device ID, and the Command register turns memory space on; the mailbox capability pushes the request window and pops the oldest response; an
MSI-X entry is written, and is signalled at once if it is pending and nothing masks it. -/
def Obligations.ConfigurationSpace : Prop :=
  ∀ (s : State) (p : PciePort) (mask : Fin 16) (v : BitVec 32),
    ((getPcie s.dev p).cfgReady = false →
      (∀ write reg, Runs (.configRequest p write reg mask v) s (fun d => d = emit s.dev (.pcieRetry p))) ∧
      Runs (.mbxPush p) s (fun d => d = s.dev) ∧ Runs (.mbxPop p) s (fun d => d = s.dev)) ∧
    ((getPcie s.dev p).cfgReady = true →
      Runs (.configRequest p false 0 mask v) s (fun d => d.out = s.dev.out ++ [.pcieCfg p 0x71041FA7] ∧ MemSame s.dev d ∧ RegsBut [] s.dev d ∧ d.cells = s.dev.cells) ∧
      (∀ reg, Runs (.configRequest p true reg mask v) s (fun d => d = cfgWrite s.dev p (4 * reg.val) mask v.toNat)) ∧
      (mask.val.testBit 0 = true → Runs (.configRequest p true 1 mask v) s (fun d => (getPcie d p).memOn = v.toNat.testBit 1 ∧ MemSame s.dev d ∧ RegsBut [] s.dev d)) ∧
      Runs (.mbxPush p) s (fun d => d = slcHostPut s.dev (40 + p.val) (mbxWindow s.dev p)) ∧
      (∀ e, slcFront s.dev (43 + p.val) = some e → Runs (.mbxPop p) s (fun d => d = slcRelease (slcTake s.dev (43 + p.val)) (43 + p.val) 1)) ∧
      (slcFront s.dev (43 + p.val) = none → Runs (.mbxPop p) s (fun d => d = s.dev))) ∧
    (∀ (n : Fin 64) addr data masked, (getPcie s.dev p).memOn = true → inD3 s.dev p = false → (getPcie s.dev p).msixOn = false →
      let old := smGet (fun _ => msixReset) (getPcie s.dev p).msix n
      Runs (.msiXTableWrite p n addr data masked) s (fun d => smGet (fun _ => msixReset) (getPcie d p).msix n =
          { old with addr := addr % 2 ^ 64, data := data % 2 ^ 32, masked := masked } ∧
        (∀ j, j ≠ n.val → smGet (fun _ => msixReset) (getPcie d p).msix j = smGet (fun _ => msixReset) (getPcie s.dev p).msix j) ∧
        MemSame s.dev d ∧ RegsBut [] s.dev d ∧ d.out = s.dev.out)) ∧
    (fget s.dev KPR_READY_CORE = 1 → polderHi s.dev (12 + p.val) = true → (getPcie s.dev p).inPerst = false →
      Runs (.configSpaceReady p) s (fun d => (getPcie d p).cfgReady = true ∧ fget d (pcieReady p) = 1 ∧ rbit d KPR_SETTLED (3 + p.val) = true ∧
        MemSame s.dev d ∧ RegsBut [KPR_READY, KPR_SETTLED] s.dev d)) ∧
    ((getPcie s.dev p).inPerst = true → Runs (.configSpaceReady p) s (fun d => d = s.dev))

/-- R9 to R12, R316 to R318, R328. Accesses of a host: a register write of 4 or 8 aligned bytes by a writer that may write changes the register's fields
as their access type says; BAR2 and the ingest window take requests while they are open, and answer Unsupported Request else; a BAR2 base is kept
on 1 GiB; the next doorbell is taken. -/
def Obligations.HostAccesses : Prop :=
  ∀ (s : State) (by_ : Option PciePort) (p : PciePort) (v : Word) (off n : Nat),
    (∀ r reg w, (n = 4 ∨ n = 8) → off % n = 0 → ¬(0x800000 ≤ off ∧ off < 0x890000) → reg = off / 8 * 8 → regRow reg = some r → ownCommand reg = false →
      w = BitVec.ofNat 64 (v.toNat % 2 ^ (8 * n) * 2 ^ (8 * (off % 8))) →
      (mayWrite s.dev by_ r reg = true → Runs (.registerWrite by_ off n v) s (fun d =>
        d = storedAs (rset s.dev reg (wordAfter r.fields (rget s.dev reg) w (off % 8) (off % 8 + n))) reg)) ∧
      (mayWrite s.dev by_ r reg = false → Runs (.registerWrite by_ off n v) s (fun d => d = s.dev))) ∧
    ((n ≠ 4 ∧ n ≠ 8 ∨ off % n ≠ 0) → Runs (.registerWrite by_ off n v) s (fun d => d = s.dev)) ∧
    (∀ secure e, (barOpen s.dev p secure = false → Runs (.bar2Read p secure off n e) s (fun d => d = answerUr s.dev p)) ∧
      (barOpen s.dev p secure = true → 1 ≤ n → n ≤ 4096 → off + n ≤ 2 ^ 36 →
        Runs (.bar2Read p secure off n e) s (fun d => d = bar2Start s.dev p off n false [] false e))) ∧
    (∀ secure bytes ep, (barOpen s.dev p secure = false → Runs (.bar2Write p secure off bytes ep) s (fun d => d = fcount s.dev (HIF_PORT_CTR_UR p) 1)) ∧
      (barOpen s.dev p secure = true → bytes ≠ [] → bytes.length ≤ 512 → off + bytes.length ≤ 2 ^ 36 →
        Runs (.bar2Write p secure off bytes ep) s (fun d => d = bar2Start s.dev p off bytes.length true bytes ep noEcc))) ∧
    (∀ secure bytes, (barOpen s.dev p secure = false → Runs (.ingestWindowWrite p secure off bytes) s (fun d => d = fcount s.dev (HIF_PORT_CTR_UR p) 1)) ∧
      (barOpen s.dev p secure = true → (off % 64 ≠ 0 ∨ bytes.length % 64 ≠ 0) →
        Runs (.ingestWindowWrite p secure off bytes) s (fun d => d = fcount s.dev (HIF_PORT_CTR_BAD_INGEST p) 1)) ∧
      (barOpen s.dev p secure = true → off % 64 = 0 → bytes.length % 64 = 0 → bytes ≠ [] → bytes.length ≤ 512 → off + bytes.length ≤ 0x80000 →
        Runs (.ingestWindowWrite p secure off bytes) s (fun d => d = (List.range (bytes.length / 64)).foldl (fun d i =>
          slcHostPut d (2 + p.val) ((bytes.drop (64 * i)).take 64)) s.dev))) ∧
    ((by_ = none ∨ by_ = some p) → Runs (.hifBar2BaseWrite by_ p v) s (fun d => (rget d (HIF_BAR2_BASE p)).toNat = v.toNat / 2 ^ 30 * 2 ^ 30 ∧
      RegsBut [HIF_BAR2_BASE p] s.dev d ∧ OnlyRegs s.dev d)) ∧
    Runs (.unsupportedTlp p true) s (fun d => d = fcount s.dev (HIF_PORT_CTR_UR p) 1) ∧
    Runs (.unsupportedTlp p false) s (fun d => d = emit (fcount s.dev (HIF_PORT_CTR_UR p) 1) (.pcieUr p)) ∧
    (slcFront s.dev p = none → Runs (.doorbell p) s (fun d => d = s.dev)) ∧
    (∀ entry k d1, slcFront s.dev p = some entry → k = ringNo p (leNat ((entry.drop 8).take 1) % 16) → d1 = slcRelease (slcTake s.dev p) p 1 →
      ringState d1 k ≠ 1 → Runs (.doorbell p) s (fun d => d = fcount d1 (HIF_RING_CTR_STALE_DB k) 1)) ∧
    (∀ entry k d1 db gap, slcFront s.dev p = some entry → k = ringNo p (leNat ((entry.drop 8).take 1) % 16) → d1 = slcRelease (slcTake s.dev p) p 1 →
      db = leNat (entry.take 4) → gap = (db + 2 ^ 32 - fget d1 (HIF_RING_SEQ_LAST_RECV k)) % 2 ^ 32 → ringState d1 k = 1 → 0 < gap → gap < 2 ^ 31 →
      (2 ^ (getRing d1 k).log2 < gap → Runs (.doorbell p) s (fun d => d = ringError d1 k 2)) ∧
      (gap ≤ 2 ^ (getRing d1 k).log2 → (getRing d1 k).target = fget d1 (HIF_RING_SEQ_LAST_RECV k) →
        Runs (.doorbell p) s (fun d => (getRing d k).target = db ∧ (getRing d k).cmds = (getRing d1 k).cmds ∧ MemSame s.dev d)))

/-- R311, R320 to R322, R398, R462. Links and resets of a port: an FLR and a Hot Reset reset the function; a link that goes down does too and clears its
fields; one that comes up shows its rate and width, FLIT mode at 64 GT/s alone; PERST asks for a PORT reset; a function enters or leaves D3hot;
an IDE stream that fails is no longer secure, and says so. -/
def Obligations.PortLinks : Prop :=
  ∀ (s : State) (p : PciePort),
    Runs (.functionLevelReset p) s (fun d => d = d3Check (functionReset s.dev p)) ∧
    Runs (.hotReset p) s (fun d => d = d3Check (functionReset s.dev p)) ∧
    (linkDown s.dev p = true → Runs (.pcieLinkDown p) s (fun d => d = s.dev)) ∧
    (∀ d1, linkDown s.dev p = false → d1 = fset (fset (fset (functionReset s.dev p) (HIF_LINK_UP p) 0) (HIF_LINK_RATE p) 0) (HIF_LINK_WIDTH p) 0 →
      Runs (.pcieLinkDown p) s (fun d => d = d3Check (fset (fset d1 (HIF_LINK_FLIT p) 0) (HIF_LINK_L0P_WIDTH p) 0))) ∧
    (∀ rate width l0p, polderHi s.dev (12 + p.val) = true → (getPcie s.dev p).inPerst = false → 1 ≤ rate → rate ≤ 6 → width ∈ [1, 2, 4, 8] → l0p ∈ [0, 1, 2, 4, 8] →
      s.dev.pwr.state = 1 → inD3 s.dev 0 = false → inD3 s.dev 1 = false →
      Runs (.pcieLinkUp p rate width l0p) s (fun d => fget d (HIF_LINK_UP p) = 1 ∧ fget d (HIF_LINK_RATE p) = rate ∧ fget d (HIF_LINK_WIDTH p) = width ∧
        fget d (HIF_LINK_FLIT p) = (if rate = 6 then 1 else 0) ∧ fget d (HIF_LINK_L0P_WIDTH p) = (if rate = 6 then l0p else 0) ∧ MemSame s.dev d ∧ d.cells = s.dev.cells)) ∧
    ((getPcie s.dev p).inPerst = true → Runs (.perstAssert p) s (fun d => d = s.dev)) ∧
    ((getPcie s.dev p).inPerst = false → s.dev.kpr.resets = [] → Runs (.perstAssert p) s (fun d => (getPcie d p).inPerst = true ∧ (getPcie d p).cfgReady = false ∧
      fget d (pcieReady p) = 0 ∧ d.kpr.resets = [{ scope := 2, target := 4 + p.val, raised := false, owed := [] }] ∧ MemSame s.dev d ∧ d.cells = s.dev.cells)) ∧
    Runs (.perstDeassert p) s (fun d => d = modPcie s.dev p (fun q => { q with inPerst := false })) ∧
    (∀ d3, (getPcie s.dev p).cfgReady = true → Runs (.dStateChange p d3) s (fun d => d = d3Check (fset s.dev (HIF_LINK_DSTATE p) (if d3 then 3 else 0)))) ∧
    (∀ d3, (getPcie s.dev p).cfgReady = false → Runs (.dStateChange p d3) s (fun d => d = s.dev)) ∧
    (∀ stream : Fin 3, rbit s.dev (HIF_LINK p) (20 + stream.val) = true → Runs (.ideIntegrityFail p stream) s (fun d =>
      rbit d (HIF_LINK p) (20 + stream.val) = false ∧ fget d (HIF_LINK_IDE_FAIL p) = 1 ∧ MemSame s.dev d ∧ d.cells = s.dev.cells)) ∧
    (∀ stream : Fin 3, rbit s.dev (HIF_LINK p) (20 + stream.val) = false → Runs (.ideIntegrityFail p stream) s (fun d => d = s.dev))

/-- R325, R326, R333, R346, R348. Ring control, by the ring's own port or the keeper: an ENABLE of a DISABLED ring starts it before START_SEQ with nothing in
flight; a RESUME writes the completions not yet written; STOP and DISABLE change the state where they may; the moderation time raises the ring's
event; the timeout of an offer ends its HANDOVER. -/
def Obligations.RingControl : Prop :=
  ∀ (s : State) (by_ : Option PciePort) (k : Fin 32),
    (ringWrites by_ k = true →
      (ringState s.dev k = 0 → Runs (.ringEnable by_ k) s (fun d => ringState d k = 1 ∧
        fget d (HIF_RING_SEQ_LAST_RECV k) = (fget s.dev (HIF_RING_START_START_SEQ k) + 2 ^ 32 - 1) % 2 ^ 32 ∧
        fget d (HIF_RING_SEQ_LAST_DONE k) = fget d (HIF_RING_SEQ_LAST_RECV k) ∧ (getRing d k).cmds = [] ∧ (getRing d k).target = fget d (HIF_RING_SEQ_LAST_RECV k) ∧
        MemSame s.dev d ∧ d.cells = s.dev.cells)) ∧
      (ringState s.dev k ≠ 0 → Runs (.ringEnable by_ k) s (fun d => d = s.dev)) ∧
      (2 ≤ ringState s.dev k → Runs (.ringResume by_ k) s (fun d => ringState d k = 1 ∧ (getRing d k).unwrit = [] ∧
        (getRing d k).cmds = (getRing s.dev k).cmds ∧ MemSame s.dev d ∧ d.cells = s.dev.cells)) ∧
      (ringState s.dev k = 1 → Runs (.ringStop by_ k) s (fun d => d = fset s.dev (HIF_RING_STATUS_STATE k) 2)) ∧
      (2 ≤ ringState s.dev k → fget s.dev (HIF_RING_SEQ_LAST_DONE k) = fget s.dev (HIF_RING_SEQ_LAST_RECV k) →
        Runs (.ringDisable by_ k) s (fun d => ringState d k = 0 ∧ (getRing d k).unwrit = [] ∧ MemSame s.dev d ∧ RegsBut [(HIF_RING_STATUS_STATE k).off] s.dev d)) ∧
      (ringState s.dev k = 1 → Runs (.ringDisable by_ k) s (fun d => d = s.dev))) ∧
    (ringWrites by_ k = false → ∀ i ∈ [Instr.ringEnable by_ k, .ringResume by_ k, .ringStop by_ k, .ringDisable by_ k], Runs i s (fun d => d = s.dev)) ∧
    (fget s.dev (HIF_RING_CFG_MOD_TIME k) ≠ 0 → (getRing s.dev k).modSeen ≠ 0 →
      Runs (.modTimeExpire k) s (fun d => d = raiseEvent (modRing s.dev k (fun r => { r with modSeen := 0 })) (k / 16) (k % 16))) ∧
    ((getRing s.dev k).modSeen = 0 → Runs (.modTimeExpire k) s (fun d => d = s.dev)) ∧
    (∀ p : PciePort, fget s.dev (offerFld p) = 1 → openOffer s.dev p = none → Runs (.handoverExpire p) s (fun d => d = fset s.dev (offerFld p) 0)) ∧
    (∀ (p : PciePort) j c, fget s.dev (offerFld p) = 1 → openOffer s.dev p = some (j, c) →
      Runs (.handoverExpire p) s (fun d => d = fset (writeFinal s.dev j c.seq .aborted 21 0 0) (offerFld p) 0))

/-- R329 to R332, R335, R340, R441. A descriptor is fetched while the ring runs and has one to fetch: a failed fetch or a wrong SEQ puts the ring in ERROR, and
the next SEQ is accepted as the newest command, malformed or denied at once where R335 says so. A command whose work ends is latched, and
commits at once while the tide does not run; the oldest command that has its final status is posted. -/
def Obligations.RingCommands : Prop :=
  ∀ (s : State) (k : Fin 32) (e : EccHits) (far : List (Nat × Byte)),
    ((ringState s.dev k ≠ 1 ∨ (getRing s.dev k).target = fget s.dev (HIF_RING_SEQ_LAST_RECV k)) → ∀ bytes, Runs (.descriptorFetch k bytes e far) s (fun d => d = s.dev)) ∧
    (ringState s.dev k = 1 → (getRing s.dev k).target ≠ fget s.dev (HIF_RING_SEQ_LAST_RECV k) → (getRing s.dev k).cmds.length < 64 →
      Runs (.descriptorFetch k none e far) s (fun d => d = ringError s.dev k 3) ∧
      (∀ bs : List Byte, bs.length = 64 → leAt bs 4 4 ≠ (fget s.dev (HIF_RING_SEQ_LAST_RECV k) + 1) % 2 ^ 32 →
        Runs (.descriptorFetch k (some bs) e far) s (fun d => d = ringError s.dev k 1)) ∧
      (∀ bs : List Byte, bs.length = 64 → leAt bs 4 4 = (fget s.dev (HIF_RING_SEQ_LAST_RECV k) + 1) % 2 ^ 32 → (∀ a n, parseOp bs ≠ .gaugeList a n) →
        (fget s.dev SEC_DBG_PERMS_PERMS).testBit 0 = false →
        Runs (.descriptorFetch k (some bs) e far) s (fun d => fget d (HIF_RING_SEQ_LAST_RECV k) = leAt bs 4 4 ∧ (∃ c, (getRing d k).cmds = (getRing s.dev k).cmds ++ [c] ∧
            c.seq = leAt bs 4 4 ∧ c.tag = leAt bs 8 2 ∧ c.op = parseOp bs ∧ c.started = false ∧ c.brk = false ∧ c.latch = s.dev.latchNo ∧
            (c.op = .malformed → c.ended = true ∧ c.status = .aborted ∧ c.detail = 1) ∧
            (opOwner c.op = true → ownerPort s.dev ≠ k / 16 → c.ended = true ∧ c.status = .securityDenied ∧ c.detail = 14) ∧
            (c.op ≠ .malformed → (opOwner c.op = false ∨ ownerPort s.dev = k / 16) → c.ended = false ∧ c.status = .ok)) ∧
          MemSame s.dev d ∧ d.cells = s.dev.cells))) ∧
    (∀ seq, Runs (.commandWorkEnd k seq) s (fun d => d = if tideState s.dev = 1 then latchWork s.dev k seq else commitNow (latchWork s.dev k seq) k seq)) ∧
    (∀ c rest f d1 d2 good, (getRing s.dev k).cmds = c :: rest → c.final = some f → f.1 ≠ .aborted →
      d1 = fset (recordCompletion s.dev k c f) (HIF_RING_SEQ_LAST_DONE k) c.seq → d2 = noteInflight (modRing d1 k (fun r => { r with cmds := rest })) k →
      (ringState d2 k = 1 → good = true → Runs (.completionPost k good) s (fun d => d = moderate (writeCompletion d2 k c.seq) k 1)) ∧
      (ringState d2 k = 1 → good = false → Runs (.completionPost k good) s (fun d => d = ringError (modRing d2 k (fun r => { r with unwrit := r.unwrit ++ [c.seq] })) k 4)) ∧
      (ringState d2 k ≠ 1 → Runs (.completionPost k good) s (fun d => d = modRing d2 k (fun r => { r with unwrit := r.unwrit ++ [c.seq] })))) ∧
    (∀ good, ((getRing s.dev k).cmds = [] ∨ ∃ c rest, (getRing s.dev k).cmds = c :: rest ∧ c.final = none) → Runs (.completionPost k good) s (fun d => d = s.dev))

/-- R114, R208, R212, R267, R334, R336 to R339, R341, R343, R346, R359, R398. What each host command does when it starts, as the next of its ring: the
ones that only end, the ones whose effect waits for an edge, the ones that move data, and the ones that answer NOT_READY. -/
def Obligations.HostCommands : Prop :=
  ∀ (s : State) (k : Fin 32) (c : HostCmd), nextCmd s.dev k = some c →
    (c.op = .nop → Runs (.nop k) s (fun d => d = markOver s.dev k c.seq .ok 0 0)) ∧
    (∀ hostA dev len toHost g host bad e, c.op = .copy hostA dev len toHost g → (toHost = true ∨ host = none ∨ ∃ bs, host = some bs ∧ bs.length = len) →
      (grefBad s.dev g = true → Runs (.copy k host bad e) s (fun d => d = markOver s.dev k c.seq .retiredResource 0 0)) ∧
      (grefBad s.dev g = false → toHost = false → copyHeld s.dev dev len = true → Runs (.copy k host bad e) s (fun d => d = s.dev)) ∧
      (∀ d1, grefBad s.dev g = false → toHost = true → d1 = modCmd (countWalk s.dev) k c.seq (fun c => { c with started := true }) →
        checkRange d1 .barRead dev len = none → Runs (.copy k host bad e) s (fun d => d = copyEnd ((cutAt 128 dev len).foldl (fun d p =>
          copyPiece d e k c.seq c.tag dev p.1 p.2 true [] false) d1) k c.seq)) ∧
      (∀ d1 bs, grefBad s.dev g = false → toHost = false → copyHeld s.dev dev len = false → host = some bs → bad = [] →
        d1 = modCmd (countWalk s.dev) k c.seq (fun c => { c with started := true }) → checkRange d1 .barWrite dev len = none →
        Runs (.copy k host bad e) s (fun d => d = copyEnd ((cutAt 64 dev len).foldl (fun d p =>
          copyPiece d e k c.seq c.tag dev p.1 p.2 false ((bs.drop p.1).take p.2) false) d1) k c.seq))) ∧
    (∀ g set v, c.op = .gauge g set v → Runs (.gauge k) s (fun d => d = markOver (modCmd s.dev k c.seq (fun c => { c with lists := [(g, set, v)] })) k c.seq .ok 0 0)) ∧
    (∀ a n, c.op = .gaugeList a n → Runs (.gaugeList k) s (fun d => d = markOver s.dev k c.seq c.status c.detail 0)) ∧
    (∀ a l f g, c.op = .ingestSet a l f g → Runs (.ingestSet k) s (fun d => d = markOver s.dev k c.seq .ok 0 0)) ∧
    (∀ a n, c.op = .patLoad a n →
      ((patStage s.dev = 0 ∨ patStage s.dev = 2) → Runs (.patLoad k) s (fun d => fget d PAT_STATUS_STAGE = 1 ∧ d.pat.loading = some (a, n) ∧
        d.pat.loadCmd = some (k.val, c.seq) ∧ (∀ x ∈ (getRing d k).cmds, x.seq = c.seq → x.started = true) ∧ MemSame s.dev d ∧ d.cells = s.dev.cells)) ∧
      (patStage s.dev = 1 ∨ patStage s.dev = 3 → Runs (.patLoad k) s (fun d => d = markOver s.dev k c.seq .notReady 13 0))) ∧
    (∀ e, c.op = .patSwitch e →
      (patStage s.dev = 2 → Runs (.patSwitch k) s (fun d => fget d PAT_STATUS_STAGE = 3 ∧ d.pat.due = edgeUsed s.dev e ∧ d.pat.swCmd = some (k.val, c.seq) ∧
        rget d PAT_SWITCH_DONE = BitVec.ofNat 64 (edgeUsed s.dev e) ∧ MemSame s.dev d ∧ d.cells = s.dev.cells)) ∧
      (patStage s.dev ≠ 2 → Runs (.patSwitch k) s (fun d => d = markOver s.dev k c.seq .notReady 13 0))) ∧
    (c.op = .patDiscard → (patStage s.dev = 0 → Runs (.patDiscard k) s (fun d => d = amendEdge (markOver s.dev k c.seq .notReady 13 0))) ∧
      (∀ d1, discardStage s.dev = (d1, true) → Runs (.patDiscard k) s (fun d => d = amendEdge (latchWork (markOver d1 k c.seq .ok (fget d1 PAT_STATUS_REASON) 0) k c.seq)))) ∧
    (∀ v e, c.op = .srSeed v e → Runs (.srSeed k) s (fun d => d = modCmd s.dev k c.seq (fun c => { c with started := true, due := edgeUsed s.dev e, result := edgeUsed s.dev e }))) ∧
    (∀ g l e, c.op = .clvLayout g l e → Runs (.clvLayout k) s (fun d => d = modCmd s.dev k c.seq (fun c => { c with started := true, due := edgeUsed s.dev e, result := edgeUsed s.dev e }))) ∧
    (∀ w e, c.op = .capSet w e →
      (tideState s.dev = 1 → Runs (.capSet k) s (fun d => d = modCmd s.dev k c.seq (fun c => { c with started := true, due := edgeUsed s.dev e, result := edgeUsed s.dev e }))) ∧
      (tideState s.dev ≠ 1 → Runs (.capSet k) s (fun d => d = writeFinal (setHostCap s.dev w) k c.seq .ok 0 0 0))) ∧
    (∀ sc t, c.op = .reset sc t → Runs (.reset k) s (fun d => d = markOver s.dev k c.seq .ok 0 0)) ∧
    (∀ p r sq, c.op = .abort p r sq → tideState s.dev = 1 →
      (p ≠ k / 16 → ownerPort s.dev ≠ k / 16 → r < 16 → Runs (.abort k) s (fun d => d = amendEdge (latchWork (markOver s.dev k c.seq .securityDenied 14 0) k c.seq))) ∧
      (∀ tk t g, (p = k / 16 ∨ ownerPort s.dev = k / 16) → tk = 16 * p + r → r < 16 → g = (sq + 2 ^ 32 - fget s.dev (HIF_RING_SEQ_LAST_RECV tk)) % 2 ^ 32 →
        (0 < g → g < 2 ^ 31 → Runs (.abort k) s (fun d => d = amendEdge (latchWork (markOver s.dev k c.seq .notReady 13 0) k c.seq))) ∧
        ((g = 0 ∨ 2 ^ 31 ≤ g) → findCmd s.dev tk sq = some t → t.op = .nop → t.final = none → t.abortAt = none → t.started = false →
          Runs (.abort k) s (fun d => d = amendEdge (latchWork (modCmd (modCmd s.dev k c.seq (fun c => { c with started := true })) tk sq
            (fun t => { t with abortAt := some (c.latch, k / 16, k % 16, c.seq) })) k c.seq))))) ∧
    (∀ n, c.op = .handover n →
      (fget s.dev (offerFld (k.val / 16)) = 1 → Runs (.handover k) s (fun d => d = markOver s.dev k c.seq .notReady 13 0)) ∧
      (fget s.dev (offerFld (k.val / 16)) = 0 → fget s.dev (offerFld (1 - k.val / 16)) = 0 →
        Runs (.handover k) s (fun d => d = fset (modCmd s.dev k c.seq (fun c => { c with started := true })) (offerFld (k.val / 16)) 1)) ∧
      (fget s.dev (offerFld (k.val / 16)) = 0 → fget s.dev (offerFld (1 - k.val / 16)) = 1 →
        Runs (.handover k) s (fun d => d = transferOwner s.dev (1 - k.val / 16) k c.seq))) ∧
    (c.op = .handoverAck →
      (fget s.dev (offerFld (1 - k.val / 16)) = 1 → Runs (.handoverAck k) s (fun d => d = transferOwner s.dev (1 - k.val / 16) k c.seq)) ∧
      (fget s.dev (offerFld (1 - k.val / 16)) = 0 → Runs (.handoverAck k) s (fun d => d = markOver s.dev k c.seq .notReady 13 0)))

/-- R343, R344. The ingest engine of a port moves nothing while it is not set up, has stopped, has a write open, or has no room or entry; else it moves
as many entries as the call, the room and the sluice allow, no more than 64. -/
def Obligations.IngestEngine : Prop :=
  ∀ (s : State) (p : PciePort) (n : Nat),
    ((fget s.dev (HIF_INGEST_CFG_VALID p) = 0 ∨ fget s.dev (HIF_INGEST_STATUS_ERR p) ≠ 0 ∨ (getPcie s.dev p).ingestOpen ≠ 0) →
      Runs (.ingestBatch p n) s (fun d => d = s.dev)) ∧
    (∀ room m, fget s.dev (HIF_INGEST_CFG_VALID p) = 1 → fget s.dev (HIF_INGEST_STATUS_ERR p) = 0 → (getPcie s.dev p).ingestOpen = 0 →
      room = grefValue s.dev (getPcie s.dev p).consumed + 2 ^ fget s.dev (HIF_INGEST_CFG_LOG2 p) - (getPcie s.dev p).ingestK →
      m = min (min n 64) (min room (slcAvail (slcCap (2 + p)) (getSlc s.dev (2 + p)))) →
      Runs (.ingestBatch p n) s (fun d => d = ingestEnd ((List.range m).foldl (fun d i => match slcFront d (2 + p) with
        | some entry => ingestEntry d p i entry
        | none => d) s.dev) p))
end

