-- ==== Sys2Proof/Laws/SMap.lean ====
section
/-! SUPPORT. Laws of sparse maps: a read after a write, and the canonical form kept by every operation. -/
namespace Sys2Proof.Machine

variable {α : Type}

/-- A listed key reads as its value, an insertion elsewhere changes nothing. -/
theorem smGet_smInsert (f : Nat → α) (m : SMap α) (k : Nat) (v : α) (j : Nat) :
    smGet f (smInsert m k v) j = if j = k then v else smGet f m j := by
  induction m with
  | nil =>
    by_cases h : j = k
    · simp [smInsert, smGet, h]
    · simp [smInsert, smGet, h, Ne.symm h]
  | cons p t ih =>
    obtain ⟨a, w⟩ := p
    by_cases hjk : j = k
    · subst hjk
      simp only [smInsert]
      split_ifs with h1 h2
      · simp [smGet]
      · simp [smGet]
      · simp [smGet, h1, ih]
    · simp only [smInsert, hjk, if_false]
      split_ifs with h1 h2
      · subst h1; simp [smGet, Ne.symm hjk]
      · simp [smGet, Ne.symm hjk]
      · by_cases h3 : a = j <;> simp [smGet, h3, ih, hjk]

/-- An erased key reads as unlisted. -/
theorem smGet_smErase (f : Nat → α) (m : SMap α) (k j : Nat) :
    smGet f (smErase m k) j = if j = k then f j else smGet f m j := by
  induction m with
  | nil => simp [smErase, smGet]
  | cons p t ih =>
    obtain ⟨a, w⟩ := p
    simp only [smErase] at ih
    by_cases h : a = k
    · subst h
      by_cases hj : j = a
      · subst hj; simp [smErase, ih]
      · simp [smErase, smGet, ih, hj, Ne.symm hj]
    · by_cases hj : a = j
      · subst hj; simp [smErase, smGet, h]
      · simp [smErase, smGet, h, hj, ih]

/-- A read after a write, of the same key and of any other. -/
theorem smGet_smSet [DecidableEq α] (f : Nat → α) (m : SMap α) (k : Nat) (v : α) (j : Nat) :
    smGet f (smSet f m k v) j = if j = k then v else smGet f m j := by
  unfold smSet
  split_ifs with h h' h'
  · subst h'; simp [smGet_smErase, h]
  · simp [smGet_smErase, h']
  · simp [smGet_smInsert, h']
  · simp [smGet_smInsert, h']

@[simp] theorem smGet_smSet_same [DecidableEq α] (f : Nat → α) (m : SMap α) (k : Nat) (v : α) :
    smGet f (smSet f m k v) k = v := by simp [smGet_smSet]

theorem smGet_smSet_ne [DecidableEq α] (f : Nat → α) (m : SMap α) {k j : Nat} (h : j ≠ k) (v : α) :
    smGet f (smSet f m k v) j = smGet f m j := by simp [smGet_smSet, h]

/-- What a filtered map reads as. -/
theorem smGet_smKeep (f : Nat → α) (p : Nat → Bool) (m : SMap α) (j : Nat) :
    smGet f (smKeep p m) j = if p j then smGet f m j else f j := by
  induction m with
  | nil => simp [smKeep, smGet]
  | cons e t ih =>
    obtain ⟨a, w⟩ := e
    simp only [smKeep] at ih
    by_cases ha : p a
    · by_cases hj : a = j
      · subst hj; simp [smKeep, smGet, ha]
      · simp [smKeep, smGet, ha, hj, ih]
    · by_cases hj : a = j
      · subst hj; simp [smKeep, ha, ih]
      · simp [smKeep, smGet, ha, hj, ih]

/-! ## The canonical form -/

/-- The empty map is canonical. -/
@[simp] theorem smWf_nil (f : Nat → α) : smWf f ([] : SMap α) := by simp [smWf]

/-- Keys of an insertion. -/
theorem smInsert_mem {m : SMap α} {k : Nat} {v : α} {e : Nat × α} (h : e ∈ smInsert m k v) : e = (k, v) ∨ e ∈ m := by
  induction m with
  | nil => simpa [smInsert] using h
  | cons p t ih =>
    obtain ⟨a, w⟩ := p
    simp only [smInsert] at h
    split_ifs at h with h1 h2
    · simp only [List.mem_cons] at h ⊢
      tauto
    · simp only [List.mem_cons] at h ⊢
      tauto
    · simp only [List.mem_cons] at h ⊢
      rcases h with h | h
      · tauto
      · rcases ih h with h | h <;> tauto

/-- An insertion keeps the keys rising. -/
theorem smInsert_rising {m : SMap α} (k : Nat) (v : α) (h : m.Pairwise (fun a b => a.1 < b.1)) :
    (smInsert m k v).Pairwise (fun a b => a.1 < b.1) := by
  induction m with
  | nil => simp [smInsert]
  | cons p t ih =>
    obtain ⟨a, w⟩ := p
    rw [List.pairwise_cons] at h
    simp only [smInsert]
    split_ifs with h1 h2
    · subst h1
      exact List.pairwise_cons.2 ⟨fun e he => h.1 e he, h.2⟩
    · refine List.pairwise_cons.2 ⟨fun e he => ?_, List.pairwise_cons.2 ⟨h.1, h.2⟩⟩
      rcases List.mem_cons.1 he with rfl | he
      · exact h2
      · exact lt_trans h2 (h.1 e he)
    · refine List.pairwise_cons.2 ⟨fun e he => ?_, ih h.2⟩
      rcases smInsert_mem he with rfl | he
      · change a < k; omega
      · exact h.1 e he

/-- A write keeps the canonical form. -/
theorem smSet_wf [DecidableEq α] {f : Nat → α} {m : SMap α} (h : smWf f m) (k : Nat) (v : α) : smWf f (smSet f m k v) := by
  unfold smSet
  split_ifs with hv
  · exact ⟨h.1.filter _, fun e he => h.2 e (List.mem_of_mem_filter he)⟩
  · refine ⟨smInsert_rising k v h.1, fun e he => ?_⟩
    rcases smInsert_mem he with rfl | he
    · exact hv
    · exact h.2 e he

/-- A change keeps the canonical form. -/
theorem smModify_wf [DecidableEq α] {f : Nat → α} {m : SMap α} (h : smWf f m) (k : Nat) (g : α → α) :
    smWf f (smModify f m k g) := smSet_wf h k _

/-- Dropping keys keeps the canonical form. -/
theorem smKeep_wf {f : Nat → α} {m : SMap α} (h : smWf f m) (p : Nat → Bool) : smWf f (smKeep p m) :=
  ⟨h.1.filter _, fun e he => h.2 e (List.mem_of_mem_filter he)⟩

/-- Below its first key a rising map reads as unlisted. -/
theorem smGet_below (f : Nat → α) {m : SMap α} {k : Nat} (h : ∀ e ∈ m, k < e.1) : smGet f m k = f k := by
  induction m with
  | nil => rfl
  | cons p t ih =>
    obtain ⟨a, w⟩ := p
    have ha : a ≠ k := by have := h _ (List.mem_cons_self); simp only at this; omega
    simp only [smGet, ha, if_false]
    exact ih (fun e he => h e (List.mem_cons_of_mem _ he))

/-- Equal contents are equal data: two canonical maps that read alike are one. -/
theorem smWf_ext {f : Nat → α} {m n : SMap α} (hm : smWf f m) (hn : smWf f n) (h : ∀ k, smGet f m k = smGet f n k) :
    m = n := by
  induction m generalizing n with
  | nil =>
    cases n with
    | nil => rfl
    | cons q u =>
      obtain ⟨b, w⟩ := q
      exact absurd (h b).symm (by simpa [smGet] using hn.2 (b, w) (List.mem_cons_self))
  | cons p t ih =>
    obtain ⟨a, v⟩ := p
    have hm1 := (List.pairwise_cons.1 hm.1)
    cases n with
    | nil => exact absurd (h a) (by simpa [smGet] using hm.2 (a, v) (List.mem_cons_self))
    | cons q u =>
      obtain ⟨b, w⟩ := q
      have hn1 := (List.pairwise_cons.1 hn.1)
      rcases lt_trichotomy a b with hab | hab | hab
      · have h1 : smGet f ((b, w) :: u) a = f a := smGet_below f (fun e he => by
          rcases List.mem_cons.1 he with rfl | he
          · exact hab
          · exact lt_trans hab (hn1.1 e he))
        exact absurd ((h a).trans h1) (by simpa [smGet] using hm.2 (a, v) (List.mem_cons_self))
      · subst hab
        have hvw : v = w := by simpa [smGet] using h a
        subst hvw
        have htu : t = u := by
          refine ih ⟨hm1.2, fun e he => hm.2 e (List.mem_cons_of_mem _ he)⟩
            ⟨hn1.2, fun e he => hn.2 e (List.mem_cons_of_mem _ he)⟩ (fun k => ?_)
          by_cases hk : a = k
          · subst hk
            rw [smGet_below f (fun e he => hm1.1 e he), smGet_below f (fun e he => hn1.1 e he)]
          · simpa [smGet, hk] using h k
        rw [htu]
      · have h1 : smGet f ((a, v) :: t) b = f b := smGet_below f (fun e he => by
          rcases List.mem_cons.1 he with rfl | he
          · exact hab
          · exact lt_trans hab (hm1.1 e he))
        exact absurd ((h b).symm.trans h1) (by simpa [smGet] using hn.2 (b, w) (List.mem_cons_self))

end Sys2Proof.Machine
end

