-- ==== Sys2Proof/Laws/State.lean ====
section
/-! SUPPORT. What each named update of the device leaves: one lemma for each field that it does not write. -/
namespace Sys2Proof.Machine

/-! ## rset writes `regs` alone -/

@[simp] theorem rset_mem (d : Dev) (o : Nat) (v : Word) : (rset d o v).mem = d.mem := (rfl)
@[simp] theorem rset_poison (d : Dev) (o : Nat) (v : Word) : (rset d o v).poison = d.poison := (rfl)
@[simp] theorem rset_cells (d : Dev) (o : Nat) (v : Word) : (rset d o v).cells = d.cells := (rfl)
@[simp] theorem rset_far (d : Dev) (o : Nat) (v : Word) : (rset d o v).far = d.far := (rfl)
@[simp] theorem rset_map (d : Dev) (o : Nat) (v : Word) : (rset d o v).map = d.map := (rfl)
@[simp] theorem rset_probing (d : Dev) (o : Nat) (v : Word) : (rset d o v).probing = d.probing := (rfl)
@[simp] theorem rset_ports (d : Dev) (o : Nat) (v : Word) : (rset d o v).ports = d.ports := (rfl)
@[simp] theorem rset_flows (d : Dev) (o : Nat) (v : Word) : (rset d o v).flows = d.flows := (rfl)
@[simp] theorem rset_rids (d : Dev) (o : Nat) (v : Word) : (rset d o v).rids = d.rids := (rfl)
@[simp] theorem rset_inbox (d : Dev) (o : Nat) (v : Word) : (rset d o v).inbox = d.inbox := (rfl)
@[simp] theorem rset_toRoute (d : Dev) (o : Nat) (v : Word) : (rset d o v).toRoute = d.toRoute := (rfl)
@[simp] theorem rset_reqWait (d : Dev) (o : Nat) (v : Word) : (rset d o v).reqWait = d.reqWait := (rfl)
@[simp] theorem rset_pcie (d : Dev) (o : Nat) (v : Word) : (rset d o v).pcie = d.pcie := (rfl)
@[simp] theorem rset_rings (d : Dev) (o : Nat) (v : Word) : (rset d o v).rings = d.rings := (rfl)
@[simp] theorem rset_latchNo (d : Dev) (o : Nat) (v : Word) : (rset d o v).latchNo = d.latchNo := (rfl)
@[simp] theorem rset_tide (d : Dev) (o : Nat) (v : Word) : (rset d o v).tide = d.tide := (rfl)
@[simp] theorem rset_pat (d : Dev) (o : Nat) (v : Word) : (rset d o v).pat = d.pat := (rfl)
@[simp] theorem rset_clv (d : Dev) (o : Nat) (v : Word) : (rset d o v).clv = d.clv := (rfl)
@[simp] theorem rset_meshOff (d : Dev) (o : Nat) (v : Word) : (rset d o v).meshOff = d.meshOff := (rfl)
@[simp] theorem rset_frozen (d : Dev) (o : Nat) (v : Word) : (rset d o v).frozen = d.frozen := (rfl)
@[simp] theorem rset_rgnUp (d : Dev) (o : Nat) (v : Word) : (rset d o v).rgnUp = d.rgnUp := (rfl)
@[simp] theorem rset_ceWin (d : Dev) (o : Nat) (v : Word) : (rset d o v).ceWin = d.ceWin := (rfl)
@[simp] theorem rset_tierPos (d : Dev) (o : Nat) (v : Word) : (rset d o v).tierPos = d.tierPos := (rfl)
@[simp] theorem rset_hbmList (d : Dev) (o : Nat) (v : Word) : (rset d o v).hbmList = d.hbmList := (rfl)
@[simp] theorem rset_ddrList (d : Dev) (o : Nat) (v : Word) : (rset d o v).ddrList = d.ddrList := (rfl)
@[simp] theorem rset_gaugeq (d : Dev) (o : Nat) (v : Word) : (rset d o v).gaugeq = d.gaugeq := (rfl)
@[simp] theorem rset_slc (d : Dev) (o : Nat) (v : Word) : (rset d o v).slc = d.slc := (rfl)
@[simp] theorem rset_pwr (d : Dev) (o : Nat) (v : Word) : (rset d o v).pwr = d.pwr := (rfl)
@[simp] theorem rset_thm (d : Dev) (o : Nat) (v : Word) : (rset d o v).thm = d.thm := (rfl)
@[simp] theorem rset_kpr (d : Dev) (o : Nat) (v : Word) : (rset d o v).kpr = d.kpr := (rfl)
@[simp] theorem rset_levees (d : Dev) (o : Nat) (v : Word) : (rset d o v).levees = d.levees := (rfl)
@[simp] theorem rset_sec (d : Dev) (o : Nat) (v : Word) : (rset d o v).sec = d.sec := (rfl)
@[simp] theorem rset_tap (d : Dev) (o : Nat) (v : Word) : (rset d o v).tap = d.tap := (rfl)
@[simp] theorem rset_trace (d : Dev) (o : Nat) (v : Word) : (rset d o v).trace = d.trace := (rfl)
@[simp] theorem rset_flog (d : Dev) (o : Nat) (v : Word) : (rset d o v).flog = d.flog := (rfl)
@[simp] theorem rset_flogSeq (d : Dev) (o : Nat) (v : Word) : (rset d o v).flogSeq = d.flogSeq := (rfl)
@[simp] theorem rset_flogEnd (d : Dev) (o : Nat) (v : Word) : (rset d o v).flogEnd = d.flogEnd := (rfl)
@[simp] theorem rset_now (d : Dev) (o : Nat) (v : Word) : (rset d o v).now = d.now := (rfl)
@[simp] theorem rset_free (d : Dev) (o : Nat) (v : Word) : (rset d o v).free = d.free := (rfl)
@[simp] theorem rset_out (d : Dev) (o : Nat) (v : Word) : (rset d o v).out = d.out := (rfl)

/-! ## fset writes `regs` alone -/

@[simp] theorem fset_mem (d : Dev) (f : Fld) (v : Nat) : (fset d f v).mem = d.mem := (rfl)
@[simp] theorem fset_poison (d : Dev) (f : Fld) (v : Nat) : (fset d f v).poison = d.poison := (rfl)
@[simp] theorem fset_cells (d : Dev) (f : Fld) (v : Nat) : (fset d f v).cells = d.cells := (rfl)
@[simp] theorem fset_far (d : Dev) (f : Fld) (v : Nat) : (fset d f v).far = d.far := (rfl)
@[simp] theorem fset_map (d : Dev) (f : Fld) (v : Nat) : (fset d f v).map = d.map := (rfl)
@[simp] theorem fset_probing (d : Dev) (f : Fld) (v : Nat) : (fset d f v).probing = d.probing := (rfl)
@[simp] theorem fset_ports (d : Dev) (f : Fld) (v : Nat) : (fset d f v).ports = d.ports := (rfl)
@[simp] theorem fset_flows (d : Dev) (f : Fld) (v : Nat) : (fset d f v).flows = d.flows := (rfl)
@[simp] theorem fset_rids (d : Dev) (f : Fld) (v : Nat) : (fset d f v).rids = d.rids := (rfl)
@[simp] theorem fset_inbox (d : Dev) (f : Fld) (v : Nat) : (fset d f v).inbox = d.inbox := (rfl)
@[simp] theorem fset_toRoute (d : Dev) (f : Fld) (v : Nat) : (fset d f v).toRoute = d.toRoute := (rfl)
@[simp] theorem fset_reqWait (d : Dev) (f : Fld) (v : Nat) : (fset d f v).reqWait = d.reqWait := (rfl)
@[simp] theorem fset_pcie (d : Dev) (f : Fld) (v : Nat) : (fset d f v).pcie = d.pcie := (rfl)
@[simp] theorem fset_rings (d : Dev) (f : Fld) (v : Nat) : (fset d f v).rings = d.rings := (rfl)
@[simp] theorem fset_latchNo (d : Dev) (f : Fld) (v : Nat) : (fset d f v).latchNo = d.latchNo := (rfl)
@[simp] theorem fset_tide (d : Dev) (f : Fld) (v : Nat) : (fset d f v).tide = d.tide := (rfl)
@[simp] theorem fset_pat (d : Dev) (f : Fld) (v : Nat) : (fset d f v).pat = d.pat := (rfl)
@[simp] theorem fset_clv (d : Dev) (f : Fld) (v : Nat) : (fset d f v).clv = d.clv := (rfl)
@[simp] theorem fset_meshOff (d : Dev) (f : Fld) (v : Nat) : (fset d f v).meshOff = d.meshOff := (rfl)
@[simp] theorem fset_frozen (d : Dev) (f : Fld) (v : Nat) : (fset d f v).frozen = d.frozen := (rfl)
@[simp] theorem fset_rgnUp (d : Dev) (f : Fld) (v : Nat) : (fset d f v).rgnUp = d.rgnUp := (rfl)
@[simp] theorem fset_ceWin (d : Dev) (f : Fld) (v : Nat) : (fset d f v).ceWin = d.ceWin := (rfl)
@[simp] theorem fset_tierPos (d : Dev) (f : Fld) (v : Nat) : (fset d f v).tierPos = d.tierPos := (rfl)
@[simp] theorem fset_hbmList (d : Dev) (f : Fld) (v : Nat) : (fset d f v).hbmList = d.hbmList := (rfl)
@[simp] theorem fset_ddrList (d : Dev) (f : Fld) (v : Nat) : (fset d f v).ddrList = d.ddrList := (rfl)
@[simp] theorem fset_gaugeq (d : Dev) (f : Fld) (v : Nat) : (fset d f v).gaugeq = d.gaugeq := (rfl)
@[simp] theorem fset_slc (d : Dev) (f : Fld) (v : Nat) : (fset d f v).slc = d.slc := (rfl)
@[simp] theorem fset_pwr (d : Dev) (f : Fld) (v : Nat) : (fset d f v).pwr = d.pwr := (rfl)
@[simp] theorem fset_thm (d : Dev) (f : Fld) (v : Nat) : (fset d f v).thm = d.thm := (rfl)
@[simp] theorem fset_kpr (d : Dev) (f : Fld) (v : Nat) : (fset d f v).kpr = d.kpr := (rfl)
@[simp] theorem fset_levees (d : Dev) (f : Fld) (v : Nat) : (fset d f v).levees = d.levees := (rfl)
@[simp] theorem fset_sec (d : Dev) (f : Fld) (v : Nat) : (fset d f v).sec = d.sec := (rfl)
@[simp] theorem fset_tap (d : Dev) (f : Fld) (v : Nat) : (fset d f v).tap = d.tap := (rfl)
@[simp] theorem fset_trace (d : Dev) (f : Fld) (v : Nat) : (fset d f v).trace = d.trace := (rfl)
@[simp] theorem fset_flog (d : Dev) (f : Fld) (v : Nat) : (fset d f v).flog = d.flog := (rfl)
@[simp] theorem fset_flogSeq (d : Dev) (f : Fld) (v : Nat) : (fset d f v).flogSeq = d.flogSeq := (rfl)
@[simp] theorem fset_flogEnd (d : Dev) (f : Fld) (v : Nat) : (fset d f v).flogEnd = d.flogEnd := (rfl)
@[simp] theorem fset_now (d : Dev) (f : Fld) (v : Nat) : (fset d f v).now = d.now := (rfl)
@[simp] theorem fset_free (d : Dev) (f : Fld) (v : Nat) : (fset d f v).free = d.free := (rfl)
@[simp] theorem fset_out (d : Dev) (f : Fld) (v : Nat) : (fset d f v).out = d.out := (rfl)

/-! ## fcount writes `regs` alone -/

@[simp] theorem fcount_mem (d : Dev) (f : Fld) (n : Nat) : (fcount d f n).mem = d.mem := (rfl)
@[simp] theorem fcount_poison (d : Dev) (f : Fld) (n : Nat) : (fcount d f n).poison = d.poison := (rfl)
@[simp] theorem fcount_cells (d : Dev) (f : Fld) (n : Nat) : (fcount d f n).cells = d.cells := (rfl)
@[simp] theorem fcount_far (d : Dev) (f : Fld) (n : Nat) : (fcount d f n).far = d.far := (rfl)
@[simp] theorem fcount_map (d : Dev) (f : Fld) (n : Nat) : (fcount d f n).map = d.map := (rfl)
@[simp] theorem fcount_probing (d : Dev) (f : Fld) (n : Nat) : (fcount d f n).probing = d.probing := (rfl)
@[simp] theorem fcount_ports (d : Dev) (f : Fld) (n : Nat) : (fcount d f n).ports = d.ports := (rfl)
@[simp] theorem fcount_flows (d : Dev) (f : Fld) (n : Nat) : (fcount d f n).flows = d.flows := (rfl)
@[simp] theorem fcount_rids (d : Dev) (f : Fld) (n : Nat) : (fcount d f n).rids = d.rids := (rfl)
@[simp] theorem fcount_inbox (d : Dev) (f : Fld) (n : Nat) : (fcount d f n).inbox = d.inbox := (rfl)
@[simp] theorem fcount_toRoute (d : Dev) (f : Fld) (n : Nat) : (fcount d f n).toRoute = d.toRoute := (rfl)
@[simp] theorem fcount_reqWait (d : Dev) (f : Fld) (n : Nat) : (fcount d f n).reqWait = d.reqWait := (rfl)
@[simp] theorem fcount_pcie (d : Dev) (f : Fld) (n : Nat) : (fcount d f n).pcie = d.pcie := (rfl)
@[simp] theorem fcount_rings (d : Dev) (f : Fld) (n : Nat) : (fcount d f n).rings = d.rings := (rfl)
@[simp] theorem fcount_latchNo (d : Dev) (f : Fld) (n : Nat) : (fcount d f n).latchNo = d.latchNo := (rfl)
@[simp] theorem fcount_tide (d : Dev) (f : Fld) (n : Nat) : (fcount d f n).tide = d.tide := (rfl)
@[simp] theorem fcount_pat (d : Dev) (f : Fld) (n : Nat) : (fcount d f n).pat = d.pat := (rfl)
@[simp] theorem fcount_clv (d : Dev) (f : Fld) (n : Nat) : (fcount d f n).clv = d.clv := (rfl)
@[simp] theorem fcount_meshOff (d : Dev) (f : Fld) (n : Nat) : (fcount d f n).meshOff = d.meshOff := (rfl)
@[simp] theorem fcount_frozen (d : Dev) (f : Fld) (n : Nat) : (fcount d f n).frozen = d.frozen := (rfl)
@[simp] theorem fcount_rgnUp (d : Dev) (f : Fld) (n : Nat) : (fcount d f n).rgnUp = d.rgnUp := (rfl)
@[simp] theorem fcount_ceWin (d : Dev) (f : Fld) (n : Nat) : (fcount d f n).ceWin = d.ceWin := (rfl)
@[simp] theorem fcount_tierPos (d : Dev) (f : Fld) (n : Nat) : (fcount d f n).tierPos = d.tierPos := (rfl)
@[simp] theorem fcount_hbmList (d : Dev) (f : Fld) (n : Nat) : (fcount d f n).hbmList = d.hbmList := (rfl)
@[simp] theorem fcount_ddrList (d : Dev) (f : Fld) (n : Nat) : (fcount d f n).ddrList = d.ddrList := (rfl)
@[simp] theorem fcount_gaugeq (d : Dev) (f : Fld) (n : Nat) : (fcount d f n).gaugeq = d.gaugeq := (rfl)
@[simp] theorem fcount_slc (d : Dev) (f : Fld) (n : Nat) : (fcount d f n).slc = d.slc := (rfl)
@[simp] theorem fcount_pwr (d : Dev) (f : Fld) (n : Nat) : (fcount d f n).pwr = d.pwr := (rfl)
@[simp] theorem fcount_thm (d : Dev) (f : Fld) (n : Nat) : (fcount d f n).thm = d.thm := (rfl)
@[simp] theorem fcount_kpr (d : Dev) (f : Fld) (n : Nat) : (fcount d f n).kpr = d.kpr := (rfl)
@[simp] theorem fcount_levees (d : Dev) (f : Fld) (n : Nat) : (fcount d f n).levees = d.levees := (rfl)
@[simp] theorem fcount_sec (d : Dev) (f : Fld) (n : Nat) : (fcount d f n).sec = d.sec := (rfl)
@[simp] theorem fcount_tap (d : Dev) (f : Fld) (n : Nat) : (fcount d f n).tap = d.tap := (rfl)
@[simp] theorem fcount_trace (d : Dev) (f : Fld) (n : Nat) : (fcount d f n).trace = d.trace := (rfl)
@[simp] theorem fcount_flog (d : Dev) (f : Fld) (n : Nat) : (fcount d f n).flog = d.flog := (rfl)
@[simp] theorem fcount_flogSeq (d : Dev) (f : Fld) (n : Nat) : (fcount d f n).flogSeq = d.flogSeq := (rfl)
@[simp] theorem fcount_flogEnd (d : Dev) (f : Fld) (n : Nat) : (fcount d f n).flogEnd = d.flogEnd := (rfl)
@[simp] theorem fcount_now (d : Dev) (f : Fld) (n : Nat) : (fcount d f n).now = d.now := (rfl)
@[simp] theorem fcount_free (d : Dev) (f : Fld) (n : Nat) : (fcount d f n).free = d.free := (rfl)
@[simp] theorem fcount_out (d : Dev) (f : Fld) (n : Nat) : (fcount d f n).out = d.out := (rfl)

/-! ## fwrap writes `regs` alone -/

@[simp] theorem fwrap_mem (d : Dev) (f : Fld) (n : Nat) : (fwrap d f n).mem = d.mem := (rfl)
@[simp] theorem fwrap_poison (d : Dev) (f : Fld) (n : Nat) : (fwrap d f n).poison = d.poison := (rfl)
@[simp] theorem fwrap_cells (d : Dev) (f : Fld) (n : Nat) : (fwrap d f n).cells = d.cells := (rfl)
@[simp] theorem fwrap_far (d : Dev) (f : Fld) (n : Nat) : (fwrap d f n).far = d.far := (rfl)
@[simp] theorem fwrap_map (d : Dev) (f : Fld) (n : Nat) : (fwrap d f n).map = d.map := (rfl)
@[simp] theorem fwrap_probing (d : Dev) (f : Fld) (n : Nat) : (fwrap d f n).probing = d.probing := (rfl)
@[simp] theorem fwrap_ports (d : Dev) (f : Fld) (n : Nat) : (fwrap d f n).ports = d.ports := (rfl)
@[simp] theorem fwrap_flows (d : Dev) (f : Fld) (n : Nat) : (fwrap d f n).flows = d.flows := (rfl)
@[simp] theorem fwrap_rids (d : Dev) (f : Fld) (n : Nat) : (fwrap d f n).rids = d.rids := (rfl)
@[simp] theorem fwrap_inbox (d : Dev) (f : Fld) (n : Nat) : (fwrap d f n).inbox = d.inbox := (rfl)
@[simp] theorem fwrap_toRoute (d : Dev) (f : Fld) (n : Nat) : (fwrap d f n).toRoute = d.toRoute := (rfl)
@[simp] theorem fwrap_reqWait (d : Dev) (f : Fld) (n : Nat) : (fwrap d f n).reqWait = d.reqWait := (rfl)
@[simp] theorem fwrap_pcie (d : Dev) (f : Fld) (n : Nat) : (fwrap d f n).pcie = d.pcie := (rfl)
@[simp] theorem fwrap_rings (d : Dev) (f : Fld) (n : Nat) : (fwrap d f n).rings = d.rings := (rfl)
@[simp] theorem fwrap_latchNo (d : Dev) (f : Fld) (n : Nat) : (fwrap d f n).latchNo = d.latchNo := (rfl)
@[simp] theorem fwrap_tide (d : Dev) (f : Fld) (n : Nat) : (fwrap d f n).tide = d.tide := (rfl)
@[simp] theorem fwrap_pat (d : Dev) (f : Fld) (n : Nat) : (fwrap d f n).pat = d.pat := (rfl)
@[simp] theorem fwrap_clv (d : Dev) (f : Fld) (n : Nat) : (fwrap d f n).clv = d.clv := (rfl)
@[simp] theorem fwrap_meshOff (d : Dev) (f : Fld) (n : Nat) : (fwrap d f n).meshOff = d.meshOff := (rfl)
@[simp] theorem fwrap_frozen (d : Dev) (f : Fld) (n : Nat) : (fwrap d f n).frozen = d.frozen := (rfl)
@[simp] theorem fwrap_rgnUp (d : Dev) (f : Fld) (n : Nat) : (fwrap d f n).rgnUp = d.rgnUp := (rfl)
@[simp] theorem fwrap_ceWin (d : Dev) (f : Fld) (n : Nat) : (fwrap d f n).ceWin = d.ceWin := (rfl)
@[simp] theorem fwrap_tierPos (d : Dev) (f : Fld) (n : Nat) : (fwrap d f n).tierPos = d.tierPos := (rfl)
@[simp] theorem fwrap_hbmList (d : Dev) (f : Fld) (n : Nat) : (fwrap d f n).hbmList = d.hbmList := (rfl)
@[simp] theorem fwrap_ddrList (d : Dev) (f : Fld) (n : Nat) : (fwrap d f n).ddrList = d.ddrList := (rfl)
@[simp] theorem fwrap_gaugeq (d : Dev) (f : Fld) (n : Nat) : (fwrap d f n).gaugeq = d.gaugeq := (rfl)
@[simp] theorem fwrap_slc (d : Dev) (f : Fld) (n : Nat) : (fwrap d f n).slc = d.slc := (rfl)
@[simp] theorem fwrap_pwr (d : Dev) (f : Fld) (n : Nat) : (fwrap d f n).pwr = d.pwr := (rfl)
@[simp] theorem fwrap_thm (d : Dev) (f : Fld) (n : Nat) : (fwrap d f n).thm = d.thm := (rfl)
@[simp] theorem fwrap_kpr (d : Dev) (f : Fld) (n : Nat) : (fwrap d f n).kpr = d.kpr := (rfl)
@[simp] theorem fwrap_levees (d : Dev) (f : Fld) (n : Nat) : (fwrap d f n).levees = d.levees := (rfl)
@[simp] theorem fwrap_sec (d : Dev) (f : Fld) (n : Nat) : (fwrap d f n).sec = d.sec := (rfl)
@[simp] theorem fwrap_tap (d : Dev) (f : Fld) (n : Nat) : (fwrap d f n).tap = d.tap := (rfl)
@[simp] theorem fwrap_trace (d : Dev) (f : Fld) (n : Nat) : (fwrap d f n).trace = d.trace := (rfl)
@[simp] theorem fwrap_flog (d : Dev) (f : Fld) (n : Nat) : (fwrap d f n).flog = d.flog := (rfl)
@[simp] theorem fwrap_flogSeq (d : Dev) (f : Fld) (n : Nat) : (fwrap d f n).flogSeq = d.flogSeq := (rfl)
@[simp] theorem fwrap_flogEnd (d : Dev) (f : Fld) (n : Nat) : (fwrap d f n).flogEnd = d.flogEnd := (rfl)
@[simp] theorem fwrap_now (d : Dev) (f : Fld) (n : Nat) : (fwrap d f n).now = d.now := (rfl)
@[simp] theorem fwrap_free (d : Dev) (f : Fld) (n : Nat) : (fwrap d f n).free = d.free := (rfl)
@[simp] theorem fwrap_out (d : Dev) (f : Fld) (n : Nat) : (fwrap d f n).out = d.out := (rfl)

/-! ## fsub writes `regs` alone -/

@[simp] theorem fsub_mem (d : Dev) (f : Fld) (n : Nat) : (fsub d f n).mem = d.mem := (rfl)
@[simp] theorem fsub_poison (d : Dev) (f : Fld) (n : Nat) : (fsub d f n).poison = d.poison := (rfl)
@[simp] theorem fsub_cells (d : Dev) (f : Fld) (n : Nat) : (fsub d f n).cells = d.cells := (rfl)
@[simp] theorem fsub_far (d : Dev) (f : Fld) (n : Nat) : (fsub d f n).far = d.far := (rfl)
@[simp] theorem fsub_map (d : Dev) (f : Fld) (n : Nat) : (fsub d f n).map = d.map := (rfl)
@[simp] theorem fsub_probing (d : Dev) (f : Fld) (n : Nat) : (fsub d f n).probing = d.probing := (rfl)
@[simp] theorem fsub_ports (d : Dev) (f : Fld) (n : Nat) : (fsub d f n).ports = d.ports := (rfl)
@[simp] theorem fsub_flows (d : Dev) (f : Fld) (n : Nat) : (fsub d f n).flows = d.flows := (rfl)
@[simp] theorem fsub_rids (d : Dev) (f : Fld) (n : Nat) : (fsub d f n).rids = d.rids := (rfl)
@[simp] theorem fsub_inbox (d : Dev) (f : Fld) (n : Nat) : (fsub d f n).inbox = d.inbox := (rfl)
@[simp] theorem fsub_toRoute (d : Dev) (f : Fld) (n : Nat) : (fsub d f n).toRoute = d.toRoute := (rfl)
@[simp] theorem fsub_reqWait (d : Dev) (f : Fld) (n : Nat) : (fsub d f n).reqWait = d.reqWait := (rfl)
@[simp] theorem fsub_pcie (d : Dev) (f : Fld) (n : Nat) : (fsub d f n).pcie = d.pcie := (rfl)
@[simp] theorem fsub_rings (d : Dev) (f : Fld) (n : Nat) : (fsub d f n).rings = d.rings := (rfl)
@[simp] theorem fsub_latchNo (d : Dev) (f : Fld) (n : Nat) : (fsub d f n).latchNo = d.latchNo := (rfl)
@[simp] theorem fsub_tide (d : Dev) (f : Fld) (n : Nat) : (fsub d f n).tide = d.tide := (rfl)
@[simp] theorem fsub_pat (d : Dev) (f : Fld) (n : Nat) : (fsub d f n).pat = d.pat := (rfl)
@[simp] theorem fsub_clv (d : Dev) (f : Fld) (n : Nat) : (fsub d f n).clv = d.clv := (rfl)
@[simp] theorem fsub_meshOff (d : Dev) (f : Fld) (n : Nat) : (fsub d f n).meshOff = d.meshOff := (rfl)
@[simp] theorem fsub_frozen (d : Dev) (f : Fld) (n : Nat) : (fsub d f n).frozen = d.frozen := (rfl)
@[simp] theorem fsub_rgnUp (d : Dev) (f : Fld) (n : Nat) : (fsub d f n).rgnUp = d.rgnUp := (rfl)
@[simp] theorem fsub_ceWin (d : Dev) (f : Fld) (n : Nat) : (fsub d f n).ceWin = d.ceWin := (rfl)
@[simp] theorem fsub_tierPos (d : Dev) (f : Fld) (n : Nat) : (fsub d f n).tierPos = d.tierPos := (rfl)
@[simp] theorem fsub_hbmList (d : Dev) (f : Fld) (n : Nat) : (fsub d f n).hbmList = d.hbmList := (rfl)
@[simp] theorem fsub_ddrList (d : Dev) (f : Fld) (n : Nat) : (fsub d f n).ddrList = d.ddrList := (rfl)
@[simp] theorem fsub_gaugeq (d : Dev) (f : Fld) (n : Nat) : (fsub d f n).gaugeq = d.gaugeq := (rfl)
@[simp] theorem fsub_slc (d : Dev) (f : Fld) (n : Nat) : (fsub d f n).slc = d.slc := (rfl)
@[simp] theorem fsub_pwr (d : Dev) (f : Fld) (n : Nat) : (fsub d f n).pwr = d.pwr := (rfl)
@[simp] theorem fsub_thm (d : Dev) (f : Fld) (n : Nat) : (fsub d f n).thm = d.thm := (rfl)
@[simp] theorem fsub_kpr (d : Dev) (f : Fld) (n : Nat) : (fsub d f n).kpr = d.kpr := (rfl)
@[simp] theorem fsub_levees (d : Dev) (f : Fld) (n : Nat) : (fsub d f n).levees = d.levees := (rfl)
@[simp] theorem fsub_sec (d : Dev) (f : Fld) (n : Nat) : (fsub d f n).sec = d.sec := (rfl)
@[simp] theorem fsub_tap (d : Dev) (f : Fld) (n : Nat) : (fsub d f n).tap = d.tap := (rfl)
@[simp] theorem fsub_trace (d : Dev) (f : Fld) (n : Nat) : (fsub d f n).trace = d.trace := (rfl)
@[simp] theorem fsub_flog (d : Dev) (f : Fld) (n : Nat) : (fsub d f n).flog = d.flog := (rfl)
@[simp] theorem fsub_flogSeq (d : Dev) (f : Fld) (n : Nat) : (fsub d f n).flogSeq = d.flogSeq := (rfl)
@[simp] theorem fsub_flogEnd (d : Dev) (f : Fld) (n : Nat) : (fsub d f n).flogEnd = d.flogEnd := (rfl)
@[simp] theorem fsub_now (d : Dev) (f : Fld) (n : Nat) : (fsub d f n).now = d.now := (rfl)
@[simp] theorem fsub_free (d : Dev) (f : Fld) (n : Nat) : (fsub d f n).free = d.free := (rfl)
@[simp] theorem fsub_out (d : Dev) (f : Fld) (n : Nat) : (fsub d f n).out = d.out := (rfl)

/-! ## rsetBit writes `regs` alone -/

@[simp] theorem rsetBit_mem (d : Dev) (o n : Nat) (b : Bool) : (rsetBit d o n b).mem = d.mem := (rfl)
@[simp] theorem rsetBit_poison (d : Dev) (o n : Nat) (b : Bool) : (rsetBit d o n b).poison = d.poison := (rfl)
@[simp] theorem rsetBit_cells (d : Dev) (o n : Nat) (b : Bool) : (rsetBit d o n b).cells = d.cells := (rfl)
@[simp] theorem rsetBit_far (d : Dev) (o n : Nat) (b : Bool) : (rsetBit d o n b).far = d.far := (rfl)
@[simp] theorem rsetBit_map (d : Dev) (o n : Nat) (b : Bool) : (rsetBit d o n b).map = d.map := (rfl)
@[simp] theorem rsetBit_probing (d : Dev) (o n : Nat) (b : Bool) : (rsetBit d o n b).probing = d.probing := (rfl)
@[simp] theorem rsetBit_ports (d : Dev) (o n : Nat) (b : Bool) : (rsetBit d o n b).ports = d.ports := (rfl)
@[simp] theorem rsetBit_flows (d : Dev) (o n : Nat) (b : Bool) : (rsetBit d o n b).flows = d.flows := (rfl)
@[simp] theorem rsetBit_rids (d : Dev) (o n : Nat) (b : Bool) : (rsetBit d o n b).rids = d.rids := (rfl)
@[simp] theorem rsetBit_inbox (d : Dev) (o n : Nat) (b : Bool) : (rsetBit d o n b).inbox = d.inbox := (rfl)
@[simp] theorem rsetBit_toRoute (d : Dev) (o n : Nat) (b : Bool) : (rsetBit d o n b).toRoute = d.toRoute := (rfl)
@[simp] theorem rsetBit_reqWait (d : Dev) (o n : Nat) (b : Bool) : (rsetBit d o n b).reqWait = d.reqWait := (rfl)
@[simp] theorem rsetBit_pcie (d : Dev) (o n : Nat) (b : Bool) : (rsetBit d o n b).pcie = d.pcie := (rfl)
@[simp] theorem rsetBit_rings (d : Dev) (o n : Nat) (b : Bool) : (rsetBit d o n b).rings = d.rings := (rfl)
@[simp] theorem rsetBit_latchNo (d : Dev) (o n : Nat) (b : Bool) : (rsetBit d o n b).latchNo = d.latchNo := (rfl)
@[simp] theorem rsetBit_tide (d : Dev) (o n : Nat) (b : Bool) : (rsetBit d o n b).tide = d.tide := (rfl)
@[simp] theorem rsetBit_pat (d : Dev) (o n : Nat) (b : Bool) : (rsetBit d o n b).pat = d.pat := (rfl)
@[simp] theorem rsetBit_clv (d : Dev) (o n : Nat) (b : Bool) : (rsetBit d o n b).clv = d.clv := (rfl)
@[simp] theorem rsetBit_meshOff (d : Dev) (o n : Nat) (b : Bool) : (rsetBit d o n b).meshOff = d.meshOff := (rfl)
@[simp] theorem rsetBit_frozen (d : Dev) (o n : Nat) (b : Bool) : (rsetBit d o n b).frozen = d.frozen := (rfl)
@[simp] theorem rsetBit_rgnUp (d : Dev) (o n : Nat) (b : Bool) : (rsetBit d o n b).rgnUp = d.rgnUp := (rfl)
@[simp] theorem rsetBit_ceWin (d : Dev) (o n : Nat) (b : Bool) : (rsetBit d o n b).ceWin = d.ceWin := (rfl)
@[simp] theorem rsetBit_tierPos (d : Dev) (o n : Nat) (b : Bool) : (rsetBit d o n b).tierPos = d.tierPos := (rfl)
@[simp] theorem rsetBit_hbmList (d : Dev) (o n : Nat) (b : Bool) : (rsetBit d o n b).hbmList = d.hbmList := (rfl)
@[simp] theorem rsetBit_ddrList (d : Dev) (o n : Nat) (b : Bool) : (rsetBit d o n b).ddrList = d.ddrList := (rfl)
@[simp] theorem rsetBit_gaugeq (d : Dev) (o n : Nat) (b : Bool) : (rsetBit d o n b).gaugeq = d.gaugeq := (rfl)
@[simp] theorem rsetBit_slc (d : Dev) (o n : Nat) (b : Bool) : (rsetBit d o n b).slc = d.slc := (rfl)
@[simp] theorem rsetBit_pwr (d : Dev) (o n : Nat) (b : Bool) : (rsetBit d o n b).pwr = d.pwr := (rfl)
@[simp] theorem rsetBit_thm (d : Dev) (o n : Nat) (b : Bool) : (rsetBit d o n b).thm = d.thm := (rfl)
@[simp] theorem rsetBit_kpr (d : Dev) (o n : Nat) (b : Bool) : (rsetBit d o n b).kpr = d.kpr := (rfl)
@[simp] theorem rsetBit_levees (d : Dev) (o n : Nat) (b : Bool) : (rsetBit d o n b).levees = d.levees := (rfl)
@[simp] theorem rsetBit_sec (d : Dev) (o n : Nat) (b : Bool) : (rsetBit d o n b).sec = d.sec := (rfl)
@[simp] theorem rsetBit_tap (d : Dev) (o n : Nat) (b : Bool) : (rsetBit d o n b).tap = d.tap := (rfl)
@[simp] theorem rsetBit_trace (d : Dev) (o n : Nat) (b : Bool) : (rsetBit d o n b).trace = d.trace := (rfl)
@[simp] theorem rsetBit_flog (d : Dev) (o n : Nat) (b : Bool) : (rsetBit d o n b).flog = d.flog := (rfl)
@[simp] theorem rsetBit_flogSeq (d : Dev) (o n : Nat) (b : Bool) : (rsetBit d o n b).flogSeq = d.flogSeq := (rfl)
@[simp] theorem rsetBit_flogEnd (d : Dev) (o n : Nat) (b : Bool) : (rsetBit d o n b).flogEnd = d.flogEnd := (rfl)
@[simp] theorem rsetBit_now (d : Dev) (o n : Nat) (b : Bool) : (rsetBit d o n b).now = d.now := (rfl)
@[simp] theorem rsetBit_free (d : Dev) (o n : Nat) (b : Bool) : (rsetBit d o n b).free = d.free := (rfl)
@[simp] theorem rsetBit_out (d : Dev) (o n : Nat) (b : Bool) : (rsetBit d o n b).out = d.out := (rfl)

/-! ## setCell writes `cells` alone -/

@[simp] theorem setCell_regs (d : Dev) (c : Nat) (x : Cell) : (setCell d c x).regs = d.regs := (rfl)
@[simp] theorem setCell_mem (d : Dev) (c : Nat) (x : Cell) : (setCell d c x).mem = d.mem := (rfl)
@[simp] theorem setCell_poison (d : Dev) (c : Nat) (x : Cell) : (setCell d c x).poison = d.poison := (rfl)
@[simp] theorem setCell_far (d : Dev) (c : Nat) (x : Cell) : (setCell d c x).far = d.far := (rfl)
@[simp] theorem setCell_map (d : Dev) (c : Nat) (x : Cell) : (setCell d c x).map = d.map := (rfl)
@[simp] theorem setCell_probing (d : Dev) (c : Nat) (x : Cell) : (setCell d c x).probing = d.probing := (rfl)
@[simp] theorem setCell_ports (d : Dev) (c : Nat) (x : Cell) : (setCell d c x).ports = d.ports := (rfl)
@[simp] theorem setCell_flows (d : Dev) (c : Nat) (x : Cell) : (setCell d c x).flows = d.flows := (rfl)
@[simp] theorem setCell_rids (d : Dev) (c : Nat) (x : Cell) : (setCell d c x).rids = d.rids := (rfl)
@[simp] theorem setCell_inbox (d : Dev) (c : Nat) (x : Cell) : (setCell d c x).inbox = d.inbox := (rfl)
@[simp] theorem setCell_toRoute (d : Dev) (c : Nat) (x : Cell) : (setCell d c x).toRoute = d.toRoute := (rfl)
@[simp] theorem setCell_reqWait (d : Dev) (c : Nat) (x : Cell) : (setCell d c x).reqWait = d.reqWait := (rfl)
@[simp] theorem setCell_pcie (d : Dev) (c : Nat) (x : Cell) : (setCell d c x).pcie = d.pcie := (rfl)
@[simp] theorem setCell_rings (d : Dev) (c : Nat) (x : Cell) : (setCell d c x).rings = d.rings := (rfl)
@[simp] theorem setCell_latchNo (d : Dev) (c : Nat) (x : Cell) : (setCell d c x).latchNo = d.latchNo := (rfl)
@[simp] theorem setCell_tide (d : Dev) (c : Nat) (x : Cell) : (setCell d c x).tide = d.tide := (rfl)
@[simp] theorem setCell_pat (d : Dev) (c : Nat) (x : Cell) : (setCell d c x).pat = d.pat := (rfl)
@[simp] theorem setCell_clv (d : Dev) (c : Nat) (x : Cell) : (setCell d c x).clv = d.clv := (rfl)
@[simp] theorem setCell_meshOff (d : Dev) (c : Nat) (x : Cell) : (setCell d c x).meshOff = d.meshOff := (rfl)
@[simp] theorem setCell_frozen (d : Dev) (c : Nat) (x : Cell) : (setCell d c x).frozen = d.frozen := (rfl)
@[simp] theorem setCell_rgnUp (d : Dev) (c : Nat) (x : Cell) : (setCell d c x).rgnUp = d.rgnUp := (rfl)
@[simp] theorem setCell_ceWin (d : Dev) (c : Nat) (x : Cell) : (setCell d c x).ceWin = d.ceWin := (rfl)
@[simp] theorem setCell_tierPos (d : Dev) (c : Nat) (x : Cell) : (setCell d c x).tierPos = d.tierPos := (rfl)
@[simp] theorem setCell_hbmList (d : Dev) (c : Nat) (x : Cell) : (setCell d c x).hbmList = d.hbmList := (rfl)
@[simp] theorem setCell_ddrList (d : Dev) (c : Nat) (x : Cell) : (setCell d c x).ddrList = d.ddrList := (rfl)
@[simp] theorem setCell_gaugeq (d : Dev) (c : Nat) (x : Cell) : (setCell d c x).gaugeq = d.gaugeq := (rfl)
@[simp] theorem setCell_slc (d : Dev) (c : Nat) (x : Cell) : (setCell d c x).slc = d.slc := (rfl)
@[simp] theorem setCell_pwr (d : Dev) (c : Nat) (x : Cell) : (setCell d c x).pwr = d.pwr := (rfl)
@[simp] theorem setCell_thm (d : Dev) (c : Nat) (x : Cell) : (setCell d c x).thm = d.thm := (rfl)
@[simp] theorem setCell_kpr (d : Dev) (c : Nat) (x : Cell) : (setCell d c x).kpr = d.kpr := (rfl)
@[simp] theorem setCell_levees (d : Dev) (c : Nat) (x : Cell) : (setCell d c x).levees = d.levees := (rfl)
@[simp] theorem setCell_sec (d : Dev) (c : Nat) (x : Cell) : (setCell d c x).sec = d.sec := (rfl)
@[simp] theorem setCell_tap (d : Dev) (c : Nat) (x : Cell) : (setCell d c x).tap = d.tap := (rfl)
@[simp] theorem setCell_trace (d : Dev) (c : Nat) (x : Cell) : (setCell d c x).trace = d.trace := (rfl)
@[simp] theorem setCell_flog (d : Dev) (c : Nat) (x : Cell) : (setCell d c x).flog = d.flog := (rfl)
@[simp] theorem setCell_flogSeq (d : Dev) (c : Nat) (x : Cell) : (setCell d c x).flogSeq = d.flogSeq := (rfl)
@[simp] theorem setCell_flogEnd (d : Dev) (c : Nat) (x : Cell) : (setCell d c x).flogEnd = d.flogEnd := (rfl)
@[simp] theorem setCell_now (d : Dev) (c : Nat) (x : Cell) : (setCell d c x).now = d.now := (rfl)
@[simp] theorem setCell_free (d : Dev) (c : Nat) (x : Cell) : (setCell d c x).free = d.free := (rfl)
@[simp] theorem setCell_out (d : Dev) (c : Nat) (x : Cell) : (setCell d c x).out = d.out := (rfl)

/-! ## modCell writes `cells` alone -/

@[simp] theorem modCell_regs (d : Dev) (c : Nat) (g : Cell → Cell) : (modCell d c g).regs = d.regs := (rfl)
@[simp] theorem modCell_mem (d : Dev) (c : Nat) (g : Cell → Cell) : (modCell d c g).mem = d.mem := (rfl)
@[simp] theorem modCell_poison (d : Dev) (c : Nat) (g : Cell → Cell) : (modCell d c g).poison = d.poison := (rfl)
@[simp] theorem modCell_far (d : Dev) (c : Nat) (g : Cell → Cell) : (modCell d c g).far = d.far := (rfl)
@[simp] theorem modCell_map (d : Dev) (c : Nat) (g : Cell → Cell) : (modCell d c g).map = d.map := (rfl)
@[simp] theorem modCell_probing (d : Dev) (c : Nat) (g : Cell → Cell) : (modCell d c g).probing = d.probing := (rfl)
@[simp] theorem modCell_ports (d : Dev) (c : Nat) (g : Cell → Cell) : (modCell d c g).ports = d.ports := (rfl)
@[simp] theorem modCell_flows (d : Dev) (c : Nat) (g : Cell → Cell) : (modCell d c g).flows = d.flows := (rfl)
@[simp] theorem modCell_rids (d : Dev) (c : Nat) (g : Cell → Cell) : (modCell d c g).rids = d.rids := (rfl)
@[simp] theorem modCell_inbox (d : Dev) (c : Nat) (g : Cell → Cell) : (modCell d c g).inbox = d.inbox := (rfl)
@[simp] theorem modCell_toRoute (d : Dev) (c : Nat) (g : Cell → Cell) : (modCell d c g).toRoute = d.toRoute := (rfl)
@[simp] theorem modCell_reqWait (d : Dev) (c : Nat) (g : Cell → Cell) : (modCell d c g).reqWait = d.reqWait := (rfl)
@[simp] theorem modCell_pcie (d : Dev) (c : Nat) (g : Cell → Cell) : (modCell d c g).pcie = d.pcie := (rfl)
@[simp] theorem modCell_rings (d : Dev) (c : Nat) (g : Cell → Cell) : (modCell d c g).rings = d.rings := (rfl)
@[simp] theorem modCell_latchNo (d : Dev) (c : Nat) (g : Cell → Cell) : (modCell d c g).latchNo = d.latchNo := (rfl)
@[simp] theorem modCell_tide (d : Dev) (c : Nat) (g : Cell → Cell) : (modCell d c g).tide = d.tide := (rfl)
@[simp] theorem modCell_pat (d : Dev) (c : Nat) (g : Cell → Cell) : (modCell d c g).pat = d.pat := (rfl)
@[simp] theorem modCell_clv (d : Dev) (c : Nat) (g : Cell → Cell) : (modCell d c g).clv = d.clv := (rfl)
@[simp] theorem modCell_meshOff (d : Dev) (c : Nat) (g : Cell → Cell) : (modCell d c g).meshOff = d.meshOff := (rfl)
@[simp] theorem modCell_frozen (d : Dev) (c : Nat) (g : Cell → Cell) : (modCell d c g).frozen = d.frozen := (rfl)
@[simp] theorem modCell_rgnUp (d : Dev) (c : Nat) (g : Cell → Cell) : (modCell d c g).rgnUp = d.rgnUp := (rfl)
@[simp] theorem modCell_ceWin (d : Dev) (c : Nat) (g : Cell → Cell) : (modCell d c g).ceWin = d.ceWin := (rfl)
@[simp] theorem modCell_tierPos (d : Dev) (c : Nat) (g : Cell → Cell) : (modCell d c g).tierPos = d.tierPos := (rfl)
@[simp] theorem modCell_hbmList (d : Dev) (c : Nat) (g : Cell → Cell) : (modCell d c g).hbmList = d.hbmList := (rfl)
@[simp] theorem modCell_ddrList (d : Dev) (c : Nat) (g : Cell → Cell) : (modCell d c g).ddrList = d.ddrList := (rfl)
@[simp] theorem modCell_gaugeq (d : Dev) (c : Nat) (g : Cell → Cell) : (modCell d c g).gaugeq = d.gaugeq := (rfl)
@[simp] theorem modCell_slc (d : Dev) (c : Nat) (g : Cell → Cell) : (modCell d c g).slc = d.slc := (rfl)
@[simp] theorem modCell_pwr (d : Dev) (c : Nat) (g : Cell → Cell) : (modCell d c g).pwr = d.pwr := (rfl)
@[simp] theorem modCell_thm (d : Dev) (c : Nat) (g : Cell → Cell) : (modCell d c g).thm = d.thm := (rfl)
@[simp] theorem modCell_kpr (d : Dev) (c : Nat) (g : Cell → Cell) : (modCell d c g).kpr = d.kpr := (rfl)
@[simp] theorem modCell_levees (d : Dev) (c : Nat) (g : Cell → Cell) : (modCell d c g).levees = d.levees := (rfl)
@[simp] theorem modCell_sec (d : Dev) (c : Nat) (g : Cell → Cell) : (modCell d c g).sec = d.sec := (rfl)
@[simp] theorem modCell_tap (d : Dev) (c : Nat) (g : Cell → Cell) : (modCell d c g).tap = d.tap := (rfl)
@[simp] theorem modCell_trace (d : Dev) (c : Nat) (g : Cell → Cell) : (modCell d c g).trace = d.trace := (rfl)
@[simp] theorem modCell_flog (d : Dev) (c : Nat) (g : Cell → Cell) : (modCell d c g).flog = d.flog := (rfl)
@[simp] theorem modCell_flogSeq (d : Dev) (c : Nat) (g : Cell → Cell) : (modCell d c g).flogSeq = d.flogSeq := (rfl)
@[simp] theorem modCell_flogEnd (d : Dev) (c : Nat) (g : Cell → Cell) : (modCell d c g).flogEnd = d.flogEnd := (rfl)
@[simp] theorem modCell_now (d : Dev) (c : Nat) (g : Cell → Cell) : (modCell d c g).now = d.now := (rfl)
@[simp] theorem modCell_free (d : Dev) (c : Nat) (g : Cell → Cell) : (modCell d c g).free = d.free := (rfl)
@[simp] theorem modCell_out (d : Dev) (c : Nat) (g : Cell → Cell) : (modCell d c g).out = d.out := (rfl)

/-! ## modTh writes `cells` alone -/

@[simp] theorem modTh_regs (d : Dev) (c t : Nat) (g : Thread → Thread) : (modTh d c t g).regs = d.regs := (rfl)
@[simp] theorem modTh_mem (d : Dev) (c t : Nat) (g : Thread → Thread) : (modTh d c t g).mem = d.mem := (rfl)
@[simp] theorem modTh_poison (d : Dev) (c t : Nat) (g : Thread → Thread) : (modTh d c t g).poison = d.poison := (rfl)
@[simp] theorem modTh_far (d : Dev) (c t : Nat) (g : Thread → Thread) : (modTh d c t g).far = d.far := (rfl)
@[simp] theorem modTh_map (d : Dev) (c t : Nat) (g : Thread → Thread) : (modTh d c t g).map = d.map := (rfl)
@[simp] theorem modTh_probing (d : Dev) (c t : Nat) (g : Thread → Thread) : (modTh d c t g).probing = d.probing := (rfl)
@[simp] theorem modTh_ports (d : Dev) (c t : Nat) (g : Thread → Thread) : (modTh d c t g).ports = d.ports := (rfl)
@[simp] theorem modTh_flows (d : Dev) (c t : Nat) (g : Thread → Thread) : (modTh d c t g).flows = d.flows := (rfl)
@[simp] theorem modTh_rids (d : Dev) (c t : Nat) (g : Thread → Thread) : (modTh d c t g).rids = d.rids := (rfl)
@[simp] theorem modTh_inbox (d : Dev) (c t : Nat) (g : Thread → Thread) : (modTh d c t g).inbox = d.inbox := (rfl)
@[simp] theorem modTh_toRoute (d : Dev) (c t : Nat) (g : Thread → Thread) : (modTh d c t g).toRoute = d.toRoute := (rfl)
@[simp] theorem modTh_reqWait (d : Dev) (c t : Nat) (g : Thread → Thread) : (modTh d c t g).reqWait = d.reqWait := (rfl)
@[simp] theorem modTh_pcie (d : Dev) (c t : Nat) (g : Thread → Thread) : (modTh d c t g).pcie = d.pcie := (rfl)
@[simp] theorem modTh_rings (d : Dev) (c t : Nat) (g : Thread → Thread) : (modTh d c t g).rings = d.rings := (rfl)
@[simp] theorem modTh_latchNo (d : Dev) (c t : Nat) (g : Thread → Thread) : (modTh d c t g).latchNo = d.latchNo := (rfl)
@[simp] theorem modTh_tide (d : Dev) (c t : Nat) (g : Thread → Thread) : (modTh d c t g).tide = d.tide := (rfl)
@[simp] theorem modTh_pat (d : Dev) (c t : Nat) (g : Thread → Thread) : (modTh d c t g).pat = d.pat := (rfl)
@[simp] theorem modTh_clv (d : Dev) (c t : Nat) (g : Thread → Thread) : (modTh d c t g).clv = d.clv := (rfl)
@[simp] theorem modTh_meshOff (d : Dev) (c t : Nat) (g : Thread → Thread) : (modTh d c t g).meshOff = d.meshOff := (rfl)
@[simp] theorem modTh_frozen (d : Dev) (c t : Nat) (g : Thread → Thread) : (modTh d c t g).frozen = d.frozen := (rfl)
@[simp] theorem modTh_rgnUp (d : Dev) (c t : Nat) (g : Thread → Thread) : (modTh d c t g).rgnUp = d.rgnUp := (rfl)
@[simp] theorem modTh_ceWin (d : Dev) (c t : Nat) (g : Thread → Thread) : (modTh d c t g).ceWin = d.ceWin := (rfl)
@[simp] theorem modTh_tierPos (d : Dev) (c t : Nat) (g : Thread → Thread) : (modTh d c t g).tierPos = d.tierPos := (rfl)
@[simp] theorem modTh_hbmList (d : Dev) (c t : Nat) (g : Thread → Thread) : (modTh d c t g).hbmList = d.hbmList := (rfl)
@[simp] theorem modTh_ddrList (d : Dev) (c t : Nat) (g : Thread → Thread) : (modTh d c t g).ddrList = d.ddrList := (rfl)
@[simp] theorem modTh_gaugeq (d : Dev) (c t : Nat) (g : Thread → Thread) : (modTh d c t g).gaugeq = d.gaugeq := (rfl)
@[simp] theorem modTh_slc (d : Dev) (c t : Nat) (g : Thread → Thread) : (modTh d c t g).slc = d.slc := (rfl)
@[simp] theorem modTh_pwr (d : Dev) (c t : Nat) (g : Thread → Thread) : (modTh d c t g).pwr = d.pwr := (rfl)
@[simp] theorem modTh_thm (d : Dev) (c t : Nat) (g : Thread → Thread) : (modTh d c t g).thm = d.thm := (rfl)
@[simp] theorem modTh_kpr (d : Dev) (c t : Nat) (g : Thread → Thread) : (modTh d c t g).kpr = d.kpr := (rfl)
@[simp] theorem modTh_levees (d : Dev) (c t : Nat) (g : Thread → Thread) : (modTh d c t g).levees = d.levees := (rfl)
@[simp] theorem modTh_sec (d : Dev) (c t : Nat) (g : Thread → Thread) : (modTh d c t g).sec = d.sec := (rfl)
@[simp] theorem modTh_tap (d : Dev) (c t : Nat) (g : Thread → Thread) : (modTh d c t g).tap = d.tap := (rfl)
@[simp] theorem modTh_trace (d : Dev) (c t : Nat) (g : Thread → Thread) : (modTh d c t g).trace = d.trace := (rfl)
@[simp] theorem modTh_flog (d : Dev) (c t : Nat) (g : Thread → Thread) : (modTh d c t g).flog = d.flog := (rfl)
@[simp] theorem modTh_flogSeq (d : Dev) (c t : Nat) (g : Thread → Thread) : (modTh d c t g).flogSeq = d.flogSeq := (rfl)
@[simp] theorem modTh_flogEnd (d : Dev) (c t : Nat) (g : Thread → Thread) : (modTh d c t g).flogEnd = d.flogEnd := (rfl)
@[simp] theorem modTh_now (d : Dev) (c t : Nat) (g : Thread → Thread) : (modTh d c t g).now = d.now := (rfl)
@[simp] theorem modTh_free (d : Dev) (c t : Nat) (g : Thread → Thread) : (modTh d c t g).free = d.free := (rfl)
@[simp] theorem modTh_out (d : Dev) (c t : Nat) (g : Thread → Thread) : (modTh d c t g).out = d.out := (rfl)

/-! ## modPort writes `ports` alone -/

@[simp] theorem modPort_regs (d : Dev) (p : Nat) (g : Port → Port) : (modPort d p g).regs = d.regs := (rfl)
@[simp] theorem modPort_mem (d : Dev) (p : Nat) (g : Port → Port) : (modPort d p g).mem = d.mem := (rfl)
@[simp] theorem modPort_poison (d : Dev) (p : Nat) (g : Port → Port) : (modPort d p g).poison = d.poison := (rfl)
@[simp] theorem modPort_cells (d : Dev) (p : Nat) (g : Port → Port) : (modPort d p g).cells = d.cells := (rfl)
@[simp] theorem modPort_far (d : Dev) (p : Nat) (g : Port → Port) : (modPort d p g).far = d.far := (rfl)
@[simp] theorem modPort_map (d : Dev) (p : Nat) (g : Port → Port) : (modPort d p g).map = d.map := (rfl)
@[simp] theorem modPort_probing (d : Dev) (p : Nat) (g : Port → Port) : (modPort d p g).probing = d.probing := (rfl)
@[simp] theorem modPort_flows (d : Dev) (p : Nat) (g : Port → Port) : (modPort d p g).flows = d.flows := (rfl)
@[simp] theorem modPort_rids (d : Dev) (p : Nat) (g : Port → Port) : (modPort d p g).rids = d.rids := (rfl)
@[simp] theorem modPort_inbox (d : Dev) (p : Nat) (g : Port → Port) : (modPort d p g).inbox = d.inbox := (rfl)
@[simp] theorem modPort_toRoute (d : Dev) (p : Nat) (g : Port → Port) : (modPort d p g).toRoute = d.toRoute := (rfl)
@[simp] theorem modPort_reqWait (d : Dev) (p : Nat) (g : Port → Port) : (modPort d p g).reqWait = d.reqWait := (rfl)
@[simp] theorem modPort_pcie (d : Dev) (p : Nat) (g : Port → Port) : (modPort d p g).pcie = d.pcie := (rfl)
@[simp] theorem modPort_rings (d : Dev) (p : Nat) (g : Port → Port) : (modPort d p g).rings = d.rings := (rfl)
@[simp] theorem modPort_latchNo (d : Dev) (p : Nat) (g : Port → Port) : (modPort d p g).latchNo = d.latchNo := (rfl)
@[simp] theorem modPort_tide (d : Dev) (p : Nat) (g : Port → Port) : (modPort d p g).tide = d.tide := (rfl)
@[simp] theorem modPort_pat (d : Dev) (p : Nat) (g : Port → Port) : (modPort d p g).pat = d.pat := (rfl)
@[simp] theorem modPort_clv (d : Dev) (p : Nat) (g : Port → Port) : (modPort d p g).clv = d.clv := (rfl)
@[simp] theorem modPort_meshOff (d : Dev) (p : Nat) (g : Port → Port) : (modPort d p g).meshOff = d.meshOff := (rfl)
@[simp] theorem modPort_frozen (d : Dev) (p : Nat) (g : Port → Port) : (modPort d p g).frozen = d.frozen := (rfl)
@[simp] theorem modPort_rgnUp (d : Dev) (p : Nat) (g : Port → Port) : (modPort d p g).rgnUp = d.rgnUp := (rfl)
@[simp] theorem modPort_ceWin (d : Dev) (p : Nat) (g : Port → Port) : (modPort d p g).ceWin = d.ceWin := (rfl)
@[simp] theorem modPort_tierPos (d : Dev) (p : Nat) (g : Port → Port) : (modPort d p g).tierPos = d.tierPos := (rfl)
@[simp] theorem modPort_hbmList (d : Dev) (p : Nat) (g : Port → Port) : (modPort d p g).hbmList = d.hbmList := (rfl)
@[simp] theorem modPort_ddrList (d : Dev) (p : Nat) (g : Port → Port) : (modPort d p g).ddrList = d.ddrList := (rfl)
@[simp] theorem modPort_gaugeq (d : Dev) (p : Nat) (g : Port → Port) : (modPort d p g).gaugeq = d.gaugeq := (rfl)
@[simp] theorem modPort_slc (d : Dev) (p : Nat) (g : Port → Port) : (modPort d p g).slc = d.slc := (rfl)
@[simp] theorem modPort_pwr (d : Dev) (p : Nat) (g : Port → Port) : (modPort d p g).pwr = d.pwr := (rfl)
@[simp] theorem modPort_thm (d : Dev) (p : Nat) (g : Port → Port) : (modPort d p g).thm = d.thm := (rfl)
@[simp] theorem modPort_kpr (d : Dev) (p : Nat) (g : Port → Port) : (modPort d p g).kpr = d.kpr := (rfl)
@[simp] theorem modPort_levees (d : Dev) (p : Nat) (g : Port → Port) : (modPort d p g).levees = d.levees := (rfl)
@[simp] theorem modPort_sec (d : Dev) (p : Nat) (g : Port → Port) : (modPort d p g).sec = d.sec := (rfl)
@[simp] theorem modPort_tap (d : Dev) (p : Nat) (g : Port → Port) : (modPort d p g).tap = d.tap := (rfl)
@[simp] theorem modPort_trace (d : Dev) (p : Nat) (g : Port → Port) : (modPort d p g).trace = d.trace := (rfl)
@[simp] theorem modPort_flog (d : Dev) (p : Nat) (g : Port → Port) : (modPort d p g).flog = d.flog := (rfl)
@[simp] theorem modPort_flogSeq (d : Dev) (p : Nat) (g : Port → Port) : (modPort d p g).flogSeq = d.flogSeq := (rfl)
@[simp] theorem modPort_flogEnd (d : Dev) (p : Nat) (g : Port → Port) : (modPort d p g).flogEnd = d.flogEnd := (rfl)
@[simp] theorem modPort_now (d : Dev) (p : Nat) (g : Port → Port) : (modPort d p g).now = d.now := (rfl)
@[simp] theorem modPort_free (d : Dev) (p : Nat) (g : Port → Port) : (modPort d p g).free = d.free := (rfl)
@[simp] theorem modPort_out (d : Dev) (p : Nat) (g : Port → Port) : (modPort d p g).out = d.out := (rfl)

/-! ## modPcie writes `pcie` alone -/

@[simp] theorem modPcie_regs (d : Dev) (p : Nat) (g : PciePortState → PciePortState) : (modPcie d p g).regs = d.regs := (rfl)
@[simp] theorem modPcie_mem (d : Dev) (p : Nat) (g : PciePortState → PciePortState) : (modPcie d p g).mem = d.mem := (rfl)
@[simp] theorem modPcie_poison (d : Dev) (p : Nat) (g : PciePortState → PciePortState) : (modPcie d p g).poison = d.poison := (rfl)
@[simp] theorem modPcie_cells (d : Dev) (p : Nat) (g : PciePortState → PciePortState) : (modPcie d p g).cells = d.cells := (rfl)
@[simp] theorem modPcie_far (d : Dev) (p : Nat) (g : PciePortState → PciePortState) : (modPcie d p g).far = d.far := (rfl)
@[simp] theorem modPcie_map (d : Dev) (p : Nat) (g : PciePortState → PciePortState) : (modPcie d p g).map = d.map := (rfl)
@[simp] theorem modPcie_probing (d : Dev) (p : Nat) (g : PciePortState → PciePortState) : (modPcie d p g).probing = d.probing := (rfl)
@[simp] theorem modPcie_ports (d : Dev) (p : Nat) (g : PciePortState → PciePortState) : (modPcie d p g).ports = d.ports := (rfl)
@[simp] theorem modPcie_flows (d : Dev) (p : Nat) (g : PciePortState → PciePortState) : (modPcie d p g).flows = d.flows := (rfl)
@[simp] theorem modPcie_rids (d : Dev) (p : Nat) (g : PciePortState → PciePortState) : (modPcie d p g).rids = d.rids := (rfl)
@[simp] theorem modPcie_inbox (d : Dev) (p : Nat) (g : PciePortState → PciePortState) : (modPcie d p g).inbox = d.inbox := (rfl)
@[simp] theorem modPcie_toRoute (d : Dev) (p : Nat) (g : PciePortState → PciePortState) : (modPcie d p g).toRoute = d.toRoute := (rfl)
@[simp] theorem modPcie_reqWait (d : Dev) (p : Nat) (g : PciePortState → PciePortState) : (modPcie d p g).reqWait = d.reqWait := (rfl)
@[simp] theorem modPcie_rings (d : Dev) (p : Nat) (g : PciePortState → PciePortState) : (modPcie d p g).rings = d.rings := (rfl)
@[simp] theorem modPcie_latchNo (d : Dev) (p : Nat) (g : PciePortState → PciePortState) : (modPcie d p g).latchNo = d.latchNo := (rfl)
@[simp] theorem modPcie_tide (d : Dev) (p : Nat) (g : PciePortState → PciePortState) : (modPcie d p g).tide = d.tide := (rfl)
@[simp] theorem modPcie_pat (d : Dev) (p : Nat) (g : PciePortState → PciePortState) : (modPcie d p g).pat = d.pat := (rfl)
@[simp] theorem modPcie_clv (d : Dev) (p : Nat) (g : PciePortState → PciePortState) : (modPcie d p g).clv = d.clv := (rfl)
@[simp] theorem modPcie_meshOff (d : Dev) (p : Nat) (g : PciePortState → PciePortState) : (modPcie d p g).meshOff = d.meshOff := (rfl)
@[simp] theorem modPcie_frozen (d : Dev) (p : Nat) (g : PciePortState → PciePortState) : (modPcie d p g).frozen = d.frozen := (rfl)
@[simp] theorem modPcie_rgnUp (d : Dev) (p : Nat) (g : PciePortState → PciePortState) : (modPcie d p g).rgnUp = d.rgnUp := (rfl)
@[simp] theorem modPcie_ceWin (d : Dev) (p : Nat) (g : PciePortState → PciePortState) : (modPcie d p g).ceWin = d.ceWin := (rfl)
@[simp] theorem modPcie_tierPos (d : Dev) (p : Nat) (g : PciePortState → PciePortState) : (modPcie d p g).tierPos = d.tierPos := (rfl)
@[simp] theorem modPcie_hbmList (d : Dev) (p : Nat) (g : PciePortState → PciePortState) : (modPcie d p g).hbmList = d.hbmList := (rfl)
@[simp] theorem modPcie_ddrList (d : Dev) (p : Nat) (g : PciePortState → PciePortState) : (modPcie d p g).ddrList = d.ddrList := (rfl)
@[simp] theorem modPcie_gaugeq (d : Dev) (p : Nat) (g : PciePortState → PciePortState) : (modPcie d p g).gaugeq = d.gaugeq := (rfl)
@[simp] theorem modPcie_slc (d : Dev) (p : Nat) (g : PciePortState → PciePortState) : (modPcie d p g).slc = d.slc := (rfl)
@[simp] theorem modPcie_pwr (d : Dev) (p : Nat) (g : PciePortState → PciePortState) : (modPcie d p g).pwr = d.pwr := (rfl)
@[simp] theorem modPcie_thm (d : Dev) (p : Nat) (g : PciePortState → PciePortState) : (modPcie d p g).thm = d.thm := (rfl)
@[simp] theorem modPcie_kpr (d : Dev) (p : Nat) (g : PciePortState → PciePortState) : (modPcie d p g).kpr = d.kpr := (rfl)
@[simp] theorem modPcie_levees (d : Dev) (p : Nat) (g : PciePortState → PciePortState) : (modPcie d p g).levees = d.levees := (rfl)
@[simp] theorem modPcie_sec (d : Dev) (p : Nat) (g : PciePortState → PciePortState) : (modPcie d p g).sec = d.sec := (rfl)
@[simp] theorem modPcie_tap (d : Dev) (p : Nat) (g : PciePortState → PciePortState) : (modPcie d p g).tap = d.tap := (rfl)
@[simp] theorem modPcie_trace (d : Dev) (p : Nat) (g : PciePortState → PciePortState) : (modPcie d p g).trace = d.trace := (rfl)
@[simp] theorem modPcie_flog (d : Dev) (p : Nat) (g : PciePortState → PciePortState) : (modPcie d p g).flog = d.flog := (rfl)
@[simp] theorem modPcie_flogSeq (d : Dev) (p : Nat) (g : PciePortState → PciePortState) : (modPcie d p g).flogSeq = d.flogSeq := (rfl)
@[simp] theorem modPcie_flogEnd (d : Dev) (p : Nat) (g : PciePortState → PciePortState) : (modPcie d p g).flogEnd = d.flogEnd := (rfl)
@[simp] theorem modPcie_now (d : Dev) (p : Nat) (g : PciePortState → PciePortState) : (modPcie d p g).now = d.now := (rfl)
@[simp] theorem modPcie_free (d : Dev) (p : Nat) (g : PciePortState → PciePortState) : (modPcie d p g).free = d.free := (rfl)
@[simp] theorem modPcie_out (d : Dev) (p : Nat) (g : PciePortState → PciePortState) : (modPcie d p g).out = d.out := (rfl)

/-! ## modRing writes `rings` alone -/

@[simp] theorem modRing_regs (d : Dev) (k : Nat) (g : Ring → Ring) : (modRing d k g).regs = d.regs := (rfl)
@[simp] theorem modRing_mem (d : Dev) (k : Nat) (g : Ring → Ring) : (modRing d k g).mem = d.mem := (rfl)
@[simp] theorem modRing_poison (d : Dev) (k : Nat) (g : Ring → Ring) : (modRing d k g).poison = d.poison := (rfl)
@[simp] theorem modRing_cells (d : Dev) (k : Nat) (g : Ring → Ring) : (modRing d k g).cells = d.cells := (rfl)
@[simp] theorem modRing_far (d : Dev) (k : Nat) (g : Ring → Ring) : (modRing d k g).far = d.far := (rfl)
@[simp] theorem modRing_map (d : Dev) (k : Nat) (g : Ring → Ring) : (modRing d k g).map = d.map := (rfl)
@[simp] theorem modRing_probing (d : Dev) (k : Nat) (g : Ring → Ring) : (modRing d k g).probing = d.probing := (rfl)
@[simp] theorem modRing_ports (d : Dev) (k : Nat) (g : Ring → Ring) : (modRing d k g).ports = d.ports := (rfl)
@[simp] theorem modRing_flows (d : Dev) (k : Nat) (g : Ring → Ring) : (modRing d k g).flows = d.flows := (rfl)
@[simp] theorem modRing_rids (d : Dev) (k : Nat) (g : Ring → Ring) : (modRing d k g).rids = d.rids := (rfl)
@[simp] theorem modRing_inbox (d : Dev) (k : Nat) (g : Ring → Ring) : (modRing d k g).inbox = d.inbox := (rfl)
@[simp] theorem modRing_toRoute (d : Dev) (k : Nat) (g : Ring → Ring) : (modRing d k g).toRoute = d.toRoute := (rfl)
@[simp] theorem modRing_reqWait (d : Dev) (k : Nat) (g : Ring → Ring) : (modRing d k g).reqWait = d.reqWait := (rfl)
@[simp] theorem modRing_pcie (d : Dev) (k : Nat) (g : Ring → Ring) : (modRing d k g).pcie = d.pcie := (rfl)
@[simp] theorem modRing_latchNo (d : Dev) (k : Nat) (g : Ring → Ring) : (modRing d k g).latchNo = d.latchNo := (rfl)
@[simp] theorem modRing_tide (d : Dev) (k : Nat) (g : Ring → Ring) : (modRing d k g).tide = d.tide := (rfl)
@[simp] theorem modRing_pat (d : Dev) (k : Nat) (g : Ring → Ring) : (modRing d k g).pat = d.pat := (rfl)
@[simp] theorem modRing_clv (d : Dev) (k : Nat) (g : Ring → Ring) : (modRing d k g).clv = d.clv := (rfl)
@[simp] theorem modRing_meshOff (d : Dev) (k : Nat) (g : Ring → Ring) : (modRing d k g).meshOff = d.meshOff := (rfl)
@[simp] theorem modRing_frozen (d : Dev) (k : Nat) (g : Ring → Ring) : (modRing d k g).frozen = d.frozen := (rfl)
@[simp] theorem modRing_rgnUp (d : Dev) (k : Nat) (g : Ring → Ring) : (modRing d k g).rgnUp = d.rgnUp := (rfl)
@[simp] theorem modRing_ceWin (d : Dev) (k : Nat) (g : Ring → Ring) : (modRing d k g).ceWin = d.ceWin := (rfl)
@[simp] theorem modRing_tierPos (d : Dev) (k : Nat) (g : Ring → Ring) : (modRing d k g).tierPos = d.tierPos := (rfl)
@[simp] theorem modRing_hbmList (d : Dev) (k : Nat) (g : Ring → Ring) : (modRing d k g).hbmList = d.hbmList := (rfl)
@[simp] theorem modRing_ddrList (d : Dev) (k : Nat) (g : Ring → Ring) : (modRing d k g).ddrList = d.ddrList := (rfl)
@[simp] theorem modRing_gaugeq (d : Dev) (k : Nat) (g : Ring → Ring) : (modRing d k g).gaugeq = d.gaugeq := (rfl)
@[simp] theorem modRing_slc (d : Dev) (k : Nat) (g : Ring → Ring) : (modRing d k g).slc = d.slc := (rfl)
@[simp] theorem modRing_pwr (d : Dev) (k : Nat) (g : Ring → Ring) : (modRing d k g).pwr = d.pwr := (rfl)
@[simp] theorem modRing_thm (d : Dev) (k : Nat) (g : Ring → Ring) : (modRing d k g).thm = d.thm := (rfl)
@[simp] theorem modRing_kpr (d : Dev) (k : Nat) (g : Ring → Ring) : (modRing d k g).kpr = d.kpr := (rfl)
@[simp] theorem modRing_levees (d : Dev) (k : Nat) (g : Ring → Ring) : (modRing d k g).levees = d.levees := (rfl)
@[simp] theorem modRing_sec (d : Dev) (k : Nat) (g : Ring → Ring) : (modRing d k g).sec = d.sec := (rfl)
@[simp] theorem modRing_tap (d : Dev) (k : Nat) (g : Ring → Ring) : (modRing d k g).tap = d.tap := (rfl)
@[simp] theorem modRing_trace (d : Dev) (k : Nat) (g : Ring → Ring) : (modRing d k g).trace = d.trace := (rfl)
@[simp] theorem modRing_flog (d : Dev) (k : Nat) (g : Ring → Ring) : (modRing d k g).flog = d.flog := (rfl)
@[simp] theorem modRing_flogSeq (d : Dev) (k : Nat) (g : Ring → Ring) : (modRing d k g).flogSeq = d.flogSeq := (rfl)
@[simp] theorem modRing_flogEnd (d : Dev) (k : Nat) (g : Ring → Ring) : (modRing d k g).flogEnd = d.flogEnd := (rfl)
@[simp] theorem modRing_now (d : Dev) (k : Nat) (g : Ring → Ring) : (modRing d k g).now = d.now := (rfl)
@[simp] theorem modRing_free (d : Dev) (k : Nat) (g : Ring → Ring) : (modRing d k g).free = d.free := (rfl)
@[simp] theorem modRing_out (d : Dev) (k : Nat) (g : Ring → Ring) : (modRing d k g).out = d.out := (rfl)

/-! ## wrByte writes `mem` alone -/

@[simp] theorem wrByte_regs (d : Dev) (a : Nat) (b : Byte) : (wrByte d a b).regs = d.regs := (rfl)
@[simp] theorem wrByte_poison (d : Dev) (a : Nat) (b : Byte) : (wrByte d a b).poison = d.poison := (rfl)
@[simp] theorem wrByte_cells (d : Dev) (a : Nat) (b : Byte) : (wrByte d a b).cells = d.cells := (rfl)
@[simp] theorem wrByte_far (d : Dev) (a : Nat) (b : Byte) : (wrByte d a b).far = d.far := (rfl)
@[simp] theorem wrByte_map (d : Dev) (a : Nat) (b : Byte) : (wrByte d a b).map = d.map := (rfl)
@[simp] theorem wrByte_probing (d : Dev) (a : Nat) (b : Byte) : (wrByte d a b).probing = d.probing := (rfl)
@[simp] theorem wrByte_ports (d : Dev) (a : Nat) (b : Byte) : (wrByte d a b).ports = d.ports := (rfl)
@[simp] theorem wrByte_flows (d : Dev) (a : Nat) (b : Byte) : (wrByte d a b).flows = d.flows := (rfl)
@[simp] theorem wrByte_rids (d : Dev) (a : Nat) (b : Byte) : (wrByte d a b).rids = d.rids := (rfl)
@[simp] theorem wrByte_inbox (d : Dev) (a : Nat) (b : Byte) : (wrByte d a b).inbox = d.inbox := (rfl)
@[simp] theorem wrByte_toRoute (d : Dev) (a : Nat) (b : Byte) : (wrByte d a b).toRoute = d.toRoute := (rfl)
@[simp] theorem wrByte_reqWait (d : Dev) (a : Nat) (b : Byte) : (wrByte d a b).reqWait = d.reqWait := (rfl)
@[simp] theorem wrByte_pcie (d : Dev) (a : Nat) (b : Byte) : (wrByte d a b).pcie = d.pcie := (rfl)
@[simp] theorem wrByte_rings (d : Dev) (a : Nat) (b : Byte) : (wrByte d a b).rings = d.rings := (rfl)
@[simp] theorem wrByte_latchNo (d : Dev) (a : Nat) (b : Byte) : (wrByte d a b).latchNo = d.latchNo := (rfl)
@[simp] theorem wrByte_tide (d : Dev) (a : Nat) (b : Byte) : (wrByte d a b).tide = d.tide := (rfl)
@[simp] theorem wrByte_pat (d : Dev) (a : Nat) (b : Byte) : (wrByte d a b).pat = d.pat := (rfl)
@[simp] theorem wrByte_clv (d : Dev) (a : Nat) (b : Byte) : (wrByte d a b).clv = d.clv := (rfl)
@[simp] theorem wrByte_meshOff (d : Dev) (a : Nat) (b : Byte) : (wrByte d a b).meshOff = d.meshOff := (rfl)
@[simp] theorem wrByte_frozen (d : Dev) (a : Nat) (b : Byte) : (wrByte d a b).frozen = d.frozen := (rfl)
@[simp] theorem wrByte_rgnUp (d : Dev) (a : Nat) (b : Byte) : (wrByte d a b).rgnUp = d.rgnUp := (rfl)
@[simp] theorem wrByte_ceWin (d : Dev) (a : Nat) (b : Byte) : (wrByte d a b).ceWin = d.ceWin := (rfl)
@[simp] theorem wrByte_tierPos (d : Dev) (a : Nat) (b : Byte) : (wrByte d a b).tierPos = d.tierPos := (rfl)
@[simp] theorem wrByte_hbmList (d : Dev) (a : Nat) (b : Byte) : (wrByte d a b).hbmList = d.hbmList := (rfl)
@[simp] theorem wrByte_ddrList (d : Dev) (a : Nat) (b : Byte) : (wrByte d a b).ddrList = d.ddrList := (rfl)
@[simp] theorem wrByte_gaugeq (d : Dev) (a : Nat) (b : Byte) : (wrByte d a b).gaugeq = d.gaugeq := (rfl)
@[simp] theorem wrByte_slc (d : Dev) (a : Nat) (b : Byte) : (wrByte d a b).slc = d.slc := (rfl)
@[simp] theorem wrByte_pwr (d : Dev) (a : Nat) (b : Byte) : (wrByte d a b).pwr = d.pwr := (rfl)
@[simp] theorem wrByte_thm (d : Dev) (a : Nat) (b : Byte) : (wrByte d a b).thm = d.thm := (rfl)
@[simp] theorem wrByte_kpr (d : Dev) (a : Nat) (b : Byte) : (wrByte d a b).kpr = d.kpr := (rfl)
@[simp] theorem wrByte_levees (d : Dev) (a : Nat) (b : Byte) : (wrByte d a b).levees = d.levees := (rfl)
@[simp] theorem wrByte_sec (d : Dev) (a : Nat) (b : Byte) : (wrByte d a b).sec = d.sec := (rfl)
@[simp] theorem wrByte_tap (d : Dev) (a : Nat) (b : Byte) : (wrByte d a b).tap = d.tap := (rfl)
@[simp] theorem wrByte_trace (d : Dev) (a : Nat) (b : Byte) : (wrByte d a b).trace = d.trace := (rfl)
@[simp] theorem wrByte_flog (d : Dev) (a : Nat) (b : Byte) : (wrByte d a b).flog = d.flog := (rfl)
@[simp] theorem wrByte_flogSeq (d : Dev) (a : Nat) (b : Byte) : (wrByte d a b).flogSeq = d.flogSeq := (rfl)
@[simp] theorem wrByte_flogEnd (d : Dev) (a : Nat) (b : Byte) : (wrByte d a b).flogEnd = d.flogEnd := (rfl)
@[simp] theorem wrByte_now (d : Dev) (a : Nat) (b : Byte) : (wrByte d a b).now = d.now := (rfl)
@[simp] theorem wrByte_free (d : Dev) (a : Nat) (b : Byte) : (wrByte d a b).free = d.free := (rfl)
@[simp] theorem wrByte_out (d : Dev) (a : Nat) (b : Byte) : (wrByte d a b).out = d.out := (rfl)

/-! ## setGran writes `poison` alone -/

@[simp] theorem setGran_regs (d : Dev) (g : Nat) (b : Bool) : (setGran d g b).regs = d.regs := (rfl)
@[simp] theorem setGran_mem (d : Dev) (g : Nat) (b : Bool) : (setGran d g b).mem = d.mem := (rfl)
@[simp] theorem setGran_cells (d : Dev) (g : Nat) (b : Bool) : (setGran d g b).cells = d.cells := (rfl)
@[simp] theorem setGran_far (d : Dev) (g : Nat) (b : Bool) : (setGran d g b).far = d.far := (rfl)
@[simp] theorem setGran_map (d : Dev) (g : Nat) (b : Bool) : (setGran d g b).map = d.map := (rfl)
@[simp] theorem setGran_probing (d : Dev) (g : Nat) (b : Bool) : (setGran d g b).probing = d.probing := (rfl)
@[simp] theorem setGran_ports (d : Dev) (g : Nat) (b : Bool) : (setGran d g b).ports = d.ports := (rfl)
@[simp] theorem setGran_flows (d : Dev) (g : Nat) (b : Bool) : (setGran d g b).flows = d.flows := (rfl)
@[simp] theorem setGran_rids (d : Dev) (g : Nat) (b : Bool) : (setGran d g b).rids = d.rids := (rfl)
@[simp] theorem setGran_inbox (d : Dev) (g : Nat) (b : Bool) : (setGran d g b).inbox = d.inbox := (rfl)
@[simp] theorem setGran_toRoute (d : Dev) (g : Nat) (b : Bool) : (setGran d g b).toRoute = d.toRoute := (rfl)
@[simp] theorem setGran_reqWait (d : Dev) (g : Nat) (b : Bool) : (setGran d g b).reqWait = d.reqWait := (rfl)
@[simp] theorem setGran_pcie (d : Dev) (g : Nat) (b : Bool) : (setGran d g b).pcie = d.pcie := (rfl)
@[simp] theorem setGran_rings (d : Dev) (g : Nat) (b : Bool) : (setGran d g b).rings = d.rings := (rfl)
@[simp] theorem setGran_latchNo (d : Dev) (g : Nat) (b : Bool) : (setGran d g b).latchNo = d.latchNo := (rfl)
@[simp] theorem setGran_tide (d : Dev) (g : Nat) (b : Bool) : (setGran d g b).tide = d.tide := (rfl)
@[simp] theorem setGran_pat (d : Dev) (g : Nat) (b : Bool) : (setGran d g b).pat = d.pat := (rfl)
@[simp] theorem setGran_clv (d : Dev) (g : Nat) (b : Bool) : (setGran d g b).clv = d.clv := (rfl)
@[simp] theorem setGran_meshOff (d : Dev) (g : Nat) (b : Bool) : (setGran d g b).meshOff = d.meshOff := (rfl)
@[simp] theorem setGran_frozen (d : Dev) (g : Nat) (b : Bool) : (setGran d g b).frozen = d.frozen := (rfl)
@[simp] theorem setGran_rgnUp (d : Dev) (g : Nat) (b : Bool) : (setGran d g b).rgnUp = d.rgnUp := (rfl)
@[simp] theorem setGran_ceWin (d : Dev) (g : Nat) (b : Bool) : (setGran d g b).ceWin = d.ceWin := (rfl)
@[simp] theorem setGran_tierPos (d : Dev) (g : Nat) (b : Bool) : (setGran d g b).tierPos = d.tierPos := (rfl)
@[simp] theorem setGran_hbmList (d : Dev) (g : Nat) (b : Bool) : (setGran d g b).hbmList = d.hbmList := (rfl)
@[simp] theorem setGran_ddrList (d : Dev) (g : Nat) (b : Bool) : (setGran d g b).ddrList = d.ddrList := (rfl)
@[simp] theorem setGran_gaugeq (d : Dev) (g : Nat) (b : Bool) : (setGran d g b).gaugeq = d.gaugeq := (rfl)
@[simp] theorem setGran_slc (d : Dev) (g : Nat) (b : Bool) : (setGran d g b).slc = d.slc := (rfl)
@[simp] theorem setGran_pwr (d : Dev) (g : Nat) (b : Bool) : (setGran d g b).pwr = d.pwr := (rfl)
@[simp] theorem setGran_thm (d : Dev) (g : Nat) (b : Bool) : (setGran d g b).thm = d.thm := (rfl)
@[simp] theorem setGran_kpr (d : Dev) (g : Nat) (b : Bool) : (setGran d g b).kpr = d.kpr := (rfl)
@[simp] theorem setGran_levees (d : Dev) (g : Nat) (b : Bool) : (setGran d g b).levees = d.levees := (rfl)
@[simp] theorem setGran_sec (d : Dev) (g : Nat) (b : Bool) : (setGran d g b).sec = d.sec := (rfl)
@[simp] theorem setGran_tap (d : Dev) (g : Nat) (b : Bool) : (setGran d g b).tap = d.tap := (rfl)
@[simp] theorem setGran_trace (d : Dev) (g : Nat) (b : Bool) : (setGran d g b).trace = d.trace := (rfl)
@[simp] theorem setGran_flog (d : Dev) (g : Nat) (b : Bool) : (setGran d g b).flog = d.flog := (rfl)
@[simp] theorem setGran_flogSeq (d : Dev) (g : Nat) (b : Bool) : (setGran d g b).flogSeq = d.flogSeq := (rfl)
@[simp] theorem setGran_flogEnd (d : Dev) (g : Nat) (b : Bool) : (setGran d g b).flogEnd = d.flogEnd := (rfl)
@[simp] theorem setGran_now (d : Dev) (g : Nat) (b : Bool) : (setGran d g b).now = d.now := (rfl)
@[simp] theorem setGran_free (d : Dev) (g : Nat) (b : Bool) : (setGran d g b).free = d.free := (rfl)
@[simp] theorem setGran_out (d : Dev) (g : Nat) (b : Bool) : (setGran d g b).out = d.out := (rfl)

/-! ## emit writes `out` alone -/

@[simp] theorem emit_regs (d : Dev) (o : Out) : (emit d o).regs = d.regs := (rfl)
@[simp] theorem emit_mem (d : Dev) (o : Out) : (emit d o).mem = d.mem := (rfl)
@[simp] theorem emit_poison (d : Dev) (o : Out) : (emit d o).poison = d.poison := (rfl)
@[simp] theorem emit_cells (d : Dev) (o : Out) : (emit d o).cells = d.cells := (rfl)
@[simp] theorem emit_far (d : Dev) (o : Out) : (emit d o).far = d.far := (rfl)
@[simp] theorem emit_map (d : Dev) (o : Out) : (emit d o).map = d.map := (rfl)
@[simp] theorem emit_probing (d : Dev) (o : Out) : (emit d o).probing = d.probing := (rfl)
@[simp] theorem emit_ports (d : Dev) (o : Out) : (emit d o).ports = d.ports := (rfl)
@[simp] theorem emit_flows (d : Dev) (o : Out) : (emit d o).flows = d.flows := (rfl)
@[simp] theorem emit_rids (d : Dev) (o : Out) : (emit d o).rids = d.rids := (rfl)
@[simp] theorem emit_inbox (d : Dev) (o : Out) : (emit d o).inbox = d.inbox := (rfl)
@[simp] theorem emit_toRoute (d : Dev) (o : Out) : (emit d o).toRoute = d.toRoute := (rfl)
@[simp] theorem emit_reqWait (d : Dev) (o : Out) : (emit d o).reqWait = d.reqWait := (rfl)
@[simp] theorem emit_pcie (d : Dev) (o : Out) : (emit d o).pcie = d.pcie := (rfl)
@[simp] theorem emit_rings (d : Dev) (o : Out) : (emit d o).rings = d.rings := (rfl)
@[simp] theorem emit_latchNo (d : Dev) (o : Out) : (emit d o).latchNo = d.latchNo := (rfl)
@[simp] theorem emit_tide (d : Dev) (o : Out) : (emit d o).tide = d.tide := (rfl)
@[simp] theorem emit_pat (d : Dev) (o : Out) : (emit d o).pat = d.pat := (rfl)
@[simp] theorem emit_clv (d : Dev) (o : Out) : (emit d o).clv = d.clv := (rfl)
@[simp] theorem emit_meshOff (d : Dev) (o : Out) : (emit d o).meshOff = d.meshOff := (rfl)
@[simp] theorem emit_frozen (d : Dev) (o : Out) : (emit d o).frozen = d.frozen := (rfl)
@[simp] theorem emit_rgnUp (d : Dev) (o : Out) : (emit d o).rgnUp = d.rgnUp := (rfl)
@[simp] theorem emit_ceWin (d : Dev) (o : Out) : (emit d o).ceWin = d.ceWin := (rfl)
@[simp] theorem emit_tierPos (d : Dev) (o : Out) : (emit d o).tierPos = d.tierPos := (rfl)
@[simp] theorem emit_hbmList (d : Dev) (o : Out) : (emit d o).hbmList = d.hbmList := (rfl)
@[simp] theorem emit_ddrList (d : Dev) (o : Out) : (emit d o).ddrList = d.ddrList := (rfl)
@[simp] theorem emit_gaugeq (d : Dev) (o : Out) : (emit d o).gaugeq = d.gaugeq := (rfl)
@[simp] theorem emit_slc (d : Dev) (o : Out) : (emit d o).slc = d.slc := (rfl)
@[simp] theorem emit_pwr (d : Dev) (o : Out) : (emit d o).pwr = d.pwr := (rfl)
@[simp] theorem emit_thm (d : Dev) (o : Out) : (emit d o).thm = d.thm := (rfl)
@[simp] theorem emit_kpr (d : Dev) (o : Out) : (emit d o).kpr = d.kpr := (rfl)
@[simp] theorem emit_levees (d : Dev) (o : Out) : (emit d o).levees = d.levees := (rfl)
@[simp] theorem emit_sec (d : Dev) (o : Out) : (emit d o).sec = d.sec := (rfl)
@[simp] theorem emit_tap (d : Dev) (o : Out) : (emit d o).tap = d.tap := (rfl)
@[simp] theorem emit_trace (d : Dev) (o : Out) : (emit d o).trace = d.trace := (rfl)
@[simp] theorem emit_flog (d : Dev) (o : Out) : (emit d o).flog = d.flog := (rfl)
@[simp] theorem emit_flogSeq (d : Dev) (o : Out) : (emit d o).flogSeq = d.flogSeq := (rfl)
@[simp] theorem emit_flogEnd (d : Dev) (o : Out) : (emit d o).flogEnd = d.flogEnd := (rfl)
@[simp] theorem emit_now (d : Dev) (o : Out) : (emit d o).now = d.now := (rfl)
@[simp] theorem emit_free (d : Dev) (o : Out) : (emit d o).free = d.free := (rfl)

end Sys2Proof.Machine
end

