-- ==== Sys2Proof/Laws/Registers.lean ====
section
/-! SUPPORT. Laws of the register file and of the other named stores: a read after a write. -/
namespace Sys2Proof.Machine

/-! ## Bits of a word -/

/-- Bit i of a word with one field replaced. -/
theorem setBits_testBit (w : Word) (lo wid v i : Nat) (h : lo + wid ≤ 64) :
    (setBits w lo wid v).toNat.testBit i =
      if lo ≤ i ∧ i < lo + wid then v.testBit (i - lo) else w.toNat.testBit i := by
  have hw := w.isLt
  obtain ⟨l, b, t, hl, hb, e⟩ : ∃ l b t, l < 2 ^ lo ∧ b < 2 ^ wid ∧ w.toNat = 2 ^ lo * (2 ^ wid * t + b) + l :=
    ⟨w.toNat % 2 ^ lo, w.toNat / 2 ^ lo % 2 ^ wid, w.toNat / 2 ^ lo / 2 ^ wid, Nat.mod_lt _ (by positivity),
      Nat.mod_lt _ (by positivity), by rw [Nat.div_add_mod, Nat.div_add_mod]⟩
  have hbits : bitsOf w lo wid = b := by
    unfold bitsOf
    rw [e, Nat.mul_add_div (by positivity), Nat.div_eq_of_lt hl, Nat.add_zero, Nat.mul_add_mod, Nat.mod_eq_of_lt hb]
  have hc : v % 2 ^ wid < 2 ^ wid := Nat.mod_lt _ (by positivity)
  have hval : w.toNat - bitsOf w lo wid * 2 ^ lo + v % 2 ^ wid * 2 ^ lo = 2 ^ lo * (2 ^ wid * t + v % 2 ^ wid) + l := by
    rw [hbits, e, Nat.mul_add, Nat.mul_add, Nat.mul_comm b]
    have : 2 ^ lo * (2 ^ wid * t) + 2 ^ lo * b + l - 2 ^ lo * b = 2 ^ lo * (2 ^ wid * t) + l := by omega
    rw [this, Nat.mul_comm (v % 2 ^ wid)]; ring
  have hlt : 2 ^ lo * (2 ^ wid * t + v % 2 ^ wid) + l < 2 ^ 64 := by
    have h1 : 2 ^ (lo + wid) * t < 2 ^ 64 := by
      have : 2 ^ (lo + wid) * t ≤ w.toNat := by rw [e, pow_add]; nlinarith
      omega
    have h2 : t < 2 ^ (64 - (lo + wid)) := by
      have h3 : (2 : Nat) ^ 64 = 2 ^ (lo + wid) * 2 ^ (64 - (lo + wid)) := by rw [← pow_add]; congr 1; omega
      rw [h3] at h1
      exact Nat.lt_of_mul_lt_mul_left h1
    have h4 : 2 ^ (lo + wid) * (t + 1) ≤ 2 ^ 64 := by
      have h3 : (2 : Nat) ^ 64 = 2 ^ (lo + wid) * 2 ^ (64 - (lo + wid)) := by rw [← pow_add]; congr 1; omega
      rw [h3]; exact Nat.mul_le_mul_left _ h2
    have h5 : 2 ^ lo * (v % 2 ^ wid + 1) ≤ 2 ^ (lo + wid) := by rw [pow_add]; exact Nat.mul_le_mul_left _ hc
    calc 2 ^ lo * (2 ^ wid * t + v % 2 ^ wid) + l = 2 ^ (lo + wid) * t + 2 ^ lo * (v % 2 ^ wid) + l := by rw [pow_add]; ring
      _ < 2 ^ (lo + wid) * t + 2 ^ lo * (v % 2 ^ wid + 1) := by
          have h6 : 2 ^ lo * (v % 2 ^ wid + 1) = 2 ^ lo * (v % 2 ^ wid) + 2 ^ lo := by ring
          omega
      _ ≤ 2 ^ (lo + wid) * (t + 1) := by
          have h6 : 2 ^ (lo + wid) * (t + 1) = 2 ^ (lo + wid) * t + 2 ^ (lo + wid) := by ring
          omega
      _ ≤ 2 ^ 64 := h4
  have hs : (setBits w lo wid v).toNat = 2 ^ lo * (2 ^ wid * t + v % 2 ^ wid) + l := by
    unfold setBits
    rw [BitVec.toNat_ofNat, hval, Nat.mod_eq_of_lt hlt]
  rw [hs, e, Nat.testBit_two_pow_mul_add _ hl, Nat.testBit_two_pow_mul_add _ hl,
    Nat.testBit_two_pow_mul_add _ hc, Nat.testBit_two_pow_mul_add _ hb]
  by_cases h1 : i < lo
  · simp [h1, Nat.not_le.2 h1]
  · by_cases h2 : i < lo + wid
    · have : i - lo < wid := by omega
      simp [h1, h2, this, Nat.not_lt.1 h1, Nat.testBit_mod_two_pow]
    · have h3 : ¬ i - lo < wid := by omega
      simp [h1, h2, h3]

/-- Bit i of a field of a word. -/
theorem bitsOf_testBit (w : Word) (lo wid i : Nat) :
    (bitsOf w lo wid).testBit i = (decide (i < wid) && w.toNat.testBit (lo + i)) := by
  unfold bitsOf
  rw [Nat.testBit_mod_two_pow, Nat.testBit_div_two_pow, Nat.add_comm]

/-- A field is below its width. -/
theorem bitsOf_lt (w : Word) (lo wid : Nat) : bitsOf w lo wid < 2 ^ wid := Nat.mod_lt _ (by positivity)

/-- A field that has been written reads as what was written, modulo its width. -/
theorem bitsOf_setBits (w : Word) (lo wid v : Nat) (h : lo + wid ≤ 64) : bitsOf (setBits w lo wid v) lo wid = v % 2 ^ wid := by
  refine Nat.eq_of_testBit_eq (fun i => ?_)
  rw [bitsOf_testBit, Nat.testBit_mod_two_pow]
  by_cases hi : i < wid
  · rw [setBits_testBit _ _ _ _ _ h]
    simp [hi]
  · simp [hi]

/-- A field apart from the one that has been written is unchanged. -/
theorem bitsOf_setBits_apart (w : Word) (lo wid v lo' wid' : Nat) (h : lo + wid ≤ 64)
    (hd : lo' + wid' ≤ lo ∨ lo + wid ≤ lo') : bitsOf (setBits w lo wid v) lo' wid' = bitsOf w lo' wid' := by
  refine Nat.eq_of_testBit_eq (fun i => ?_)
  rw [bitsOf_testBit, bitsOf_testBit]
  by_cases hi : i < wid'
  · rw [setBits_testBit _ _ _ _ _ h]
    have : ¬ (lo ≤ lo' + i ∧ lo' + i < lo + wid) := by omega
    simp [hi, this]
  · simp [hi]

/-! ## Registers -/

theorem rget_rset (d : Dev) (o : Nat) (v : Word) (k : Nat) : rget (rset d o v) k = if k = o then v else rget d k :=
  smGet_smSet _ _ _ _ _

@[simp] theorem rget_rset_same (d : Dev) (o : Nat) (v : Word) : rget (rset d o v) o = v := by simp [rget_rset]

theorem rget_rset_ne (d : Dev) {o k : Nat} (h : k ≠ o) (v : Word) : rget (rset d o v) k = rget d k := by simp [rget_rset, h]

/-- A write of a field leaves every other register. -/
theorem rget_fset_ne (d : Dev) (f : Fld) (v : Nat) {k : Nat} (h : k ≠ f.off) : rget (fset d f v) k = rget d k :=
  rget_rset_ne d h _

/-- A field after it has been written. -/
theorem fget_fset (d : Dev) (f : Fld) (v : Nat) (h : f.lo + f.wid ≤ 64) : fget (fset d f v) f = v % 2 ^ f.wid := by
  simp [fget, fset, bitsOf_setBits _ _ _ _ h]

/-- A field of another register is unchanged. -/
theorem fget_fset_ne (d : Dev) (f g : Fld) (v : Nat) (h : g.off ≠ f.off) : fget (fset d f v) g = fget d g := by
  simp [fget, rget_fset_ne d f v h]

/-- A field of the same register apart from the one written is unchanged. -/
theorem fget_fset_apart (d : Dev) (f g : Fld) (v : Nat) (hf : f.lo + f.wid ≤ 64) (ho : g.off = f.off)
    (h : g.lo + g.wid ≤ f.lo ∨ f.lo + f.wid ≤ g.lo) : fget (fset d f v) g = fget d g := by
  simp [fget, fset, ho, bitsOf_setBits_apart _ _ _ _ _ _ hf h]

/-- A field that holds a value below its width. -/
theorem fget_lt (d : Dev) (f : Fld) : fget d f < 2 ^ f.wid := bitsOf_lt _ _ _

/-! ## Cells, threads, ports, rings -/

theorem getCell_setCell (d : Dev) (c : Nat) (x : Cell) (k : Nat) : getCell (setCell d c x) k = if k = c then x else getCell d k :=
  smGet_smSet _ _ _ _ _

@[simp] theorem getCell_setCell_same (d : Dev) (c : Nat) (x : Cell) : getCell (setCell d c x) c = x := by simp [getCell_setCell]

@[simp] theorem getCell_modCell_same (d : Dev) (c : Nat) (g : Cell → Cell) : getCell (modCell d c g) c = g (getCell d c) := by
  simp [modCell]

theorem getCell_modCell_ne (d : Dev) {c k : Nat} (h : k ≠ c) (g : Cell → Cell) : getCell (modCell d c g) k = getCell d k := by
  simp [modCell, getCell_setCell, h]

theorem getTh_setTh (x : Cell) (t : Nat) (th : Thread) (k : Nat) : getTh (setTh x t th) k = if k = t then th else getTh x k :=
  smGet_smSet _ _ _ _ _

@[simp] theorem getTh_setTh_same (x : Cell) (t : Nat) (th : Thread) : getTh (setTh x t th) t = th := by simp [getTh_setTh]

/-- Thread t of a cell after a change of it. -/
@[simp] theorem thread_modTh_same (d : Dev) (c t : Nat) (g : Thread → Thread) : thread (modTh d c t g) c t = g (thread d c t) := by
  simp [thread, modTh]

/-- Any other thread is unchanged. -/
theorem thread_modTh_ne (d : Dev) (c t : Nat) (g : Thread → Thread) {c' t' : Nat} (h : c' ≠ c ∨ t' ≠ t) :
    thread (modTh d c t g) c' t' = thread d c' t' := by
  by_cases hc : c' = c
  · subst hc
    have ht : t' ≠ t := by tauto
    simp [thread, modTh, getTh_setTh, ht]
  · simp [thread, modTh, getCell_modCell_ne d hc]

@[simp] theorem getPort_modPort_same (d : Dev) (p : Nat) (g : Port → Port) : getPort (modPort d p g) p = g (getPort d p) := by
  simp [getPort, modPort]

theorem getPort_modPort_ne (d : Dev) {p k : Nat} (h : k ≠ p) (g : Port → Port) : getPort (modPort d p g) k = getPort d k := by
  simp [getPort, modPort, smGet_smSet, h]

@[simp] theorem getPcie_modPcie_same (d : Dev) (p : Nat) (g : PciePortState → PciePortState) :
    getPcie (modPcie d p g) p = g (getPcie d p) := by simp [getPcie, modPcie]

theorem getPcie_modPcie_ne (d : Dev) {p k : Nat} (h : k ≠ p) (g : PciePortState → PciePortState) :
    getPcie (modPcie d p g) k = getPcie d k := by simp [getPcie, modPcie, smGet_smSet, h]

@[simp] theorem getRing_modRing_same (d : Dev) (k : Nat) (g : Ring → Ring) : getRing (modRing d k g) k = g (getRing d k) := by
  simp [getRing, modRing]

theorem getRing_modRing_ne (d : Dev) {k j : Nat} (h : j ≠ k) (g : Ring → Ring) : getRing (modRing d k g) j = getRing d j := by
  simp [getRing, modRing, smGet_smSet, h]

/-! ## Memory -/

theorem rdByte_wrByte (d : Dev) (a : Nat) (b : Byte) (k : Nat) : rdByte (wrByte d a b) k = if k = a then b else rdByte d k :=
  smGet_smSet _ _ _ _ _

/-- Bytes outside the range written are unchanged. -/
theorem rdByte_wrBytes_outside (d : Dev) (a : Nat) (bs : List Byte) (k : Nat) (h : k < a ∨ a + bs.length ≤ k) :
    rdByte (wrBytes d a bs) k = rdByte d k := by
  induction bs generalizing d a with
  | nil => rfl
  | cons b t ih =>
    have hl : (b :: t).length = t.length + 1 := rfl
    rw [hl] at h
    simp only [wrBytes]
    rw [ih _ _ (by omega), rdByte_wrByte, if_neg (by omega)]

/-- The bytes written are read back. -/
theorem rdByte_wrBytes_inside (d : Dev) (a : Nat) (bs : List Byte) (i : Nat) (h : i < bs.length) :
    rdByte (wrBytes d a bs) (a + i) = bs.getD i 0 := by
  induction bs generalizing d a i with
  | nil => simp at h
  | cons b t ih =>
    simp only [wrBytes]
    cases i with
    | zero => rw [rdByte_wrBytes_outside _ _ _ _ (by omega), rdByte_wrByte]; simp
    | succ j =>
      have := ih (wrByte d a b) (a + 1) j (by simpa using h)
      rw [show a + (j + 1) = a + 1 + j by omega, this]; simp

theorem granBad_setGran (d : Dev) (g : Nat) (b : Bool) (k : Nat) : granBad (setGran d g b) k = if k = g then b else granBad d k :=
  smGet_smSet _ _ _ _ _

/-- Memory keeps its canonical form under a write of bytes. -/
theorem wrBytes_wf (d : Dev) (a : Nat) (bs : List Byte) (h : smWf (fun _ => (0 : Byte)) d.mem) :
    smWf (fun _ => (0 : Byte)) (wrBytes d a bs).mem := by
  induction bs generalizing d a with
  | nil => exact h
  | cons b t ih => exact ih _ _ (smSet_wf h a b)

end Sys2Proof.Machine
end

