-- ==== Sys2Proof/Laws/Events.lean ====
section
/-! SUPPORT. What the trace, the tag counters, the events and the fault log can change. -/
namespace Sys2Proof.Machine

/-- A device without its registers, log, trace, PCI Express tables and what it has sent out: what reports of every kind
leave alone. -/
def Dev.core (d : Dev) : Dev :=
  { d with regs := [], pcie := [], trace := [], flog := [], flogSeq := 0, flogEnd := 0, out := [] }

@[simp] theorem rset_core (d : Dev) (o : Nat) (v : Word) : (rset d o v).core = d.core := (rfl)
@[simp] theorem fset_core (d : Dev) (f : Fld) (v : Nat) : (fset d f v).core = d.core := (rfl)
@[simp] theorem fcount_core (d : Dev) (f : Fld) (n : Nat) : (fcount d f n).core = d.core := (rfl)
@[simp] theorem rsetBit_core (d : Dev) (o n : Nat) (b : Bool) : (rsetBit d o n b).core = d.core := (rfl)
@[simp] theorem modPcie_core (d : Dev) (p : Nat) (g : PciePortState → PciePortState) : (modPcie d p g).core = d.core := (rfl)
@[simp] theorem emit_core (d : Dev) (o : Out) : (emit d o).core = d.core := (rfl)
@[simp] theorem out_core (d : Dev) (o : List Out) : ({ d with out := o } : Dev).core = d.core := (rfl)
@[simp] theorem trace_core (d : Dev) (t : SMap Nat) : ({ d with trace := t } : Dev).core = d.core := (rfl)
@[simp] theorem flog_core (d : Dev) (l : List FaultRec) (n e : Nat) :
    ({ d with flog := l, flogSeq := n, flogEnd := e } : Dev).core = d.core := (rfl)

theorem core_mem {a b : Dev} (h : a.core = b.core) : a.mem = b.mem := by have e := congrArg Dev.mem h; exact e
theorem core_poison {a b : Dev} (h : a.core = b.core) : a.poison = b.poison := by have e := congrArg Dev.poison h; exact e
theorem core_cells {a b : Dev} (h : a.core = b.core) : a.cells = b.cells := by have e := congrArg Dev.cells h; exact e
theorem core_far {a b : Dev} (h : a.core = b.core) : a.far = b.far := by have e := congrArg Dev.far h; exact e
theorem core_map {a b : Dev} (h : a.core = b.core) : a.map = b.map := by have e := congrArg Dev.map h; exact e
theorem core_probing {a b : Dev} (h : a.core = b.core) : a.probing = b.probing := by have e := congrArg Dev.probing h; exact e
theorem core_ports {a b : Dev} (h : a.core = b.core) : a.ports = b.ports := by have e := congrArg Dev.ports h; exact e
theorem core_flows {a b : Dev} (h : a.core = b.core) : a.flows = b.flows := by have e := congrArg Dev.flows h; exact e
theorem core_rids {a b : Dev} (h : a.core = b.core) : a.rids = b.rids := by have e := congrArg Dev.rids h; exact e
theorem core_inbox {a b : Dev} (h : a.core = b.core) : a.inbox = b.inbox := by have e := congrArg Dev.inbox h; exact e
theorem core_toRoute {a b : Dev} (h : a.core = b.core) : a.toRoute = b.toRoute := by have e := congrArg Dev.toRoute h; exact e
theorem core_reqWait {a b : Dev} (h : a.core = b.core) : a.reqWait = b.reqWait := by have e := congrArg Dev.reqWait h; exact e
theorem core_rings {a b : Dev} (h : a.core = b.core) : a.rings = b.rings := by have e := congrArg Dev.rings h; exact e
theorem core_latchNo {a b : Dev} (h : a.core = b.core) : a.latchNo = b.latchNo := by have e := congrArg Dev.latchNo h; exact e
theorem core_tide {a b : Dev} (h : a.core = b.core) : a.tide = b.tide := by have e := congrArg Dev.tide h; exact e
theorem core_pat {a b : Dev} (h : a.core = b.core) : a.pat = b.pat := by have e := congrArg Dev.pat h; exact e
theorem core_clv {a b : Dev} (h : a.core = b.core) : a.clv = b.clv := by have e := congrArg Dev.clv h; exact e
theorem core_meshOff {a b : Dev} (h : a.core = b.core) : a.meshOff = b.meshOff := by have e := congrArg Dev.meshOff h; exact e
theorem core_frozen {a b : Dev} (h : a.core = b.core) : a.frozen = b.frozen := by have e := congrArg Dev.frozen h; exact e
theorem core_rgnUp {a b : Dev} (h : a.core = b.core) : a.rgnUp = b.rgnUp := by have e := congrArg Dev.rgnUp h; exact e
theorem core_ceWin {a b : Dev} (h : a.core = b.core) : a.ceWin = b.ceWin := by have e := congrArg Dev.ceWin h; exact e
theorem core_tierPos {a b : Dev} (h : a.core = b.core) : a.tierPos = b.tierPos := by have e := congrArg Dev.tierPos h; exact e
theorem core_hbmList {a b : Dev} (h : a.core = b.core) : a.hbmList = b.hbmList := by have e := congrArg Dev.hbmList h; exact e
theorem core_ddrList {a b : Dev} (h : a.core = b.core) : a.ddrList = b.ddrList := by have e := congrArg Dev.ddrList h; exact e
theorem core_gaugeq {a b : Dev} (h : a.core = b.core) : a.gaugeq = b.gaugeq := by have e := congrArg Dev.gaugeq h; exact e
theorem core_slc {a b : Dev} (h : a.core = b.core) : a.slc = b.slc := by have e := congrArg Dev.slc h; exact e
theorem core_pwr {a b : Dev} (h : a.core = b.core) : a.pwr = b.pwr := by have e := congrArg Dev.pwr h; exact e
theorem core_thm {a b : Dev} (h : a.core = b.core) : a.thm = b.thm := by have e := congrArg Dev.thm h; exact e
theorem core_kpr {a b : Dev} (h : a.core = b.core) : a.kpr = b.kpr := by have e := congrArg Dev.kpr h; exact e
theorem core_levees {a b : Dev} (h : a.core = b.core) : a.levees = b.levees := by have e := congrArg Dev.levees h; exact e
theorem core_sec {a b : Dev} (h : a.core = b.core) : a.sec = b.sec := by have e := congrArg Dev.sec h; exact e
theorem core_tap {a b : Dev} (h : a.core = b.core) : a.tap = b.tap := by have e := congrArg Dev.tap h; exact e
theorem core_now {a b : Dev} (h : a.core = b.core) : a.now = b.now := by have e := congrArg Dev.now h; exact e
theorem core_free {a b : Dev} (h : a.core = b.core) : a.free = b.free := by have e := congrArg Dev.free h; exact e

theorem rget_fcount_ne (d : Dev) (f : Fld) (n : Nat) {k : Nat} (h : k ≠ f.off) : rget (fcount d f n) k = rget d k :=
  rget_rset_ne d h _

theorem rget_trace (d : Dev) (t : SMap Nat) (o : Nat) : rget { d with trace := t } o = rget d o := (rfl)

@[simp] theorem tracePut_core (d : Dev) (r : Nat) : (tracePut d r).core = d.core := by
  unfold tracePut
  simp only
  split_ifs <;> simp

theorem tracePut_rget (d : Dev) (r : Nat) {o : Nat} (h : o ≠ DBG_TRC_STATUS) : rget (tracePut d r) o = rget d o := by
  have hw : o ≠ DBG_TRC_STATUS_WPTR.off := h
  have hr : o ≠ DBG_TRC_STATUS_RUNNING.off := h
  have hf : o ≠ DBG_TRC_STATUS_FULL.off := h
  unfold tracePut
  simp only
  split_ifs
  · rfl
  · rw [rget_fset_ne _ _ _ hw, rget_trace]
  · rw [rget_fset_ne _ _ _ hr, rget_fset_ne _ _ _ hf, rget_fset_ne _ _ _ hw, rget_trace]
  · rw [rget_fset_ne _ _ _ hw, rget_trace]

@[simp] theorem traceEv_core (d : Dev) (cls ev tag src sub : Nat) (st : Status) (ext : Nat × Nat) :
    (traceEv d cls ev tag src sub st ext).core = d.core := by
  unfold traceEv
  simp only
  split_ifs <;> simp

/-- An event offered to the trace changes no register but DBG_TRC_STATUS. -/
theorem traceEv_rget (d : Dev) (cls ev tag src sub : Nat) (st : Status) (ext : Nat × Nat) {o : Nat} (h : o ≠ DBG_TRC_STATUS) :
    rget (traceEv d cls ev tag src sub st ext) o = rget d o := by
  unfold traceEv
  simp only
  split_ifs
  · rfl
  · rw [tracePut_rget _ _ h, tracePut_rget _ _ h]
  · rw [tracePut_rget _ _ h]

/-- A fold of updates that leave something leaves it. -/
theorem foldl_keeps {σ α β : Type} (get : σ → α) (g : σ → β → σ) (hg : ∀ d b, get (g d b) = get d) (l : List β) (d : σ) :
    get (l.foldl g d) = get d := by
  induction l generalizing d with
  | nil => rfl
  | cons b t ih => rw [List.foldl_cons, ih, hg]

@[simp] theorem countTag_core (d : Dev) (cls tag : Nat) (st : Status) : (countTag d cls tag st).core = d.core := by
  unfold countTag
  refine foldl_keeps Dev.core _ (fun d j => ?_) _ _
  simp only
  split_ifs <;> simp

/-- The tag counters change no register but theirs. -/
theorem countTag_rget (d : Dev) (cls tag : Nat) (st : Status) {o : Nat} (h : ∀ j, o ≠ DBG_TAGCTR j) :
    rget (countTag d cls tag st) o = rget d o := by
  have h1 : ∀ j, o ≠ (DBG_TAGCTR_COMPLETED j).off := h
  have h2 : ∀ j, o ≠ (DBG_TAGCTR_NOT_OK j).off := h
  unfold countTag
  refine foldl_keeps (fun d => rget d o) _ (fun d j => ?_) _ _
  simp only
  generalize (if cls = 1 then 1 else if cls = 2 then 2 else 4) = k
  split_ifs
  · rw [rget_fcount_ne _ _ _ (h1 j)]
  · rw [rget_fcount_ne _ _ _ (h2 j), rget_fcount_ne _ _ _ (h1 j)]
  · rfl

@[simp] theorem signalMsix_core (d : Dev) (p n : Nat) : (signalMsix d p n).core = d.core := by
  unfold signalMsix
  simp only
  split_ifs <;> simp

/-- A vector that is signalled changes no register. -/
@[simp] theorem signalMsix_regs (d : Dev) (p n : Nat) : (signalMsix d p n).regs = d.regs := by
  unfold signalMsix
  simp only
  split_ifs <;> simp

@[simp] theorem raiseEvent_core (d : Dev) (p n : Nat) : (raiseEvent d p n).core = d.core := by
  unfold raiseEvent
  split_ifs <;> simp

/-- An event changes no register but HIF_EVENT of its port. -/
theorem raiseEvent_rget (d : Dev) (p n : Nat) {o : Nat} (h : o ≠ HIF_EVENT p) : rget (raiseEvent d p n) o = rget d o := by
  unfold raiseEvent
  split_ifs
  · rfl
  · unfold rget
    rw [signalMsix_regs]
    exact rget_fset_ne d ⟨HIF_EVENT p, n, 1⟩ 1 h

/-- The event's bit is set afterwards. -/
theorem raiseEvent_bit (d : Dev) (p n : Nat) (hn : n < 64) : rbit (raiseEvent d p n) (HIF_EVENT p) n = true := by
  unfold raiseEvent
  split_ifs with h
  · exact h
  · unfold rbit rget
    rw [signalMsix_regs]
    change (rget (fset d ⟨HIF_EVENT p, n, 1⟩ 1) (HIF_EVENT p)).toNat.testBit n = true
    unfold fset
    rw [rget_rset_same, setBits_testBit _ _ _ _ _ (by simp only; omega)]
    simp

@[simp] theorem raiseBoth_core (d : Dev) (n : Nat) : (raiseBoth d n).core = d.core := by
  unfold raiseBoth
  simp

theorem raiseBoth_rget (d : Dev) (n : Nat) {o : Nat} (h0 : o ≠ HIF_EVENT 0) (h1 : o ≠ HIF_EVENT 1) :
    rget (raiseBoth d n) o = rget d o := by
  unfold raiseBoth
  rw [raiseEvent_rget _ _ _ h1, raiseEvent_rget _ _ _ h0]

@[simp] theorem placeRec_core (d : Dev) (r : FaultRec) (size : Nat) : (placeRec d r size).core = d.core := by
  unfold placeRec
  simp only [fset_core, fcount_core, flog_core]

theorem rget_flog (d : Dev) (l : List FaultRec) (n e : Nat) (o : Nat) :
    rget { d with flog := l, flogSeq := n, flogEnd := e } o = rget d o := (rfl)

theorem placeRec_rget (d : Dev) (r : FaultRec) (size : Nat) {o : Nat} (h0 : o ≠ KPR_FLOG_STATUS) (h1 : o ≠ KPR_FLOG_NEWEST)
    (h2 : o ≠ KPR_FLOG_OLDEST) : rget (placeRec d r size) o = rget d o := by
  have e1 : o ≠ KPR_FLOG_STATUS_OVERWRITTEN.off := h0
  have e2 : o ≠ KPR_FLOG_STATUS_NEWEST_OFF.off := h0
  have e3 : o ≠ KPR_FLOG_STATUS_OLDEST_OFF.off := h0
  have e4 : o ≠ KPR_FLOG_NEWEST_SEQ.off := h1
  have e5 : o ≠ KPR_FLOG_OLDEST_SEQ.off := h2
  unfold placeRec
  simp only
  rw [rget_fset_ne _ _ _ e5, rget_fset_ne _ _ _ e4, rget_fset_ne _ _ _ e3, rget_fset_ne _ _ _ e2, rget_fcount_ne _ _ _ e1,
    rget_flog]

@[simp] theorem addFault_core (d : Dev) (typ : Nat) (st : Status) (flags uclass unit tag cause det0 det1 : Nat) (pl : List Byte) :
    (addFault d typ st flags uclass unit tag cause det0 det1 pl).core = d.core := by
  unfold addFault
  simp only [traceEv_core, raiseBoth_core, placeRec_core]
  split_ifs
  · exact placeRec_core _ _ _
  · rfl

/-- A fault record changes no registers but those of the log, HIF_EVENT and DBG_TRC_STATUS. -/
theorem addFault_rget (d : Dev) (typ : Nat) (st : Status) (flags uclass unit tag cause det0 det1 : Nat) (pl : List Byte) {o : Nat}
    (h0 : o ≠ KPR_FLOG_STATUS) (h1 : o ≠ KPR_FLOG_NEWEST) (h2 : o ≠ KPR_FLOG_OLDEST) (h3 : o ≠ HIF_EVENT 0)
    (h4 : o ≠ HIF_EVENT 1) (h5 : o ≠ DBG_TRC_STATUS) :
    rget (addFault d typ st flags uclass unit tag cause det0 det1 pl) o = rget d o := by
  unfold addFault
  simp only
  rw [traceEv_rget _ _ _ _ _ _ _ _ h5, raiseBoth_rget _ _ h3 h4, placeRec_rget _ _ _ h0 h1 h2]
  split_ifs
  · rw [placeRec_rget _ _ _ h0 h1 h2]
  · rfl

/-! ## What tracePut leaves -/

@[simp] theorem tracePut_mem (d : Dev) (r : Nat) :
    (tracePut d r).mem = d.mem := core_mem (tracePut_core d r)
@[simp] theorem tracePut_poison (d : Dev) (r : Nat) :
    (tracePut d r).poison = d.poison := core_poison (tracePut_core d r)
@[simp] theorem tracePut_cells (d : Dev) (r : Nat) :
    (tracePut d r).cells = d.cells := core_cells (tracePut_core d r)
@[simp] theorem tracePut_far (d : Dev) (r : Nat) :
    (tracePut d r).far = d.far := core_far (tracePut_core d r)
@[simp] theorem tracePut_map (d : Dev) (r : Nat) :
    (tracePut d r).map = d.map := core_map (tracePut_core d r)
@[simp] theorem tracePut_probing (d : Dev) (r : Nat) :
    (tracePut d r).probing = d.probing := core_probing (tracePut_core d r)
@[simp] theorem tracePut_ports (d : Dev) (r : Nat) :
    (tracePut d r).ports = d.ports := core_ports (tracePut_core d r)
@[simp] theorem tracePut_flows (d : Dev) (r : Nat) :
    (tracePut d r).flows = d.flows := core_flows (tracePut_core d r)
@[simp] theorem tracePut_rids (d : Dev) (r : Nat) :
    (tracePut d r).rids = d.rids := core_rids (tracePut_core d r)
@[simp] theorem tracePut_inbox (d : Dev) (r : Nat) :
    (tracePut d r).inbox = d.inbox := core_inbox (tracePut_core d r)
@[simp] theorem tracePut_toRoute (d : Dev) (r : Nat) :
    (tracePut d r).toRoute = d.toRoute := core_toRoute (tracePut_core d r)
@[simp] theorem tracePut_reqWait (d : Dev) (r : Nat) :
    (tracePut d r).reqWait = d.reqWait := core_reqWait (tracePut_core d r)
@[simp] theorem tracePut_rings (d : Dev) (r : Nat) :
    (tracePut d r).rings = d.rings := core_rings (tracePut_core d r)
@[simp] theorem tracePut_latchNo (d : Dev) (r : Nat) :
    (tracePut d r).latchNo = d.latchNo := core_latchNo (tracePut_core d r)
@[simp] theorem tracePut_tide (d : Dev) (r : Nat) :
    (tracePut d r).tide = d.tide := core_tide (tracePut_core d r)
@[simp] theorem tracePut_pat (d : Dev) (r : Nat) :
    (tracePut d r).pat = d.pat := core_pat (tracePut_core d r)
@[simp] theorem tracePut_clv (d : Dev) (r : Nat) :
    (tracePut d r).clv = d.clv := core_clv (tracePut_core d r)
@[simp] theorem tracePut_meshOff (d : Dev) (r : Nat) :
    (tracePut d r).meshOff = d.meshOff := core_meshOff (tracePut_core d r)
@[simp] theorem tracePut_frozen (d : Dev) (r : Nat) :
    (tracePut d r).frozen = d.frozen := core_frozen (tracePut_core d r)
@[simp] theorem tracePut_rgnUp (d : Dev) (r : Nat) :
    (tracePut d r).rgnUp = d.rgnUp := core_rgnUp (tracePut_core d r)
@[simp] theorem tracePut_ceWin (d : Dev) (r : Nat) :
    (tracePut d r).ceWin = d.ceWin := core_ceWin (tracePut_core d r)
@[simp] theorem tracePut_tierPos (d : Dev) (r : Nat) :
    (tracePut d r).tierPos = d.tierPos := core_tierPos (tracePut_core d r)
@[simp] theorem tracePut_hbmList (d : Dev) (r : Nat) :
    (tracePut d r).hbmList = d.hbmList := core_hbmList (tracePut_core d r)
@[simp] theorem tracePut_ddrList (d : Dev) (r : Nat) :
    (tracePut d r).ddrList = d.ddrList := core_ddrList (tracePut_core d r)
@[simp] theorem tracePut_gaugeq (d : Dev) (r : Nat) :
    (tracePut d r).gaugeq = d.gaugeq := core_gaugeq (tracePut_core d r)
@[simp] theorem tracePut_slc (d : Dev) (r : Nat) :
    (tracePut d r).slc = d.slc := core_slc (tracePut_core d r)
@[simp] theorem tracePut_pwr (d : Dev) (r : Nat) :
    (tracePut d r).pwr = d.pwr := core_pwr (tracePut_core d r)
@[simp] theorem tracePut_thm (d : Dev) (r : Nat) :
    (tracePut d r).thm = d.thm := core_thm (tracePut_core d r)
@[simp] theorem tracePut_kpr (d : Dev) (r : Nat) :
    (tracePut d r).kpr = d.kpr := core_kpr (tracePut_core d r)
@[simp] theorem tracePut_levees (d : Dev) (r : Nat) :
    (tracePut d r).levees = d.levees := core_levees (tracePut_core d r)
@[simp] theorem tracePut_sec (d : Dev) (r : Nat) :
    (tracePut d r).sec = d.sec := core_sec (tracePut_core d r)
@[simp] theorem tracePut_tap (d : Dev) (r : Nat) :
    (tracePut d r).tap = d.tap := core_tap (tracePut_core d r)
@[simp] theorem tracePut_now (d : Dev) (r : Nat) :
    (tracePut d r).now = d.now := core_now (tracePut_core d r)
@[simp] theorem tracePut_free (d : Dev) (r : Nat) :
    (tracePut d r).free = d.free := core_free (tracePut_core d r)

/-! ## What traceEv leaves -/

@[simp] theorem traceEv_mem (d : Dev) (cls ev tag src sub : Nat) (st : Status) (ext : Nat × Nat) :
    (traceEv d cls ev tag src sub st ext).mem = d.mem := core_mem (traceEv_core d cls ev tag src sub st ext)
@[simp] theorem traceEv_poison (d : Dev) (cls ev tag src sub : Nat) (st : Status) (ext : Nat × Nat) :
    (traceEv d cls ev tag src sub st ext).poison = d.poison := core_poison (traceEv_core d cls ev tag src sub st ext)
@[simp] theorem traceEv_cells (d : Dev) (cls ev tag src sub : Nat) (st : Status) (ext : Nat × Nat) :
    (traceEv d cls ev tag src sub st ext).cells = d.cells := core_cells (traceEv_core d cls ev tag src sub st ext)
@[simp] theorem traceEv_far (d : Dev) (cls ev tag src sub : Nat) (st : Status) (ext : Nat × Nat) :
    (traceEv d cls ev tag src sub st ext).far = d.far := core_far (traceEv_core d cls ev tag src sub st ext)
@[simp] theorem traceEv_map (d : Dev) (cls ev tag src sub : Nat) (st : Status) (ext : Nat × Nat) :
    (traceEv d cls ev tag src sub st ext).map = d.map := core_map (traceEv_core d cls ev tag src sub st ext)
@[simp] theorem traceEv_probing (d : Dev) (cls ev tag src sub : Nat) (st : Status) (ext : Nat × Nat) :
    (traceEv d cls ev tag src sub st ext).probing = d.probing := core_probing (traceEv_core d cls ev tag src sub st ext)
@[simp] theorem traceEv_ports (d : Dev) (cls ev tag src sub : Nat) (st : Status) (ext : Nat × Nat) :
    (traceEv d cls ev tag src sub st ext).ports = d.ports := core_ports (traceEv_core d cls ev tag src sub st ext)
@[simp] theorem traceEv_flows (d : Dev) (cls ev tag src sub : Nat) (st : Status) (ext : Nat × Nat) :
    (traceEv d cls ev tag src sub st ext).flows = d.flows := core_flows (traceEv_core d cls ev tag src sub st ext)
@[simp] theorem traceEv_rids (d : Dev) (cls ev tag src sub : Nat) (st : Status) (ext : Nat × Nat) :
    (traceEv d cls ev tag src sub st ext).rids = d.rids := core_rids (traceEv_core d cls ev tag src sub st ext)
@[simp] theorem traceEv_inbox (d : Dev) (cls ev tag src sub : Nat) (st : Status) (ext : Nat × Nat) :
    (traceEv d cls ev tag src sub st ext).inbox = d.inbox := core_inbox (traceEv_core d cls ev tag src sub st ext)
@[simp] theorem traceEv_toRoute (d : Dev) (cls ev tag src sub : Nat) (st : Status) (ext : Nat × Nat) :
    (traceEv d cls ev tag src sub st ext).toRoute = d.toRoute := core_toRoute (traceEv_core d cls ev tag src sub st ext)
@[simp] theorem traceEv_reqWait (d : Dev) (cls ev tag src sub : Nat) (st : Status) (ext : Nat × Nat) :
    (traceEv d cls ev tag src sub st ext).reqWait = d.reqWait := core_reqWait (traceEv_core d cls ev tag src sub st ext)
@[simp] theorem traceEv_rings (d : Dev) (cls ev tag src sub : Nat) (st : Status) (ext : Nat × Nat) :
    (traceEv d cls ev tag src sub st ext).rings = d.rings := core_rings (traceEv_core d cls ev tag src sub st ext)
@[simp] theorem traceEv_latchNo (d : Dev) (cls ev tag src sub : Nat) (st : Status) (ext : Nat × Nat) :
    (traceEv d cls ev tag src sub st ext).latchNo = d.latchNo := core_latchNo (traceEv_core d cls ev tag src sub st ext)
@[simp] theorem traceEv_tide (d : Dev) (cls ev tag src sub : Nat) (st : Status) (ext : Nat × Nat) :
    (traceEv d cls ev tag src sub st ext).tide = d.tide := core_tide (traceEv_core d cls ev tag src sub st ext)
@[simp] theorem traceEv_pat (d : Dev) (cls ev tag src sub : Nat) (st : Status) (ext : Nat × Nat) :
    (traceEv d cls ev tag src sub st ext).pat = d.pat := core_pat (traceEv_core d cls ev tag src sub st ext)
@[simp] theorem traceEv_clv (d : Dev) (cls ev tag src sub : Nat) (st : Status) (ext : Nat × Nat) :
    (traceEv d cls ev tag src sub st ext).clv = d.clv := core_clv (traceEv_core d cls ev tag src sub st ext)
@[simp] theorem traceEv_meshOff (d : Dev) (cls ev tag src sub : Nat) (st : Status) (ext : Nat × Nat) :
    (traceEv d cls ev tag src sub st ext).meshOff = d.meshOff := core_meshOff (traceEv_core d cls ev tag src sub st ext)
@[simp] theorem traceEv_frozen (d : Dev) (cls ev tag src sub : Nat) (st : Status) (ext : Nat × Nat) :
    (traceEv d cls ev tag src sub st ext).frozen = d.frozen := core_frozen (traceEv_core d cls ev tag src sub st ext)
@[simp] theorem traceEv_rgnUp (d : Dev) (cls ev tag src sub : Nat) (st : Status) (ext : Nat × Nat) :
    (traceEv d cls ev tag src sub st ext).rgnUp = d.rgnUp := core_rgnUp (traceEv_core d cls ev tag src sub st ext)
@[simp] theorem traceEv_ceWin (d : Dev) (cls ev tag src sub : Nat) (st : Status) (ext : Nat × Nat) :
    (traceEv d cls ev tag src sub st ext).ceWin = d.ceWin := core_ceWin (traceEv_core d cls ev tag src sub st ext)
@[simp] theorem traceEv_tierPos (d : Dev) (cls ev tag src sub : Nat) (st : Status) (ext : Nat × Nat) :
    (traceEv d cls ev tag src sub st ext).tierPos = d.tierPos := core_tierPos (traceEv_core d cls ev tag src sub st ext)
@[simp] theorem traceEv_hbmList (d : Dev) (cls ev tag src sub : Nat) (st : Status) (ext : Nat × Nat) :
    (traceEv d cls ev tag src sub st ext).hbmList = d.hbmList := core_hbmList (traceEv_core d cls ev tag src sub st ext)
@[simp] theorem traceEv_ddrList (d : Dev) (cls ev tag src sub : Nat) (st : Status) (ext : Nat × Nat) :
    (traceEv d cls ev tag src sub st ext).ddrList = d.ddrList := core_ddrList (traceEv_core d cls ev tag src sub st ext)
@[simp] theorem traceEv_gaugeq (d : Dev) (cls ev tag src sub : Nat) (st : Status) (ext : Nat × Nat) :
    (traceEv d cls ev tag src sub st ext).gaugeq = d.gaugeq := core_gaugeq (traceEv_core d cls ev tag src sub st ext)
@[simp] theorem traceEv_slc (d : Dev) (cls ev tag src sub : Nat) (st : Status) (ext : Nat × Nat) :
    (traceEv d cls ev tag src sub st ext).slc = d.slc := core_slc (traceEv_core d cls ev tag src sub st ext)
@[simp] theorem traceEv_pwr (d : Dev) (cls ev tag src sub : Nat) (st : Status) (ext : Nat × Nat) :
    (traceEv d cls ev tag src sub st ext).pwr = d.pwr := core_pwr (traceEv_core d cls ev tag src sub st ext)
@[simp] theorem traceEv_thm (d : Dev) (cls ev tag src sub : Nat) (st : Status) (ext : Nat × Nat) :
    (traceEv d cls ev tag src sub st ext).thm = d.thm := core_thm (traceEv_core d cls ev tag src sub st ext)
@[simp] theorem traceEv_kpr (d : Dev) (cls ev tag src sub : Nat) (st : Status) (ext : Nat × Nat) :
    (traceEv d cls ev tag src sub st ext).kpr = d.kpr := core_kpr (traceEv_core d cls ev tag src sub st ext)
@[simp] theorem traceEv_levees (d : Dev) (cls ev tag src sub : Nat) (st : Status) (ext : Nat × Nat) :
    (traceEv d cls ev tag src sub st ext).levees = d.levees := core_levees (traceEv_core d cls ev tag src sub st ext)
@[simp] theorem traceEv_sec (d : Dev) (cls ev tag src sub : Nat) (st : Status) (ext : Nat × Nat) :
    (traceEv d cls ev tag src sub st ext).sec = d.sec := core_sec (traceEv_core d cls ev tag src sub st ext)
@[simp] theorem traceEv_tap (d : Dev) (cls ev tag src sub : Nat) (st : Status) (ext : Nat × Nat) :
    (traceEv d cls ev tag src sub st ext).tap = d.tap := core_tap (traceEv_core d cls ev tag src sub st ext)
@[simp] theorem traceEv_now (d : Dev) (cls ev tag src sub : Nat) (st : Status) (ext : Nat × Nat) :
    (traceEv d cls ev tag src sub st ext).now = d.now := core_now (traceEv_core d cls ev tag src sub st ext)
@[simp] theorem traceEv_free (d : Dev) (cls ev tag src sub : Nat) (st : Status) (ext : Nat × Nat) :
    (traceEv d cls ev tag src sub st ext).free = d.free := core_free (traceEv_core d cls ev tag src sub st ext)

/-! ## What countTag leaves -/

@[simp] theorem countTag_mem (d : Dev) (cls tag : Nat) (st : Status) :
    (countTag d cls tag st).mem = d.mem := core_mem (countTag_core d cls tag st)
@[simp] theorem countTag_poison (d : Dev) (cls tag : Nat) (st : Status) :
    (countTag d cls tag st).poison = d.poison := core_poison (countTag_core d cls tag st)
@[simp] theorem countTag_cells (d : Dev) (cls tag : Nat) (st : Status) :
    (countTag d cls tag st).cells = d.cells := core_cells (countTag_core d cls tag st)
@[simp] theorem countTag_far (d : Dev) (cls tag : Nat) (st : Status) :
    (countTag d cls tag st).far = d.far := core_far (countTag_core d cls tag st)
@[simp] theorem countTag_map (d : Dev) (cls tag : Nat) (st : Status) :
    (countTag d cls tag st).map = d.map := core_map (countTag_core d cls tag st)
@[simp] theorem countTag_probing (d : Dev) (cls tag : Nat) (st : Status) :
    (countTag d cls tag st).probing = d.probing := core_probing (countTag_core d cls tag st)
@[simp] theorem countTag_ports (d : Dev) (cls tag : Nat) (st : Status) :
    (countTag d cls tag st).ports = d.ports := core_ports (countTag_core d cls tag st)
@[simp] theorem countTag_flows (d : Dev) (cls tag : Nat) (st : Status) :
    (countTag d cls tag st).flows = d.flows := core_flows (countTag_core d cls tag st)
@[simp] theorem countTag_rids (d : Dev) (cls tag : Nat) (st : Status) :
    (countTag d cls tag st).rids = d.rids := core_rids (countTag_core d cls tag st)
@[simp] theorem countTag_inbox (d : Dev) (cls tag : Nat) (st : Status) :
    (countTag d cls tag st).inbox = d.inbox := core_inbox (countTag_core d cls tag st)
@[simp] theorem countTag_toRoute (d : Dev) (cls tag : Nat) (st : Status) :
    (countTag d cls tag st).toRoute = d.toRoute := core_toRoute (countTag_core d cls tag st)
@[simp] theorem countTag_reqWait (d : Dev) (cls tag : Nat) (st : Status) :
    (countTag d cls tag st).reqWait = d.reqWait := core_reqWait (countTag_core d cls tag st)
@[simp] theorem countTag_rings (d : Dev) (cls tag : Nat) (st : Status) :
    (countTag d cls tag st).rings = d.rings := core_rings (countTag_core d cls tag st)
@[simp] theorem countTag_latchNo (d : Dev) (cls tag : Nat) (st : Status) :
    (countTag d cls tag st).latchNo = d.latchNo := core_latchNo (countTag_core d cls tag st)
@[simp] theorem countTag_tide (d : Dev) (cls tag : Nat) (st : Status) :
    (countTag d cls tag st).tide = d.tide := core_tide (countTag_core d cls tag st)
@[simp] theorem countTag_pat (d : Dev) (cls tag : Nat) (st : Status) :
    (countTag d cls tag st).pat = d.pat := core_pat (countTag_core d cls tag st)
@[simp] theorem countTag_clv (d : Dev) (cls tag : Nat) (st : Status) :
    (countTag d cls tag st).clv = d.clv := core_clv (countTag_core d cls tag st)
@[simp] theorem countTag_meshOff (d : Dev) (cls tag : Nat) (st : Status) :
    (countTag d cls tag st).meshOff = d.meshOff := core_meshOff (countTag_core d cls tag st)
@[simp] theorem countTag_frozen (d : Dev) (cls tag : Nat) (st : Status) :
    (countTag d cls tag st).frozen = d.frozen := core_frozen (countTag_core d cls tag st)
@[simp] theorem countTag_rgnUp (d : Dev) (cls tag : Nat) (st : Status) :
    (countTag d cls tag st).rgnUp = d.rgnUp := core_rgnUp (countTag_core d cls tag st)
@[simp] theorem countTag_ceWin (d : Dev) (cls tag : Nat) (st : Status) :
    (countTag d cls tag st).ceWin = d.ceWin := core_ceWin (countTag_core d cls tag st)
@[simp] theorem countTag_tierPos (d : Dev) (cls tag : Nat) (st : Status) :
    (countTag d cls tag st).tierPos = d.tierPos := core_tierPos (countTag_core d cls tag st)
@[simp] theorem countTag_hbmList (d : Dev) (cls tag : Nat) (st : Status) :
    (countTag d cls tag st).hbmList = d.hbmList := core_hbmList (countTag_core d cls tag st)
@[simp] theorem countTag_ddrList (d : Dev) (cls tag : Nat) (st : Status) :
    (countTag d cls tag st).ddrList = d.ddrList := core_ddrList (countTag_core d cls tag st)
@[simp] theorem countTag_gaugeq (d : Dev) (cls tag : Nat) (st : Status) :
    (countTag d cls tag st).gaugeq = d.gaugeq := core_gaugeq (countTag_core d cls tag st)
@[simp] theorem countTag_slc (d : Dev) (cls tag : Nat) (st : Status) :
    (countTag d cls tag st).slc = d.slc := core_slc (countTag_core d cls tag st)
@[simp] theorem countTag_pwr (d : Dev) (cls tag : Nat) (st : Status) :
    (countTag d cls tag st).pwr = d.pwr := core_pwr (countTag_core d cls tag st)
@[simp] theorem countTag_thm (d : Dev) (cls tag : Nat) (st : Status) :
    (countTag d cls tag st).thm = d.thm := core_thm (countTag_core d cls tag st)
@[simp] theorem countTag_kpr (d : Dev) (cls tag : Nat) (st : Status) :
    (countTag d cls tag st).kpr = d.kpr := core_kpr (countTag_core d cls tag st)
@[simp] theorem countTag_levees (d : Dev) (cls tag : Nat) (st : Status) :
    (countTag d cls tag st).levees = d.levees := core_levees (countTag_core d cls tag st)
@[simp] theorem countTag_sec (d : Dev) (cls tag : Nat) (st : Status) :
    (countTag d cls tag st).sec = d.sec := core_sec (countTag_core d cls tag st)
@[simp] theorem countTag_tap (d : Dev) (cls tag : Nat) (st : Status) :
    (countTag d cls tag st).tap = d.tap := core_tap (countTag_core d cls tag st)
@[simp] theorem countTag_now (d : Dev) (cls tag : Nat) (st : Status) :
    (countTag d cls tag st).now = d.now := core_now (countTag_core d cls tag st)
@[simp] theorem countTag_free (d : Dev) (cls tag : Nat) (st : Status) :
    (countTag d cls tag st).free = d.free := core_free (countTag_core d cls tag st)

/-! ## What signalMsix leaves -/

@[simp] theorem signalMsix_mem (d : Dev) (p n : Nat) :
    (signalMsix d p n).mem = d.mem := core_mem (signalMsix_core d p n)
@[simp] theorem signalMsix_poison (d : Dev) (p n : Nat) :
    (signalMsix d p n).poison = d.poison := core_poison (signalMsix_core d p n)
@[simp] theorem signalMsix_cells (d : Dev) (p n : Nat) :
    (signalMsix d p n).cells = d.cells := core_cells (signalMsix_core d p n)
@[simp] theorem signalMsix_far (d : Dev) (p n : Nat) :
    (signalMsix d p n).far = d.far := core_far (signalMsix_core d p n)
@[simp] theorem signalMsix_map (d : Dev) (p n : Nat) :
    (signalMsix d p n).map = d.map := core_map (signalMsix_core d p n)
@[simp] theorem signalMsix_probing (d : Dev) (p n : Nat) :
    (signalMsix d p n).probing = d.probing := core_probing (signalMsix_core d p n)
@[simp] theorem signalMsix_ports (d : Dev) (p n : Nat) :
    (signalMsix d p n).ports = d.ports := core_ports (signalMsix_core d p n)
@[simp] theorem signalMsix_flows (d : Dev) (p n : Nat) :
    (signalMsix d p n).flows = d.flows := core_flows (signalMsix_core d p n)
@[simp] theorem signalMsix_rids (d : Dev) (p n : Nat) :
    (signalMsix d p n).rids = d.rids := core_rids (signalMsix_core d p n)
@[simp] theorem signalMsix_inbox (d : Dev) (p n : Nat) :
    (signalMsix d p n).inbox = d.inbox := core_inbox (signalMsix_core d p n)
@[simp] theorem signalMsix_toRoute (d : Dev) (p n : Nat) :
    (signalMsix d p n).toRoute = d.toRoute := core_toRoute (signalMsix_core d p n)
@[simp] theorem signalMsix_reqWait (d : Dev) (p n : Nat) :
    (signalMsix d p n).reqWait = d.reqWait := core_reqWait (signalMsix_core d p n)
@[simp] theorem signalMsix_rings (d : Dev) (p n : Nat) :
    (signalMsix d p n).rings = d.rings := core_rings (signalMsix_core d p n)
@[simp] theorem signalMsix_latchNo (d : Dev) (p n : Nat) :
    (signalMsix d p n).latchNo = d.latchNo := core_latchNo (signalMsix_core d p n)
@[simp] theorem signalMsix_tide (d : Dev) (p n : Nat) :
    (signalMsix d p n).tide = d.tide := core_tide (signalMsix_core d p n)
@[simp] theorem signalMsix_pat (d : Dev) (p n : Nat) :
    (signalMsix d p n).pat = d.pat := core_pat (signalMsix_core d p n)
@[simp] theorem signalMsix_clv (d : Dev) (p n : Nat) :
    (signalMsix d p n).clv = d.clv := core_clv (signalMsix_core d p n)
@[simp] theorem signalMsix_meshOff (d : Dev) (p n : Nat) :
    (signalMsix d p n).meshOff = d.meshOff := core_meshOff (signalMsix_core d p n)
@[simp] theorem signalMsix_frozen (d : Dev) (p n : Nat) :
    (signalMsix d p n).frozen = d.frozen := core_frozen (signalMsix_core d p n)
@[simp] theorem signalMsix_rgnUp (d : Dev) (p n : Nat) :
    (signalMsix d p n).rgnUp = d.rgnUp := core_rgnUp (signalMsix_core d p n)
@[simp] theorem signalMsix_ceWin (d : Dev) (p n : Nat) :
    (signalMsix d p n).ceWin = d.ceWin := core_ceWin (signalMsix_core d p n)
@[simp] theorem signalMsix_tierPos (d : Dev) (p n : Nat) :
    (signalMsix d p n).tierPos = d.tierPos := core_tierPos (signalMsix_core d p n)
@[simp] theorem signalMsix_hbmList (d : Dev) (p n : Nat) :
    (signalMsix d p n).hbmList = d.hbmList := core_hbmList (signalMsix_core d p n)
@[simp] theorem signalMsix_ddrList (d : Dev) (p n : Nat) :
    (signalMsix d p n).ddrList = d.ddrList := core_ddrList (signalMsix_core d p n)
@[simp] theorem signalMsix_gaugeq (d : Dev) (p n : Nat) :
    (signalMsix d p n).gaugeq = d.gaugeq := core_gaugeq (signalMsix_core d p n)
@[simp] theorem signalMsix_slc (d : Dev) (p n : Nat) :
    (signalMsix d p n).slc = d.slc := core_slc (signalMsix_core d p n)
@[simp] theorem signalMsix_pwr (d : Dev) (p n : Nat) :
    (signalMsix d p n).pwr = d.pwr := core_pwr (signalMsix_core d p n)
@[simp] theorem signalMsix_thm (d : Dev) (p n : Nat) :
    (signalMsix d p n).thm = d.thm := core_thm (signalMsix_core d p n)
@[simp] theorem signalMsix_kpr (d : Dev) (p n : Nat) :
    (signalMsix d p n).kpr = d.kpr := core_kpr (signalMsix_core d p n)
@[simp] theorem signalMsix_levees (d : Dev) (p n : Nat) :
    (signalMsix d p n).levees = d.levees := core_levees (signalMsix_core d p n)
@[simp] theorem signalMsix_sec (d : Dev) (p n : Nat) :
    (signalMsix d p n).sec = d.sec := core_sec (signalMsix_core d p n)
@[simp] theorem signalMsix_tap (d : Dev) (p n : Nat) :
    (signalMsix d p n).tap = d.tap := core_tap (signalMsix_core d p n)
@[simp] theorem signalMsix_now (d : Dev) (p n : Nat) :
    (signalMsix d p n).now = d.now := core_now (signalMsix_core d p n)
@[simp] theorem signalMsix_free (d : Dev) (p n : Nat) :
    (signalMsix d p n).free = d.free := core_free (signalMsix_core d p n)

/-! ## What raiseEvent leaves -/

@[simp] theorem raiseEvent_mem (d : Dev) (p n : Nat) :
    (raiseEvent d p n).mem = d.mem := core_mem (raiseEvent_core d p n)
@[simp] theorem raiseEvent_poison (d : Dev) (p n : Nat) :
    (raiseEvent d p n).poison = d.poison := core_poison (raiseEvent_core d p n)
@[simp] theorem raiseEvent_cells (d : Dev) (p n : Nat) :
    (raiseEvent d p n).cells = d.cells := core_cells (raiseEvent_core d p n)
@[simp] theorem raiseEvent_far (d : Dev) (p n : Nat) :
    (raiseEvent d p n).far = d.far := core_far (raiseEvent_core d p n)
@[simp] theorem raiseEvent_map (d : Dev) (p n : Nat) :
    (raiseEvent d p n).map = d.map := core_map (raiseEvent_core d p n)
@[simp] theorem raiseEvent_probing (d : Dev) (p n : Nat) :
    (raiseEvent d p n).probing = d.probing := core_probing (raiseEvent_core d p n)
@[simp] theorem raiseEvent_ports (d : Dev) (p n : Nat) :
    (raiseEvent d p n).ports = d.ports := core_ports (raiseEvent_core d p n)
@[simp] theorem raiseEvent_flows (d : Dev) (p n : Nat) :
    (raiseEvent d p n).flows = d.flows := core_flows (raiseEvent_core d p n)
@[simp] theorem raiseEvent_rids (d : Dev) (p n : Nat) :
    (raiseEvent d p n).rids = d.rids := core_rids (raiseEvent_core d p n)
@[simp] theorem raiseEvent_inbox (d : Dev) (p n : Nat) :
    (raiseEvent d p n).inbox = d.inbox := core_inbox (raiseEvent_core d p n)
@[simp] theorem raiseEvent_toRoute (d : Dev) (p n : Nat) :
    (raiseEvent d p n).toRoute = d.toRoute := core_toRoute (raiseEvent_core d p n)
@[simp] theorem raiseEvent_reqWait (d : Dev) (p n : Nat) :
    (raiseEvent d p n).reqWait = d.reqWait := core_reqWait (raiseEvent_core d p n)
@[simp] theorem raiseEvent_rings (d : Dev) (p n : Nat) :
    (raiseEvent d p n).rings = d.rings := core_rings (raiseEvent_core d p n)
@[simp] theorem raiseEvent_latchNo (d : Dev) (p n : Nat) :
    (raiseEvent d p n).latchNo = d.latchNo := core_latchNo (raiseEvent_core d p n)
@[simp] theorem raiseEvent_tide (d : Dev) (p n : Nat) :
    (raiseEvent d p n).tide = d.tide := core_tide (raiseEvent_core d p n)
@[simp] theorem raiseEvent_pat (d : Dev) (p n : Nat) :
    (raiseEvent d p n).pat = d.pat := core_pat (raiseEvent_core d p n)
@[simp] theorem raiseEvent_clv (d : Dev) (p n : Nat) :
    (raiseEvent d p n).clv = d.clv := core_clv (raiseEvent_core d p n)
@[simp] theorem raiseEvent_meshOff (d : Dev) (p n : Nat) :
    (raiseEvent d p n).meshOff = d.meshOff := core_meshOff (raiseEvent_core d p n)
@[simp] theorem raiseEvent_frozen (d : Dev) (p n : Nat) :
    (raiseEvent d p n).frozen = d.frozen := core_frozen (raiseEvent_core d p n)
@[simp] theorem raiseEvent_rgnUp (d : Dev) (p n : Nat) :
    (raiseEvent d p n).rgnUp = d.rgnUp := core_rgnUp (raiseEvent_core d p n)
@[simp] theorem raiseEvent_ceWin (d : Dev) (p n : Nat) :
    (raiseEvent d p n).ceWin = d.ceWin := core_ceWin (raiseEvent_core d p n)
@[simp] theorem raiseEvent_tierPos (d : Dev) (p n : Nat) :
    (raiseEvent d p n).tierPos = d.tierPos := core_tierPos (raiseEvent_core d p n)
@[simp] theorem raiseEvent_hbmList (d : Dev) (p n : Nat) :
    (raiseEvent d p n).hbmList = d.hbmList := core_hbmList (raiseEvent_core d p n)
@[simp] theorem raiseEvent_ddrList (d : Dev) (p n : Nat) :
    (raiseEvent d p n).ddrList = d.ddrList := core_ddrList (raiseEvent_core d p n)
@[simp] theorem raiseEvent_gaugeq (d : Dev) (p n : Nat) :
    (raiseEvent d p n).gaugeq = d.gaugeq := core_gaugeq (raiseEvent_core d p n)
@[simp] theorem raiseEvent_slc (d : Dev) (p n : Nat) :
    (raiseEvent d p n).slc = d.slc := core_slc (raiseEvent_core d p n)
@[simp] theorem raiseEvent_pwr (d : Dev) (p n : Nat) :
    (raiseEvent d p n).pwr = d.pwr := core_pwr (raiseEvent_core d p n)
@[simp] theorem raiseEvent_thm (d : Dev) (p n : Nat) :
    (raiseEvent d p n).thm = d.thm := core_thm (raiseEvent_core d p n)
@[simp] theorem raiseEvent_kpr (d : Dev) (p n : Nat) :
    (raiseEvent d p n).kpr = d.kpr := core_kpr (raiseEvent_core d p n)
@[simp] theorem raiseEvent_levees (d : Dev) (p n : Nat) :
    (raiseEvent d p n).levees = d.levees := core_levees (raiseEvent_core d p n)
@[simp] theorem raiseEvent_sec (d : Dev) (p n : Nat) :
    (raiseEvent d p n).sec = d.sec := core_sec (raiseEvent_core d p n)
@[simp] theorem raiseEvent_tap (d : Dev) (p n : Nat) :
    (raiseEvent d p n).tap = d.tap := core_tap (raiseEvent_core d p n)
@[simp] theorem raiseEvent_now (d : Dev) (p n : Nat) :
    (raiseEvent d p n).now = d.now := core_now (raiseEvent_core d p n)
@[simp] theorem raiseEvent_free (d : Dev) (p n : Nat) :
    (raiseEvent d p n).free = d.free := core_free (raiseEvent_core d p n)

/-! ## What raiseBoth leaves -/

@[simp] theorem raiseBoth_mem (d : Dev) (n : Nat) :
    (raiseBoth d n).mem = d.mem := core_mem (raiseBoth_core d n)
@[simp] theorem raiseBoth_poison (d : Dev) (n : Nat) :
    (raiseBoth d n).poison = d.poison := core_poison (raiseBoth_core d n)
@[simp] theorem raiseBoth_cells (d : Dev) (n : Nat) :
    (raiseBoth d n).cells = d.cells := core_cells (raiseBoth_core d n)
@[simp] theorem raiseBoth_far (d : Dev) (n : Nat) :
    (raiseBoth d n).far = d.far := core_far (raiseBoth_core d n)
@[simp] theorem raiseBoth_map (d : Dev) (n : Nat) :
    (raiseBoth d n).map = d.map := core_map (raiseBoth_core d n)
@[simp] theorem raiseBoth_probing (d : Dev) (n : Nat) :
    (raiseBoth d n).probing = d.probing := core_probing (raiseBoth_core d n)
@[simp] theorem raiseBoth_ports (d : Dev) (n : Nat) :
    (raiseBoth d n).ports = d.ports := core_ports (raiseBoth_core d n)
@[simp] theorem raiseBoth_flows (d : Dev) (n : Nat) :
    (raiseBoth d n).flows = d.flows := core_flows (raiseBoth_core d n)
@[simp] theorem raiseBoth_rids (d : Dev) (n : Nat) :
    (raiseBoth d n).rids = d.rids := core_rids (raiseBoth_core d n)
@[simp] theorem raiseBoth_inbox (d : Dev) (n : Nat) :
    (raiseBoth d n).inbox = d.inbox := core_inbox (raiseBoth_core d n)
@[simp] theorem raiseBoth_toRoute (d : Dev) (n : Nat) :
    (raiseBoth d n).toRoute = d.toRoute := core_toRoute (raiseBoth_core d n)
@[simp] theorem raiseBoth_reqWait (d : Dev) (n : Nat) :
    (raiseBoth d n).reqWait = d.reqWait := core_reqWait (raiseBoth_core d n)
@[simp] theorem raiseBoth_rings (d : Dev) (n : Nat) :
    (raiseBoth d n).rings = d.rings := core_rings (raiseBoth_core d n)
@[simp] theorem raiseBoth_latchNo (d : Dev) (n : Nat) :
    (raiseBoth d n).latchNo = d.latchNo := core_latchNo (raiseBoth_core d n)
@[simp] theorem raiseBoth_tide (d : Dev) (n : Nat) :
    (raiseBoth d n).tide = d.tide := core_tide (raiseBoth_core d n)
@[simp] theorem raiseBoth_pat (d : Dev) (n : Nat) :
    (raiseBoth d n).pat = d.pat := core_pat (raiseBoth_core d n)
@[simp] theorem raiseBoth_clv (d : Dev) (n : Nat) :
    (raiseBoth d n).clv = d.clv := core_clv (raiseBoth_core d n)
@[simp] theorem raiseBoth_meshOff (d : Dev) (n : Nat) :
    (raiseBoth d n).meshOff = d.meshOff := core_meshOff (raiseBoth_core d n)
@[simp] theorem raiseBoth_frozen (d : Dev) (n : Nat) :
    (raiseBoth d n).frozen = d.frozen := core_frozen (raiseBoth_core d n)
@[simp] theorem raiseBoth_rgnUp (d : Dev) (n : Nat) :
    (raiseBoth d n).rgnUp = d.rgnUp := core_rgnUp (raiseBoth_core d n)
@[simp] theorem raiseBoth_ceWin (d : Dev) (n : Nat) :
    (raiseBoth d n).ceWin = d.ceWin := core_ceWin (raiseBoth_core d n)
@[simp] theorem raiseBoth_tierPos (d : Dev) (n : Nat) :
    (raiseBoth d n).tierPos = d.tierPos := core_tierPos (raiseBoth_core d n)
@[simp] theorem raiseBoth_hbmList (d : Dev) (n : Nat) :
    (raiseBoth d n).hbmList = d.hbmList := core_hbmList (raiseBoth_core d n)
@[simp] theorem raiseBoth_ddrList (d : Dev) (n : Nat) :
    (raiseBoth d n).ddrList = d.ddrList := core_ddrList (raiseBoth_core d n)
@[simp] theorem raiseBoth_gaugeq (d : Dev) (n : Nat) :
    (raiseBoth d n).gaugeq = d.gaugeq := core_gaugeq (raiseBoth_core d n)
@[simp] theorem raiseBoth_slc (d : Dev) (n : Nat) :
    (raiseBoth d n).slc = d.slc := core_slc (raiseBoth_core d n)
@[simp] theorem raiseBoth_pwr (d : Dev) (n : Nat) :
    (raiseBoth d n).pwr = d.pwr := core_pwr (raiseBoth_core d n)
@[simp] theorem raiseBoth_thm (d : Dev) (n : Nat) :
    (raiseBoth d n).thm = d.thm := core_thm (raiseBoth_core d n)
@[simp] theorem raiseBoth_kpr (d : Dev) (n : Nat) :
    (raiseBoth d n).kpr = d.kpr := core_kpr (raiseBoth_core d n)
@[simp] theorem raiseBoth_levees (d : Dev) (n : Nat) :
    (raiseBoth d n).levees = d.levees := core_levees (raiseBoth_core d n)
@[simp] theorem raiseBoth_sec (d : Dev) (n : Nat) :
    (raiseBoth d n).sec = d.sec := core_sec (raiseBoth_core d n)
@[simp] theorem raiseBoth_tap (d : Dev) (n : Nat) :
    (raiseBoth d n).tap = d.tap := core_tap (raiseBoth_core d n)
@[simp] theorem raiseBoth_now (d : Dev) (n : Nat) :
    (raiseBoth d n).now = d.now := core_now (raiseBoth_core d n)
@[simp] theorem raiseBoth_free (d : Dev) (n : Nat) :
    (raiseBoth d n).free = d.free := core_free (raiseBoth_core d n)

/-! ## What addFault leaves -/

@[simp] theorem addFault_mem (d : Dev) (typ : Nat) (st : Status) (flags uclass unit tag cause det0 det1 : Nat) (pl : List Byte) :
    (addFault d typ st flags uclass unit tag cause det0 det1 pl).mem = d.mem := core_mem (addFault_core d typ st flags uclass unit tag cause det0 det1 pl)
@[simp] theorem addFault_poison (d : Dev) (typ : Nat) (st : Status) (flags uclass unit tag cause det0 det1 : Nat) (pl : List Byte) :
    (addFault d typ st flags uclass unit tag cause det0 det1 pl).poison = d.poison := core_poison (addFault_core d typ st flags uclass unit tag cause det0 det1 pl)
@[simp] theorem addFault_cells (d : Dev) (typ : Nat) (st : Status) (flags uclass unit tag cause det0 det1 : Nat) (pl : List Byte) :
    (addFault d typ st flags uclass unit tag cause det0 det1 pl).cells = d.cells := core_cells (addFault_core d typ st flags uclass unit tag cause det0 det1 pl)
@[simp] theorem addFault_far (d : Dev) (typ : Nat) (st : Status) (flags uclass unit tag cause det0 det1 : Nat) (pl : List Byte) :
    (addFault d typ st flags uclass unit tag cause det0 det1 pl).far = d.far := core_far (addFault_core d typ st flags uclass unit tag cause det0 det1 pl)
@[simp] theorem addFault_map (d : Dev) (typ : Nat) (st : Status) (flags uclass unit tag cause det0 det1 : Nat) (pl : List Byte) :
    (addFault d typ st flags uclass unit tag cause det0 det1 pl).map = d.map := core_map (addFault_core d typ st flags uclass unit tag cause det0 det1 pl)
@[simp] theorem addFault_probing (d : Dev) (typ : Nat) (st : Status) (flags uclass unit tag cause det0 det1 : Nat) (pl : List Byte) :
    (addFault d typ st flags uclass unit tag cause det0 det1 pl).probing = d.probing := core_probing (addFault_core d typ st flags uclass unit tag cause det0 det1 pl)
@[simp] theorem addFault_ports (d : Dev) (typ : Nat) (st : Status) (flags uclass unit tag cause det0 det1 : Nat) (pl : List Byte) :
    (addFault d typ st flags uclass unit tag cause det0 det1 pl).ports = d.ports := core_ports (addFault_core d typ st flags uclass unit tag cause det0 det1 pl)
@[simp] theorem addFault_flows (d : Dev) (typ : Nat) (st : Status) (flags uclass unit tag cause det0 det1 : Nat) (pl : List Byte) :
    (addFault d typ st flags uclass unit tag cause det0 det1 pl).flows = d.flows := core_flows (addFault_core d typ st flags uclass unit tag cause det0 det1 pl)
@[simp] theorem addFault_rids (d : Dev) (typ : Nat) (st : Status) (flags uclass unit tag cause det0 det1 : Nat) (pl : List Byte) :
    (addFault d typ st flags uclass unit tag cause det0 det1 pl).rids = d.rids := core_rids (addFault_core d typ st flags uclass unit tag cause det0 det1 pl)
@[simp] theorem addFault_inbox (d : Dev) (typ : Nat) (st : Status) (flags uclass unit tag cause det0 det1 : Nat) (pl : List Byte) :
    (addFault d typ st flags uclass unit tag cause det0 det1 pl).inbox = d.inbox := core_inbox (addFault_core d typ st flags uclass unit tag cause det0 det1 pl)
@[simp] theorem addFault_toRoute (d : Dev) (typ : Nat) (st : Status) (flags uclass unit tag cause det0 det1 : Nat) (pl : List Byte) :
    (addFault d typ st flags uclass unit tag cause det0 det1 pl).toRoute = d.toRoute := core_toRoute (addFault_core d typ st flags uclass unit tag cause det0 det1 pl)
@[simp] theorem addFault_reqWait (d : Dev) (typ : Nat) (st : Status) (flags uclass unit tag cause det0 det1 : Nat) (pl : List Byte) :
    (addFault d typ st flags uclass unit tag cause det0 det1 pl).reqWait = d.reqWait := core_reqWait (addFault_core d typ st flags uclass unit tag cause det0 det1 pl)
@[simp] theorem addFault_rings (d : Dev) (typ : Nat) (st : Status) (flags uclass unit tag cause det0 det1 : Nat) (pl : List Byte) :
    (addFault d typ st flags uclass unit tag cause det0 det1 pl).rings = d.rings := core_rings (addFault_core d typ st flags uclass unit tag cause det0 det1 pl)
@[simp] theorem addFault_latchNo (d : Dev) (typ : Nat) (st : Status) (flags uclass unit tag cause det0 det1 : Nat) (pl : List Byte) :
    (addFault d typ st flags uclass unit tag cause det0 det1 pl).latchNo = d.latchNo := core_latchNo (addFault_core d typ st flags uclass unit tag cause det0 det1 pl)
@[simp] theorem addFault_tide (d : Dev) (typ : Nat) (st : Status) (flags uclass unit tag cause det0 det1 : Nat) (pl : List Byte) :
    (addFault d typ st flags uclass unit tag cause det0 det1 pl).tide = d.tide := core_tide (addFault_core d typ st flags uclass unit tag cause det0 det1 pl)
@[simp] theorem addFault_pat (d : Dev) (typ : Nat) (st : Status) (flags uclass unit tag cause det0 det1 : Nat) (pl : List Byte) :
    (addFault d typ st flags uclass unit tag cause det0 det1 pl).pat = d.pat := core_pat (addFault_core d typ st flags uclass unit tag cause det0 det1 pl)
@[simp] theorem addFault_clv (d : Dev) (typ : Nat) (st : Status) (flags uclass unit tag cause det0 det1 : Nat) (pl : List Byte) :
    (addFault d typ st flags uclass unit tag cause det0 det1 pl).clv = d.clv := core_clv (addFault_core d typ st flags uclass unit tag cause det0 det1 pl)
@[simp] theorem addFault_meshOff (d : Dev) (typ : Nat) (st : Status) (flags uclass unit tag cause det0 det1 : Nat) (pl : List Byte) :
    (addFault d typ st flags uclass unit tag cause det0 det1 pl).meshOff = d.meshOff := core_meshOff (addFault_core d typ st flags uclass unit tag cause det0 det1 pl)
@[simp] theorem addFault_frozen (d : Dev) (typ : Nat) (st : Status) (flags uclass unit tag cause det0 det1 : Nat) (pl : List Byte) :
    (addFault d typ st flags uclass unit tag cause det0 det1 pl).frozen = d.frozen := core_frozen (addFault_core d typ st flags uclass unit tag cause det0 det1 pl)
@[simp] theorem addFault_rgnUp (d : Dev) (typ : Nat) (st : Status) (flags uclass unit tag cause det0 det1 : Nat) (pl : List Byte) :
    (addFault d typ st flags uclass unit tag cause det0 det1 pl).rgnUp = d.rgnUp := core_rgnUp (addFault_core d typ st flags uclass unit tag cause det0 det1 pl)
@[simp] theorem addFault_ceWin (d : Dev) (typ : Nat) (st : Status) (flags uclass unit tag cause det0 det1 : Nat) (pl : List Byte) :
    (addFault d typ st flags uclass unit tag cause det0 det1 pl).ceWin = d.ceWin := core_ceWin (addFault_core d typ st flags uclass unit tag cause det0 det1 pl)
@[simp] theorem addFault_tierPos (d : Dev) (typ : Nat) (st : Status) (flags uclass unit tag cause det0 det1 : Nat) (pl : List Byte) :
    (addFault d typ st flags uclass unit tag cause det0 det1 pl).tierPos = d.tierPos := core_tierPos (addFault_core d typ st flags uclass unit tag cause det0 det1 pl)
@[simp] theorem addFault_hbmList (d : Dev) (typ : Nat) (st : Status) (flags uclass unit tag cause det0 det1 : Nat) (pl : List Byte) :
    (addFault d typ st flags uclass unit tag cause det0 det1 pl).hbmList = d.hbmList := core_hbmList (addFault_core d typ st flags uclass unit tag cause det0 det1 pl)
@[simp] theorem addFault_ddrList (d : Dev) (typ : Nat) (st : Status) (flags uclass unit tag cause det0 det1 : Nat) (pl : List Byte) :
    (addFault d typ st flags uclass unit tag cause det0 det1 pl).ddrList = d.ddrList := core_ddrList (addFault_core d typ st flags uclass unit tag cause det0 det1 pl)
@[simp] theorem addFault_gaugeq (d : Dev) (typ : Nat) (st : Status) (flags uclass unit tag cause det0 det1 : Nat) (pl : List Byte) :
    (addFault d typ st flags uclass unit tag cause det0 det1 pl).gaugeq = d.gaugeq := core_gaugeq (addFault_core d typ st flags uclass unit tag cause det0 det1 pl)
@[simp] theorem addFault_slc (d : Dev) (typ : Nat) (st : Status) (flags uclass unit tag cause det0 det1 : Nat) (pl : List Byte) :
    (addFault d typ st flags uclass unit tag cause det0 det1 pl).slc = d.slc := core_slc (addFault_core d typ st flags uclass unit tag cause det0 det1 pl)
@[simp] theorem addFault_pwr (d : Dev) (typ : Nat) (st : Status) (flags uclass unit tag cause det0 det1 : Nat) (pl : List Byte) :
    (addFault d typ st flags uclass unit tag cause det0 det1 pl).pwr = d.pwr := core_pwr (addFault_core d typ st flags uclass unit tag cause det0 det1 pl)
@[simp] theorem addFault_thm (d : Dev) (typ : Nat) (st : Status) (flags uclass unit tag cause det0 det1 : Nat) (pl : List Byte) :
    (addFault d typ st flags uclass unit tag cause det0 det1 pl).thm = d.thm := core_thm (addFault_core d typ st flags uclass unit tag cause det0 det1 pl)
@[simp] theorem addFault_kpr (d : Dev) (typ : Nat) (st : Status) (flags uclass unit tag cause det0 det1 : Nat) (pl : List Byte) :
    (addFault d typ st flags uclass unit tag cause det0 det1 pl).kpr = d.kpr := core_kpr (addFault_core d typ st flags uclass unit tag cause det0 det1 pl)
@[simp] theorem addFault_levees (d : Dev) (typ : Nat) (st : Status) (flags uclass unit tag cause det0 det1 : Nat) (pl : List Byte) :
    (addFault d typ st flags uclass unit tag cause det0 det1 pl).levees = d.levees := core_levees (addFault_core d typ st flags uclass unit tag cause det0 det1 pl)
@[simp] theorem addFault_sec (d : Dev) (typ : Nat) (st : Status) (flags uclass unit tag cause det0 det1 : Nat) (pl : List Byte) :
    (addFault d typ st flags uclass unit tag cause det0 det1 pl).sec = d.sec := core_sec (addFault_core d typ st flags uclass unit tag cause det0 det1 pl)
@[simp] theorem addFault_tap (d : Dev) (typ : Nat) (st : Status) (flags uclass unit tag cause det0 det1 : Nat) (pl : List Byte) :
    (addFault d typ st flags uclass unit tag cause det0 det1 pl).tap = d.tap := core_tap (addFault_core d typ st flags uclass unit tag cause det0 det1 pl)
@[simp] theorem addFault_now (d : Dev) (typ : Nat) (st : Status) (flags uclass unit tag cause det0 det1 : Nat) (pl : List Byte) :
    (addFault d typ st flags uclass unit tag cause det0 det1 pl).now = d.now := core_now (addFault_core d typ st flags uclass unit tag cause det0 det1 pl)
@[simp] theorem addFault_free (d : Dev) (typ : Nat) (st : Status) (flags uclass unit tag cause det0 det1 : Nat) (pl : List Byte) :
    (addFault d typ st flags uclass unit tag cause det0 det1 pl).free = d.free := core_free (addFault_core d typ st flags uclass unit tag cause det0 det1 pl)

end Sys2Proof.Machine
end

