-- ==== Sys2Proof/Laws/Cells.lean ====
section
/-! SUPPORT. Laws of waits, arrivals and gauges: what they change and what they leave. -/
namespace Sys2Proof.Machine

/-! ## Waits that an update satisfies (R54) -/

/-- One thread's part of `latchWaits`. -/
theorem latchWaits_keeps {α : Type} (get : Cell → α) (h : ∀ x t th, get (setTh x t th) = get x) (x : Cell) (r : GaugeRef) :
    get (latchWaits x r) = get x := by
  unfold latchWaits
  refine foldl_keeps get _ (fun x t => ?_) _ _
  simp only
  split_ifs
  · exact h _ _ _
  · rfl

@[simp] theorem latchWaits_gauges (x : Cell) (r : GaugeRef) : (latchWaits x r).gauges = x.gauges :=
  latchWaits_keeps Cell.gauges (fun _ _ _ => rfl) x r

@[simp] theorem latchWaits_patchView (x : Cell) (r : GaugeRef) : (latchWaits x r).patchView = x.patchView :=
  latchWaits_keeps Cell.patchView (fun _ _ _ => rfl) x r

/-- A register bit changes no cell. -/
@[simp] theorem getCell_rsetBit (d : Dev) (o n : Nat) (b : Bool) (k : Nat) : getCell (rsetBit d o n b) k = getCell d k := (rfl)

/-! ## Updates of a cell gauge (R52, R53) -/

/-- The gauge takes the combined value. -/
theorem applyCellGauge_value (d : Dev) (c : Nat) (g : Fin 64) (us : List GaugeUpd) (h : us ≠ []) :
    cellGauge (getCell (applyCellGauge d c g us) c) g =
      (combineGauge (cellGauge (getCell d c) g) us).1 % 2 ^ 64 := by
  have h1 : us.isEmpty = false := by simpa using h
  unfold applyCellGauge
  simp only [h1, Bool.false_eq_true, if_false]
  split_ifs <;> simp [cellGauge]

/-- No other cell changes. -/
theorem applyCellGauge_others (d : Dev) (c : Nat) (g : Fin 64) (us : List GaugeUpd) {k : Nat} (h : k ≠ c) :
    getCell (applyCellGauge d c g us) k = getCell d k := by
  unfold applyCellGauge
  simp only
  split_ifs <;> simp [getCell_setCell, h]

/-- No memory changes. -/
@[simp] theorem applyCellGauge_mem (d : Dev) (c : Nat) (g : Fin 64) (us : List GaugeUpd) : (applyCellGauge d c g us).mem = d.mem := by
  unfold applyCellGauge
  simp only
  split_ifs <;> simp

/-- No register changes but the cell's CEL_GAUGE_SAT and CEL_GAUGE_CONFLICT. -/
theorem applyCellGauge_rget (d : Dev) (c : Nat) (g : Fin 64) (us : List GaugeUpd) {o : Nat} (h1 : o ≠ CEL_GAUGE_SAT c)
    (h2 : o ≠ CEL_GAUGE_CONFLICT c) : rget (applyCellGauge d c g us) o = rget d o := by
  have e1 : ∀ (d : Dev) b, rget (rsetBit d (CEL_GAUGE_SAT c) g b) o = rget d o := fun d b => rget_fset_ne d ⟨_, _, _⟩ _ h1
  have e2 : ∀ (d : Dev) b, rget (rsetBit d (CEL_GAUGE_CONFLICT c) g b) o = rget d o := fun d b => rget_fset_ne d ⟨_, _, _⟩ _ h2
  have e3 : ∀ (d : Dev) x, rget (setCell d c x) o = rget d o := fun _ _ => rfl
  unfold applyCellGauge
  simp only
  split_ifs <;> simp only [e1, e2, e3]

/-! ## Arrival (R233, R234) -/

@[simp] theorem sendSide_regs (d : Dev) (p : Nat) (b : MsgBody) (vc : Nat) : (sendSide d p b vc).regs = d.regs := (rfl)
@[simp] theorem sendSide_cells (d : Dev) (p : Nat) (b : MsgBody) (vc : Nat) : (sendSide d p b vc).cells = d.cells := (rfl)
@[simp] theorem sendSide_mem (d : Dev) (p : Nat) (b : MsgBody) (vc : Nat) : (sendSide d p b vc).mem = d.mem := (rfl)

/-- An arrival touches no cell. -/
@[simp] theorem tryArrive_cells (d : Dev) : (tryArrive d).cells = d.cells := by
  unfold tryArrive
  simp only
  split_ifs <;> simp

/-- An arrival touches no memory. -/
@[simp] theorem tryArrive_mem (d : Dev) : (tryArrive d).mem = d.mem := by
  unfold tryArrive
  simp only
  split_ifs <;> simp

theorem rget_tide (d : Dev) (t : TideState) (o : Nat) : rget { d with tide := t } o = rget d o := (rfl)

/-- An arrival changes no register but TID_STATUS. -/
theorem tryArrive_rget (d : Dev) {o : Nat} (h : o ≠ TID_STATUS) : rget (tryArrive d) o = rget d o := by
  have h' : o ≠ TID_STATUS_ARRIVED.off := h
  have hs : ∀ (d : Dev) p b vc, rget (sendSide d p b vc) o = rget d o := fun _ _ _ _ => rfl
  unfold tryArrive
  simp only
  split_ifs <;> simp only [rget_tide, hs, rget_fset_ne _ _ _ h']

end Sys2Proof.Machine
end

