-- ==== Sys2Proof/Laws/Runs.lean ====
section
/-! SUPPORT. How a statement that a command runs follows from what its meaning does to the device. -/
namespace Sys2Proof.Machine

/-- A command whose meaning is `run` completes; what holds of the device after its operation holds of the next state. -/
theorem runs_of {i : Instr} {s : State} {P : Dev → Prop} (f : Dev → Dev) (h : exec i s = run s f) (hp : P (f s.dev)) : Runs i s P :=
  ⟨f s.dev, h, hp⟩

/-- The device of the next state is the one that the operation gives. -/
theorem runs_iff {i : Instr} {s : State} {P : Dev → Prop} (f : Dev → Dev) (h : exec i s = run s f) : Runs i s P ↔ P (f s.dev) := by
  constructor
  · rintro ⟨d, hd, hp⟩
    rw [h] at hd
    simp only [run, Host.Outcome.next.injEq, State.mk.injEq, true_and] at hd
    exact hd ▸ hp
  · exact runs_of f h

/-- Memory that has the same list of bytes reads the same. -/
theorem memSame_of {d d' : Dev} (h : d'.mem = d.mem) : MemSame d d' := fun a => by simp [rdByte, h]

/-- A register file that has the same list of contents reads the same. -/
theorem regsBut_of {d d' : Dev} (os : List Nat) (h : d'.regs = d.regs) : RegsBut os d d' := fun o _ => by simp [rget, h]

/-- Cells that are the same list are the same. -/
theorem cellsBut_of {d d' : Dev} (c : Nat) (h : d'.cells = d.cells) : CellsBut c d d' := fun k _ => by simp [getCell, h]

end Sys2Proof.Machine
end

