-- ==== Sys2Proof/Tests/Slice0.lean ====
section
/-! SUPPORT. Tests: every check of WellFormed refuses an ill-formed command; a few values that the manual gives; and for each statement a state and
operands that meet its hypotheses. -/
open Sys2Proof Sys2Proof.Machine

/-! ## WellFormed refuses -/

/-- Table 22-3: a word both corrected and uncorrectable. -/
theorem test_wf_ecc : WellFormed (.stitchIssue 0 ⟨[64], [64]⟩) = false ∧ WellFormed (.stitchIssue 0 ⟨[64], [0]⟩) = true := by decide
/-- R159, R160: channels 0 to 191 of HBM, 0 to 7 of DDR. -/
theorem test_wf_chan : WellFormed (.ceWindowExpire false 192) = false ∧ WellFormed (.ceWindowExpire true 8) = false ∧
    WellFormed (.ceWindowExpire false 191) = true ∧ WellFormed (.ceWindowExpire true 7) = true := by decide
/-- R241: 64-bit times. -/
theorem test_wf_time : WellFormed (.hbmTempRead 0 (2 ^ 64)) = false ∧ WellFormed (.hbmTempRead 0 (2 ^ 64 - 1)) = true := by decide
/-- R358: 64 regions. -/
theorem test_wf_energy : WellFormed (.tideEdge ⟨List.replicate 63 0, 0, 0, 0⟩) = false ∧
    WellFormed (.tideEdge ⟨List.replicate 64 0, 0, 0, 0⟩) = true := by decide
/-- 16-bit ranks. -/
theorem test_wf_node : WellFormed (.clvAckSend 0 65536) = false ∧ WellFormed (.clvAckSend 0 65535) = true := by decide
/-- R301: entries of 64 bytes. -/
theorem test_wf_len : WellFormed (.sluiceWrite 0 [0]) = false ∧ WellFormed (.sluiceWrite 0 (List.replicate 64 0)) = true := by decide
/-- A descriptor of 64 bytes (R329), or none. -/
theorem test_wf_opt : WellFormed (.descriptorFetch 0 (some [1]) ⟨[], []⟩ []) = false ∧
    WellFormed (.descriptorFetch 0 none ⟨[], []⟩ []) = true := by decide
/-- Bytes of other devices, each address once. -/
theorem test_wf_keys : WellFormed (.patLoadDone none [(4, 1), (4, 2)] ⟨[], []⟩) = false ∧
    WellFormed (.patLoadDone none [(4, 1), (5, 2)] ⟨[], []⟩) = true := by decide
/-- R316: 4 or 8 bytes, aligned, within BAR0. -/
theorem test_wf_access : WellFormed (.registerWrite none 4 8 0) = false ∧ WellFormed (.registerWrite none 0 2 0) = false ∧
    WellFormed (.registerWrite none (2 ^ 26) 8 0) = false ∧ WellFormed (.registerWrite none (2 ^ 26 - 8) 8 0) = true := by decide
/-- Table 22-1: the targets of a scope. -/
theorem test_wf_scope : WellFormed (.leveeRaise 0 4096) = false ∧ WellFormed (.leveeRaise 9 0) = false ∧
    WellFormed (.leveeRaise 0 4095) = true := by decide
/-- Table 13-2: 16-bit numbers, at most 15 units. -/
theorem test_wf_flit : WellFormed (.flitReceive 0 ⟨65536, 0, false, false, 0, [], [], true⟩) = false ∧
    WellFormed (.flitReceive 0 ⟨0, 0, true, false, 16, [], [], true⟩) = false ∧
    WellFormed (.flitReceive 0 ⟨65535, 0, true, false, 15, [], [], true⟩) = true := by decide
/-- R371: twelve readings of 64 regions. -/
theorem test_wf_samples : WellFormed (.thermalSample [] 0) = false ∧
    WellFormed (.thermalSample (List.replicate 64 ⟨List.replicate 11 none, 0⟩) 0) = false ∧
    WellFormed (.thermalSample (List.replicate 64 ⟨List.replicate 12 none, 0⟩) 0) = true := by decide
/-- A package record of the tests. -/
def test_prec : PkgRec :=
  ⟨0, 0, [], true, false, 0, 0, 0, 0, 0, 0, false, [], [], [1, 2, 3], [], []⟩
/-- Table 2-4: three reserves, and regions that exist. -/
theorem test_wf_prec : WellFormed (.keeperStart (some { test_prec with reserves := [] }) none 0) = false ∧
    WellFormed (.keeperStart (some { test_prec with faulty := [(64, 0, 0)] }) none 0) = false ∧
    WellFormed (.keeperStart (some test_prec) none 0) = true := by decide
/-- R311: rates 1 to 6 and widths up to 8. -/
theorem test_wf_link : WellFormed (.pcieLinkUp 0 7 8 0) = false ∧ WellFormed (.pcieLinkUp 0 6 3 0) = false ∧
    WellFormed (.pcieLinkUp 0 6 8 0) = true := by decide
/-- Numbers of bytes, lanes and bundles out of range. -/
theorem test_wf_ranges : WellFormed (.bar2Read 0 false 0 0 ⟨[], []⟩) = false ∧ WellFormed (.bar2Write 0 false 0 [] false) = false ∧
    WellFormed (.ingestWindowWrite 0 false 0x80000 [0]) = false ∧ WellFormed (.gatherLaneReturn 0 1024) = false ∧
    WellFormed (.verticalBeatError 0 54 true) = false ∧ WellFormed (.patchGaugeUpdate 1 0 0) = false ∧
    WellFormed (.getCertificate 0 0 65536 0) = false ∧ WellFormed (.challenge 0 0 []) = false ∧
    WellFormed (.msiXTableWrite 0 0 (2 ^ 64) 0 false) = false ∧ WellFormed (.portUp 0 0 12) = false := by decide

/-! ## Values the manual gives -/

/-- The table gives no row bits, so no word spells a command. -/
theorem test_no_word : decodeTableWord 16 0x4303 = none := by decide
/-- The idle block (log entry 1). -/
theorem test_idle : step State.reset = .next State.reset := rfl
end

section
/-! PROOFS. Gauges: updates that meet in one cycle take effect together (R52), and a gauge saturates (R53). -/
namespace Sys2Proof.Machine

/-! ## One update: a set, or an add and its amount -/

/-- Whether an update is a set. -/
def GaugeUpd.isSet (u : GaugeUpd) : Bool :=
  match u.op with
  | .add _ => false
  | .set _ => true

/-- What an update adds: the amount of an add, nothing for a set. -/
def GaugeUpd.addend (u : GaugeUpd) : Nat :=
  match u.op with
  | .add n => n
  | .set _ => 0

theorem GaugeUpd.isSet_of_add {u : GaugeUpd} {n : Nat} (h : u.op = .add n) : u.isSet = false := by simp [isSet, h]

theorem GaugeUpd.isSet_of_set {u : GaugeUpd} {v : Nat} (h : u.op = .set v) : u.isSet = true := by simp [isSet, h]

theorem GaugeUpd.addend_of_add {u : GaugeUpd} {n : Nat} (h : u.op = .add n) : u.addend = n := by simp [addend, h]

theorem GaugeUpd.addend_of_set {u : GaugeUpd} {v : Nat} (h : u.op = .set v) : u.addend = 0 := by simp [addend, h]

theorem GaugeUpd.isSet_iff (u : GaugeUpd) : u.isSet = true ↔ ∃ v, u.op = .set v := by
  cases h : u.op with
  | add n => simp [isSet_of_add h]
  | set v => simp [isSet_of_set h]

/-! ## The order of sources (R52) -/

/-- Among updates of one cell of one device the source alone decides the order. -/
theorem updKey_le_iff_sourceRank_le {u w : GaugeUpd} (hc : u.cell = w.cell) (hn : u.node = w.node) :
    updKey u ≤ updKey w ↔ sourceRank u.src ≤ sourceRank w.src := by
  simp only [updKey, hc, hn]
  omega

/-- Host, collective, DMA, stitch. -/
theorem sourceRank_order : sourceRank .host < sourceRank .collective ∧ sourceRank .collective < sourceRank .dma ∧
    ∀ t : ThreadId, sourceRank .dma < sourceRank (.stitch t) := by
  refine ⟨by decide, by decide, fun t => ?_⟩
  simp only [sourceRank]
  omega

/-- Between two stitches, the lower thread stands higher. -/
theorem sourceRank_stitch_lt {t u : ThreadId} (h : t < u) : sourceRank (.stitch t) < sourceRank (.stitch u) :=
  Nat.add_lt_add_left h 4

/-! ## The set that takes effect -/

theorem winningSet_cons_add {u : GaugeUpd} {n : Nat} (h : u.op = .add n) (us : List GaugeUpd) :
    winningSet (u :: us) = winningSet us := by
  simp [winningSet, h]

theorem winningSet_cons_set_none {u : GaugeUpd} {v : Nat} (h : u.op = .set v) {us : List GaugeUpd}
    (ht : winningSet us = none) : winningSet (u :: us) = some u := by
  simp [winningSet, h, ht]

theorem winningSet_cons_set_some {u w : GaugeUpd} {v : Nat} (h : u.op = .set v) {us : List GaugeUpd}
    (ht : winningSet us = some w) : winningSet (u :: us) = if updKey w < updKey u then some w else some u := by
  simp [winningSet, h, ht]

/-- No set takes effect exactly when there is none. -/
theorem winningSet_eq_none_iff (us : List GaugeUpd) : winningSet us = none ↔ ∀ u ∈ us, u.isSet = false := by
  induction us with
  | nil => simp [winningSet]
  | cons u us ih =>
    cases h : u.op with
    | add n => simp [winningSet_cons_add h, ih, GaugeUpd.isSet_of_add h]
    | set v =>
      cases ht : winningSet us with
      | none => simp [winningSet_cons_set_none h ht, GaugeUpd.isSet_of_set h]
      | some w =>
        rw [winningSet_cons_set_some h ht]
        split_ifs <;> simp [GaugeUpd.isSet_of_set h]

/-- The set that takes effect is one of the updates, and no set has a lower key. -/
theorem winningSet_least {us : List GaugeUpd} {w : GaugeUpd} (h : winningSet us = some w) :
    w ∈ us ∧ w.isSet = true ∧ ∀ u ∈ us, u.isSet = true → updKey w ≤ updKey u := by
  induction us generalizing w with
  | nil => simp [winningSet] at h
  | cons u us ih =>
    cases hu : u.op with
    | add n =>
      rw [winningSet_cons_add hu] at h
      obtain ⟨hmem, hset, hmin⟩ := ih h
      refine ⟨List.mem_cons_of_mem _ hmem, hset, List.forall_mem_cons.2 ⟨fun hc => ?_, hmin⟩⟩
      simp [GaugeUpd.isSet_of_add hu] at hc
    | set v =>
      have hus := GaugeUpd.isSet_of_set hu
      cases ht : winningSet us with
      | none =>
        have hnone := (winningSet_eq_none_iff us).1 ht
        obtain rfl : u = w := by simpa [winningSet_cons_set_none hu ht] using h
        refine ⟨List.mem_cons_self, hus, List.forall_mem_cons.2 ⟨fun _ => le_rfl, fun x hx hxs => ?_⟩⟩
        simp [hnone x hx] at hxs
      | some w' =>
        obtain ⟨hmem, hset, hmin⟩ := ih ht
        rw [winningSet_cons_set_some hu ht] at h
        split_ifs at h with hlt <;> obtain rfl := Option.some.inj h
        · exact ⟨List.mem_cons_of_mem _ hmem, hset, List.forall_mem_cons.2 ⟨fun _ => hlt.le, hmin⟩⟩
        · exact ⟨List.mem_cons_self, hus, List.forall_mem_cons.2
            ⟨fun _ => le_rfl, fun x hx hxs => (not_lt.1 hlt).trans (hmin x hx hxs)⟩⟩

/-- A set whose source stands above every other set's is the one that takes effect, among updates of one cell of one device. -/
theorem winningSet_eq_of_highest {us : List GaugeUpd} {w : GaugeUpd} {c n v : Nat} (hone : ∀ u ∈ us, u.cell = c ∧ u.node = n)
    (hmem : w ∈ us) (hop : w.op = .set v)
    (htop : ∀ u ∈ us, ∀ x, u.op = .set x → u = w ∨ sourceRank w.src < sourceRank u.src) : winningSet us = some w := by
  have hset := GaugeUpd.isSet_of_set hop
  cases h : winningSet us with
  | none => simp [(winningSet_eq_none_iff us).1 h w hmem] at hset
  | some w' =>
    obtain ⟨hmem', hset', hmin⟩ := winningSet_least h
    obtain ⟨v', hop'⟩ := w'.isSet_iff.1 hset'
    have hle : sourceRank w'.src ≤ sourceRank w.src :=
      (updKey_le_iff_sourceRank_le ((hone w' hmem').1.trans (hone w hmem).1.symm)
        ((hone w' hmem').2.trans (hone w hmem).2.symm)).1 (hmin w hmem hset)
    rcases htop w' hmem' v' hop' with rfl | hlt
    · rfl
    · omega

/-! ## The adds and the sets among updates -/

theorem addSum_eq_sum_addend (us : List GaugeUpd) : addSum us = (us.map GaugeUpd.addend).sum := by
  have hstep : addSum us = us.foldl (fun n u => n + u.addend) 0 := by
    refine List.foldl_ext _ _ _ (fun n u _ => ?_)
    cases h : u.op with
    | add k => simp [GaugeUpd.addend_of_add h]
    | set v => simp [GaugeUpd.addend_of_set h]
  rw [hstep, List.sum_eq_foldl, List.foldl_map]

theorem setCount_eq_countP (us : List GaugeUpd) : setCount us = us.countP GaugeUpd.isSet := by
  rw [List.countP_eq_length_filter]
  refine congrArg List.length (List.filter_congr fun u _ => ?_)
  cases h : u.op with
  | add n => simp [GaugeUpd.isSet_of_add h]
  | set v => simp [GaugeUpd.isSet_of_set h]

/-- Sets at two places count as two. -/
theorem two_le_setCount {us : List GaugeUpd} {w x : GaugeUpd} {i j : Nat} (hi : us[i]? = some w) (hj : us[j]? = some x)
    (hij : i < j) (hw : w.isSet = true) (hx : x.isSet = true) : 2 ≤ setCount us := by
  have hfront : w ∈ us.take j := List.mem_of_getElem? (i := i) (by rw [List.getElem?_take_of_lt hij, hi])
  have hback : x ∈ us.drop j := List.mem_of_getElem? (i := 0) (by rw [List.getElem?_drop, Nat.add_zero, hj])
  have h1 : 0 < (us.take j).countP GaugeUpd.isSet := List.countP_pos_iff.2 ⟨w, hfront, hw⟩
  have h2 : 0 < (us.drop j).countP GaugeUpd.isSet := List.countP_pos_iff.2 ⟨x, hback, hx⟩
  rw [setCount_eq_countP, ← List.take_append_drop j us, List.countP_append]
  omega

/-! ## The combined value, and when it saturates or conflicts -/

theorem combineGauge_value_of_adds {us : List GaugeUpd} (h : winningSet us = none) (old : Nat) :
    (combineGauge old us).1 = min (old + addSum us) (2 ^ 64 - 1) := by
  simp [combineGauge, h]

theorem combineGauge_value_of_set {us : List GaugeUpd} {w : GaugeUpd} {v : Nat} (h : winningSet us = some w)
    (hop : w.op = .set v) (old : Nat) : (combineGauge old us).1 = min (v + addSum us) (2 ^ 64 - 1) := by
  obtain ⟨patch, gauge, src, cell, node, op⟩ := w
  subst hop
  simp [combineGauge, h]

theorem combineGauge_saturates_of_adds {us : List GaugeUpd} (h : winningSet us = none) (old : Nat) :
    (combineGauge old us).2.1 = decide (2 ^ 64 - 1 < old + addSum us) := by
  simp [combineGauge, h]

theorem combineGauge_conflict (old : Nat) (us : List GaugeUpd) : (combineGauge old us).2.2 = decide (2 ≤ setCount us) := rfl

/-- The combined value fits a gauge. -/
theorem combineGauge_value_lt (old : Nat) (us : List GaugeUpd) : (combineGauge old us).1 < 2 ^ 64 := by
  simp only [combineGauge]
  omega

/-! ## A bit of a map register -/

/-- A bit that has been written reads as what was written. -/
theorem rbit_rsetBit_same (d : Dev) (o : Nat) {n : Nat} (hn : n < 64) (b : Bool) : rbit (rsetBit d o n b) o n = b := by
  simp only [rbit, rsetBit, fset, rget_rset_same]
  rw [setBits_testBit _ _ _ _ _ (by omega)]
  cases b <;> simp

/-- The bits of another register are unchanged. -/
theorem rbit_rsetBit_ne (d : Dev) {o o' : Nat} (h : o' ≠ o) (n k : Nat) (b : Bool) : rbit (rsetBit d o n b) o' k = rbit d o' k := by
  simp only [rbit, rsetBit, rget_fset_ne d ⟨o, n, 1⟩ _ h]

/-! ## Updates that reach a cell gauge -/

theorem cellGauge_lt (x : Cell) (g : Nat) : cellGauge x g < 2 ^ 64 := BitVec.isLt _

/-- The gauge takes the combined value, which needs no wrap. -/
theorem applyCellGauge_eq_combineGauge (d : Dev) (c : Nat) (g : Fin 64) {us : List GaugeUpd} (h : us ≠ []) :
    cellGauge (getCell (applyCellGauge d c g us) c) g = (combineGauge (cellGauge (getCell d c) g) us).1 := by
  rw [applyCellGauge_value d c g us h, Nat.mod_eq_of_lt (combineGauge_value_lt _ _)]

/-- Updates that conflict set the gauge's bit in CEL_GAUGE_CONFLICT. -/
theorem applyCellGauge_conflict_bit (d : Dev) (c : Nat) (g : Fin 64) {us : List GaugeUpd} (h : us ≠ [])
    (hconf : (combineGauge (cellGauge (getCell d c) g) us).2.2 = true) :
    rbit (applyCellGauge d c g us) (CEL_GAUGE_CONFLICT c) g = true := by
  simp only [applyCellGauge, List.isEmpty_eq_false_iff.2 h, hconf, Bool.false_eq_true, if_false, if_true]
  exact rbit_rsetBit_same _ _ g.isLt true

/-- Updates that saturate set the gauge's bit in CEL_GAUGE_SAT. -/
theorem applyCellGauge_sat_bit (d : Dev) (c : Nat) (g : Fin 64) {us : List GaugeUpd} (h : us ≠ [])
    (hsat : (combineGauge (cellGauge (getCell d c) g) us).2.1 = true) :
    rbit (applyCellGauge d c g us) (CEL_GAUGE_SAT c) g = true := by
  have hne : CEL_GAUGE_SAT c ≠ CEL_GAUGE_CONFLICT c := by simp [CEL_GAUGE_SAT, CEL_GAUGE_CONFLICT]
  simp only [applyCellGauge, List.isEmpty_eq_false_iff.2 h, hsat, Bool.false_eq_true, if_false, if_true]
  split_ifs
  · rw [rbit_rsetBit_ne _ hne, rbit_rsetBit_same _ _ g.isLt]
  · exact rbit_rsetBit_same _ _ g.isLt true

/-- Updates that neither saturate nor conflict leave the registers. -/
theorem applyCellGauge_regs_of_quiet (d : Dev) (c : Nat) (g : Fin 64) (us : List GaugeUpd)
    (hsat : (combineGauge (cellGauge (getCell d c) g) us).2.1 = false)
    (hconf : (combineGauge (cellGauge (getCell d c) g) us).2.2 = false) : (applyCellGauge d c g us).regs = d.regs := by
  simp only [applyCellGauge, hsat, hconf, Bool.false_eq_true, if_false]
  split_ifs <;> simp

/-- Updates that are all adds are added to what the gauge holds. -/
theorem applyCellGauge_of_adds (d : Dev) (c : Nat) (g : Fin 64) {us : List GaugeUpd} (h : us ≠ [])
    (hadd : winningSet us = none) :
    cellGauge (getCell (applyCellGauge d c g us) c) g = min (cellGauge (getCell d c) g + addSum us) (2 ^ 64 - 1) := by
  rw [applyCellGauge_eq_combineGauge d c g h, combineGauge_value_of_adds hadd]

/-- With a set that takes effect, the adds are added to its value. -/
theorem applyCellGauge_of_set (d : Dev) (c : Nat) (g : Fin 64) {us : List GaugeUpd} {w : GaugeUpd} {v : Nat}
    (hwin : winningSet us = some w) (hop : w.op = .set v) :
    cellGauge (getCell (applyCellGauge d c g us) c) g = min (v + addSum us) (2 ^ 64 - 1) := by
  rw [applyCellGauge_eq_combineGauge d c g (List.ne_nil_of_mem (winningSet_least hwin).1), combineGauge_value_of_set hwin hop]

/-- Sets at two places of the updates conflict, in whichever order the places are named. -/
theorem applyCellGauge_conflict_bit_of_two_sets (d : Dev) (c : Nat) (g : Fin 64) {us : List GaugeUpd} {w x : GaugeUpd} {i j : Nat}
    (hi : us[i]? = some w) (hj : us[j]? = some x) (hij : i ≠ j) (hw : w.isSet = true) (hx : x.isSet = true) :
    rbit (applyCellGauge d c g us) (CEL_GAUGE_CONFLICT c) g = true := by
  have htwo : 2 ≤ setCount us := by
    rcases Nat.lt_or_gt_of_ne hij with hlt | hgt
    · exact two_le_setCount hi hj hlt hw hx
    · exact two_le_setCount hj hi hgt hx hw
  exact applyCellGauge_conflict_bit d c g (List.ne_nil_of_mem (List.mem_of_getElem? hi))
    (by rw [combineGauge_conflict, decide_eq_true htwo])

/-- Settles O6: the winning set is the one of least key, which for one cell of one device is the one of highest source. -/
theorem gaugeUpdatesMeet : Obligations.GaugeUpdatesMeet := by
  intro d c g us hne hone after adds
  have hadds : adds = addSum us := (addSum_eq_sum_addend us).symm
  rw [hadds]
  refine ⟨fun hadd => ?_, fun w v hmem hop htop => ?_, fun w x i j hi hj hij hw hx => ?_,
    sourceRank_order.1, sourceRank_order.2.1, sourceRank_order.2.2, fun _ _ => sourceRank_stitch_lt⟩
  · have hnone : winningSet us = none := (winningSet_eq_none_iff us).2 fun u hu => (hadd u hu).elim fun _ => GaugeUpd.isSet_of_add
    exact applyCellGauge_of_adds d c g hne hnone
  · exact applyCellGauge_of_set d c g (winningSet_eq_of_highest hone hmem hop htop) hop
  · exact applyCellGauge_conflict_bit_of_two_sets d c g hi hj hij (w.isSet_iff.2 hw) (x.isSet_iff.2 hx)

/-- A stitch's set, an add of a DMA completion and the host's set, for gauge 5 of cell 0 of one device. -/
def meetingUpdates (d : Dev) : List GaugeUpd :=
  [⟨0, 5, .stitch 1, 0, nodeId d, .set 9⟩, ⟨0, 5, .dma, 0, nodeId d, .add 3⟩, ⟨0, 5, .host, 0, nodeId d, .set 7⟩]

/-- Updates that meet the hypotheses of `gaugeUpdatesMeet`: the host's 7 takes effect, not the 9 that stands first. -/
theorem gaugeUpdatesMeet_witness :
    cellGauge (getCell (applyCellGauge State.reset.dev 0 5 (meetingUpdates State.reset.dev)) 0) 5 = 10 ∧
    rbit (applyCellGauge State.reset.dev 0 5 (meetingUpdates State.reset.dev)) (CEL_GAUGE_CONFLICT 0) 5 = true := by
  obtain ⟨-, hset, hconf, -⟩ := gaugeUpdatesMeet State.reset.dev 0 5 (meetingUpdates State.reset.dev)
    (by simp [meetingUpdates]) (by simp [meetingUpdates])
  refine ⟨?_, hconf _ _ 0 2 rfl rfl (by decide) ⟨9, rfl⟩ ⟨7, rfl⟩⟩
  refine (hset ⟨0, 5, .host, 0, nodeId State.reset.dev, .set 7⟩ 7 (by simp [meetingUpdates]) rfl ?_).trans
    (by simp [meetingUpdates])
  simp [meetingUpdates, sourceRank]

/-! ## A lone add -/

section LoneAdd
variable {u : GaugeUpd} {n : Nat} (h : u.op = .add n)
include h

theorem winningSet_lone_add : winningSet [u] = none := winningSet_cons_add h []

theorem addSum_lone_add : addSum [u] = n := by simp [addSum_eq_sum_addend, GaugeUpd.addend_of_add h]

theorem setCount_lone_add : setCount [u] = 0 := by simp [setCount_eq_countP, GaugeUpd.isSet_of_add h]

theorem applyCellGauge_lone_add (d : Dev) (c : Nat) (g : Fin 64) :
    cellGauge (getCell (applyCellGauge d c g [u]) c) g = min (cellGauge (getCell d c) g + n) (2 ^ 64 - 1) := by
  rw [applyCellGauge_of_adds d c g (List.cons_ne_nil _ _) (winningSet_lone_add h), addSum_lone_add h]

/-- A lone add saturates exactly when the sum passes 2^64 − 1. -/
theorem combineGauge_saturates_lone_add (old : Nat) : (combineGauge old [u]).2.1 = decide (2 ^ 64 - 1 < old + n) := by
  rw [combineGauge_saturates_of_adds (winningSet_lone_add h), addSum_lone_add h]

/-- A lone add never conflicts. -/
theorem combineGauge_conflict_lone_add (old : Nat) : (combineGauge old [u]).2.2 = false := by
  simp [combineGauge_conflict, setCount_lone_add h]

end LoneAdd

/-- Settles O7: a lone add leaves the lesser of the sum and 2^64 − 1, and writes CEL_GAUGE_SAT only past it. -/
theorem gaugesSaturate : Obligations.GaugesSaturate := by
  intro d c g u n hop old d1
  have hvalue : cellGauge (getCell d1 c) g = min (old + n) (2 ^ 64 - 1) := applyCellGauge_lone_add hop d c g
  have hold : old < 2 ^ 64 := cellGauge_lt _ _
  refine ⟨fun hover => ⟨by omega, ?_⟩, fun hfit => ⟨by omega, fun k => ?_⟩, by omega⟩
  · exact applyCellGauge_sat_bit d c g (List.cons_ne_nil _ _)
      ((combineGauge_saturates_lone_add hop old).trans (decide_eq_true hover))
  · have hregs : d1.regs = d.regs := applyCellGauge_regs_of_quiet d c g [u]
      ((combineGauge_saturates_lone_add hop old).trans (decide_eq_false (not_lt.2 hfit))) (combineGauge_conflict_lone_add hop old)
    simp only [rbit, rget, hregs]

/-- An add that meets the hypothesis of R53's first case: on the reset state, an add of 2^64. -/
theorem gaugesSaturate_witness :
    cellGauge (getCell (applyCellGauge State.reset.dev 0 5 [⟨0, 5, .dma, 0, 0, .add (2 ^ 64)⟩]) 0) 5 = 2 ^ 64 - 1 ∧
    rbit (applyCellGauge State.reset.dev 0 5 [⟨0, 5, .dma, 0, 0, .add (2 ^ 64)⟩]) (CEL_GAUGE_SAT 0) 5 = true :=
  (gaugesSaturate State.reset.dev 0 5 ⟨0, 5, .dma, 0, 0, .add (2 ^ 64)⟩ (2 ^ 64) rfl).1
    (Nat.lt_of_lt_of_le (by decide) (Nat.le_add_left _ _))

end Sys2Proof.Machine
end

section
/-! PROOF. The canonical form of memory, poison marks and registers is kept by every operation of the model. The maps are written at a few places only
(`rset`, `wrByte`, `setGran` and the resets that drop keys); every other operation is put together from those, and its lemma follows its definition:
`h.fset.raiseBoth` is the proof for `raiseBoth (fset d f v) n` where `h` is the one for `d`. -/
namespace Sys2Proof.Machine
namespace Dev.Canonical

variable {d d' : Dev} {α β : Type}

/-- A device that takes its registers, memory and poison marks from canonical devices is canonical, whatever else it holds. -/
theorem mix {d₁ d₂ d₃ : Dev} (h₁ : d₁.Canonical) (h₂ : d₂.Canonical) (h₃ : d₃.Canonical) {cells far map probing ports flows rids inbox toRoute
    reqWait pcie rings latchNo tide pat clv meshOff frozen rgnUp ceWin tierPos hbmList ddrList gaugeq slc pwr thm kpr levees sec tap trace flog
    flogSeq flogEnd now free out} :
    Dev.Canonical ⟨d₁.regs, d₂.mem, d₃.poison, cells, far, map, probing, ports, flows, rids, inbox, toRoute, reqWait, pcie, rings, latchNo, tide, pat,
      clv, meshOff, frozen, rgnUp, ceWin, tierPos, hbmList, ddrList, gaugeq, slc, pwr, thm, kpr, levees, sec, tap, trace, flog, flogSeq, flogEnd,
      now, free, out⟩ := ⟨h₂.mem, h₁.regs, h₃.poison⟩

/-- An update of a device that leaves its registers, memory and poison marks. -/
theorem update (h : d.Canonical) {cells far map probing ports flows rids inbox toRoute
    reqWait pcie rings latchNo tide pat clv meshOff frozen rgnUp ceWin tierPos hbmList ddrList gaugeq slc pwr thm kpr levees sec tap trace flog
    flogSeq flogEnd now free out} :
    Dev.Canonical ⟨d.regs, d.mem, d.poison, cells, far, map, probing, ports, flows, rids, inbox, toRoute, reqWait, pcie, rings, latchNo, tide, pat,
      clv, meshOff, frozen, rgnUp, ceWin, tierPos, hbmList, ddrList, gaugeq, slc, pwr, thm, kpr, levees, sec, tap, trace, flog, flogSeq, flogEnd,
      now, free, out⟩ := mix h h h

theorem ite {p : Prop} [Decidable p] {a b : Dev} (ha : a.Canonical) (hb : b.Canonical) : (if p then a else b).Canonical := by
  split_ifs <;> assumption

theorem ite_fst {p : Prop} [Decidable p] {a b : Dev × α} (ha : a.1.Canonical) (hb : b.1.Canonical) : (if p then a else b).1.Canonical := by
  split_ifs <;> assumption

/-- A fold of operations that keep the canonical form. -/
theorem foldl (h : d.Canonical) {l : List β} {g : Dev → β → Dev} (hg : ∀ d b, d.Canonical → (g d b).Canonical) : (l.foldl g d).Canonical := by
  induction l generalizing d with
  | nil => exact h
  | cons b t ih => exact ih (hg d b h)

/-- A fold whose operations keep the canonical form of the device they pass on beside another value. -/
theorem foldl_fst {s : Dev × α} (h : s.1.Canonical) {l : List β} {g : Dev × α → β → Dev × α} (hg : ∀ s b, s.1.Canonical → (g s b).1.Canonical) :
    (l.foldl g s).1.Canonical := by
  induction l generalizing s with
  | nil => exact h
  | cons b t ih => exact ih (hg s b h)

/-- A fold over element flows. -/
theorem foldl_flow {s : EleFlow} (h : s.d.Canonical) {l : List β} {g : EleFlow → β → EleFlow} (hg : ∀ s b, s.d.Canonical → (g s b).d.Canonical) :
    (l.foldl g s).d.Canonical := by
  induction l generalizing s with
  | nil => exact h
  | cons b t ih => exact ih (hg s b h)

theorem of_eq {p : Dev × α} {x : α} (h : p.1.Canonical) (e : p = (d', x)) : d'.Canonical := by
  subst e; exact h

theorem of_pair_eq {p : Dev × α} {x : α} (e : p = (d', x)) (h : p.1.Canonical) : d'.Canonical := of_eq h e

theorem devReset : devReset.Canonical := ⟨smWf_nil _, smWf_nil _, smWf_nil _⟩

theorem rset (h : d.Canonical) {o v} : (rset d o v).Canonical := ⟨h.mem, smSet_wf h.regs _ _, h.poison⟩
theorem wipeRegs (h : d.Canonical) {p} : (wipeRegs d p).Canonical := ⟨h.mem, smKeep_wf h.regs (fun o => !p o), h.poison⟩
theorem wrByte (h : d.Canonical) {a b} : (wrByte d a b).Canonical := ⟨smSet_wf h.mem _ _, h.regs, h.poison⟩
theorem setGran (h : d.Canonical) {g b} : (setGran d g b).Canonical := ⟨h.mem, h.regs, smSet_wf h.poison _ _⟩
theorem wrBytes (h : d.Canonical) {a bs} : (wrBytes d a bs).Canonical := by
  induction bs generalizing d a with
  | nil => exact h
  | cons b t ih => exact ih h.wrByte
theorem resetRegs (h : d.Canonical) {p} : (resetRegs d p).Canonical :=
  foldl (d := { d with regs := smKeep (fun o => !p o) d.regs }) ⟨h.mem, smKeep_wf h.regs (fun o => !p o), h.poison⟩ fun _ _ h => h.rset

/-! ## Registers, memory, events and the fault log -/

theorem fset (h : d.Canonical) {f v} : (fset d f v).Canonical := h.rset
theorem fcount (h : d.Canonical) {f n} : (fcount d f n).Canonical := h.fset
theorem fwrap (h : d.Canonical) {f n} : (fwrap d f n).Canonical := h.fset
theorem fsub (h : d.Canonical) {f n} : (fsub d f n).Canonical := h.fset
theorem rsetBit (h : d.Canonical) {off n b} : (rsetBit d off n b).Canonical := h.fset
theorem setCell (h : d.Canonical) {c x} : (setCell d c x).Canonical := h.update
theorem modCell (h : d.Canonical) {c f} : (modCell d c f).Canonical := h.setCell
theorem modTh (h : d.Canonical) {c t f} : (modTh d c t f).Canonical := h.modCell
theorem modPort (h : d.Canonical) {p f} : (modPort d p f).Canonical := h.update
theorem modPcie (h : d.Canonical) {p f} : (modPcie d p f).Canonical := h.update
theorem modRing (h : d.Canonical) {k f} : (modRing d k f).Canonical := h.update
theorem storeNow (h : d.Canonical) {a bytes bad} : (storeNow d a bytes bad).Canonical :=
  h.wrBytes.foldl fun _ _ h1 => .ite h1.setGran (.ite h1.setGran h1)
theorem poisonRange (h : d.Canonical) {a n} : (poisonRange d a n).Canonical := h.foldl fun _ _ h1 => h1.setGran
theorem signalMsix (h : d.Canonical) {p n} : (signalMsix d p n).Canonical := .ite h (.ite h.modPcie h.update)
theorem raiseEvent (h : d.Canonical) {p n} : (raiseEvent d p n).Canonical := .ite h h.rsetBit.signalMsix
theorem raiseBoth (h : d.Canonical) {n} : (raiseBoth d n).Canonical := h.raiseEvent.raiseEvent
theorem emit (h : d.Canonical) {o} : (emit d o).Canonical := h.update
theorem tracePut (h : d.Canonical) {rec} : (tracePut d rec).Canonical := .ite h (.ite h.update.fset (.ite h.update.fset.fset.fset h.update.fset))
theorem traceEv (h : d.Canonical) {cls ev tag src sub st ext} : (traceEv d cls ev tag src sub st ext).Canonical :=
  .ite h (.ite h.tracePut.tracePut h.tracePut)
theorem countTag (h : d.Canonical) {cls tag st} : (countTag d cls tag st).Canonical :=
  h.foldl fun _ _ h1 => .ite (.ite h1.fcount h1.fcount.fcount) h1
theorem placeRec (h : d.Canonical) {r size} : (placeRec d r size).Canonical := h.update.fcount.fset.fset.fset.fset
theorem addFault (h : d.Canonical) {typ st flags uclass unit tag cause det0 det1 payload} :
    (addFault d typ st flags uclass unit tag cause det0 det1 payload).Canonical :=
  .traceEv (.raiseBoth (.placeRec (.ite h.placeRec h)))
theorem takeFree (h : d.Canonical) : (takeFree d).2.Canonical := h.update
theorem atTime (h : d.Canonical) {t} : (atTime d t).Canonical := h.update

/-! ## Memory of every kind -/

theorem storeHeld (h : d.Canonical) {a bytes bad who} : (storeHeld d a bytes bad who).1.Canonical := by
  unfold Machine.storeHeld
  split
  exacts [.ite_fst h.storeNow (h.foldl_fst (fun _ _ h1 => .ite_fst h1.setCell h1.storeNow)), h.storeNow]

theorem store (h : d.Canonical) {a bytes bad} : (store d a bytes bad).Canonical := h.storeHeld

theorem countBeats (h : d.Canonical) {a n write} : (countBeats d a n write).Canonical := by
  unfold Machine.countBeats
  dsimp only
  split
  exacts [.fwrap (.ite h.fwrap h.fwrap), .fwrap (.ite h.fwrap h.fwrap), h]

theorem tierReady (h : d.Canonical) : (tierReady d).Canonical := h.fset.fset.fset.fset
theorem countInService (h : d.Canonical) : (countInService d).Canonical := h.tierReady.fset.fset
theorem tgStop (h : d.Canonical) {busy result done} : (tgStop d busy result done).Canonical := .ite h.fset.fset.fset.raiseBoth h
theorem hbmSettle (h : d.Canonical) {ch} : (hbmSettle d ch).Canonical := .ite h (.countInService (.fset (.ite h.tgStop h)))
theorem ddrSettle (h : d.Canonical) {ch} : (ddrSettle d ch).Canonical := .ite h (.countInService (.fset (.ite h.tgStop h)))
theorem retireHbm (h : d.Canonical) {ch reason} : (retireHbm d ch reason).Canonical := .ite h h.fset.fset.tgStop.countInService.addFault
theorem retireDdr (h : d.Canonical) {ch reason} : (retireDdr d ch reason).Canonical := .ite h h.fset.fset.tgStop.countInService.addFault
theorem ueLimitHbm (h : d.Canonical) {ch} : (ueLimitHbm d ch).Canonical := .ite h.retireHbm h
theorem ueLimitDdr (h : d.Canonical) {ch} : (ueLimitDdr d ch).Canonical := .ite h.retireDdr h
theorem ceCount (h : d.Canonical) {k} : (ceCount d k).Canonical :=
  .ite (.ite h.update.fcount.retireHbm h.update.fcount) (.ite h.update.fcount.retireDdr h.update.fcount)

theorem eccRead (h : d.Canonical) {e a n} : (eccRead d e a n).Canonical := by
  unfold Machine.eccRead
  refine .foldl ?_ ?_
  · refine .foldl h ?_
    intro _ _ h1
    split
    exacts [h1.fcount, h1.fcount, h1.fcount, h1.ceCount, h1.ceCount, h1]
  · intro _ _ h1
    refine .ite h1 ?_
    split
    · exact h1.setGran.fcount.rset.fset.addFault
    · exact h1.setGran.fcount.rset.fset.addFault
    · exact h1.setGran.fcount.rset.fset.addFault
    · exact h1.setGran.fcount.rset.addFault.ueLimitHbm
    · exact h1.setGran.fcount.rset.addFault.ueLimitDdr
    · exact h1.setGran

/-! ## Gauges -/

theorem applyCellGauge (h : d.Canonical) {c g us} : (applyCellGauge d c g us).Canonical :=
  .ite h (.ite (.rsetBit (.ite h.setCell.rsetBit h.setCell)) (.ite h.setCell.rsetBit h.setCell))
theorem sendRequest (h : d.Canonical) {use dest addr bytes body vc} : (sendRequest d use dest addr bytes body vc).Canonical := .ite h.update h.update

theorem freeRid (h : d.Canonical) {rid} : (freeRid d rid).Canonical := by
  unfold Machine.freeRid
  dsimp only
  split <;> exact h.update

theorem sendPatchGauge (h : d.Canonical) {u} : (sendPatchGauge d u).Canonical := by
  unfold Machine.sendPatchGauge
  split
  exacts [h, .ite h.update h.sendRequest]

theorem updateGauge (h : d.Canonical) {c ref src op} : (updateGauge d c ref src op).Canonical := .ite h.applyCellGauge h.sendPatchGauge
theorem completeGauge (h : d.Canonical) {c k src} : (completeGauge d c k src).Canonical := h.updateGauge
theorem applyPatchGauge (h : d.Canonical) {patch gauge us} : (applyPatchGauge d patch gauge us).Canonical := h.update
theorem patchGaugeUpdate (h : d.Canonical) {patch gauge n} : (patchGaugeUpdate d patch gauge n).Canonical := .ite h h.update.applyPatchGauge

theorem patchGaugeArrival (h : d.Canonical) {c patch gauge remote} : (patchGaugeArrival d c patch gauge remote).Canonical := by
  unfold Machine.patchGaugeArrival
  refine .ite h ?_
  split
  exacts [h, h.modCell]

theorem gaugeWrite (h : d.Canonical) {c g v} : (gaugeWrite d c g v).Canonical := .ite h.updateGauge h

/-! ## Translation -/

theorem recordRefusal (h : d.Canonical) {a cause level req tag source} : (recordRefusal d a cause level req tag source).Canonical :=
  .ite h.fcount h.fcount.rset.rset
theorem countWalk (h : d.Canonical) : (countWalk d).Canonical := h.takeFree.fcount

theorem countDeny (h : d.Canonical) {a} : (countDeny d a).Canonical := by
  unfold Machine.countDeny
  split
  exacts [h.fcount, h.fcount, h.fcount, h]

theorem setLine (h : d.Canonical) {node a l} : (setLine d node a l).Canonical := h.update

theorem cohStore (h : d.Canonical) {a bytes bad} : (cohStore d a bytes bad).Canonical := by
  unfold Machine.cohStore
  dsimp only
  refine .ite h.store ?_
  refine .foldl h.store ?_
  intro _ _ h1
  split
  exacts [.ite h1.setLine h1, h1]

theorem writeBack (h : d.Canonical) {node line} : (writeBack d node line).Canonical := by
  unfold Machine.writeBack
  dsimp only
  split
  · exact h
  · refine .ite ?_ h.setLine
    refine .ite (h.setLine.foldl (fun _ _ h1 => h1.store)) ?_
    split
    exacts [h.setLine.fcount, h.setLine.fcount, h.setLine]

theorem agentStore (h : d.Canonical) {a bytes bad who} : (agentStore d a bytes bad who).1.Canonical := by
  unfold Machine.agentStore
  split
  exacts [h.storeHeld, h.cohStore.countBeats]

theorem agentLoad (h : d.Canonical) {e a n} : (agentLoad d e a n).1.Canonical := h.eccRead.countBeats

/-! ## Status words and flags -/

theorem chargeWith (h : d.Canonical) {c t st typ tag cause det0 det1} : (chargeWith d c t st typ tag cause det0 det1).Canonical :=
  .ite h.addFault (.ite h.addFault.modTh h.addFault.modTh)
theorem chargeFault (h : d.Canonical) {c t st tag} : (chargeFault d c t st tag).Canonical := h.chargeWith

theorem sendSide (h : d.Canonical) {p body vc} : (sendSide d p body vc).Canonical := by
  unfold Machine.sendSide
  exact h.modPort

theorem tryArrive (h : d.Canonical) : (tryArrive d).Canonical :=
  .ite h (.ite (.update (.sendSide (.ite h.fset.update h.fset))) (.ite h.fset.update h.fset))
theorem noteDone (h : d.Canonical) {c t tag st ext} : (noteDone d c t tag st ext).Canonical := h.traceEv.countTag
theorem closeCmd (h : d.Canonical) {c t} : (closeCmd d c t).Canonical := h.modTh

/-! ## Groups and collective messages -/

theorem postMsg (h : d.Canonical) {m} : (postMsg d m).Canonical := .ite h.update h.update
theorem sendRank (h : d.Canonical) {g l rank m} : (sendRank d g l rank m).Canonical := h.postMsg
theorem modChainHeard (h : d.Canonical) {g tag rank heard f} : (modChainHeard d g tag rank heard f).Canonical := h.update
theorem modChain (h : d.Canonical) {g tag rank f} : (modChain d g tag rank f).Canonical := h.modChainHeard

theorem ensureChain (h : d.Canonical) {g tag rank cell layout} : (ensureChain d g tag rank cell layout).Canonical := by
  unfold Machine.ensureChain
  split
  exacts [h, h.update]

theorem latchChain (h : d.Canonical) {g tag rank st} : (latchChain d g tag rank st).Canonical := by
  unfold Machine.latchChain
  split
  exacts [.ite h h.modChain.sendRank, h]

theorem chainSend (h : d.Canonical) {g tag rank} : (chainSend d g tag rank).Canonical := by
  unfold Machine.chainSend
  split
  · split
    exacts [.ite (.ite h.latchChain (.ite h.latchChain ((h.foldl (fun _ _ h1 => h1.sendRank)).modChain))) h, h]
  · exact h

theorem chainPost (h : d.Canonical) {g tag rank} : (chainPost d g tag rank).Canonical := by
  unfold Machine.chainPost
  split
  exacts [h.foldl (fun _ _ h1 => h1.sendRank), h]

theorem latchChains (h : d.Canonical) {cells st} : (latchChains d cells st).Canonical := h.foldl fun _ _ h1 => .ite h1.latchChain h1
theorem clvBusy (h : d.Canonical) : (clvBusy d).Canonical := h.fset

/-! ## Issue of stitches -/

theorem considerThread (h : d.Canonical) {c t} : (considerThread d c t).Canonical := by
  unfold Machine.considerThread
  dsimp only
  split
  exacts [h, h.chargeFault, h.setCell, h.modTh, h.setCell, h.setCell]

theorem breakAll (h : d.Canonical) : (breakAll d).Canonical := h.update
theorem bpHit (h : d.Canonical) {k n src sub tag} : (bpHit d k n src sub tag).Canonical :=
  .ite h.fcount.fset.fset.traceEv.fset h.fcount.fset.fset.traceEv
theorem bpCountAll (h : d.Canonical) {c s} : (bpCountAll d c s).Canonical := .ite (h.foldl (fun _ _ h1 => h1.fcount)) h
theorem bpStop (h : d.Canonical) {c t s hits} : (bpStop d c t s hits).Canonical :=
  .ite (((h.foldl (fun _ _ h1 => h1.bpHit)).modTh).breakAll) ((h.foldl (fun _ _ h1 => h1.bpHit)).modTh)
theorem actScalar (h : d.Canonical) {c t sw a} : (actScalar d c t sw a).Canonical := h.modTh
theorem noteLoad (h : d.Canonical) {c t reg n st} : (noteLoad d c t reg n st).Canonical := h.modCell
theorem farAsk (h : d.Canonical) {q} : (farAsk d q).Canonical := h.update
theorem loadBack (h : d.Canonical) {c t id place v st} : (loadBack d c t id place v st).Canonical := h.modTh

theorem memPart (h : d.Canonical) {e c t isStore id a v place n} : (memPart d e c t isStore id a v place n).1.Canonical := by
  unfold Machine.memPart
  dsimp only
  split
  · exact h
  · refine .ite_fst ?_ ?_
    · split
      · refine .ite_fst ?_ ?_ <;> dsimp only
        exacts [h.agentStore.modTh, h.agentLoad.loadBack]
      · exact h
    · exact .ite h.farAsk.modTh h.farAsk

theorem actMem (h : d.Canonical) {e c t sw m tag} : (actMem d e c t sw m tag).1.Canonical := by
  unfold Machine.actMem
  dsimp only
  split
  · exact h.countWalk.recordRefusal
  · exact .foldl_fst (.ite h.countWalk h.countWalk.noteLoad) fun _ _ h1 => .ite_fst h1.memPart h1

theorem actGen (h : d.Canonical) {c t sw first a} : (actGen d c t sw first a).Canonical := h.modTh
theorem noteIssue (h : d.Canonical) {c t tag ev ext} : (noteIssue d c t tag ev ext).Canonical := h.modTh.traceEv
theorem actMtx (h : d.Canonical) {c t sw tag m} : (actMtx d c t sw tag m).Canonical := h.modCell.noteIssue
theorem actEle (h : d.Canonical) {c t sw tag m} : (actEle d c t sw tag m).Canonical := .noteIssue (.ite h.modCell.modTh h.modCell)
theorem actDma (h : d.Canonical) {c t sw tag m} : (actDma d c t sw tag m).Canonical := h.modCell.noteIssue
theorem actGauges (h : d.Canonical) {c t sw us} : (actGauges d c t sw us).Canonical :=
  (h.foldl (fun _ _ h1 => h1.applyCellGauge)).foldl fun _ _ h1 => h1.sendPatchGauge

theorem actControl (h : d.Canonical) {start c t sw k tag} : (actControl d start c t sw k tag).Canonical := by
  unfold Machine.actControl
  dsimp only
  split
  · exact h.modTh
  · exact h.modTh
  · exact h.modTh.modTh
  · exact .ite h.chargeFault h.modTh
  · split
    exacts [h.chargeFault, h.modTh]
  · exact h.modTh
  · exact h.modTh.tryArrive
  · exact .ite h.modTh h.modTh.tryArrive

theorem issueStitch (h : d.Canonical) {e c t s} : (issueStitch d e c t s).Canonical := by
  unfold Machine.issueStitch
  extract_lets start sw first last d1 d2
  have h2 : d2.Canonical := by
    unfold d2
    split
    exacts [h.modCell.actScalar, h.modCell]
  split
  next d3 st e3 =>
  have h3 : d3.Canonical := by
    split at e3
    · exact .of_eq h2.actMem e3
    · exact .of_eq h2 e3
  extract_lets d4 d5 d6 d7 d8 d9 d10
  have h4 : d4.Canonical := h3.foldl fun _ _ h => h.actGen
  have h5 : d5.Canonical := by
    unfold d5
    split
    exacts [h4.actMtx, h4]
  have h6 : d6.Canonical := by
    unfold d6
    split
    exacts [h5.actEle, h5]
  have h7 : d7.Canonical := by
    unfold d7
    split
    exacts [h6.actDma, h6]
  have h9 : d9.Canonical := by
    unfold d9
    split
    exacts [h7.actGauges.modTh, h7.actGauges]
  have h10 : d10.Canonical := .ite h9.actControl h9
  exact .ite h10 h10.chargeFault

theorem stitchIssue (h : d.Canonical) {c e} : (stitchIssue d c e).Canonical := by
  unfold Machine.stitchIssue
  extract_lets d1 x
  have h1 : d1.Canonical := h.foldl fun _ _ h => h.considerThread
  refine .ite h ?_
  split
  exacts [h1, .ite h1.bpCountAll.issueStitch h1.bpStop]

theorem gaugeWaitSatisfied (h : d.Canonical) {c t} : (gaugeWaitSatisfied d c t).Canonical := .ite h.modTh.considerThread h

theorem scalarLoadReturn (h : d.Canonical) {c t id} : (scalarLoadReturn d c t id).Canonical := by
  unfold Machine.scalarLoadReturn
  dsimp only
  split
  · exact h
  · split
    exacts [h, h.takeFree.modTh, h.modTh.chargeFault]

theorem drainComplete (h : d.Canonical) {c t} : (drainComplete d c t).Canonical := .ite h.modTh.tryArrive h

theorem fenceRelPerformed (h : d.Canonical) {c t} : (fenceRelPerformed d c t).Canonical := by
  unfold Machine.fenceRelPerformed
  dsimp only
  split
  exacts [.ite h.modTh h, h]

theorem fenceAcqPerformed (h : d.Canonical) {c t} : (fenceAcqPerformed d c t).Canonical := by
  unfold Machine.fenceAcqPerformed
  split
  exacts [.ite h.modTh.update.fcount h.modTh, h]

/-! ## DMA commands -/

theorem modTag (h : d.Canonical) {c n f} : (modTag d c n f).Canonical := h.modCell
theorem failTag (h : d.Canonical) {c n st} : (failTag d c n st).Canonical := h.modTag
theorem openReq (h : d.Canonical) {c n} : (openReq d c n).Canonical := h.modTag
theorem targetCheck (h : d.Canonical) {c a n write req tag input} : (targetCheck d c a n write req tag input).1.Canonical :=
  .ite_fst h h.countDeny.recordRefusal

theorem dmaReadPiece (h : d.Canonical) {e c n t i k} : (dmaReadPiece d e c n t i k).Canonical := by
  unfold Machine.dmaReadPiece
  dsimp only
  split
  · exact h
  · refine .ite h ?_
    split
    · exact h.failTag
    · refine .ite h.farAsk.openReq ?_
      refine .ite h.sendRequest.openReq ?_
      split
      next e3 =>
        exact ((h.targetCheck.of_eq e3).agentLoad).modTag
      next e4 =>
        exact (h.targetCheck.of_eq e4).failTag

theorem dmaWritePiece (h : d.Canonical) {c n t i k} : (dmaWritePiece d c n t i k).Canonical := by
  unfold Machine.dmaWritePiece
  dsimp only
  split
  · exact h
  · refine .ite h ?_
    split
    · exact h.failTag
    · refine .ite h.farAsk.openReq ?_
      refine .ite h.sendRequest.openReq ?_
      split
      next e2 =>
        exact .ite ((h.targetCheck.of_eq e2).agentStore) (((h.targetCheck.of_eq e2).agentStore).modTag)
      next e3 =>
        exact (h.targetCheck.of_eq e3).failTag

theorem scrambleDst (h : d.Canonical) {c t} : (scrambleDst d c t).Canonical := by
  unfold Machine.scrambleDst
  refine .foldl h ?_
  intro _ _ h1
  split
  exacts [h1, .ite h1.takeFree.agentStore h1]

theorem dmaEnd (h : d.Canonical) {c n} : (dmaEnd d c n).Canonical := by
  unfold Machine.dmaEnd
  split
  · exact h
  · split
    exacts [h, .modTag (.ite h h.scrambleDst)]

theorem dmaTurn (h : d.Canonical) {c n} : (dmaTurn d c n).Canonical := by
  unfold Machine.dmaTurn
  dsimp only
  split
  · exact h
  · split
    · exact h
    · refine .ite h ?_
      refine .ite h.dmaEnd ?_
      split
      · exact .ite ((h.modTag.foldl (fun _ _ h1 => h1.dmaWritePiece)).dmaEnd) (h.modTag.foldl (fun _ _ h1 => h1.dmaWritePiece))
      · exact h.modTag.foldl fun _ _ h1 => h1.dmaWritePiece

theorem startTransfer (h : d.Canonical) {e c n t} : (startTransfer d e c n t).Canonical := by
  unfold Machine.startTransfer
  dsimp only
  split
  · exact h
  · refine .ite h.modTag ?_
    refine .ite h ?_
    split
    · exact h.countWalk.recordRefusal.modTag
    · exact (h.countWalk.modTag.foldl (fun _ _ h1 => h1.dmaReadPiece)).dmaTurn

theorem listPiece (h : d.Canonical) {e c n base i k} : (listPiece d e c n base i k).Canonical := by
  unfold Machine.listPiece
  split
  · exact h
  · refine .ite h ?_
    split
    · exact h.failTag
    · refine .ite h.sendRequest.openReq ?_
      split
      next e3 =>
        exact .ite (((h.targetCheck.of_eq e3).agentLoad).failTag) (((h.targetCheck.of_eq e3).agentLoad).modTag)
      next e4 =>
        exact (h.targetCheck.of_eq e4).failTag

theorem startList (h : d.Canonical) {e c n m} : (startList d e c n m).Canonical := by
  unfold Machine.startList
  dsimp only
  refine .ite h.failTag ?_
  split
  exacts [h.countWalk.recordRefusal.failTag, h.countWalk.modTag.foldl (fun _ _ h1 => h1.listPiece)]

theorem dmaDispatch (h : d.Canonical) {c e} : (dmaDispatch d c e).Canonical := by
  unfold Machine.dmaDispatch
  dsimp only
  split
  exacts [.ite h (.ite h.setCell.startList h.setCell.startTransfer), h]

theorem dmaDescriptor (h : d.Canonical) {c n e} : (dmaDescriptor d c n e).Canonical := by
  unfold Machine.dmaDescriptor
  dsimp only
  split
  · exact h
  · refine .ite h ?_
    split
    exacts [h, h.modTag.startTransfer]

theorem dmaComplete (h : d.Canonical) {c n} : (dmaComplete d c n).Canonical := by
  unfold Machine.dmaComplete
  split
  exacts [h, .ite h.modCell.noteDone.closeCmd.completeGauge h]

/-! ## The far-cache path -/

theorem laneBack (h : d.Canonical) {c lane place v st} : (laneBack d c lane place v st).Canonical := h.modCell
theorem storeBack (h : d.Canonical) {c t st} : (storeBack d c t st).Canonical := .ite h.modTh h.modTh.chargeFault
theorem dmaReadBack (h : d.Canonical) {c n place st bytes bad} : (dmaReadBack d c n place st bytes bad).Canonical :=
  .dmaTurn (.ite h.modTag h.modTag.failTag)
theorem dmaWriteBack (h : d.Canonical) {c n st} : (dmaWriteBack d c n st).Canonical := .dmaTurn (.ite h.modTag h.modTag.failTag)

theorem finishFar (h : d.Canonical) {q st bytes bad} : (finishFar d q st bytes bad).Canonical := by
  unfold Machine.finishFar
  dsimp only
  split
  exacts [h.loadBack, h.laneBack, h.storeBack, h.dmaReadBack, h.dmaWriteBack]

theorem dropReq (h : d.Canonical) {i} : (dropReq d i).Canonical := h.update

theorem serveHome (h : d.Canonical) {q e} : (serveHome d q e).Canonical := by
  unfold Machine.serveHome
  split
  exacts [.ite (.ite h.agentStore.finishFar h.agentStore.modTh) h.agentLoad.finishFar, h.finishFar]

theorem foreignRequest (h : d.Canonical) {i e} : (foreignRequest d i e).Canonical := by
  unfold Machine.foreignRequest
  split
  exacts [h, .ite (.ite h.dropReq.serveHome h.dropReq.countDeny.recordRefusal.finishFar) h]

theorem noteMisses (h : d.Canonical) : (noteMisses d).Canonical := h.fset.fset
theorem takeMiss (h : d.Canonical) {node line q pf} : (takeMiss d node line q pf).Canonical :=
  .ite h.update.noteMisses h.update.noteMisses.sendRequest

theorem askAhead (h : d.Canonical) {s lo top n line asked} : (askAhead d s lo top n line asked).1.Canonical := by
  induction n generalizing d line asked with
  | zero => exact h
  | succ n ih =>
    unfold Machine.askAhead
    exact .ite_fst h.fcount (.ite_fst (ih h) (ih (.ite h h.takeMiss.fcount)))

theorem trainPrefetch (h : d.Canonical) {q} : (trainPrefetch d q).Canonical := by
  unfold Machine.trainPrefetch
  refine .ite h ?_
  extract_lets
  split
  next d1 asked live e1 =>
    have h1 : d1.Canonical := .of_eq (.ite_fst h.askAhead h) e1
    exact h1.update

theorem writeLine (h : d.Canonical) {node a bytes} : (writeLine d node a bytes).Canonical := by
  unfold Machine.writeLine
  split
  exacts [h, .ite (h.setLine.foldl (fun _ _ h1 => .ite h1.setGran h1)) h.setLine]

theorem serveLine (h : d.Canonical) {q} : (serveLine d q).Canonical := .ite h.writeLine.finishFar h.finishFar

theorem sendHome (h : d.Canonical) {q} : (sendHome d q).Canonical := by
  unfold Machine.sendHome
  split <;> exact h.sendRequest

theorem farCacheRequest (h : d.Canonical) {i e} : (farCacheRequest d i e).Canonical := by
  unfold Machine.farCacheRequest
  split
  · exact h
  · refine .ite h ?_
    refine .ite (.ite h.dropReq.serveHome h.dropReq.sendHome) ?_
    refine .ite (.sendHome (.ite h.dropReq.fcount.writeLine h.dropReq)) ?_
    refine .ite ?_ ?_
    · exact h.dropReq.fcount.serveLine.trainPrefetch
    · exact .ite h.dropReq.fcount.update.trainPrefetch (.ite h h.dropReq.fcount.takeMiss.trainPrefetch)

theorem fillLine (h : d.Canonical) {i m st bytes} : (fillLine d i m st bytes).Canonical := by
  unfold Machine.fillLine
  refine .ite (.foldl (.ite h.update.noteMisses.fcount h.update.noteMisses) (fun _ _ h1 => h1.finishFar)) ?_
  refine .ite (h.update.noteMisses.fcount.foldl (fun _ _ h1 => h1.serveHome)) ?_
  refine .ite ?_ ?_
  · exact ((h.update.noteMisses.setLine.foldl (fun _ _ h1 => h1.serveLine)).setLine).fcount
  · exact h.update.noteMisses.setLine.foldl fun _ _ h1 => h1.serveLine

theorem evict (h : d.Canonical) {v} : (evict d v).Canonical := by
  unfold Machine.evict
  split
  exacts [h.writeBack, h]

theorem farCacheFill (h : d.Canonical) {i victim} : (farCacheFill d i victim).Canonical := by
  unfold Machine.farCacheFill
  split
  · split
    exacts [.ite h h.evict.fillLine, h]
  · exact h

theorem prefetchFill (h : d.Canonical) {i victim} : (prefetchFill d i victim).Canonical := by
  unfold Machine.prefetchFill
  split
  · split
    exacts [.ite h.evict.fillLine h, h]
  · exact h

theorem xltProbeAddrWrite (h : d.Canonical) {v} : (xltProbeAddrWrite d v).Canonical := h.rset.fset.update

theorem xltProbeDone (h : d.Canonical) : (xltProbeDone d).Canonical := by
  unfold Machine.xltProbeDone
  dsimp only
  refine .ite h ?_
  split <;> exact h.countWalk.update.rset

theorem farCtrClr (h : d.Canonical) {v} : (farCtrClr d v).Canonical := .ite h.rset.rset.rset.rset.rset.fset h

/-! ## Ring commands -/

theorem modCmd (h : d.Canonical) {k seq f} : (modCmd d k seq f).Canonical := h.modRing
theorem markOver (h : d.Canonical) {k seq st detail result} : (markOver d k seq st detail result).Canonical := h.modCmd

theorem markOverOpt (h : d.Canonical) {key st detail result} : (markOverOpt d key st detail result).Canonical := by
  unfold Machine.markOverOpt
  split
  exacts [h.markOver, h]

theorem writeFinal (h : d.Canonical) {k seq st detail result edge} : (writeFinal d k seq st detail result edge).Canonical := by
  unfold Machine.writeFinal
  split
  exacts [h, .ite h h.modCmd.traceEv.countTag]

theorem grefAdd (h : d.Canonical) {g n src} : (grefAdd d g n src).Canonical := .ite h h.updateGauge

theorem fetchPiece (h : d.Canonical) {need far a n f e} : (fetchPiece need far a n d f e).1.Canonical := by
  unfold Machine.fetchPiece
  split
  exacts [.ite_fst (.ite_fst h h.agentLoad) (.ite_fst h h), h]

theorem fetchRange (h : d.Canonical) {e need far a n tag source} : (fetchRange d e need far a n tag source).1.Canonical := by
  unfold Machine.fetchRange
  dsimp only
  split
  exacts [h.countWalk.recordRefusal, h.countWalk.foldl_fst (fun _ _ h1 => h1.fetchPiece)]

/-! ## The size table -/

theorem sizWrite (h : d.Canonical) {k v} : (sizWrite d k v).Canonical := h.rset.rset.rset.rset.rset.rset.rset
theorem sendMgmt (h : d.Canonical) {dest m} : (sendMgmt d dest m).Canonical := .ite h.update h.update

theorem sizUpdate (h : d.Canonical) {send} : (sizUpdate d send).Canonical := by
  unfold Machine.sizUpdate
  refine .ite ?_ ?_
  · exact (((h.sizWrite.foldl (fun _ _ h1 => .ite h1.sizWrite h1)).foldl (fun _ _ h1 => h1.sizWrite)).update).foldl fun _ _ h1 => h1.sendMgmt
  · exact ((h.sizWrite.foldl (fun _ _ h1 => .ite h1.sizWrite h1)).foldl (fun _ _ h1 => h1.sizWrite)).update

theorem takeMsg (h : d.Canonical) {p m} (e : takeMsg d p = some (m, d')) : d'.Canonical := by
  unfold Machine.takeMsg at e
  split at e
  · cases e
  · cases e
    exact h.update

theorem sizReport (h : d.Canonical) : (sizReport d).Canonical := by
  unfold Machine.sizReport
  split
  · exact h
  next e =>
    split
    · split
      exacts [h.takeMsg e, .ite (h.takeMsg e) (((h.takeMsg e).update).foldl (fun _ _ h1 => h1.sendMgmt))]
    · exact h.takeMsg e

theorem sizSum (h : d.Canonical) : (sizSum d).Canonical := by
  unfold Machine.sizSum
  split
  · exact h
  next e =>
    split
    exacts [(h.takeMsg e).update, h.takeMsg e]

theorem sizIdleUpdate (h : d.Canonical) : (sizIdleUpdate d).Canonical := .ite h h.sizUpdate

/-! ## The tiers -/

theorem chSettle (h : d.Canonical) {ddr ch} : (chSettle d ddr ch).Canonical := .ite h.ddrSettle h.hbmSettle
theorem chRetire (h : d.Canonical) {ddr ch reason} : (chRetire d ddr ch reason).Canonical := .ite h.retireDdr h.retireHbm

theorem tierRequest (h : d.Canonical) {i retries hard e} : (tierRequest d i retries hard e).Canonical := by
  unfold Machine.tierRequest
  split
  · exact h
  · refine .ite h ?_
    split
    · refine .ite ?_ ?_
      · refine .update ?_
        split
        exacts [.ite h.fcount.chRetire h.fcount, h]
      · refine .update ?_
        refine .eccRead ?_
        split
        exacts [.ite h.fcount.chRetire h.fcount, h]
    · exact h.update

theorem requestPromote (h : d.Canonical) {i} : (requestPromote d i).Canonical := by
  unfold Machine.requestPromote
  split
  exacts [h, .ite h.update h]

theorem tierRinseTick (h : d.Canonical) {ddr ch e} : (tierRinseTick d ddr ch e).Canonical := by
  unfold Machine.tierRinseTick
  dsimp only
  refine .ite h ?_
  split
  exacts [h.update.eccRead, h.update]

theorem hbmTempRead (h : d.Canonical) {s t} : (hbmTempRead d s t).Canonical := by
  unfold Machine.hbmTempRead
  refine .ite ?_ ?_
  · exact h.foldl fun _ _ h1 => h1.fset.fset.hbmSettle
  · exact (((h.foldl (fun _ _ h1 => h1.fset.fset.hbmSettle)).fset).fcount).raiseBoth

theorem ddrTempRead (h : d.Canonical) {k t} : (ddrTempRead d k t).Canonical := h.fset.fset.ddrSettle
theorem ceWindowExpire (h : d.Canonical) {ddr ch} : (ceWindowExpire d ddr ch).Canonical := h.update
theorem tierListFix (h : d.Canonical) {ddr} : (tierListFix d ddr).Canonical :=
  .ite (.ite h h.update.fset.fset.fset.rsetBit.countInService) (.ite h h.update.fset.fset.fset.rsetBit.countInService)
theorem hbmChCtlWrite (h : d.Canonical) {by_ ddr ch v} : (hbmChCtlWrite d by_ ddr ch v).Canonical := .ite h h.fset.chSettle
theorem tgStart (h : d.Canonical) {by_ ddr ch v} : (tgStart d by_ ddr ch v).Canonical := .ite h (.ite h.rset.raiseBoth h.rset)

theorem tgWrite (h : d.Canonical) {ddr ch g} : (tgWrite d ddr ch g).Canonical := by
  unfold Machine.tgWrite
  split
  exacts [h.storeNow, h]

theorem tgRunEnd (h : d.Canonical) {ddr ch errs} : (tgRunEnd d ddr ch errs).Canonical := by
  unfold Machine.tgRunEnd
  refine .ite h ?_
  refine .raiseBoth ?_
  refine .rset ?_
  split
  · exact .ite h (h.foldl (fun _ _ h1 => h1.tgWrite))
  · exact .rset (.rset (.ite h (h.foldl (fun _ _ h1 => h1.tgWrite))))

/-! ## Pattern images and the stage -/

theorem emptyStage (h : d.Canonical) : (emptyStage d).Canonical := h.fset.fset.rset.rset.update
theorem startLoad (h : d.Canonical) {addr len key} : (startLoad d addr len key).1.Canonical := .ite_fst h.emptyStage.fset.update h
theorem startSwitch (h : d.Canonical) {e key} : (startSwitch d e key).1.Canonical := .ite_fst h.fset.rset.update h

theorem patFail (h : d.Canonical) {reason st toEmpty edge} : (patFail d reason st toEmpty edge).Canonical := by
  unfold Machine.patFail
  refine .ite ?_ ?_
  · refine .emptyStage ?_
    split
    exacts [h.fset.fset.fcount.raiseBoth.writeFinal, h.fset.fset.fcount.raiseBoth]
  · refine .update ?_
    refine .fset ?_
    split
    exacts [h.fset.fset.fcount.raiseBoth.writeFinal, h.fset.fset.fcount.raiseBoth]

theorem tideUp (h : d.Canonical) {m} : (tideUp d m).Canonical := .ite h.sendSide h
theorem withdrawSwitch (h : d.Canonical) : (withdrawSwitch d).Canonical := .ite h (.ite h.patFail (.ite h.update.tideUp h.update))

theorem discardStage (h : d.Canonical) : (discardStage d).1.Canonical := by
  unfold Machine.discardStage
  split
  exacts [h.markOverOpt.emptyStage.fset, h.emptyStage, h.withdrawSwitch, h]

theorem patCtlLoad (h : d.Canonical) {by_} : (patCtlLoad d by_).Canonical := .ite h.startLoad h
theorem patCtlSwitch (h : d.Canonical) {by_} : (patCtlSwitch d by_).Canonical := .ite h.startSwitch h
theorem patCtlDiscard (h : d.Canonical) {by_} : (patCtlDiscard d by_).Canonical := .ite h.discardStage h
theorem loadRefused (h : d.Canonical) {reason st} : (loadRefused d reason st).Canonical := h.markOverOpt.emptyStage.fset.fset.fcount.raiseBoth

theorem patLoadDone (h : d.Canonical) {body far e} : (patLoadDone d body far e).Canonical := by
  unfold Machine.patLoadDone
  split
  · exact h
  · split
    next e2 =>
      exact (h.fetchRange.of_eq e2).loadRefused
    next e2 =>
      exact (h.fetchRange.of_eq e2).loadRefused
    next e2 =>
      refine .ite ((h.fetchRange.of_eq e2).loadRefused) ?_
      split
      · exact (h.fetchRange.of_eq e2).loadRefused
      · exact h.fetchRange.of_eq e2
      · exact (((((((((h.fetchRange.of_eq e2).markOverOpt).fset).fset).fset).fset).rset).rset).update).raiseBoth

theorem keepReady (h : d.Canonical) {node job id digest} : (keepReady d node job id digest).Canonical := h.update
theorem switchReady (h : d.Canonical) : (switchReady d).Canonical := .ite (.ite h.update.tideUp h.update.keepReady.tryArrive) h

theorem readyMessage (h : d.Canonical) : (readyMessage d).Canonical := by
  unfold Machine.readyMessage
  split
  · exact h
  next e =>
    split
    · exact .ite (.ite ((h.takeMsg e).modPort) (h.takeMsg e)) (((h.takeMsg e).keepReady).tryArrive)
    · exact h.takeMsg e

theorem switchWithdrawal (h : d.Canonical) : (switchWithdrawal d).Canonical := by
  unfold Machine.switchWithdrawal
  split
  · exact h
  next e =>
    exact .ite (.ite ((h.takeMsg e).modPort) (h.takeMsg e)) (((h.takeMsg e).update).tryArrive)

/-! ## Sessions and the lifecycle state -/

theorem noteSessions (h : d.Canonical) : (noteSessions d).Canonical := h.rset
theorem endSessions (h : d.Canonical) {gone} : (endSessions d gone).Canonical := h.update.noteSessions
theorem endIde (h : d.Canonical) {p} : (endIde d p).Canonical := h.fset
theorem lifecycleChange (h : d.Canonical) {st perms} : (lifecycleChange d st perms).Canonical := h.fset.rset.endSessions.endIde.endIde.raiseBoth
theorem endDebug (h : d.Canonical) : (endDebug d).Canonical := .ite h.lifecycleChange h

/-! ## Sluices -/

theorem setSlc (h : d.Canonical) {i s} : (setSlc d i s).Canonical := h.update
theorem pinsFollow (h : d.Canonical) : (pinsFollow d).Canonical :=
  .ite (.ite (.ite h h.emit) (.emit (.ite h h.emit))) (.rset (.ite (.ite h h.emit) (.emit (.ite h h.emit))))
theorem slcMarks (h : d.Canonical) {i} : (slcMarks d i).Canonical := .ite h (.pinsFollow (.ite h.setSlc.fcount.raiseBoth h.setSlc.fcount))
theorem slcPut (h : d.Canonical) {i entry} : (slcPut d i entry).Canonical := .ite h h.setSlc.slcMarks
theorem slcHostPut (h : d.Canonical) {i entry} : (slcHostPut d i entry).Canonical := .ite h.fset.fcount h.slcPut
theorem slcTake (h : d.Canonical) {i} : (slcTake d i).Canonical := .ite h h.setSlc
theorem slcRelease (h : d.Canonical) {i n} : (slcRelease d i n).Canonical := .setSlc (.ite h.fcount h)
theorem slcRewind (h : d.Canonical) {i} : (slcRewind d i).Canonical := h.setSlc.fcount
theorem respFlush (h : d.Canonical) {i} : (respFlush d i).Canonical := h.foldl fun _ _ h1 => .ite h1 h1.update.slcPut
theorem respPut (h : d.Canonical) {i entry} : (respPut d i entry).Canonical := h.update.respFlush
theorem slcSync (h : d.Canonical) {i release} : (slcSync d i release).Canonical := .ite h.setSlc.slcMarks.respFlush h.setSlc
theorem slcEmpty (h : d.Canonical) {i} : (slcEmpty d i).Canonical := h.fcount.setSlc.pinsFollow
theorem slcFlit (h : d.Canonical) {p} : (slcFlit d p).Canonical := ((h.foldl (fun _ _ h1 => h1.slcPut)).slcSync).foldl fun _ _ h1 => h1.slcTake
theorem slcFlitAgain (h : d.Canonical) {p} : (slcFlitAgain d p).Canonical := h.foldl fun _ _ h1 => h1.slcTake
theorem slcFlitsFreed (h : d.Canonical) {p n} : (slcFlitsFreed d p n).Canonical := .ite h (((h.foldl (fun _ _ h1 => h1.slcTake)).slcRelease).slcSync)
theorem sluiceWrite (h : d.Canonical) {i entry} : (sluiceWrite d i entry).Canonical := .ite h.slcHostPut h.slcPut
theorem sluiceRead (h : d.Canonical) {i} : (sluiceRead d i).Canonical := h.slcTake.emit
theorem sluiceMark (h : d.Canonical) {i} : (sluiceMark d i).Canonical := h.setSlc
theorem sluiceRewind (h : d.Canonical) {i} : (sluiceRewind d i).Canonical := h.slcRewind
theorem sluiceRelease (h : d.Canonical) {i n} : (sluiceRelease d i n).Canonical := h.slcRelease
theorem sluicePointerSync (h : d.Canonical) {i release} : (sluicePointerSync d i release).Canonical := h.slcSync
theorem slcPinselWrite (h : d.Canonical) {by_ v} : (slcPinselWrite d by_ v).Canonical := .ite h.fset.pinsFollow h
theorem slcWmWrite (h : d.Canonical) {by_ i v} : (slcWmWrite d by_ i v).Canonical := .ite h.rset.slcMarks h
theorem slcCtrClr (h : d.Canonical) {v} : (slcCtrClr d v).Canonical := .ite (h.foldl (fun _ _ h1 => h1.rset)) h

/-! ## Accesses of a host -/

theorem hostTarget (h : d.Canonical) {port a n write input tag} : (hostTarget d port a n write input tag).1.Canonical :=
  .ite_fst h h.countDeny.recordRefusal
theorem modBar2 (h : d.Canonical) {p id f} : (modBar2 d p id f).Canonical := h.modPcie

theorem bar2Piece (h : d.Canonical) {e p id} : (bar2Piece e p id d).Canonical := by
  unfold Machine.bar2Piece
  split
  · exact h
  · split
    · exact h
    · refine .ite h ?_
      split
      · exact h.modBar2
      · refine .ite h.sendRequest.modBar2 ?_
        refine .ite h ?_
        split
        next e4 =>
          exact .ite (((h.hostTarget.of_eq e4).agentStore).modBar2) (((h.hostTarget.of_eq e4).agentLoad).modBar2)
        next e5 =>
          exact (h.hostTarget.of_eq e5).modBar2

theorem bar2Record (h : d.Canonical) {p addr len write st} : (bar2Record d p addr len write st).Canonical := .ite h h.rset.fset.fset.fset.fset
theorem answerUr (h : d.Canonical) {p} : (answerUr d p).Canonical := h.fcount.emit
theorem answerCa (h : d.Canonical) {p} : (answerCa d p).Canonical := h.fcount.emit

theorem bar2End (h : d.Canonical) {p id} : (bar2End d p id).Canonical := by
  unfold Machine.bar2End
  split
  · exact h
  · refine .ite h ?_
    refine .ite (.ite h.modPcie h.modPcie.bar2Record) ?_
    split
    · exact .emit (.ite h.modPcie h.modPcie.bar2Record)
    · exact .emit (.ite h.modPcie h.modPcie.bar2Record)
    · exact .answerUr (.ite h.modPcie h.modPcie.bar2Record)
    · exact .answerUr (.ite h.modPcie h.modPcie.bar2Record)
    · exact .answerCa (.ite h.modPcie h.modPcie.bar2Record)

theorem bar2Pump (h : d.Canonical) {p e} : (bar2Pump d p e).Canonical :=
  h.foldl (fun _ _ h1 => .ite h1 ((h1.foldl (fun _ _ h2 => h2.bar2Piece)).bar2End))
theorem bar2Wake (h : d.Canonical) : (bar2Wake d).Canonical := h.bar2Pump.bar2Pump
theorem bar2Back (h : d.Canonical) {p id st bytes bad} : (bar2Back d p id st bytes bad).Canonical := h.modBar2.bar2Pump

theorem bar2Start (h : d.Canonical) {p off n write data ep e} : (bar2Start d p off n write data ep e).Canonical := by
  unfold Machine.bar2Start
  refine .bar2Pump ?_
  refine .modPcie ?_
  split
  exacts [h.countWalk.recordRefusal, h.countWalk]

theorem copyFail (h : d.Canonical) {k seq st} : (copyFail d k seq st).Canonical := h.modCmd
theorem copyMoved (h : d.Canonical) {k seq n} : (copyMoved d k seq n).Canonical := h.modCmd

theorem copyEnd (h : d.Canonical) {k seq} : (copyEnd d k seq).Canonical := by
  unfold Machine.copyEnd
  split
  · exact h
  · refine .ite h ?_
    split
    exacts [h, .ite ((h.foldl (fun _ _ h1 => h1.emit)).markOver) h.markOver]

theorem copyGot (h : d.Canonical) {k seq i bytes bad} : (copyGot d k seq i bytes bad).Canonical := h.modCmd
theorem copyBack (h : d.Canonical) {k seq i n read st bytes bad} : (copyBack d k seq i n read st bytes bad).Canonical :=
  .copyEnd (.ite h.modCmd.copyFail (.ite h.modCmd.copyGot h.modCmd.copyMoved))

theorem copyPiece (h : d.Canonical) {e k seq tag dev i n toHost bytes bad} : (copyPiece d e k seq tag dev i n toHost bytes bad).Canonical := by
  unfold Machine.copyPiece
  split
  · exact h
  · refine .ite h ?_
    split
    · exact h.copyFail
    · refine .ite ?_ ?_
      · split
        exact h.sendRequest.modCmd
      · split
        next e3 =>
          exact .ite (((h.hostTarget.of_eq e3).agentLoad).copyGot) (((h.hostTarget.of_eq e3).agentStore).copyMoved)
        next e4 =>
          exact (h.hostTarget.of_eq e4).copyFail

theorem copyRun (h : d.Canonical) {e k c host hostBad} : (copyRun d e k c host hostBad).Canonical := by
  unfold Machine.copyRun
  dsimp only
  split
  · exact h
  · refine .ite h.markOver ?_
    refine .ite h ?_
    split
    · exact h.countWalk.modCmd.recordRefusal.markOver
    · refine .ite ((h.countWalk.modCmd.foldl (fun _ _ h1 => h1.copyPiece)).copyEnd) ?_
      split
      · exact h.countWalk.modCmd.markOver
      · refine .copyEnd ?_
        refine .ite ?_ ?_
        · exact h.countWalk.modCmd.foldl fun _ _ h1 => h1.copyPiece
        · exact (h.countWalk.modCmd.foldl (fun _ _ h1 => h1.copyPiece)).modCmd

theorem ingestStop (h : d.Canonical) {p st} : (ingestStop d p st).Canonical := h.fset.raiseEvent
theorem ingestEnd (h : d.Canonical) {p} : (ingestEnd d p).Canonical := .ite h (.setSlc (.ite h.modPcie h.modPcie.fwrap.grefAdd.slcRelease))

theorem ingestEntry (h : d.Canonical) {p i entry} : (ingestEntry d p i entry).Canonical := by
  unfold Machine.ingestEntry
  refine .ite h ?_
  split
  · exact h.recordRefusal.ingestStop
  · refine .ite h.sendRequest.modPcie.slcTake.modPcie ?_
    refine .ite h ?_
    split
    next e1 =>
      exact (((h.hostTarget.of_eq e1).agentStore).slcTake).modPcie
    next e2 =>
      exact (h.hostTarget.of_eq e2).ingestStop

theorem ingestBack (h : d.Canonical) {p i st} : (ingestBack d p i st).Canonical := .ingestEnd (.ite h.modPcie h.modPcie.ingestStop)

theorem ingestBatch (h : d.Canonical) {p n} : (ingestBatch d p n).Canonical := by
  unfold Machine.ingestBatch
  refine .ite h ?_
  refine .ingestEnd ?_
  refine .foldl h ?_
  intro _ _ h1
  split
  exacts [h1.ingestEntry, h1]

/-! ## Formats -/

theorem wrBits (h : d.Canonical) {a o w v} : (wrBits d a o w v).Canonical := h.store
theorem wrEncs (h : d.Canonical) {a w es bad} : (wrEncs d a w es bad).Canonical := h.store

theorem wrNums (h : d.Canonical) {a sa f xs mode bad} : (wrNums d a sa f xs mode bad).Canonical := by
  unfold Machine.wrNums
  split
  exacts [h.wrEncs, h.wrEncs.store, h]

/-! ## The matrix engine -/

theorem finish (h : d.Canonical) {c short g cmd bad} : (finish d c short g cmd bad).1.Canonical := by
  unfold Machine.finish
  dsimp only
  refine .ite_fst h.store ?_
  split
  · refine .store ?_
    split
    exacts [(h.foldl (fun _ _ h1 => h1.wrNums)).store, h.foldl (fun _ _ h1 => h1.wrNums)]
  · split
    exacts [(h.foldl (fun _ _ h1 => h1.wrNums)).store, h.foldl (fun _ _ h1 => h1.wrNums)]

/-! ## The commands of the matrix engine -/

theorem refuseMtx (h : d.Canonical) {c e} : (refuseMtx d c e).Canonical := h.chargeWith.closeCmd
theorem rangesEcc (h : d.Canonical) {c e rs} : (rangesEcc d c e rs).Canonical := h.foldl fun _ _ h1 => h1.eccRead
theorem noteGroups (h : d.Canonical) {c} : (noteGroups d c).Canonical := h.fset.fset
theorem engage (h : d.Canonical) {c r} : (engage d c r).Canonical := h.modCell.noteGroups.fset
theorem writeOut (h : d.Canonical) {c g m bad} : (writeOut d c g m bad).1.Canonical := h.finish
theorem anchorLimit (h : d.Canonical) {c} : (anchorLimit d c).Canonical := h.fset
theorem countTile (h : d.Canonical) {c m r} : (countTile d c m r).Canonical :=
  .ite (.fcount (.ite h.fcount.fcount.fcount h.fcount.fcount)) (.ite h.fcount.fcount.fcount h.fcount.fcount)

theorem runTile (h : d.Canonical) {c e bad} : (runTile d c e bad).Canonical := by
  unfold Machine.runTile
  dsimp only
  split
  · exact h.anchorLimit.writeOut.modCell.engage
  · exact .engage (.modCell (.writeOut (.ite h.countTile.anchorLimit h.countTile)))

theorem runPart (h : d.Canonical) {c e bad} : (runPart d c e bad).Canonical := by
  unfold Machine.runPart
  dsimp only
  split
  · exact h.anchorLimit.modCell.engage
  · refine .engage (.ite_fst ?_ ?_)
    · exact h.modCell.writeOut
    · dsimp only
      exact h.modCell

theorem runShort (h : d.Canonical) {c e bad} : (runShort d c e bad).Canonical := by
  unfold Machine.runShort
  extract_lets m nb x g many blk g1 g2 d1
  have h1 : d1.Canonical := h.modCell
  split
  next d2 st e2 => exact .engage (.of_eq (.ite_fst h1.writeOut h1) e2)

theorem runChainMma (h : d.Canonical) {c e bad} : (runChainMma d c e bad).Canonical := by
  unfold Machine.runChainMma
  dsimp only
  split
  · refine .engage ?_
    refine .clvBusy ?_
    refine .ite ?_ ?_
    · refine .store ?_
      refine .modCell ?_
      refine .ensureChain ?_
      split
      exacts [h.anchorLimit, h]
    · refine .modCell ?_
      refine .ensureChain ?_
      split
      exacts [h.anchorLimit, h]
  · exact h

theorem postChainAdd (h : d.Canonical) {c e} : (postChainAdd d c e).Canonical := by
  unfold Machine.postChainAdd
  dsimp only
  split
  exacts [h, h.ensureChain.modChain.modCell.noteGroups.clvBusy.chainPost]

theorem runChainAdd (h : d.Canonical) {c e} : (runChainAdd d c e).Canonical := by
  unfold Machine.runChainAdd
  dsimp only
  split
  exacts [h, .ite (.ite h.modCell.engage h.modCell.writeOut.engage) h.modCell.store.engage]

theorem runAddTile (h : d.Canonical) {c e t bad} : (runAddTile d c e t bad).Canonical := by
  unfold Machine.runAddTile
  extract_lets m x short enc src g0 bar src' g d1
  have h1 : d1.Canonical := h.modCell
  split
  next d2 st e2 => exact .engage (.of_eq (.ite_fst h1.writeOut h1) e2)

theorem runFinish (h : d.Canonical) {c e} : (runFinish d c e).Canonical := by
  unfold Machine.runFinish
  split
  exacts [h, h.writeOut.engage]

theorem mtxDispatch (h : d.Canonical) {c ecc op} : (mtxDispatch d c ecc op).Canonical := by
  unfold Machine.mtxDispatch
  refine .ite h ?_
  split
  · exact h
  · refine .ite h ?_
    refine .ite h ?_
    refine .ite h.modCell.refuseMtx ?_
    split
    · refine .ite ?_ ?_
      · exact h.modCell.rangesEcc.runShort
      · exact .ite h.modCell.rangesEcc.runChainMma (.ite h.modCell.rangesEcc.runTile h.modCell.rangesEcc.runPart)
    · exact .ite (.ite h.modCell.rangesEcc.runChainAdd h.modCell.rangesEcc.postChainAdd) h.modCell.rangesEcc.runAddTile
    · exact h.modCell.rangesEcc.runFinish

theorem releaseHeld (h : d.Canonical) {c} : (releaseHeld d c).Canonical := by
  unfold Machine.releaseHeld
  refine .foldl h.setCell ?_
  intro _ _ h1
  split
  exacts [h1.storeNow, h1.storeNow.modCell, h1.storeNow.modTh, .ite h1.storeNow h1.storeNow.update]

theorem setPredictor (h : d.Canonical) {c m aObs} : (setPredictor d c m aObs).Canonical := .ite h.fset.fset h
theorem setAnchorLast (h : d.Canonical) {c tag a0 a src} : (setAnchorLast d c tag a0 a src).Canonical := h.rset
theorem mtxDone (h : d.Canonical) {c e st} : (mtxDone d c e st).Canonical := h.fset.fset.noteDone.closeCmd.noteGroups.releaseHeld.completeGauge

theorem tailSends (h : d.Canonical) {c r} : (tailSends d c r).Canonical := by
  unfold Machine.tailSends
  dsimp only
  split
  exacts [.ite h.sendRank (.ite h.anchorLimit.writeOut.sendRank h.sendRank), h]

theorem chainPartDone (h : d.Canonical) {c r} : (chainPartDone d c r).Canonical := by
  unfold Machine.chainPartDone
  dsimp only
  split
  · exact h.modCell.noteGroups.fset
  · refine .ite ?_ ?_
    · exact h.modCell.noteGroups.fset.modChain.chainSend
    · exact .ite h.modCell.noteGroups.fset.tailSends h.modCell.noteGroups.fset

theorem matrixComplete (h : d.Canonical) {c} : (matrixComplete d c).Canonical := by
  unfold Machine.matrixComplete
  split
  · exact h
  · refine .ite h.chainPartDone ?_
    refine .mtxDone ?_
    refine .ite ?_ ?_
    · exact .setAnchorLast (.ite h.modCell.fset.setPredictor h.modCell.fset)
    · exact .ite h.modCell.fset.setPredictor h.modCell.fset

theorem endChain (h : d.Canonical) {g tag rank st anchor aObs ok} : (endChain d g tag rank st anchor aObs ok).Canonical := by
  unfold Machine.endChain
  split
  · exact h
  · exact .clvBusy (.noteGroups (.foldl (.ite (.update (.ite h.modCell h.modCell.fset)) (.fset (.update (.ite h.modCell h.modCell.fset))))
      (fun _ _ h1 => .mtxDone (.ite (.setAnchorLast (.ite h1.setPredictor h1)) h1))))

theorem mtxCtrClr (h : d.Canonical) {c v} : (mtxCtrClr d c v).Canonical := .ite (h.rset.rset.foldl (fun _ _ h1 => h1.fset)) h

/-! ## Element programs -/

theorem settleGranules (h : d.Canonical) {c bytes bad} : (settleGranules d c bytes bad).Canonical :=
  h.foldl fun _ _ h1 => .ite h1.setGran (.ite h1.setGran h1)
theorem putBits (h : d.Canonical) {a o w v} : (putBits d a o w v).Canonical := h.wrBytes
theorem holdBack {d0 : Dev} {d1 : Dev} (_h : d0.Canonical) (h2 : d1.Canonical) {c spans} : (holdBack d0 d1 c spans).Canonical :=
  h2.foldl fun _ _ h1 => .ite h1.wrBytes.setGran.modCell h1
theorem poisonOutputs (h : d.Canonical) {c bytes} : (poisonOutputs d c bytes).Canonical := h.setCell.settleGranules

theorem storeTile {fl : EleFlow} (h : fl.d.Canonical) {c m active s e fmt se} : (storeTile fl c m active s e fmt se).d.Canonical := by
  unfold Machine.storeTile
  split
  · exact h.holdBack ((h.foldl (fun _ _ h1 => h1.putBits)).settleGranules)
  · exact h.holdBack ((h.foldl (fun _ _ h1 => h1.putBits)).settleGranules)
  · exact h.holdBack (((h.foldl (fun _ _ h1 => (h1.foldl (fun _ _ h2 => h2.putBits)).wrByte)).settleGranules).settleGranules)

theorem stepOp {fl : EleFlow} (h : fl.d.Canonical) {c m active ecc o} : (stepOp c m active ecc fl o).d.Canonical := by
  unfold Machine.stepOp
  split
  · exact (h.foldl (fun _ _ h1 => h1.eccRead)).setCell
  · exact h.storeTile
  · exact h.setCell
  · exact h.setCell
  · exact h.setCell
  · exact h.setCell
  · exact h.setCell
  · exact h.setCell
  · exact h.setCell
  · exact h.setCell
  · exact h.setCell
  · exact h.setCell
  · exact h.setCell
  · exact h.setCell
  · exact h

/-! ## The fixed operations of the element engine -/

theorem doPress (h : d.Canonical) {c m bad} : (doPress d c m bad).Canonical := .ite h.store.store h.store

theorem doConvert (h : d.Canonical) {c m bad} : (doConvert d c m bad).1.Canonical := by
  unfold Machine.doConvert
  dsimp only
  split
  exacts [h.wrNums.takeFree.store, h.wrNums]

theorem doReseat (h : d.Canonical) {c m bad} : (doReseat d c m bad).1.Canonical := h.wrNums
theorem doUpdate (h : d.Canonical) {c m bad} : (doUpdate d c m bad).1.Canonical :=
  .wrNums (.ite (.wrNums (.ite h.wrNums.wrNums h.wrNums.wrNums)) (.wrNums (.ite h.wrNums.wrNums h.wrNums.wrNums)))

/-! ## The commands of the element engine -/

theorem refuseEle (h : d.Canonical) {c e reason} : (refuseEle d c e reason).Canonical := .closeCmd (.chargeWith (.ite h.fset.fset.modTh h.fset.fset))
theorem eleEngage (h : d.Canonical) {c r} : (eleEngage d c r).Canonical := h.modCell.fset
theorem runProgram (h : d.Canonical) {c ecc e active ops} : (runProgram d c ecc e active ops).Canonical :=
  .eleEngage (.ite ((h.foldl_flow (fun _ _ h1 => h1.stepOp)).poisonOutputs) (h.foldl_flow (fun _ _ h1 => h1.stepOp)))

theorem runFixed (h : d.Canonical) {c ecc e} : (runFixed d c ecc e).Canonical := by
  unfold Machine.runFixed
  refine .eleEngage ?_
  split
  exacts [h.rangesEcc.doPress, h.rangesEcc.doConvert, h.rangesEcc.doReseat, h.rangesEcc.doUpdate]

theorem runGather (h : d.Canonical) {c e active} : (runGather d c e active).Canonical := by
  unfold Machine.runGather
  dsimp only
  refine .eleEngage ?_
  refine .foldl_fst h.modCell.fcount ?_
  intro _ _ h1
  split
  · exact h1.countWalk.recordRefusal
  · refine .foldl h1.countWalk ?_
    intro _ _ h2
    split
    exacts [h2, h2.update]

theorem runScatter (h : d.Canonical) {c ecc e active} : (runScatter d c ecc e active).Canonical := by
  unfold Machine.runScatter
  refine .ite h.eleEngage ?_
  refine .eleEngage ?_
  refine .ite ?_ ?_
  · exact .poisonOutputs (.holdBack (.ite h h.rangesEcc) (.settleGranules (.foldl (.ite h h.rangesEcc) (fun _ _ h1 => h1.wrBytes))))
  · exact .holdBack (.ite h h.rangesEcc) (.settleGranules (.foldl (.ite h h.rangesEcc) (fun _ _ h1 => h1.wrBytes)))

theorem eleDispatch (h : d.Canonical) {c ecc kind} : (eleDispatch d c ecc kind).Canonical := by
  unfold Machine.eleDispatch
  dsimp only
  refine .ite h ?_
  split
  · refine .ite h ?_
    refine .ite (.closeCmd (.chargeFault (.ite h.modCell.modTh h.modCell))) ?_
    refine .ite h.modCell.refuseEle ?_
    split
    · split
      exacts [h.modCell.runProgram, h.modCell]
    · exact h.modCell.runGather
    · exact h.modCell.runScatter
    · exact h.modCell.runFixed
  · exact h

theorem gatherLaneReturn (h : d.Canonical) {c lane} : (gatherLaneReturn d c lane).Canonical := by
  unfold Machine.gatherLaneReturn
  dsimp only
  split
  · exact h
  · split
    · exact h
    · split
      exacts [h, h.modCell, h.fcount.modCell]

theorem elementComplete (h : d.Canonical) {c} : (elementComplete d c).Canonical := by
  unfold Machine.elementComplete
  split
  · exact h
  · refine .ite ?_ ?_
    · exact h
    · exact .completeGauge (.closeCmd (.noteDone (.fcount (.fcount (.ite h.modCell.fset.fset.fset.fset h.modCell.fset.fset.fset)))))

theorem eleCtrClr (h : d.Canonical) {c v} : (eleCtrClr d c v).Canonical := .ite h.rset.rset h

/-! ## Column memory events -/

theorem rinseTick (h : d.Canonical) {c dram e} : (rinseTick d c dram e).Canonical := by
  unfold Machine.rinseTick
  refine .ite h ?_
  refine .ite ?_ ?_
  · exact .fwrap (.modCell (.ite h.eccRead.countBeats.countBeats h.eccRead.countBeats))
  · exact .modCell (.ite h.eccRead.countBeats.countBeats h.eccRead.countBeats)

theorem colCtrClr (h : d.Canonical) {c v} : (colCtrClr d c v).Canonical := .ite h.rset.rset.fset h
theorem dropRids (h : d.Canonical) {p} : (dropRids d p).Canonical := h.update

theorem dropHeld (h : d.Canonical) {c st} : (dropHeld d c st).Canonical := by
  unfold Machine.dropHeld
  refine .foldl h.modCell ?_
  intro _ _ h1
  split
  exacts [h1, h1.modTag, h1.storeBack, h1.update]

theorem stopCell (h : d.Canonical) {c st} : (stopCell d c st).Canonical := by
  unfold Machine.stopCell
  exact h.modCell.dropHeld.fset.fset.update.dropRids

theorem cellRetire (h : d.Canonical) {c cause bundle} : (cellRetire d c cause bundle).Canonical :=
  .ite h (h.stopCell.modCell.latchChains.rsetBit.addFault.foldl (fun _ _ h1 => h1.noteDone.completeGauge))
theorem verticalBeatError (h : d.Canonical) {c bundle good} : (verticalBeatError d c bundle good).Canonical := .ite h h.cellRetire

theorem meshHopError (h : d.Canonical) {c vertical good} : (meshHopError d c vertical good).Canonical := by
  unfold Machine.meshHopError
  dsimp only
  split
  · exact h
  · refine .ite h ?_
    refine .ite ?_ ?_
    · exact .cellRetire (.ite h.update.addFault.cellRetire h.update.addFault)
    · exact .ite h.update.addFault.cellRetire h.update.addFault

/-! ## Collectives -/

theorem modInst (h : d.Canonical) {slot rank heard f} : (modInst d slot rank heard f).Canonical := h.update

theorem latchInst (h : d.Canonical) {slot rank st} : (latchInst d slot rank st).Canonical := by
  unfold Machine.latchInst
  split
  exacts [.ite h h.modInst.sendRank, h]

theorem latchInsts (h : d.Canonical) {cells st} : (latchInsts d cells st).Canonical := by
  unfold Machine.latchInsts
  refine .foldl h ?_
  intro _ _ h1
  split
  exacts [.ite h1.latchInst h1, h1]

theorem engineRead (h : d.Canonical) {e c a n} : (engineRead d e c a n).1.Canonical := by
  unfold Machine.engineRead
  refine .foldl_fst h ?_
  intro _ _ h1
  refine .ite_fst h1 ?_
  split
  exacts [h1.agentLoad, h1]

theorem engineWrite (h : d.Canonical) {c a bytes} : (engineWrite d c a bytes).1.Canonical := by
  unfold Machine.engineWrite
  refine .foldl_fst h ?_
  intro _ _ h1
  refine .ite_fst h1 ?_
  split
  exacts [h1.agentStore, h1]

theorem rangeChecked (h : d.Canonical) {c tag write a n} : (rangeChecked d c tag write a n).1.Canonical := by
  unfold Machine.rangeChecked
  dsimp only
  split
  exacts [.recordRefusal (.ite h h.countWalk), .ite h h.countWalk]

theorem sendChunk (h : d.Canonical) {s g l slot rank e k kind bytes} : (sendChunk d s g l slot rank e k kind bytes).Canonical := by
  unfold Machine.sendChunk
  split
  exacts [h.sendRank.modInst, h]

theorem grantMore (h : d.Canonical) {s g l slot rank e} : (grantMore d s g l slot rank e).Canonical := by
  unfold Machine.grantMore
  split
  exacts [h.modInst.sendRank, h]

theorem combineCompressed (h : d.Canonical) {e s c i it j} : (combineCompressed d e s c i it j).1.Canonical := by
  unfold Machine.combineCompressed
  dsimp only
  refine .foldl_fst h fun r b hr => ?_
  obtain ⟨d1, st1, r1⟩ := r
  have h1 : d1.Canonical := hr
  split
  next e1 =>
    cases e1
    split
    · exact h1
    · split
      · exact h1.engineRead.engineRead
      · split <;> exact h1.engineRead.engineRead
  · exact hr

theorem combinedWrites (h : d.Canonical) {s c r} : (combinedWrites d s c r).1.Canonical :=
  (h.foldl_fst (fun _ _ h1 => .ite_fst h1 h1.engineWrite)).foldl_fst fun _ _ h1 => .ite_fst h1 h1.engineWrite

theorem clvCombine (h : d.Canonical) {slot rank k e} : (clvCombine d slot rank k e).Canonical := by
  unfold Machine.clvCombine
  split
  · split
    · exact h
    · extract_lets okUp okDn parts c
      refine .ite h (.ite h ?_)
      split
      next d1 st res e1 =>
      have h1 : d1.Canonical := by
        split at e1
        · exact .of_eq h.combineCompressed e1
        · exact .of_pair_eq e1 (.ite_fst h.engineRead h)
      refine .ite h1.latchInst ?_
      split
      · exact h1
      · next r =>
        have h2 := h1.combinedWrites (s := ‹SlotDef›) (c := c) (r := r)
        refine .ite h2.latchInst (.modInst (.foldl ?_ fun _ _ h => h.grantMore))
        split
        · refine .foldl ?_ fun _ _ h => h.sendChunk
          split
          exacts [h2.sendChunk, h2]
        · split
          exacts [h2.sendChunk, h2]
  · exact h

theorem passResult (h : d.Canonical) {slot rank e k} : (passResult d slot rank e k).Canonical := by
  unfold Machine.passResult
  dsimp only
  split
  · split
    · refine .ite h ?_
      split
      · exact h
      · refine .ite ?_ ?_
        · exact (h.foldl_fst (fun _ _ h1 => .ite_fst h1 h1.engineWrite)).latchInst
        · exact (((h.foldl_fst (fun _ _ h1 => .ite_fst h1 h1.engineWrite)).foldl (fun _ _ h1 => h1.sendChunk)).grantMore).modInst
    · exact h
  · exact h

theorem pumpResults (h : d.Canonical) {slot rank} : (pumpResults d slot rank).Canonical := by
  unfold Machine.pumpResults
  split
  exacts [h, h.foldl (fun _ _ h1 => h1.passResult)]

theorem addDigest (h : d.Canonical) {g j v} : (addDigest d g j v).Canonical := h.rset

theorem noteDigests (h : d.Canonical) {g slot rx tx} : (noteDigests d g slot rx tx).Canonical := by
  unfold Machine.noteDigests
  refine .foldl h ?_
  intro _ _ h1
  split
  exacts [h1.addDigest.addDigest.rset.rset, h1.addDigest.addDigest]

theorem completeInst (h : d.Canonical) {slot rank st} : (completeInst d slot rank st).Canonical := by
  unfold Machine.completeInst
  split
  · refine .clvBusy ?_
    refine .completeGauge ?_
    refine .countTag ?_
    refine .traceEv ?_
    refine .ite ?_ ?_
    · refine .fcount ?_
      refine .ite ?_ ?_
      · exact .fset (.fset (.fset (.ite h.update.noteDigests.update h.update.noteDigests)))
      · exact .ite h.update.noteDigests.update h.update.noteDigests
    · refine .raiseBoth ?_
      refine .fcount ?_
      refine .ite ?_ ?_
      · exact .fset (.fset (.fset (.ite h.update.noteDigests.update h.update.noteDigests)))
      · exact .ite h.update.noteDigests.update h.update.noteDigests
  · exact h

theorem spreadOutcome (h : d.Canonical) {slot rank kind st} : (spreadOutcome d slot rank kind st).Canonical := by
  unfold Machine.spreadOutcome
  split
  exacts [(h.foldl (fun _ _ h1 => h1.sendRank)).completeInst, h]

theorem clvAckSend (h : d.Canonical) {slot rank} : (clvAckSend d slot rank).Canonical := by
  unfold Machine.clvAckSend
  split
  · refine .ite h ?_
    split
    exacts [h.spreadOutcome, h.sendRank.modInst]
  · exact h

theorem clvLaunch (h : d.Canonical) {slot rank} : (clvLaunch d slot rank).Canonical := by
  unfold Machine.clvLaunch
  split
  · exact h
  · extract_lets c n half edges i _ d1 d2 d3 d4 _
    have h2 : d2.Canonical := .ite h.update.fset h.update
    have h4 : d4.Canonical := h2.modInst.traceEv.clvBusy
    refine .ite h ?_
    split
    next d5 ok5 e5 =>
    have h5 : d5.Canonical := .of_eq h4.rangeChecked e5
    split
    next d6 ok6 e6 =>
    have h6 : d6.Canonical := .of_eq h5.rangeChecked e6
    split
    next d7 ok7 e7 =>
    have h7 : d7.Canonical := .of_eq (.ite_fst h6.rangeChecked h6) e7
    split
    next d8 ok8 e8 =>
    have h8 : d8.Canonical := .of_eq (.ite_fst h7.rangeChecked h7) e8
    extract_lets d9
    have h9 : d9.Canonical := h8.foldl fun d b h => by
      split
      exacts [h.sendRank, h]
    exact .ite h9 h9.latchInst

theorem takeColl (h : d.Canonical) {kind} : (takeColl d kind).1.Canonical := by
  unfold Machine.takeColl
  split
  · exact h
  next e =>
    split
    · split
      exacts [h.takeMsg e, .ite_fst ((h.takeMsg e).fcount) (h.takeMsg e)]
    · exact h.takeMsg e

theorem keepChunk (h : d.Canonical) {c e} : (keepChunk d c e).Canonical := h.modInst

theorem clvData (h : d.Canonical) : (clvData d).Canonical := by
  unfold Machine.clvData
  split
  next e =>
    split
    · split
      exacts [(h.takeColl.of_eq e).keepChunk, h.takeColl.of_eq e]
    · exact h.takeColl.of_eq e
  next e =>
    exact h.takeColl.of_eq e

theorem clvResult (h : d.Canonical) : (clvResult d).Canonical := by
  unfold Machine.clvResult
  split
  next e =>
    split
    exacts [.ite (((h.takeColl.of_eq e).keepChunk).pumpResults) (h.takeColl.of_eq e), h.takeColl.of_eq e]
  next e =>
    exact h.takeColl.of_eq e

theorem clvCredit (h : d.Canonical) : (clvCredit d).Canonical := by
  unfold Machine.clvCredit
  dsimp only
  split
  next e =>
    split
    · split
      exacts [((h.takeColl.of_eq e).modInst).pumpResults, h.takeColl.of_eq e]
    · exact h.takeColl.of_eq e
  next e =>
    exact h.takeColl.of_eq e

theorem clvAck (h : d.Canonical) : (clvAck d).Canonical := by
  unfold Machine.clvAck
  split
  next e =>
    split
    · split
      exacts [h.takeColl.of_eq e, .ite (((h.takeColl.of_eq e).modInst).clvAckSend) ((h.takeColl.of_eq e).modInst)]
    · exact h.takeColl.of_eq e
  next e =>
    exact h.takeColl.of_eq e

theorem clvCommit (h : d.Canonical) : (clvCommit d).Canonical := by
  unfold Machine.clvCommit
  split
  next e =>
    split
    exacts [(h.takeColl.of_eq e).spreadOutcome, h.takeColl.of_eq e]
  next e =>
    exact h.takeColl.of_eq e

theorem chainDigests (h : d.Canonical) {c} : (chainDigests d c).Canonical := h.noteDigests
theorem chainSpread (h : d.Canonical) {g l rank m} : (chainSpread d g l rank m).Canonical := h.foldl fun _ _ h1 => h1.sendRank
theorem finishChain (h : d.Canonical) {ch st anchor aObs ok} : (finishChain d ch st anchor aObs ok).Canonical :=
  .ite h.chainDigests.endChain h.chainDigests.endChain.fcount.raiseBoth

theorem chainPostIn (h : d.Canonical) : (chainPostIn d).Canonical := by
  unfold Machine.chainPostIn
  split
  next e =>
    split
    exacts [.ite (h.takeColl.of_eq e) (((h.takeColl.of_eq e).modChainHeard).chainSend), h.takeColl.of_eq e]
  next e =>
    exact h.takeColl.of_eq e

theorem placeTile (h : d.Canonical) {ch l} : (placeTile d ch l).Canonical := by
  unfold Machine.placeTile
  split
  exacts [.ite h (.ite h.latchChain h.store.modCell.modChain), h]

theorem chainTile (h : d.Canonical) : (chainTile d).Canonical := by
  unfold Machine.chainTile
  dsimp only
  split
  next e =>
    split
    · refine .ite (h.takeColl.of_eq e) ?_
      split
      exacts [((h.takeColl.of_eq e).modChainHeard).placeTile, (h.takeColl.of_eq e).modChainHeard]
    · exact h.takeColl.of_eq e
  next e =>
    exact h.takeColl.of_eq e

theorem chainRerun (h : d.Canonical) : (chainRerun d).Canonical := by
  unfold Machine.chainRerun
  dsimp only
  split
  next e =>
    split
    · exact (h.takeColl.of_eq e).chainSpread
    · refine .ite ((h.takeColl.of_eq e).chainSpread) ?_
      refine .ite ?_ ?_
      · refine .chainPost ?_
        split
        · exact (((((h.takeColl.of_eq e).chainSpread).chainDigests).modChainHeard).fcount).modCell
        · exact ((((h.takeColl.of_eq e).chainSpread).chainDigests).modChainHeard).fcount
      · split
        · exact (((((h.takeColl.of_eq e).chainSpread).chainDigests).modChainHeard).fcount).modCell
        · exact ((((h.takeColl.of_eq e).chainSpread).chainDigests).modChainHeard).fcount
  next e =>
    exact h.takeColl.of_eq e

theorem chainDone (h : d.Canonical) : (chainDone d).Canonical := by
  unfold Machine.chainDone
  dsimp only
  split
  next e =>
    split
    exacts [(h.takeColl.of_eq e).chainSpread, (((h.takeColl.of_eq e).chainSpread).finishChain).countTag]
  next e =>
    exact h.takeColl.of_eq e

theorem clvAbort (h : d.Canonical) : (clvAbort d).Canonical := by
  unfold Machine.clvAbort
  split
  next e =>
    refine .ite ?_ ?_
    · split
      exacts [((h.takeColl.of_eq e).chainSpread).finishChain, (h.takeColl.of_eq e).update]
    · split
      exacts [(h.takeColl.of_eq e).spreadOutcome, (h.takeColl.of_eq e).update]
  next e =>
    exact h.takeColl.of_eq e

theorem clvFail (h : d.Canonical) : (clvFail d).Canonical := by
  unfold Machine.clvFail
  dsimp only
  split
  next e =>
    refine .ite ?_ ?_
    · split
      exacts [((h.takeColl.of_eq e).chainSpread).finishChain, (h.takeColl.of_eq e).chainSpread]
    · split
      exacts [(h.takeColl.of_eq e).spreadOutcome, h.takeColl.of_eq e]
  next e =>
    exact h.takeColl.of_eq e

theorem timeoutInst (h : d.Canonical) {slot rank} : (timeoutInst d slot rank).Canonical := by
  unfold Machine.timeoutInst
  split
  exacts [.ite h (.ite h.completeInst h.fcount.latchInst), h]

theorem timeoutChain (h : d.Canonical) {g tag rank} : (timeoutChain d g tag rank).Canonical := by
  unfold Machine.timeoutChain
  split
  exacts [.ite h (.ite h.finishChain h.fcount.latchChain), h]

theorem clvTimeout (h : d.Canonical) {chain k tag rank t} : (clvTimeout d chain k tag rank t).Canonical :=
  .ite h.atTime.timeoutChain h.atTime.timeoutInst

theorem clvDiscarded (h : d.Canonical) {m} : (clvDiscarded d m).Canonical := by
  unfold Machine.clvDiscarded
  split
  · refine .ite h ?_
    split
    exacts [h, .ite h.latchInst h.latchChain]
  · exact h

theorem clvEdge (h : d.Canonical) : (clvEdge d).Canonical := h.update

theorem endGroup (h : d.Canonical) {g st} : (endGroup d g st).Canonical := by
  unfold Machine.endGroup
  refine .foldl (h.foldl (fun _ _ h1 => .ite h1.finishChain h1)) ?_
  intro _ _ h1
  split
  exacts [.ite h1.modInst.completeInst h1, h1]

theorem clvCtrClr (h : d.Canonical) {v} : (clvCtrClr d v).Canonical :=
  .ite h ((h.rset.foldl (fun _ _ h1 => h1.rset)).foldl (fun _ _ h1 => h1.foldl (fun _ _ h2 => h2.rset)))

theorem groupRegs (h : d.Canonical) {g layout} : (groupRegs d g layout).Canonical := by
  unfold Machine.groupRegs
  split
  exacts [h, h.rset.fset.fset.fset.fset.fset.fset.fset.fset.fset.fset]

theorem slotRegs (h : d.Canonical) {c s} : (slotRegs d c s).Canonical :=
  h.fset.fset.fset.fset.fset.fset.fset.fset.fset.fset.fset.fset.fset.fset.rset.rset.rset

theorem layoutChange (h : d.Canonical) {g layout} : (layoutChange d g layout).Canonical := by
  unfold Machine.layoutChange
  dsimp only
  split
  exacts [h.endGroup.groupRegs.clvBusy, h.endGroup]

/-! ## Shard sets -/

theorem setOutcome (h : d.Canonical) {k op st cause shard} : (setOutcome d k op st cause shard).Canonical := h.fset.fset.fset.fset

theorem completeSet (h : d.Canonical) {k op st cause shard} : (completeSet d k op st cause shard).Canonical := by
  unfold Machine.completeSet
  split
  exacts [h, .completeGauge (.countTag (.traceEv (.ite h.update.setOutcome h.update.setOutcome.raiseBoth)))]

theorem setCounted (h : d.Canonical) {k f} : (setCounted d k f).Canonical := h.update
theorem readParts (h : d.Canonical) {e c ps} : (readParts d e c ps).1.Canonical := h.foldl_fst fun _ _ h1 => .ite_fst h1 h1.engineRead

theorem publishShard (h : d.Canonical) {e s l k nth v} : (publishShard d e s l k nth v).1.Canonical := by
  unfold Machine.publishShard
  extract_lets c
  split
  next d1 st bs e1 =>
  have h1 : d1.Canonical := .of_eq h.readParts e1
  exact .ite_fst h1 (.ite_fst h1.engineRead h1.engineRead.engineWrite)

theorem publishShards (h : d.Canonical) {e s l v} : (publishShards d e s l v).1.Canonical := h.foldl_fst fun _ _ h1 => .ite_fst h1 h1.publishShard

theorem ssPublish (h : d.Canonical) {k e} : (ssPublish d k e).Canonical := by
  unfold Machine.ssPublish
  split
  exacts [h, .ite h h.setCounted.traceEv.publishShards.completeSet]

theorem modRun (h : d.Canonical) {k f} : (modRun d k f).Canonical := h.update
theorem modShard (h : d.Canonical) {k sh f} : (modShard d k sh f).Canonical := h.modRun
theorem failShard (h : d.Canonical) {k sh st cause} : (failShard d k sh st cause).Canonical := h.modShard

theorem askOwner (h : d.Canonical) {s l k sh piece a n} : (askOwner d s l k sh piece a n).Canonical := by
  unfold Machine.askOwner
  dsimp only
  split
  · exact h.failShard
  · split
    exacts [h.recordRefusal.failShard, h.sendRequest.modShard]

theorem askRecord (h : d.Canonical) {s l k sh} : (askRecord d s l k sh).Canonical := h.askOwner

theorem askPieces (h : d.Canonical) {s l k sh pieces} : (askPieces d s l k sh pieces).Canonical := by
  unfold Machine.askPieces
  refine .foldl h ?_
  intro _ _ h1
  split
  · exact h1
  · split
    exacts [h1, .ite h1.askOwner.modShard h1]

theorem pumpRun (h : d.Canonical) {k} : (pumpRun d k).Canonical := by
  unfold Machine.pumpRun
  split
  exacts [h.foldl (fun _ _ h1 => .ite h1.askPieces h1), h]

theorem startShard (h : d.Canonical) {s l k sh} : (startShard d s l k sh).Canonical := h.modShard.askRecord

theorem poisonShard (h : d.Canonical) {s l sh arrays} : (poisonShard d s l sh arrays).Canonical := by
  unfold Machine.poisonShard
  refine .foldl h ?_
  intro _ _ h1
  split
  exacts [h1.poisonRange, h1]

theorem endShard (h : d.Canonical) {s l r sh st cause} : (endShard d s l r sh st cause).Canonical :=
  .modShard (.ite (.fcount (.ite h.poisonShard h)) (.ite h.poisonShard h))

theorem endRun (h : d.Canonical) {l s r} : (endRun d l s r).Canonical := by
  unfold Machine.endRun
  split
  exacts [h.completeSet, .completeSet (.ite h.addFault h)]

theorem settleCompare (h : d.Canonical) {s l r} : (settleCompare d s l r).Canonical := by
  unfold Machine.settleCompare
  split
  · exact h.fcount.fset.fset.endRun
  · refine .ite ?_ ?_
    · exact h.fcount.fset.fset.completeSet
    · exact .ite h.fcount.fset.fset.addFault.completeSet (h.fcount.fset.fset.modRun.foldl (fun _ _ h1 => h1.startShard))

theorem settleRun (h : d.Canonical) {k} : (settleRun d k).Canonical := by
  unfold Machine.settleRun
  split
  exacts [.ite h (.ite h.endRun h.settleCompare), h]

theorem ownDigest (h : d.Canonical) {e s l sh arrays} : (ownDigest d e s l sh arrays).1.Canonical := h.readParts

theorem judgeShard (h : d.Canonical) {e s l r x} : (judgeShard d e s l r x).Canonical := by
  unfold Machine.judgeShard
  refine .ite ?_ ?_
  · exact .ite h.ownDigest.endShard (.endShard (.ite h.ownDigest h.ownDigest.modRun))
  · exact .ite (.endShard (.ite h.fcount h)) (.ite h.modShard.endShard h.modShard.fcount.startShard)

theorem recordCame (h : d.Canonical) {e s l r x bs} : (recordCame d e s l r x bs).Canonical := by
  unfold Machine.recordCame
  refine .ite ?_ (.ite h.endShard h.judgeShard)
  refine .ite ?_ ?_
  · exact h.modShard
  · exact .ite h.endShard (.ite h.modShard.modShard.askRecord (.ite h.modShard.modShard.askRecord h.modShard.modShard))

theorem pieceCame (h : d.Canonical) {s l r x p bs} : (pieceCame d s l r x p bs).Canonical := by
  unfold Machine.pieceCame
  dsimp only
  split
  · exact h
  · refine .ite ?_ ?_
    · exact .askRecord (.modShard (.modShard (.ite h.engineWrite h.engineWrite.failShard)))
    · exact .modShard (.ite h.engineWrite h.engineWrite.failShard)

theorem failUnasked (h : d.Canonical) {k} : (failUnasked d k).Canonical := by
  unfold Machine.failUnasked
  split
  · refine .foldl h ?_
    intro _ _ h1
    split
    exacts [.ite h1.endShard h1, h1]
  · exact h

theorem shardBack (h : d.Canonical) {e k sh piece st bs} : (shardBack d e k sh piece st bs).Canonical := by
  unfold Machine.shardBack
  dsimp only
  split
  · split
    · exact h.modShard
    · refine .ite ?_ ?_
      · exact h.modShard
      · exact .settleRun (.failUnasked (.pumpRun (.ite h.modShard.failShard (.ite h.modShard (.ite h.modShard.recordCame h.modShard.pieceCame)))))
  · exact h.modShard

theorem ssFetch (h : d.Canonical) {k} : (ssFetch d k).Canonical := by
  unfold Machine.ssFetch
  split
  exacts [h, .ite h ((h.setCounted.fset.traceEv.update.foldl (fun _ _ h1 => h1.askRecord)).failUnasked)]

theorem fetchShardRetry (h : d.Canonical) {k sh t} : (fetchShardRetry d k sh t).Canonical := by
  unfold Machine.fetchShardRetry
  dsimp only
  split
  · split
    · exact h.atTime
    · exact .ite h.atTime (.ite h.atTime.endShard.settleRun h.atTime.startShard.failUnasked.settleRun)
  · exact h.atTime

theorem ssFetchDone (h : d.Canonical) {k} : (ssFetchDone d k).Canonical := by
  unfold Machine.ssFetchDone
  split
  exacts [.ite h.endRun h, h]

theorem checkOwn (h : d.Canonical) {e s l r sh nth} : (checkOwn d e s l r sh nth).1.Canonical := .ite_fst h.ownDigest h.ownDigest.engineWrite
theorem checkOwns (h : d.Canonical) {e s l run} : (checkOwns d e s l run).1.Canonical := h.foldl_fst fun _ _ h1 => .ite_fst h1 h1.checkOwn

theorem ssCheck (h : d.Canonical) {k e} : (ssCheck d k e).Canonical := by
  unfold Machine.ssCheck
  split
  · exact h
  · refine .ite h ?_
    refine .ite ?_ ?_
    · exact h.setCounted.traceEv.checkOwns.completeSet
    · exact ((h.setCounted.traceEv.checkOwns.update.foldl (fun _ _ h1 => h1.askRecord)).failUnasked).settleRun

theorem dropShardRids (h : d.Canonical) {k} : (dropShardRids d k).Canonical := h.update

theorem endSets (h : d.Canonical) {cells st} : (endSets d cells st).Canonical := by
  unfold Machine.endSets
  refine .foldl h ?_
  intro _ _ h1
  split
  exacts [.ite h1.dropShardRids.completeSet h1, h1]

theorem setsEdge (h : d.Canonical) : (setsEdge d).Canonical := h.update
theorem clearPub (h : d.Canonical) {s l} : (clearPub d s l).Canonical := h.foldl fun _ _ h1 => h1.engineWrite

theorem pubVersion (h : d.Canonical) {e s l sh} : (pubVersion d e s l sh).1.Canonical := by
  unfold Machine.pubVersion
  split
  exacts [h, h.engineRead]

theorem exportCopy (h : d.Canonical) {e s l sh addr} : (exportCopy d e s l sh addr).1.Canonical := by
  unfold Machine.exportCopy
  extract_lets c arrays
  split
  next d1 st v e1 =>
  have h1 : d1.Canonical := .of_eq h.pubVersion e1
  refine .ite_fst h1 ?_
  split
  next d2 st2 parts e2 =>
  have h2 : d2.Canonical := by
    refine .of_pair_eq e2 (.foldl_fst h1 fun _ _ h => .ite_fst h ?_)
    exact h.engineRead
  refine .ite_fst h2 ?_
  extract_lets sum file
  split
  next d3 st3 e3 =>
  have h3 : d3.Canonical := .of_eq h2.engineWrite e3
  split
  · exact h3
  · split
    next d4 st4 e4 =>
    have h4 : d4.Canonical := .of_eq h3.engineWrite e4
    exact h4

theorem endFileOp (h : d.Canonical) {k seq set st cause shard bytes} : (endFileOp d k seq set st cause shard bytes).Canonical := h.setOutcome.markOver

theorem stateExport (h : d.Canonical) {k e} : (stateExport d k e).Canonical := by
  unfold Machine.stateExport
  extract_lets begun
  split
  · exact h
  · split
    · split
      · exact h.endFileOp
      · refine .ite h.endFileOp (.ite ?_ ?_)
        · split
          next d1 st n v sum e1 =>
          have h1 : d1.Canonical := .of_eq h.exportCopy e1
          exact .ite h1.modCmd h1.endFileOp
        · split
          next d1 st v e1 =>
          have h1 : d1.Canonical := .of_eq h.pubVersion e1
          refine .ite h1.endFileOp (.ite ?_ h1.endFileOp)
          split
          next d2 st2 e2 => exact .endFileOp (.of_pair_eq e2 (.foldl_fst h1 fun _ _ h => h.engineWrite))
    · exact h

theorem poisonSpans (h : d.Canonical) {c spans} : (poisonSpans d c spans).Canonical := by
  unfold Machine.poisonSpans
  refine .foldl h ?_
  intro _ _ h1
  refine .foldl h1 ?_
  intro _ _ h2
  split
  exacts [h2.poisonRange, h2]

theorem importParts (h : d.Canonical) {e c s kh addr} : (importParts d e c s kh addr).1.Canonical := by
  unfold Machine.importParts
  exact h.foldl_fst fun _ _ h1 => .ite_fst h1 h1.engineRead

theorem writeSpans (h : d.Canonical) {c writes} : (writeSpans d c writes).1.Canonical := h.foldl_fst fun _ _ h1 => .ite_fst h1 h1.engineWrite

theorem stateImport (h : d.Canonical) {k e} : (stateImport d k e).Canonical := by
  unfold Machine.stateImport
  split
  · exact h
  · split
    · split
      · exact h.endFileOp
      · refine .ite h.engineRead.endFileOp ?_
        refine .ite h.engineRead.endFileOp ?_
        refine .ite h.engineRead.importParts.endFileOp ?_
        refine .ite h.engineRead.importParts.modCmd.writeSpans.endFileOp ?_
        refine .ite ?_ ?_
        · exact h.engineRead.importParts.modCmd.writeSpans.endFileOp
        · exact h.engineRead.importParts.modCmd.writeSpans.poisonSpans.endFileOp
    · exact h

theorem setRegs (h : d.Canonical) {c s} : (setRegs d c s).Canonical :=
  h.fset.fset.fset.fset.fset.fset.fset.fset.rset.rset.rset.fset.foldl fun _ _ h1 => h1.rset

theorem clvInstall (h : d.Canonical) {c} : (clvInstall d c).Canonical := by
  unfold Machine.clvInstall
  split
  · exact h.update.wipeRegs.fset
  · exact ((h.update.wipeRegs.fset.foldl (fun _ _ h1 => h1.groupRegs)).foldl (fun _ _ h1 => h1.slotRegs)).foldl fun _ _ h1 => h1.setRegs

/-! ## Remote access -/

theorem freeBytes (h : d.Canonical) {n} : (freeBytes d n).1.Canonical := by
  induction n generalizing d with
  | zero => exact h
  | succ n ih => exact ih h.takeFree

theorem endUse (h : d.Canonical) {r st bytes} : (endUse d r st bytes).Canonical := by
  unfold Machine.endUse
  split
  · exact h.loadBack
  · exact h.storeBack
  · exact h.laneBack
  · exact h.update
  · exact h.dmaReadBack
  · exact h.dmaReadBack
  · exact h.dmaWriteBack
  · exact h
  · exact h
  · exact h.copyBack
  · exact h.copyBack
  · exact h.shardBack
  · exact h.bar2Back
  · exact h.ingestBack

theorem completeRid (h : d.Canonical) {rid st bytes} : (completeRid d rid st bytes).Canonical := by
  unfold Machine.completeRid
  split
  · exact h
  · split
    next e1 =>
      exact .endUse (.freeRid (.of_eq (.ite_fst h.freeBytes h) e1))

theorem failRequest (h : d.Canonical) {m} : (failRequest d m).Canonical := by
  unfold Machine.failRequest
  split
  exacts [h.completeRid, h.completeRid, h.completeRid, h]

theorem responseCame (h : d.Canonical) {m st bytes} : (responseCame d m st bytes).Canonical := by
  unfold Machine.responseCame
  split
  exacts [h.fcount, .ite h.fcount h.completeRid]

theorem rdRsp (h : d.Canonical) : (rdRsp d).Canonical := by
  unfold Machine.rdRsp
  split
  · exact h
  next e =>
    split
    exacts [(h.takeMsg e).responseCame, h.takeMsg e]

theorem wrRsp (h : d.Canonical) : (wrRsp d).Canonical := by
  unfold Machine.wrRsp
  split
  · exact h
  next e =>
    split
    exacts [(h.takeMsg e).responseCame, h.takeMsg e]

theorem gaugeRsp (h : d.Canonical) : (gaugeRsp d).Canonical := by
  unfold Machine.gaugeRsp
  split
  · exact h
  next e =>
    split
    exacts [(h.takeMsg e).responseCame, h.takeMsg e]

theorem remoteTimeout (h : d.Canonical) {rid t} : (remoteTimeout d rid t).Canonical := by
  unfold Machine.remoteTimeout
  dsimp only
  split
  exacts [h.atTime, .ite h.atTime h.atTime.fcount.update.endUse]

theorem ridReuseTimeout (h : d.Canonical) {rid t} : (ridReuseTimeout d rid t).Canonical := by
  unfold Machine.ridReuseTimeout
  dsimp only
  split
  exacts [h.atTime, .ite h.atTime.freeRid h.atTime]

theorem respond (h : d.Canonical) {m body} : (respond d m body).Canonical := h.update
theorem refuseRemote (h : d.Canonical) {m a n write cause} : (refuseRemote d m a n write cause).Canonical :=
  .recordRefusal (.fcount (.ite h h.countDeny))

theorem remoteRd (h : d.Canonical) {e} : (remoteRd d e).Canonical := by
  unfold Machine.remoteRd
  dsimp only
  split
  · exact h
  next e1 =>
    split
    · split
      · exact (((h.takeMsg e1).countWalk).refuseRemote).respond
      · exact .ite (((h.takeMsg e1).countWalk).respond) ((((h.takeMsg e1).countWalk).agentLoad).respond)
    · exact h.takeMsg e1

theorem remoteWr (h : d.Canonical) : (remoteWr d).Canonical := by
  unfold Machine.remoteWr
  dsimp only
  split
  · exact h
  next e =>
    split
    · split
      · exact (((h.takeMsg e).countWalk).refuseRemote).respond
      · refine .ite ?_ ?_
        · exact ((h.takeMsg e).countWalk).respond
        · exact .ite ((((h.takeMsg e).countWalk).agentStore).respond) (((h.takeMsg e).countWalk).agentStore)
    · exact h.takeMsg e

theorem remoteGauge (h : d.Canonical) : (remoteGauge d).Canonical := by
  unfold Machine.remoteGauge
  split
  · exact h
  next e =>
    split
    · refine .ite (.ite ((h.takeMsg e).respond) (.ite ((h.takeMsg e).respond) (((h.takeMsg e).applyCellGauge).respond))) ?_
      split
      · exact (h.takeMsg e).respond
      · exact .ite ((h.takeMsg e).respond) (.ite ((h.takeMsg e).respond) (((h.takeMsg e).applyPatchGauge).respond))
    · exact h.takeMsg e

/-! ## Trafort links -/

theorem setPortState (h : d.Canonical) {p st reason} : (setPortState d p st reason).Canonical :=
  .ite h.fset.fset.rsetBit.rsetBit.rsetBit h.fset.fset.rsetBit.rsetBit.rsetBit.raiseBoth
theorem noteLanes (h : d.Canonical) {p} : (noteLanes d p).Canonical := h.fset
theorem applyWidth (h : d.Canonical) {p} : (applyWidth d p).Canonical := (((h.foldl (fun _ _ h1 => h1.fset)).fset).fset).noteLanes
theorem lanesDown (h : d.Canonical) {p} : (lanesDown d p).Canonical := ((h.foldl (fun _ _ h1 => h1.fset)).fset).fset
theorem discardMsg (h : d.Canonical) {m} : (discardMsg d m).Canonical := .ite h.failRequest.clvDiscarded h
theorem portTakedown (h : d.Canonical) {p st reason} : (portTakedown d p st reason).Canonical :=
  h.slcFlitsFreed.modPort.update.lanesDown.fset.setPortState.fset.foldl fun _ _ h1 => h1.discardMsg
theorem portRetire (h : d.Canonical) {p reason} : (portRetire d p reason).Canonical := h.portTakedown.addFault
theorem portDisable (h : d.Canonical) {p reason} : (portDisable d p reason).Canonical := h.portTakedown.addFault
theorem portTrain (h : d.Canonical) {p accepted} : (portTrain d p accepted).Canonical := .ite h (.ite h.modPort.setPortState h.modPort.setPortState)
theorem cablePresent (h : d.Canonical) {p present accepted} : (cablePresent d p present accepted).Canonical :=
  .ite h.modPort.portTrain (.ite h.modPort h.modPort.portTakedown)
theorem trfPortUp (h : d.Canonical) {p peerNode peerPort} : (trfPortUp d p peerNode peerPort).Canonical :=
  .ite h (.ite h.setPortState h.modPort.applyWidth.fset.fset.fset.setPortState)
theorem portTrainTimeout (h : d.Canonical) {p} : (portTrainTimeout d p).Canonical := .ite h.setPortState h
theorem portTrainRetry (h : d.Canonical) {p accepted} : (portTrainRetry d p accepted).Canonical := h.portTrain
theorem startRetrain (h : d.Canonical) {p} : (startRetrain d p).Canonical := h.fcount.modPort
theorem resendAll (h : d.Canonical) {p} : (resendAll d p).Canonical := h.modPort.slcRewind
theorem portRetrainDone (h : d.Canonical) {p locked} : (portRetrainDone d p locked).Canonical :=
  .ite h (.ite h.modPort.resendAll (.ite h.portRetire h.modPort.startRetrain))
theorem retryLimit (h : d.Canonical) {p} : (retryLimit d p).Canonical := .ite h.portRetire h.modPort.startRetrain
theorem nodeIdWrite (h : d.Canonical) {by_ v} : (nodeIdWrite d by_ v).Canonical :=
  .ite h (h.fset.fset.fset.foldl (fun _ _ h1 => .ite h1.startRetrain h1))
theorem wantWidth (h : d.Canonical) {p l epoch} : (wantWidth d p l epoch).Canonical := h.modPort.emit

theorem laneRetire (h : d.Canonical) {p l cause epoch} : (laneRetire d p l cause epoch).Canonical := by
  unfold Machine.laneRetire
  refine .ite h ?_
  refine .ite ?_ ?_
  · exact h.fset.fset.noteLanes.addFault.modPort.portRetire
  · exact .ite h.fset.fset.noteLanes.addFault.modPort.portRetire h.fset.fset.noteLanes.addFault.modPort.wantWidth

theorem laneCounts (h : d.Canonical) {p l ce ucw} : (laneCounts d p l ce ucw).Canonical := by
  unfold Machine.laneCounts
  refine .ite ?_ ?_
  · exact h.fcount.fcount.fcount.fcount.laneRetire
  · exact .ite h.fcount.fcount.fcount.fcount.laneRetire h.fcount.fcount.fcount.fcount

theorem laneControlBlock (h : d.Canonical) {p own ask t} : (laneControlBlock d p own ask t).Canonical := by
  unfold Machine.laneControlBlock
  refine .ite h.atTime ?_
  split
  · exact (h.atTime.foldl (fun _ _ h1 => h1.laneCounts)).laneRetire
  · exact h.atTime.foldl fun _ _ h1 => h1.laneCounts

theorem laneLossOfLock (h : d.Canonical) {p l flag t} : (laneLossOfLock d p l flag t).Canonical := h.atTime.laneRetire
theorem cmisPoll (h : d.Canonical) {p flags t} : (cmisPoll d p flags t).Canonical :=
  .ite h.atTime (h.atTime.foldl (fun _ _ h1 => .ite h1.laneRetire h1))
theorem laneWindowExpire (h : d.Canonical) {p l} : (laneWindowExpire d p l).Canonical := h.fset.fset

theorem widthChange (h : d.Canonical) {p} : (widthChange d p).Canonical := by
  unfold Machine.widthChange
  split
  exacts [h, .ite h h.modPort.applyWidth.fset.setPortState]

theorem reconfigDone (h : d.Canonical) {p} : (reconfigDone d p).Canonical := .ite h.setPortState.resendAll h
theorem sendFlit (h : d.Canonical) {p q f} : (sendFlit d p q f).Canonical := .emit (.fset (.ite h.modPort.fcount h.modPort))
theorem sendAgain (h : d.Canonical) {p kh rest} : (sendAgain d p kh rest).Canonical := h.fcount.slcFlitAgain.sendFlit

theorem flitTransmit (h : d.Canonical) {p} : (flitTransmit d p).Canonical := by
  unfold Machine.flitTransmit
  refine .ite h ?_
  split
  · split
    exacts [.ite h.retryLimit h.sendAgain, h.modPort]
  · exact .ite h.sendFlit (.ite h.sendFlit h.slcFlit.sendFlit)

theorem ackUpTo (h : d.Canonical) {p next} : (ackUpTo d p next).Canonical := by
  unfold Machine.ackUpTo
  exact h.slcFlitsFreed.modPort

theorem acceptMsg (h : d.Canonical) {p m} : (acceptMsg p d m).Canonical := by
  unfold Machine.acceptMsg
  split
  · exact h.modPort.fcount
  · exact h.modPort.fcount
  · exact h.modPort.fcount
  · exact .ite h.modPort.update (.ite h.modPort.update (.ite h.modPort.fcount.discardMsg h.modPort.update))

theorem flitReceive (h : d.Canonical) {p f} : (flitReceive d p f).Canonical := by
  unfold Machine.flitReceive
  refine .ite h ?_
  refine .ite h.fcount.modPort ?_
  refine .ite (.fset (.ite h.modPort.ackUpTo.resendAll h.modPort.ackUpTo)) ?_
  refine .ite ?_ ?_
  · exact .modPort (.fset (.ite h.modPort.ackUpTo.resendAll h.modPort.ackUpTo))
  · exact .foldl (.modPort (.fset (.ite h.modPort.ackUpTo.resendAll h.modPort.ackUpTo))) fun _ _ h1 => h1.acceptMsg

theorem replayTimeout (h : d.Canonical) {p} : (replayTimeout d p).Canonical := .ite h.resendAll h

theorem queueMsg (h : d.Canonical) {p m} : (queueMsg d p m).Canonical := by
  unfold Machine.queueMsg
  exact h.update.modPort

theorem messageRoute (h : d.Canonical) {t} : (messageRoute d t).Canonical := by
  unfold Machine.messageRoute
  dsimp only
  split
  · exact h.atTime
  · refine .ite h.atTime.update ?_
    split
    exacts [h.atTime.update.queueMsg, h.atTime.update.fcount.discardMsg]

theorem trfPortDisable (h : d.Canonical) {by_ p v accepted} : (trfPortDisable d by_ p v accepted).Canonical :=
  .ite h (.ite h.fset.portDisable (.ite h.fset.setPortState.portTrain h.fset))
theorem trfPortRetrain (h : d.Canonical) {by_ p v} : (trfPortRetrain d by_ p v).Canonical := .ite h.startRetrain h
theorem trfCmisGo (h : d.Canonical) {p v} : (trfCmisGo d p v).Canonical := .ite h.fset.fset.fset.fset.modPort h.fset.fset

theorem trfCmisDone (h : d.Canonical) {p data} : (trfCmisDone d p data).Canonical := by
  unfold Machine.trfCmisDone
  refine .ite h ?_
  split
  exacts [h.modPort.fset.rset, h.modPort.fset.fset]

theorem trfCtrClr (h : d.Canonical) {v} : (trfCtrClr d v).Canonical := .ite h (h.rset.foldl (fun _ _ h1 => h1.rset.rset))

theorem netInstall (h : d.Canonical) {n} : (netInstall d n).Canonical := by
  unfold Machine.netInstall
  split
  · exact h.wipeRegs
  · exact (h.wipeRegs.foldl (fun _ _ h1 => .ite h1 h1.fset.fset.fset.fset.fset.fset)).foldl fun _ _ h1 => h1.fset

/-! ## Levees and resets -/

theorem leveeRecord (h : d.Canonical) {s} : (leveeRecord d s).Canonical := h.fcount.addFault
theorem resetCells (h : d.Canonical) {p} : (resetCells d p).Canonical :=
  (((((h.foldl (fun _ _ h1 => h1.stopCell)).latchChains).latchInsts).endSets).resetRegs).foldl fun _ _ h1 => .ite h1.modCell.fset h1.modCell
theorem resetRgnGauges (h : d.Canonical) {p} : (resetRgnGauges d p).Canonical := .ite h h.update
theorem resetRegions (h : d.Canonical) {p} : (resetRegions d p).Canonical :=
  h.resetCells.resetRgnGauges.resetRegs.update.foldl fun _ _ h1 => h1.modCell
theorem resetStage (h : d.Canonical) : (resetStage d).Canonical := .ite h h.markOverOpt.markOverOpt.emptyStage
theorem resetTrafort (h : d.Canonical) {t} : (resetTrafort d t).Canonical :=
  h.foldl fun _ _ h1 => (h1.portTakedown.foldl (fun _ _ h2 => h2.slcEmpty)).resetRegs
theorem dropPortRids (h : d.Canonical) {p} : (dropPortRids d p).Canonical := h.update
theorem stopRings (h : d.Canonical) {p} : (stopRings d p).Canonical :=
  (h.dropPortRids.foldl (fun _ _ h1 => h1.markOver)).foldl fun _ _ h1 => .ite h1.fset.modRing h1
theorem resetFunction (h : d.Canonical) {p} : (resetFunction d p).Canonical :=
  h.stopRings.modPcie.rset.rset.endSessions.endIde.fset.update.foldl fun _ _ h1 => h1.slcEmpty
theorem functionReset (h : d.Canonical) {p} : (functionReset d p).Canonical := h.leveeRecord.resetFunction
theorem resetPciePort (h : d.Canonical) {p} : (resetPciePort d p).Canonical := h.resetFunction.resetRegs.modPcie.fset
theorem answerPeers (h : d.Canonical) : (answerPeers d).Canonical :=
  (((h.update.foldl (fun _ _ h1 => h1.respond)).foldl (fun _ _ h1 => h1.dropHeld)).foldl (fun _ _ h1 => h1.messageRoute)).foldl
      fun _ _ h1 => h1.foldl (fun _ _ h2 => h2.flitTransmit)

theorem resetDevice (h : d.Canonical) : (resetDevice d).Canonical := by
  unfold Machine.resetDevice
  extract_lets tides d1 d2 d3 keep d4 d5 d6 d7 d8 d9
  have h3 : d3.Canonical := (h.answerPeers.foldl fun _ _ h => h.portTakedown).foldl fun _ _ h => h.resetFunction
  have h7 : d7.Canonical := h3.resetRegs.rset.rset.rset.fset.foldl fun _ _ h => h.rset
  have h9 : d9.Canonical := h7.fset.fset.fset
  clear_value d9
  exact ⟨smKeep_wf h9.mem tierAddr, h9.regs, smKeep_wf h9.poison tierGran⟩

theorem resetKeeper (_h : d.Canonical) : (resetKeeper d).Canonical := Dev.Canonical.devReset.update.fset.fset.fset.fset

theorem resetScope (h : d.Canonical) {s} : (resetScope d s).Canonical := by
  unfold Machine.resetScope
  split
  · exact h.resetCells.tryArrive
  · exact h.resetRegions.resetStage.tryArrive
  · exact .ite h.resetTrafort h.resetPciePort
  · exact h.resetRegions.resetStage.update.tryArrive
  · exact h.resetDevice
  · exact h.resetKeeper

theorem kprRespond (h : d.Canonical) {q st more data} : (kprRespond d q st more data).Canonical := .ite h.respPut.raiseEvent h.respPut

theorem noteResets (h : d.Canonical) : (noteResets d).Canonical := by
  unfold Machine.noteResets
  dsimp only
  split
  exacts [h.fset, h.fset.fset.fset]

theorem requestReset (h : d.Canonical) {scope target owed} : (requestReset d scope target owed).Canonical := by
  unfold Machine.requestReset
  refine .ite ?_ (.noteResets (.update (.ite h.endDebug h)))
  split
  exacts [.update (.ite h.endDebug h), .ite h.endDebug h]

theorem leveeRaise (h : d.Canonical) {scope target} : (leveeRaise d scope target).Canonical :=
  .ite h h.update.leveeRecord.resetScope.noteResets.bar2Wake

theorem leveeLower (h : d.Canonical) {scope target} : (leveeLower d scope target).Canonical := by
  unfold Machine.leveeLower
  split
  exacts [h, .ite h (h.update.fcount.noteResets.foldl (fun _ _ h1 => h1.kprRespond))]

theorem endResets (h : d.Canonical) : (endResets d).Canonical := h.update.noteResets.foldl fun _ _ h1 => h1.kprRespond

/-! ## Polders -/

theorem powerNote (h : d.Canonical) : (powerNote d).Canonical := .ite h (.ite h.update.fset h.update.fset.raiseBoth)

theorem regionsDark (h : d.Canonical) {p} : (regionsDark d p).Canonical := by
  unfold Machine.regionsDark
  extract_lets d1
  have h1 : d1.Canonical := ⟨smKeep_wf h.mem (fun a => !nearIn p a), h.regs, smKeep_wf h.poison (fun g => !nearIn p (64 * g))⟩
  exact h1.foldl fun _ _ h => .ite h h.rsetBit.rsetBit.update.fset

theorem regionOff (h : d.Canonical) {r} : (regionOff d r).Canonical := by
  unfold Machine.regionOff
  exact h.leveeRecord.resetRegions.resetStage.bar2Wake.regionsDark

theorem regionsOff (h : d.Canonical) {p} : (regionsOff d p).Canonical := h.foldl fun _ _ h1 => h1.regionOff
theorem regionOn (h : d.Canonical) {r} : (regionOn d r).Canonical := .ite h h.rsetBit.rsetBit.fset
theorem failMisses (h : d.Canonical) {ddr st} : (failMisses d ddr st).Canonical := h.update

theorem tierOff (h : d.Canonical) {ddr} : (tierOff d ddr).Canonical := by
  unfold Machine.tierOff
  extract_lets d1 lost d2 d3 d4
  have h1 : d1.Canonical := h.failMisses
  have h2 : d2.Canonical := ⟨smKeep_wf h1.mem (fun a => !lost a), h1.regs, smKeep_wf h1.poison (fun g => !lost (64 * g))⟩
  exact .tierReady (.ite h2.resetRegs.fset h2.resetRegs.fset)

theorem tierOn (h : d.Canonical) {ddr} : (tierOn d ddr).Canonical := .ite h.fset.rsetBit.fset h.fset.rsetBit.fset
theorem trafortOff (h : d.Canonical) {i} : (trafortOff d i).Canonical :=
  (h.leveeRecord.foldl (fun _ _ h1 => .foldl (.ite h1 h1.portDisable) (fun _ _ h2 => h2.slcEmpty))).rsetBit
theorem trafortOn (h : d.Canonical) {i} : (trafortOn d i).Canonical := h.rsetBit.foldl fun _ _ h1 => .ite h1.setPortState h1
theorem testOff (h : d.Canonical) : (testOff d).Canonical := h.update.resetRegs.update.rsetBit
theorem testOn (h : d.Canonical) : (testOn d).Canonical := h.rsetBit
theorem d3Enter (h : d.Canonical) : (d3Enter d).Canonical := h.regionsOff.testOff.update.fset.raiseBoth
theorem d3Leave (h : d.Canonical) : (d3Leave d).Canonical :=
  .powerNote (.raiseBoth (.fset (.update (.ite ((h.foldl (fun _ _ h1 => .ite h1 h1.regionOn)).testOn) (h.foldl
      (fun _ _ h1 => .ite h1 h1.regionOn))))))
theorem d3Check (h : d.Canonical) : (d3Check d).Canonical := .ite (.ite h h.d3Leave) (.ite h (.ite (.ite h.update h.d3Enter) h.update))

/-! ## PCI Express ports -/

theorem msixDeliver (h : d.Canonical) {p} : (msixDeliver d p).Canonical := .ite h (h.foldl (fun _ _ h1 => .ite h1.modPcie.emit h1))
theorem msixTableWrite (h : d.Canonical) {p n addr data masked} : (msixTableWrite d p n addr data masked).Canonical := .ite h h.modPcie.msixDeliver
theorem functionLevelReset (h : d.Canonical) {p} : (functionLevelReset d p).Canonical := h.functionReset.d3Check
theorem hotReset (h : d.Canonical) {p} : (hotReset d p).Canonical := h.functionReset.d3Check
theorem pcieLinkDown (h : d.Canonical) {p} : (pcieLinkDown d p).Canonical := .ite h h.functionReset.fset.fset.fset.fset.fset.d3Check
theorem pcieLinkUp (h : d.Canonical) {p rate width l0p} : (pcieLinkUp d p rate width l0p).Canonical :=
  .ite h (.d3Check (.fset (.fset (.fset (.fset (.fset (.ite h.fcount h)))))))
theorem perstAssert (h : d.Canonical) {p} : (perstAssert d p).Canonical := .ite h h.modPcie.fset.requestReset
theorem perstDeassert (h : d.Canonical) {p} : (perstDeassert d p).Canonical := h.modPcie
theorem configSpaceReady (h : d.Canonical) {p} : (configSpaceReady d p).Canonical := .ite h h.fset.rsetBit.modPcie
theorem dStateChange (h : d.Canonical) {p d3} : (dStateChange d p d3).Canonical := .ite h h.fset.d3Check
theorem ideIntegrityFail (h : d.Canonical) {p stream} : (ideIntegrityFail d p stream).Canonical := .ite h h.fset.fset.raiseBoth
theorem mbxPush (h : d.Canonical) {p} : (mbxPush d p).Canonical := .ite h h.slcHostPut
theorem mbxPop (h : d.Canonical) {p} : (mbxPop d p).Canonical := .ite h h.slcTake.slcRelease

theorem cfgWrite (h : d.Canonical) {p off mask v} : (cfgWrite d p off mask v).Canonical := by
  unfold Machine.cfgWrite
  refine .ite (.ite h.modPcie h) ?_
  refine .ite (.ite (.ite h.dStateChange (.ite h.dStateChange h)) h) ?_
  refine .ite ?_ ?_
  · exact .ite h.modPcie.msixDeliver h
  · exact .ite (.ite h.functionLevelReset h) (.ite (.ite (.mbxPop (.ite h.mbxPush h)) (.ite h.mbxPush h)) (.ite h.modPcie h))

theorem configRequest (h : d.Canonical) {p write reg mask v} : (configRequest d p write reg mask v).Canonical :=
  .ite h.emit (.ite h.cfgWrite h.takeFree.emit)
theorem bar2Read (h : d.Canonical) {p secure off n e} : (bar2Read d p secure off n e).Canonical := .ite h.answerUr (.ite h h.bar2Start)
theorem bar2Write (h : d.Canonical) {p secure off bytes ep} : (bar2Write d p secure off bytes ep).Canonical := .ite h.fcount (.ite h h.bar2Start)
theorem hifBar2BaseWrite (h : d.Canonical) {by_ p v} : (hifBar2BaseWrite d by_ p v).Canonical := .ite h.rset h
theorem unsupportedTlp (h : d.Canonical) {p posted} : (unsupportedTlp d p posted).Canonical := .ite h.fcount h.answerUr
theorem ingestWindowWrite (h : d.Canonical) {p secure off bytes} : (ingestWindowWrite d p secure off bytes).Canonical :=
  .ite h.fcount (.ite h.fcount (h.foldl (fun _ _ h1 => h1.slcHostPut)))
theorem ringError (h : d.Canonical) {k cause} : (ringError d k cause).Canonical := h.fset.fset.fset.raiseEvent
theorem doorbellTaken (h : d.Canonical) {k v} : (doorbellTaken d k v).Canonical := .ite h.fcount (.ite h.modRing h.ringError)

theorem doorbell (h : d.Canonical) {p} : (doorbell d p).Canonical := by
  unfold Machine.doorbell
  split
  exacts [h, h.slcTake.slcRelease.doorbellTaken]

theorem hifCtrClr (h : d.Canonical) {p v} : (hifCtrClr d p v).Canonical := .ite h.rset h

/-! ## Host commands -/

theorem capUpdate (h : d.Canonical) : (capUpdate d).Canonical := .ite h h.fset.raiseBoth
theorem setHostCap (h : d.Canonical) {watts} : (setHostCap d watts).Canonical := h.fset.capUpdate
theorem setShift (h : d.Canonical) {v} : (setShift d v).Canonical := .ite h h.fset.fcount.capUpdate
theorem noteInflight (h : d.Canonical) {k} : (noteInflight d k).Canonical := h.fset
theorem writeCompletion (h : d.Canonical) {k seq} : (writeCompletion d k seq).Canonical := h.emit
theorem moderate (h : d.Canonical) {k n} : (moderate d k n).Canonical := .ite h.modRing.raiseEvent h.modRing
theorem ringEnable (h : d.Canonical) {by_ k} : (ringEnable d by_ k).Canonical := .ite h h.wipeRegs.fset.fset.modRing.fset
theorem ringResume (h : d.Canonical) {by_ k} : (ringResume d by_ k).Canonical :=
  .ite h (((((h.foldl (fun _ _ h1 => h1.writeCompletion)).fset).fset).modRing).moderate)
theorem ringStop (h : d.Canonical) {by_ k} : (ringStop d by_ k).Canonical := .ite h h.fset
theorem ringDisable (h : d.Canonical) {by_ k} : (ringDisable d by_ k).Canonical := .ite h h.modRing.fset
theorem modTimeExpire (h : d.Canonical) {k} : (modTimeExpire d k).Canonical := .ite h h.modRing.raiseEvent

theorem readGauges (h : d.Canonical) {e far a n tag port} : (readGauges d e far a n tag port).1.Canonical := by
  unfold Machine.readGauges
  split
  next e1 =>
    exact h.fetchRange.of_eq e1
  next e1 =>
    exact h.fetchRange.of_eq e1
  next e1 =>
    exact .ite_fst (h.fetchRange.of_eq e1) (.ite_fst (h.fetchRange.of_eq e1) (h.fetchRange.of_eq e1))

theorem hostBreak (h : d.Canonical) {k tag} : (hostBreak d k tag).1.Canonical :=
  h.foldl_fst fun _ _ h1 => .ite_fst (.ite h1.bpHit.breakAll h1.bpHit) h1.fcount

theorem listOf (h : d.Canonical) {e far op tag p} : (listOf d e far op tag p).1.Canonical := by
  unfold Machine.listOf
  split
  exacts [h.readGauges, h]

theorem descriptorFetch (h : d.Canonical) {k bytes e far} : (descriptorFetch d k bytes e far).Canonical := by
  fun_cases Machine.descriptorFetch
  · exact h
  · exact h.ringError
  · exact h
  · exact h.ringError
  next d1 d2 d3 held hb d4 st detail lists hl _ _ _ =>
    have h2 : d2.Canonical := h.fset.fcount.traceEv
    have h3 : d3.Canonical := .of_eq h2.hostBreak hb
    have h4 : d4.Canonical := .of_eq h3.listOf hl
    exact h4.update.modRing.noteInflight

theorem startDue (h : d.Canonical) {k seq due} : (startDue d k seq due).Canonical := h.modCmd

theorem hostNop (h : d.Canonical) {k} : (hostNop d k).Canonical := by
  unfold Machine.hostNop
  split
  · split
    exacts [h.markOver, h]
  · exact h

theorem hostCopy (h : d.Canonical) {k host hostBad e} : (hostCopy d k host hostBad e).Canonical := by
  unfold Machine.hostCopy
  split
  · split
    exacts [.ite h h.copyRun, h]
  · exact h

theorem hostGauge (h : d.Canonical) {k} : (hostGauge d k).Canonical := by
  unfold Machine.hostGauge
  split
  · split
    exacts [h.modCmd.markOver, h]
  · exact h

theorem hostGaugeList (h : d.Canonical) {k} : (hostGaugeList d k).Canonical := by
  unfold Machine.hostGaugeList
  split
  · split
    exacts [h.markOver, h]
  · exact h

theorem hostIngestSet (h : d.Canonical) {k} : (hostIngestSet d k).Canonical := by
  unfold Machine.hostIngestSet
  split
  · split
    exacts [h.markOver, h]
  · exact h

theorem hostPatLoad (h : d.Canonical) {k} : (hostPatLoad d k).Canonical := by
  unfold Machine.hostPatLoad
  split
  · split
    · split
      next e2 =>
        exact (h.startLoad.of_eq e2).modCmd
      next e2 =>
        exact (h.startLoad.of_eq e2).markOver
    · exact h
  · exact h

theorem hostPatSwitch (h : d.Canonical) {k} : (hostPatSwitch d k).Canonical := by
  unfold Machine.hostPatSwitch
  split
  · split
    · split
      next e3 =>
        exact (h.startSwitch.of_eq e3).startDue
      next e3 =>
        exact (h.startSwitch.of_eq e3).markOver
    · exact h
  · exact h

theorem latchWork (h : d.Canonical) {k seq} : (latchWork d k seq).Canonical := by
  unfold Machine.latchWork
  split
  exacts [h, .ite h h.update.modCmd]

theorem hostPatDiscard (h : d.Canonical) {k} : (hostPatDiscard d k).Canonical := by
  unfold Machine.hostPatDiscard
  split
  · split
    · split
      next e2 =>
        exact ((h.discardStage.of_eq e2).markOver).latchWork
      next e2 =>
        exact (h.discardStage.of_eq e2).markOver
    · exact h
  · exact h

theorem hostSrSeed (h : d.Canonical) {k} : (hostSrSeed d k).Canonical := by
  unfold Machine.hostSrSeed
  split
  · split
    exacts [h.startDue, h]
  · exact h

theorem hostClvLayout (h : d.Canonical) {k} : (hostClvLayout d k).Canonical := by
  unfold Machine.hostClvLayout
  split
  · split
    exacts [h.startDue, h]
  · exact h

theorem hostCapSet (h : d.Canonical) {k} : (hostCapSet d k).Canonical := by
  unfold Machine.hostCapSet
  split
  · split
    exacts [.ite h.startDue h.setHostCap.writeFinal, h]
  · exact h

theorem hostReset (h : d.Canonical) {k} : (hostReset d k).Canonical := by
  unfold Machine.hostReset
  split
  · split
    exacts [h.markOver, h]
  · exact h

theorem spreadGauge (h : d.Canonical) {p gauge} : (spreadGauge d p gauge).Canonical := h.foldl fun _ _ h1 => h1.modCell

theorem applyHostGauges (h : d.Canonical) {xs} : (applyHostGauges d xs).Canonical := by
  unfold Machine.applyHostGauges
  refine .foldl h ?_
  intro _ _ h1
  refine .ite h1.applyCellGauge ?_
  split
  exacts [h1, .ite h1.applyPatchGauge.spreadGauge (h1.foldl (fun _ _ h2 => h2.sendPatchGauge))]

theorem gaugeResult (h : d.Canonical) {g} : (gaugeResult d g).1.Canonical := .ite_fst h h.takeFree

theorem commitGauges (h : d.Canonical) {cs edge} : (commitGauges d cs edge).Canonical := by
  unfold Machine.commitGauges
  refine .foldl h.applyHostGauges ?_
  intro _ _ h1
  refine .ite h1.writeFinal ?_
  refine .ite ?_ h1.writeFinal
  refine .writeFinal ?_
  refine .traceEv ?_
  split
  exacts [h1.gaugeResult, h1]

theorem commitIngest (h : d.Canonical) {p base log2 fill consumed} : (commitIngest d p base log2 fill consumed).Canonical := by
  unfold Machine.commitIngest
  exact h.rset.fset.fset.rset.modPcie

theorem commitCmd (h : d.Canonical) {k c edge} : (commitCmd d k c edge).Canonical := by
  unfold Machine.commitCmd
  refine .ite h ?_
  refine .ite h.commitGauges ?_
  split
  · exact .ite h.writeFinal.grefAdd h.writeFinal
  · exact .ite h.writeFinal (.ite h.writeFinal h.commitIngest.writeFinal)
  · exact h.writeFinal

theorem dropCopy (h : d.Canonical) {k seq} : (dropCopy d k seq).Canonical := h.update

theorem abortEffect (h : d.Canonical) {k c} : (abortEffect d k c).Canonical := by
  unfold Machine.abortEffect
  split
  · exact h.dropCopy
  · exact .ite h.discardStage h
  · split
    exacts [h.poisonSpans, h]
  · exact h

theorem abortTarget (h : d.Canonical) {k c edge} : (abortTarget d k c edge).Canonical := .writeFinal (.ite h.patFail h.abortEffect)

theorem finalStatus (h : d.Canonical) {k seq} : (finalStatus d k seq).1.Canonical := by
  unfold Machine.finalStatus
  split
  · split
    exacts [h, h.takeFree]
  · exact .ite_fst h h.takeFree

theorem startAbort (h : d.Canonical) {k c} : (startAbort d k c).Canonical := by
  unfold Machine.startAbort
  split
  · exact h
  · refine .ite h.markOver ?_
    refine .ite h.markOver ?_
    split
    · exact h.finalStatus.markOver
    · exact .ite h.finalStatus.markOver (.ite h.modCmd (.ite h.modCmd.modCmd.withdrawSwitch h.modCmd.modCmd))

theorem startAborts (h : d.Canonical) : (startAborts d).Canonical := by
  unfold Machine.startAborts
  refine .foldl h ?_
  intro _ _ h1
  refine .foldl h1 ?_
  intro _ _ h2
  split
  exacts [.ite h2.startAbort h2, h2]

theorem resolveWins (h : d.Canonical) {edge} : (resolveWins d edge).Canonical := h.foldl fun _ _ h1 => .ite h1.abortTarget.writeFinal h1

theorem resolveLate (h : d.Canonical) {edge} : (resolveLate d edge).Canonical := by
  unfold Machine.resolveLate
  refine .foldl h ?_
  intro _ _ h1
  split
  exacts [.ite h1.finalStatus.writeFinal h1, h1]

theorem commitNow (h : d.Canonical) {k seq} : (commitNow d k seq).Canonical := by
  unfold Machine.commitNow
  split
  · exact h
  · refine .ite h ?_
    split
    exacts [h.commitCmd.requestReset, h.commitCmd]

theorem commandWorkEnd (h : d.Canonical) {k seq} : (commandWorkEnd d k seq).Canonical := .ite h.latchWork h.latchWork.commitNow

theorem hostAbort (h : d.Canonical) {k} : (hostAbort d k).Canonical := by
  unfold Machine.hostAbort
  split
  · exact h
  · split
    · exact h
    · refine .ite h.startAbort.latchWork ?_
      refine .commitNow ?_
      refine .resolveLate ?_
      split
      exacts [.ite h.startAbort.resolveWins.commitNow h.startAbort.resolveWins, h.startAbort.resolveWins]

theorem closeOffer (h : d.Canonical) {p st detail result} : (closeOffer d p st detail result).Canonical := by
  unfold Machine.closeOffer
  refine .fset ?_
  split
  exacts [h.writeFinal, h]

theorem transferOwner (h : d.Canonical) {p k seq} : (transferOwner d p k seq).Canonical := h.fset.closeOffer.writeFinal

theorem hostHandover (h : d.Canonical) {k} : (hostHandover d k).Canonical := by
  unfold Machine.hostHandover
  split
  · split
    exacts [.ite h.markOver (.ite h.transferOwner h.modCmd.fset), h]
  · exact h

theorem hostHandoverAck (h : d.Canonical) {k} : (hostHandoverAck d k).Canonical := by
  unfold Machine.hostHandoverAck
  split
  · split
    exacts [.ite h.transferOwner h.markOver, h]
  · exact h

theorem handoverExpire (h : d.Canonical) {p} : (handoverExpire d p).Canonical := .ite h.closeOffer h
theorem cancelOffers (h : d.Canonical) : (cancelOffers d).Canonical := h.foldl fun _ _ h1 => .ite h1.closeOffer h1
theorem recordCompletion (h : d.Canonical) {k c f} : (recordCompletion d k c f).Canonical := h.rset.rset.rset.rset

theorem completionPost (h : d.Canonical) {k good} : (completionPost d k good).Canonical := by
  unfold Machine.completionPost
  split
  · exact h
  · split
    · exact h
    · refine .ite (.modRing (.noteInflight (.modRing (.ite h.recordCompletion.fset.fcount h.recordCompletion.fset)))) ?_
      refine .ite ?_ ?_
      · exact .moderate (.writeCompletion (.noteInflight (.modRing (.ite h.recordCompletion.fset.fcount h.recordCompletion.fset))))
      · exact .ringError (.modRing (.noteInflight (.modRing (.ite h.recordCompletion.fset.fcount h.recordCompletion.fset))))

/-! ## Power -/

theorem pwrPolderOffWrite (h : d.Canonical) {by_ v} : (pwrPolderOffWrite d by_ v).Canonical := by
  unfold Machine.pwrPolderOffWrite
  refine .ite h ?_
  refine .ite ?_ ?_
  · exact h.rset
  · exact ((h.rset.foldl (fun _ _ h1 => .ite (.ite h1.update h1.regionOff) (.ite (.ite h1.update h1.regionOn) h1))).powerNote).tryArrive

theorem regionsDue (h : d.Canonical) : (regionsDue d).Canonical := .ite h (((h.foldl (fun _ _ h1 => .ite h1.regionOff h1)).update).powerNote)
theorem ddrOn (h : d.Canonical) : (ddrOn d).Canonical := .ite h.update.tierOn h.update

theorem pwrPolderOffHiWrite (h : d.Canonical) {by_ v} : (pwrPolderOffHiWrite d by_ v).Canonical := by
  unfold Machine.pwrPolderOffHiWrite
  extract_lets new hbm ddr old d1 off on d2 d3 d4 d5
  have h1 : d1.Canonical := h.rset
  have h2 : d2.Canonical := .ite h1.tierOff (.ite h1.tierOn h1)
  have h3 : d3.Canonical := .ite h2.tierOff (.ite h2.ddrOn h2)
  have h4 : d4.Canonical := h3.foldl fun _ _ h => .ite h.trafortOff (.ite h.trafortOn h)
  have h5 : d5.Canonical := .ite h4 (.ite h4.testOff (.ite h4.testOn h4))
  exact .ite h (.ite h.fcount (.ite h1 h5.powerNote))

theorem pwrCtrClr (h : d.Canonical) {v} : (pwrCtrClr d v).Canonical := .ite h.rset h

theorem notePool (h : d.Canonical) : (notePool d).Canonical := by
  unfold Machine.notePool
  split <;> exact h.fset.fset

theorem slackReport (h : d.Canonical) : (slackReport d).Canonical := by
  unfold Machine.slackReport
  split
  · exact h
  next e =>
    split
    exacts [.ite (h.takeMsg e) (((h.takeMsg e).update).sendMgmt), h.takeMsg e]

theorem slackReportAck (h : d.Canonical) : (slackReportAck d).Canonical := by
  unfold Machine.slackReportAck
  split
  · exact h
  next e =>
    exact (h.takeMsg e).update

theorem shiftInterval (h : d.Canonical) : (shiftInterval d).Canonical := by
  unfold Machine.shiftInterval
  dsimp only
  split
  · exact h
  · refine .ite h ?_
    split
    exacts [h.update, h.update.sendMgmt.sendMgmt]

theorem budgetShift (h : d.Canonical) : (budgetShift d).Canonical := by
  unfold Machine.budgetShift
  split
  · exact h
  next e =>
    split
    exacts [.ite ((h.takeMsg e).update) (((h.takeMsg e).update).setShift), h.takeMsg e]

theorem shiftTimeout (h : d.Canonical) : (shiftTimeout d).Canonical := .ite h.update.setShift h
theorem freeStatus (h : d.Canonical) : (freeStatus d).1.Canonical := h.takeFree
theorem keeperOnly (h : d.Canonical) {last} : (keeperOnly d last).Canonical :=
  ((((h.resetRegs.rset.rset.fset.rset.foldl (fun _ _ h1 => h1.rset)).fset).fset).fset).mix Dev.Canonical.devReset Dev.Canonical.devReset
theorem powerOffAll (_h : d.Canonical) : (powerOffAll d).Canonical := Dev.Canonical.devReset.update
theorem stopLatch (h : d.Canonical) {last} : (stopLatch d last).Canonical := h.endDebug.endResets.rset.rset.update
theorem hwStop (h : d.Canonical) {last} : (hwStop d last).Canonical := .ite h h.stopLatch
theorem linksStop (h : d.Canonical) : (linksStop d).Canonical :=
  (h.foldl (fun _ _ h1 => h1.portTakedown)).foldl fun _ _ h1 => h1.fset.fset.fset.fset.fset.endSessions.endIde
theorem tiersDark (h : d.Canonical) : (tiersDark d).Canonical := h.tierOff.tierOff

theorem coolantStopStage (h : d.Canonical) : (coolantStopStage d).Canonical := by
  unfold Machine.coolantStopStage
  split
  · exact h
  · split
    · exact h.linksStop.update
    · exact h.regionsDark.testOff.update
    · exact h.tiersDark.update
    · exact .ite h.keeperOnly h.keeperOnly.powerOffAll

theorem coolRecord (h : d.Canonical) {cause} : (coolRecord d cause).Canonical := h.freeStatus.addFault
theorem coolFailAssert (h : d.Canonical) : (coolFailAssert d).Canonical := .ite h.update h.update.hwStop.coolRecord
theorem coolFailDeassert (h : d.Canonical) {t} : (coolFailDeassert d t).Canonical := .ite h h.atTime.update

/-! ## Start-up -/

theorem readCarrier (h : d.Canonical) {carrier} : (readCarrier d carrier).Canonical := h.fset.fset.rset.rset.update
theorem takeNodeId (h : d.Canonical) : (takeNodeId d).Canonical := .ite h h.fset.fset.fset
theorem noteWaiting (h : d.Canonical) : (noteWaiting d).Canonical := .ite h.fset h
theorem vauxPresent (h : d.Canonical) : (vauxPresent d).Canonical := .ite h h.powerOffAll.update.rset
theorem vauxLoss (h : d.Canonical) : (vauxLoss d).Canonical := .ite h (.ite h.update.powerOffAll h.update.hwStop)
theorem vinMainPresent (h : d.Canonical) : (vinMainPresent d).Canonical := h.update.noteWaiting
theorem vinMainLoss (h : d.Canonical) : (vinMainLoss d).Canonical := h.update.hwStop.noteWaiting
theorem vddqPresent (h : d.Canonical) : (vddqPresent d).Canonical := .ite h.update.ddrOn.powerNote h.update
theorem vddqLoss (h : d.Canonical) : (vddqLoss d).Canonical := .ite h.update.tierOff.powerNote h.update
theorem vddqWaitTimeout (h : d.Canonical) : (vddqWaitTimeout d).Canonical := .ite h (((h.foldl (fun _ _ h1 => h1.fset.fset)).update).fset)
theorem sysclkStable (h : d.Canonical) : (sysclkStable d).Canonical := h.update
theorem strapLatch (h : d.Canonical) {tide own} : (strapLatch d tide own).Canonical := .ite h h.update.fset.fset.fset
theorem drawNonce (h : d.Canonical) : (drawNonce d).Canonical := h.update.rset.rset

theorem startLifecycle (h : d.Canonical) {prec} : (startLifecycle d prec).1.Canonical := by
  unfold Machine.startLifecycle
  split
  exacts [.ite_fst h h.takeFree, h.takeFree]

theorem keeperStart (h : d.Canonical) {prec carrier t} : (keeperStart d prec carrier t).Canonical := by
  unfold Machine.keeperStart
  refine .ite h ?_
  refine .noteWaiting ?_
  refine .fset ?_
  refine .takeNodeId ?_
  refine .readCarrier ?_
  refine .fset ?_
  refine .takeFree ?_
  refine .drawNonce ?_
  refine .rset ?_
  refine .fset ?_
  refine .startLifecycle ?_
  refine .fset ?_
  split
  · exact h.atTime.update
  · exact .ite h.atTime.update.fset.fset.fset.fset.fset.fset h.atTime.update.fset.fset.fset.freeStatus.addFault

theorem takeLimits (h : d.Canonical) : (takeLimits d).Canonical := h.rset.capUpdate
theorem beginBringUp (h : d.Canonical) : (beginBringUp d).Canonical := h.update.fset.fcount.rset.rset.testOn.takeNodeId.takeLimits
theorem coldStart (h : d.Canonical) {cause} : (coldStart d cause).Canonical := .beginBringUp (.fset (.update (.ite h.fset.fset.fset h.fset.fset)))
theorem bringUp (h : d.Canonical) {carrier t} : (bringUp d carrier t).Canonical :=
  .ite (.ite h.atTime.readCarrier.coldStart h.atTime.readCarrier.noteWaiting) (.ite h.atTime.readCarrier.beginBringUp h)
theorem trafortStart (h : d.Canonical) : (trafortStart d).Canonical := .ite h (h.foldl (fun _ _ h1 => .ite h1 h1.trafortOn))

theorem coreReady (h : d.Canonical) : (coreReady d).Canonical := by
  unfold Machine.coreReady
  refine .ite h ?_
  refine .trafortStart ?_
  refine .ite ?_ ?_
  · exact .ite h.fset.rsetBit.fset h.fset.rsetBit.fset.tierOn
  · exact .ddrOn (.ite h.fset.rsetBit.fset h.fset.rsetBit.fset.tierOn)

theorem endBringUp (h : d.Canonical) : (endBringUp d).Canonical := .powerNote (.ite h.update h)
theorem regionGroupOn (h : d.Canonical) : (regionGroupOn d).Canonical := .ite h (((h.foldl (fun _ _ h1 => .ite h1 h1.regionOn)).update).endBringUp)
theorem regionFails (h : d.Canonical) {r cause bundle} : (regionFails d r cause bundle).Canonical := h.regionsDark.rsetBit.rsetBit.addFault
theorem logRepairs (h : d.Canonical) {n} : (logRepairs d n).Canonical := .ite h (.ite h.fset.fset.fset h.fset.fset)
theorem retireAtStart (h : d.Canonical) {c cause} : (retireAtStart d c cause).Canonical := .ite h h.takeFree.modCell.rsetBit.addFault

theorem regionSettled (h : d.Canonical) {r test} : (regionSettled d r test).Canonical := by
  unfold Machine.regionSettled
  refine .ite h ?_
  split
  · exact h.regionFails.endBringUp
  · refine .ite ?_ ?_
    · exact h.takeFree.regionFails.endBringUp
    · exact ((((h.logRepairs.update.fset.fcount.foldl (fun _ _ h1 => h1.retireAtStart)).rsetBit).rsetBit).update).endBringUp

theorem channelSettles (h : d.Canonical) {ddr ch why} : (channelSettles d ddr ch why).Canonical := .ite h.fset.fset.chSettle h.fset.fset
theorem hbmStackSettled (h : d.Canonical) {s id fails} : (hbmStackSettled d s id fails).Canonical :=
  .ite h ((((h.foldl (fun _ _ h1 => h1.channelSettles)).rsetBit).countInService).endBringUp)
theorem ddrChannelSettled (h : d.Canonical) {k why} : (ddrChannelSettled d k why).Canonical :=
  .ite h h.channelSettles.rsetBit.countInService.endBringUp
theorem sysRstAssert (h : d.Canonical) : (sysRstAssert d).Canonical :=
  .ite (.ite h.update.endDebug.resetDevice h.update.requestReset) h.update.noteWaiting
theorem sysRstDeassert (h : d.Canonical) : (sysRstDeassert d).Canonical := h.update.noteWaiting
theorem dynamicAddressAssign (h : d.Canonical) {addr} : (dynamicAddressAssign d addr).Canonical := .ite h h.update

/-! ## Thermal protection -/

theorem modThm (h : d.Canonical) {r f} : (modThm d r f).Canonical := h.update

theorem sampleSensor (h : d.Canonical) {r s v} : (sampleSensor d r s v).Canonical := by
  unfold Machine.sampleSensor
  split
  · exact .ite h.modThm.rsetBit h.modThm
  · exact .ite h.modThm.modThm.rsetBit (.ite h.modThm (.ite h.modThm.modThm h.modThm.modThm.rsetBit))

theorem sampleRegion (h : d.Canonical) {r m} : (sampleRegion d r m).Canonical := ((h.foldl (fun _ _ h1 => h1.sampleSensor)).rset).rset
theorem estimate (h : d.Canonical) {r power top} : (estimate d r power top).Canonical := h.modThm.rset
theorem takeThmStep (h : d.Canonical) {r} : (takeThmStep d r).Canonical := h.fset
theorem setLevel (h : d.Canonical) {r n} : (setLevel d r n).Canonical :=
  .ite h (.ite h.fset.fset.fset.fset.fcount.raiseBoth h.fset.fset.fset.fset.fcount.raiseBoth.takeThmStep)
theorem becomesSuspect (h : d.Canonical) {r s} : (becomesSuspect d r s).Canonical := h.rsetBit.rsetBit.fset.fset.fcount.raiseBoth.freeStatus.addFault

theorem checkSensor (h : d.Canonical) {r s} : (checkSensor d r s).Canonical := by
  unfold Machine.checkSensor
  refine .ite ?_ ?_
  · exact .ite h.modThm.modThm.becomesSuspect h.modThm
  · exact .ite (.ite h.modThm.modThm.rsetBit.rsetBit h.modThm.modThm.rsetBit) h.modThm

theorem tripRegion (h : d.Canonical) {r cause die mem} : (tripRegion d r cause die mem).Canonical :=
  .ite h h.rsetBit.fset.fset.setLevel.fcount.rsetBit.modThm.raiseBoth.freeStatus.addFault
theorem dieComparatorTrip (h : d.Canonical) {r} : (dieComparatorTrip d r).Canonical := .ite h h.tripRegion
theorem tripRestart (h : d.Canonical) {r} : (tripRestart d r).Canonical :=
  .ite h (.fset (.fset (.ite h.rsetBit.fset.modThm.rsetBit h.rsetBit.fset.modThm)))
theorem colRefresh (h : d.Canonical) {r} : (colRefresh d r).Canonical := .ite h.fset.fset.fset h.fset.fset

theorem evalRegion (h : d.Canonical) {r m} : (evalRegion d r m).Canonical := by
  unfold Machine.evalRegion
  extract_lets d1 d2 eff w d3 trig calm cold d4 d5 lv d6 d7
  have h1 : d1.Canonical := by
    unfold d1
    split
    exacts [h.estimate, h.setLevel]
  have h5 : d5.Canonical := (h1.foldl fun _ _ h => h.checkSensor).rset.fset.modThm
  have h7 : d7.Canonical := .colRefresh (.ite h5.setLevel.modThm (.ite h5.setLevel h5))
  exact .ite h7.tripRegion h7

theorem thermalSample (h : d.Canonical) {ms t} : (thermalSample d ms t).Canonical := by
  unfold Machine.thermalSample
  refine .ite ?_ ?_
  · exact h
  · exact (((((h.atTime.foldl (fun _ _ h1 => h1.sampleRegion)).foldl (fun _ _ h1 => h1.evalRegion)).fset).fset).fset).fset

theorem throttleLevelTimer (h : d.Canonical) {r} : (throttleLevelTimer d r).Canonical :=
  .ite h (.ite (.ite h h.setLevel.modThm) (.ite h.setLevel.modThm h))
theorem thmCtrClr (h : d.Canonical) {v} : (thmCtrClr d v).Canonical := .ite h.rset h
theorem freqStepComplete (h : d.Canonical) {r} : (freqStepComplete d r).Canonical := .ite h (.ite h.fset.fcount (.ite h.fset.fcount h.fset))

/-! ## The keeper -/

theorem keeperServe {f : Dev → KeeperReq → List Byte → Dev} (h : d.Canonical) (h2 : ∀ d a2 a3, d.Canonical → (f d a2 a3).Canonical) {m op} :
    (keeperServe d m op f).Canonical := by
  unfold Machine.keeperServe
  refine .ite h ?_
  split
  · exact h
  · refine .ite h ?_
    refine .ite h.slcTake.slcRelease.kprRespond ?_
    refine .ite ?_ ?_
    · exact h.slcTake.slcRelease.kprRespond
    · exact .ite h.slcTake.slcRelease.kprRespond (.ite h.slcTake.slcRelease.kprRespond (h2 _ _ _ h.slcTake.slcRelease))

theorem keeperStatus (h : d.Canonical) {m} : (keeperStatus d m).Canonical := h.keeperServe fun _ _ _ h1 => h1.kprRespond

theorem flogDump (h : d.Canonical) {m} : (flogDump d m).Canonical := by
  unfold Machine.flogDump
  refine .keeperServe h ?_
  intro _ _ _ h1
  split <;> exact h1.kprRespond

theorem keeperQuote (h : d.Canonical) {m} : (keeperQuote d m).Canonical :=
  h.keeperServe fun _ _ _ h1 => .ite h1.kprRespond (h1.foldl (fun _ _ h2 => h2.kprRespond))
theorem scopeReset (h : d.Canonical) {m} : (scopeReset d m).Canonical :=
  h.keeperServe fun _ _ _ h1 => .ite h1.kprRespond (.ite h1.kprRespond (.ite h1.kprRespond h1.requestReset))
theorem powerOff (h : d.Canonical) {last} : (powerOff d last).Canonical :=
  .ite h (h.endDebug.leveeRecord.resetDevice.update.noteResets.fcount.stopLatch.foldl (fun _ _ h1 => h1.kprRespond))
theorem keeperPowerOff (h : d.Canonical) {m} : (keeperPowerOff d m).Canonical := h.keeperServe fun _ _ _ h1 => h1.powerOff.kprRespond

theorem keeperPowerOn (h : d.Canonical) {m carrier t} : (keeperPowerOn d m carrier t).Canonical := by
  unfold Machine.keeperPowerOn
  refine .keeperServe h.atTime ?_
  intro _ _ _ h1
  refine .ite h1.kprRespond ?_
  refine .ite h1.kprRespond ?_
  refine .ite (.kprRespond (.ite h1.readCarrier h1)) ?_
  refine .ite ?_ ?_
  · exact .coldStart (.kprRespond (.update (.ite h1.readCarrier h1)))
  · exact .noteWaiting (.kprRespond (.update (.ite h1.readCarrier h1)))

theorem keeperCoolantStop (h : d.Canonical) {m} : (keeperCoolantStop d m).Canonical := by
  unfold Machine.keeperCoolantStop
  refine .keeperServe h ?_
  intro _ _ _ h1
  refine .kprRespond ?_
  split
  exacts [h1.update, .ite h1 h1.hwStop.coolRecord]

theorem setRackCap (h : d.Canonical) {watts} : (setRackCap d watts).Canonical := h.fset.capUpdate
theorem keeperRackCap (h : d.Canonical) {m} : (keeperRackCap d m).Canonical :=
  h.keeperServe fun _ _ _ h1 => .kprRespond (.ite h1.update h1.setRackCap)
theorem powerRead (h : d.Canonical) {m} : (powerRead d m).Canonical := h.keeperServe fun _ _ _ h1 => h1.kprRespond
theorem keeperSetOwner (h : d.Canonical) {m eid} : (keeperSetOwner d m eid).Canonical :=
  h.keeperServe fun _ _ _ h1 => .ite h1.kprRespond h1.fset.cancelOffers.freeStatus.addFault.kprRespond
theorem tidCfgSet (h : d.Canonical) {role src up delay} : (tidCfgSet d role src up delay).Canonical := .ite h h.fset.fset.fset.fset.update
theorem keeperTideRole (h : d.Canonical) {m} : (keeperTideRole d m).Canonical := h.keeperServe fun _ _ _ h1 => h1.tidCfgSet.kprRespond
theorem restartRecord (h : d.Canonical) : (restartRecord d).Canonical := h.freeStatus.addFault

theorem keeperWatchdog (h : d.Canonical) {patched t} : (keeperWatchdog d patched t).Canonical := by
  unfold Machine.keeperWatchdog
  refine .ite ?_ ?_
  · exact h
  · exact .ite h.atTime.restartRecord (.ite h.atTime.restartRecord.update.fset.fset.fset h.atTime.restartRecord.update)

/-! ## Security -/

theorem secBegin (h : d.Canonical) {j} : (secBegin d j).Canonical := h.update.fset
theorem secEnd (h : d.Canonical) : (secEnd d).Canonical := h.update.fset
theorem secSubmit (h : d.Canonical) {by_} : (secSubmit d by_).Canonical := .ite h h.secBegin.drawNonce
theorem secFwLoad (h : d.Canonical) {by_} : (secFwLoad d by_).Canonical := .ite h h.secBegin
theorem secAnchorAdd (h : d.Canonical) {by_} : (secAnchorAdd d by_).Canonical := .ite h h.secBegin
theorem secLockAnchors (h : d.Canonical) {by_} : (secLockAnchors d by_).Canonical := .ite h.fset h
theorem secRelock (h : d.Canonical) {by_} : (secRelock d by_).Canonical := .ite h.requestReset h
theorem enterDebug (h : d.Canonical) {bs} : (enterDebug d bs).Canonical := h.update.fcount.lifecycleChange
theorem enterRetired (h : d.Canonical) : (enterRetired d).Canonical := h.update.fcount.lifecycleChange.powerOff

theorem tokenCheckDone (h : d.Canonical) {far e} : (tokenCheckDone d far e).Canonical := by
  unfold Machine.tokenCheckDone
  split
  · split
    next d1 got e1 =>
    have h1 : d1.Canonical := .of_eq (.ite_fst h.fetchRange h) e1
    split
    exacts [.ite h1.secEnd.fset (.ite h1.secEnd.fset.enterDebug h1.secEnd.fset.enterRetired), h1.secEnd.fset]
  · exact h

theorem readPhys (h : d.Canonical) {e a n} : (readPhys d e a n).1.Canonical := .ite_fst h h.agentLoad

theorem fwLoadDone (h : d.Canonical) {e} : (fwLoadDone d e).Canonical := by
  unfold Machine.fwLoadDone
  dsimp only
  split
  · split
    · exact h.readPhys.secEnd.fset
    · exact .ite h.readPhys.secEnd.fset h.readPhys.secEnd.fset.update.fset.fset.restartRecord
  · exact h

theorem anchorAddDone (h : d.Canonical) {e} : (anchorAddDone d e).Canonical := by
  unfold Machine.anchorAddDone
  split
  · refine .ite ?_ ?_
    · refine .fset ?_
      refine .secEnd ?_
      split
      exacts [h.readPhys.readPhys, h.readPhys]
    · refine .ite ?_ ?_
      · refine .fset ?_
        refine .secEnd ?_
        split
        exacts [h.readPhys.readPhys, h.readPhys]
      · refine .ite ?_ ?_
        · refine .fset ?_
          refine .secEnd ?_
          split
          exacts [h.readPhys.readPhys, h.readPhys]
        · refine .fset ?_
          refine .fset ?_
          refine .update ?_
          refine .secEnd ?_
          split
          exacts [h.readPhys.readPhys, h.readPhys]
  · exact h

theorem setStage (h : d.Canonical) {via n} : (setStage d via n).Canonical := h.update
theorem spdmServe {f : Dev → Dev} (h : d.Canonical) (h2 : ∀ d, d.Canonical → (f d).Canonical) {via need} : (spdmServe d via need f).Canonical :=
  .ite h (.ite h.emit (.ite h.emit (h2 _ h)))
theorem spdmVersion (h : d.Canonical) {via} : (spdmVersion d via).Canonical := h.spdmServe fun _ h1 => h1.setStage.emit
theorem spdmCapabilities (h : d.Canonical) {via} : (spdmCapabilities d via).Canonical := h.spdmServe fun _ h1 => h1.setStage.emit
theorem spdmAlgorithms (h : d.Canonical) {via} : (spdmAlgorithms d via).Canonical := h.spdmServe fun _ h1 => h1.setStage.emit
theorem spdmDigests (h : d.Canonical) {via} : (spdmDigests d via).Canonical := h.spdmServe fun _ h1 => h1.emit
theorem spdmCertificate (h : d.Canonical) {via slot off len} : (spdmCertificate d via slot off len).Canonical :=
  h.spdmServe fun _ h1 => .ite h1.emit h1.emit
theorem spdmChallenge (h : d.Canonical) {via slot nonce} : (spdmChallenge d via slot nonce).Canonical :=
  h.spdmServe fun _ h1 => .ite h1.emit h1.emit
theorem spdmMeasurements (h : d.Canonical) {via index nonce} : (spdmMeasurements d via index nonce).Canonical :=
  h.spdmServe fun _ h1 => .ite h1.emit h1.emit
theorem spdmKeyExchange (h : d.Canonical) {via} : (spdmKeyExchange d via).Canonical :=
  h.spdmServe fun _ h1 => .ite h1.emit h1.update.noteSessions.emit
theorem inSession {f : Dev → Dev} (h : d.Canonical) (h2 : ∀ d, d.Canonical → (f d).Canonical) {via id done} : (inSession d via id done f).Canonical :=
  .ite (h2 _ h) h.emit
theorem spdmFinish (h : d.Canonical) {via id} : (spdmFinish d via id).Canonical := h.spdmServe fun _ h1 => h1.inSession (fun _ h2 => h2.update.emit)
theorem spdmHeartbeat (h : d.Canonical) {via id} : (spdmHeartbeat d via id).Canonical := h.spdmServe fun _ h1 => h1.inSession (fun _ h2 => h2.emit)
theorem spdmKeyUpdate (h : d.Canonical) {via id} : (spdmKeyUpdate d via id).Canonical := h.spdmServe fun _ h1 => h1.inSession (fun _ h2 => h2.emit)
theorem spdmEndSession (h : d.Canonical) {via id} : (spdmEndSession d via id).Canonical :=
  h.spdmServe fun _ h1 => h1.inSession (fun _ h2 => h2.update.noteSessions.emit)

theorem ideKm (h : d.Canonical) {p x2} : (ideKm d p x2).Canonical := by
  unfold Machine.ideKm
  split
  exacts [h, h, h.rsetBit, h.rsetBit]

theorem spdmVendorDefined (h : d.Canonical) {via id msg} : (spdmVendorDefined d via id msg).Canonical := by
  unfold Machine.spdmVendorDefined
  refine .spdmServe h ?_
  intro _ h1
  split
  exacts [h1.emit, .ite h1.emit (h1.inSession (fun _ h2 => h2.ideKm.emit))]

theorem spdmUnsupported (h : d.Canonical) {via} : (spdmUnsupported d via).Canonical := h.spdmServe fun _ h1 => h1.emit

/-! ## Debug -/

theorem trcStart (h : d.Canonical) {by_} : (trcStart d by_).Canonical := .ite h.fset h
theorem trcStop (h : d.Canonical) {by_} : (trcStop d by_).Canonical := .ite h.fset h
theorem trcClear (h : d.Canonical) {by_} : (trcClear d by_).Canonical := .ite h.fset h
theorem resumeThread (h : d.Canonical) {c t} : (resumeThread d c t).Canonical := .ite h h.modTh.traceEv
theorem resumeCmd (h : d.Canonical) {k seq tag} : (resumeCmd d k seq tag).Canonical := h.modCmd.traceEv
theorem dbgResumeAll (h : d.Canonical) {by_} : (dbgResumeAll d by_).Canonical :=
  .ite h (((h.foldl (fun _ _ h1 => h1.resumeThread)).foldl (fun _ _ h1 => h1.resumeCmd)).tryArrive)

theorem dbgResumeOne (h : d.Canonical) {by_} : (dbgResumeOne d by_).Canonical := by
  unfold Machine.dbgResumeOne
  dsimp only
  refine .ite h ?_
  refine .ite ?_ (.ite h h.resumeThread.tryArrive)
  refine .ite h ?_
  split
  exacts [h.resumeCmd, h]

theorem stitchCommit (h : d.Canonical) {by_} : (stitchCommit d by_).Canonical := .ite h (.ite h.fset h.modCell)
theorem dbgFreezeWrite (h : d.Canonical) {by_ v} : (dbgFreezeWrite d by_ v).Canonical := .ite h h.update.rset
theorem dbgBpWrite (h : d.Canonical) {by_ k v} : (dbgBpWrite d by_ k v).Canonical :=
  .ite h (.ite (.fset (.ite h.rset.fset h.rset)) (.ite h.rset.fset h.rset))
theorem dbgBpCntWrite (h : d.Canonical) {by_ k v} : (dbgBpCntWrite d by_ k v).Canonical := .ite h h.fset.fset
theorem dbgTagctrCfgWrite (h : d.Canonical) {by_ j v} : (dbgTagctrCfgWrite d by_ j v).Canonical := .ite h h.rset.rset
theorem telemetrySnapshot (h : d.Canonical) : (telemetrySnapshot d).Canonical := .ite h ((h.foldl (fun _ _ h1 => h1.rset)).rset)

/-! ## The test access port -/

theorem tapDecode {f : Dev → Dev} (h : d.Canonical) (h2 : ∀ d, d.Canonical → (f d).Canonical) {code allowed} :
    (tapDecode d code allowed f).Canonical :=
  .ite h (.ite (h2 _ h.update) h.update)
theorem tapReset_ (h : d.Canonical) : (tapReset_ d).Canonical := .ite h.update h
theorem boundary (h : d.Canonical) {pins shiftIn} : (boundary d pins shiftIn).Canonical := h.update.emit
theorem tapExtest (h : d.Canonical) {pins shiftIn} : (tapExtest d pins shiftIn).Canonical := h.tapDecode fun _ h1 => h1.boundary
theorem tapIdcode (h : d.Canonical) : (tapIdcode d).Canonical := h.tapDecode fun _ h1 => h1.emit
theorem tapSamplePreload (h : d.Canonical) {pins shiftIn} : (tapSamplePreload d pins shiftIn).Canonical := h.tapDecode fun _ h1 => h1.boundary
theorem tapClamp (h : d.Canonical) : (tapClamp d).Canonical := h.tapDecode fun _ h1 => h1
theorem tapHighz (h : d.Canonical) : (tapHighz d).Canonical := h.tapDecode fun _ h1 => h1
theorem tapStackSel (h : d.Canonical) : (tapStackSel d).Canonical := h.tapDecode fun _ h1 => h1
theorem tapScan (h : d.Canonical) : (tapScan d).Canonical := h.tapDecode fun _ h1 => h1
theorem tapBypass (h : d.Canonical) : (tapBypass d).Canonical := h.tapDecode fun _ h1 => h1

/-! ## Register writes -/

theorem boundFld (h : d.Canonical) {f lo khi} : (boundFld d f lo khi).Canonical := h.fset

theorem storedAs (h : d.Canonical) {off} : (storedAs d off).Canonical := by
  unfold Machine.storedAs
  refine .ite h.boundFld ?_
  refine .ite h.boundFld ?_
  refine .ite h.boundFld.boundFld ?_
  refine .ite h.boundFld ?_
  refine .ite ?_ ?_
  · exact .ite h.boundFld.takeFree.fset h.boundFld
  · exact .ite h.boundFld (.ite h.boundFld (.ite h.boundFld (.ite h.boundFld.boundFld h)))

theorem ovrWrite (h : d.Canonical) {off n v} : (ovrWrite d off n v).Canonical := .ite h.update h

theorem registerWrite (h : d.Canonical) {by_ off n v} : (registerWrite d by_ off n v).Canonical := by
  unfold Machine.registerWrite
  dsimp only
  refine .ite h ?_
  refine .ite h.ovrWrite ?_
  split
  exacts [h, .ite h h.rset.storedAs]

/-! ## Pattern switches -/

theorem rangeRegs (h : d.Canonical) {c rs} : (rangeRegs d c rs).Canonical := by
  unfold Machine.rangeRegs
  refine .foldl h ?_
  intro _ _ h1
  split
  exacts [h1.rset, h1.rset.fset.fset.fset.fset.fset.fset]

theorem switchOne (h : d.Canonical) {b c} : (switchOne b d c).Canonical := .ite h (((h.modCell.foldl (fun _ _ h1 => h1.fset)).fset).rangeRegs)
theorem switchCells (h : d.Canonical) {b} : (switchCells d b).Canonical := h.foldl fun _ _ h1 => h1.switchOne
theorem switchPatches (h : d.Canonical) : (switchPatches d).Canonical := h.wipeRegs.update.foldl fun _ _ h1 => h1.rset.fset.fset.fset.fset.fset.fset
theorem setTide (h : d.Canonical) {t} : (setTide d t).Canonical := h.fset.fset.fset.fset
theorem setWeights (h : d.Canonical) {reg ws} : (setWeights d reg ws).Canonical := h.rset

theorem switchMemory (h : d.Canonical) {m} : (switchMemory d m).Canonical := by
  unfold Machine.switchMemory
  split
  exacts [h.wipeRegs, h.setWeights.setWeights.fset.fset]

theorem switchPower (h : d.Canonical) {b n} : (switchPower d b n).Canonical := h.update.fset.fset.notePool.setShift

theorem clearPubs (h : d.Canonical) : (clearPubs d).Canonical := by
  unfold Machine.clearPubs
  split
  · exact h
  · refine .foldl h ?_
    intro _ _ h1
    split
    exacts [h1.clearPub, h1]

theorem switchRegs (h : d.Canonical) {i n} : (switchRegs d i n).Canonical := h.rset.rset.rset.rset.fset.fcount.rset.fset.fset.raiseBoth

theorem commitSwitch (h : d.Canonical) {n} : (commitSwitch d n).Canonical := by
  unfold Machine.commitSwitch
  dsimp only
  split
  · exact h
  · split
    · exact
        h.clearPubs.switchRegs.emptyStage.update.fset.fset.switchCells.netInstall.switchMemory.switchPatches.setTide.switchPower.clvInstall.clearPubs.fset.fset.writeFinal
    · exact
        h.clearPubs.switchRegs.emptyStage.update.fset.fset.switchCells.netInstall.switchMemory.switchPatches.setTide.switchPower.clvInstall.clearPubs.fset.fset

theorem failSwitch (h : d.Canonical) {why n} : (failSwitch d why n).Canonical := h.patFail.update
theorem switchEdge (h : d.Canonical) {flag why n} : (switchEdge d flag why n).Canonical :=
  .ite h.fset (.ite h.fset.commitSwitch (.ite h.fset.failSwitch h.fset))

/-! ## The tide -/

theorem sendEdge (h : d.Canonical) {a} : (sendEdge d a).Canonical := h.foldl fun _ _ h1 => h1.sendSide
theorem announceEdge (h : d.Canonical) {fireAt overrun verdict} : (announceEdge d fireAt overrun verdict).Canonical := h.update.sendEdge
theorem announceNow (h : d.Canonical) : (announceNow d).Canonical := h.announceEdge
theorem beginTide (h : d.Canonical) {by_ state held t} : (beginTide d by_ state held t).Canonical :=
  .ite h (.ite h.atTime.update h.atTime.announceNow)
theorem tidCtlStart (h : d.Canonical) {by_ held t} : (tidCtlStart d by_ held t).Canonical := h.beginTide
theorem tidCtlResume (h : d.Canonical) {by_ held t} : (tidCtlResume d by_ held t).Canonical := h.beginTide

theorem tidCtlStop (h : d.Canonical) {by_} : (tidCtlStop d by_).Canonical := by
  unfold Machine.tidCtlStop
  refine .ite h ?_
  split
  exacts [h.update.sendEdge, .ite h.update h]

theorem tidCfgWrite (h : d.Canonical) {by_ v} : (tidCfgWrite d by_ v).Canonical := .ite h.tidCfgSet h
theorem tidCtrClr (h : d.Canonical) {v} : (tidCtrClr d v).Canonical := .ite h.rset h

theorem edgeAnnounce (h : d.Canonical) {held t} : (edgeAnnounce d held t).Canonical := by
  unfold Machine.edgeAnnounce
  refine .ite h ?_
  refine .ite ?_ ?_
  · exact .ite h.atTime.announceNow h.atTime
  · exact .ite h.atTime (.ite h.atTime.announceEdge (.ite h.atTime.announceEdge h.atTime))

theorem amendEdge (h : d.Canonical) : (amendEdge d).Canonical := by
  unfold Machine.amendEdge
  split
  exacts [.ite h.update.sendEdge h, h]

theorem edgeMessage (h : d.Canonical) {t} : (edgeMessage d t).Canonical := by
  unfold Machine.edgeMessage
  dsimp only
  split
  · exact h
  next e =>
    split
    · exact .ite ((h.takeMsg e).atTime) (.sendEdge (.update (.ite (((h.takeMsg e).atTime).fset) ((h.takeMsg e).atTime))))
    · exact h.takeMsg e

theorem arriveMessage (h : d.Canonical) : (arriveMessage d).Canonical := by
  unfold Machine.arriveMessage
  dsimp only
  split
  · exact h
  next e =>
    exact .ite (((h.takeMsg e).update).tryArrive) ((h.takeMsg e).update)

theorem timeSync (h : d.Canonical) {t} : (timeSync d t).Canonical := by
  unfold Machine.timeSync
  split
  next e =>
    exact .ite (((h.takeMsg e).fset).update) ((((h.takeMsg e).atTime).update).sendSide)
  · exact .ite h.atTime.sendSide h.atTime

theorem tideLostTimeout (h : d.Canonical) {t} : (tideLostTimeout d t).Canonical := .ite h h.atTime.fset.raiseBoth.update.setShift

theorem ovrWriteRec (h : d.Canonical) {n t nominal} : (ovrWriteRec d n t nominal).Canonical := by
  unfold Machine.ovrWriteRec
  refine .ite h.update ?_
  refine .update ?_
  split
  exacts [h, h.takeFree]

theorem overrunRecordDone (h : d.Canonical) : (overrunRecordDone d).Canonical := .ite h h.update.addFault
theorem mapThreads (h : d.Canonical) {f} : (mapThreads d f).Canonical := h.foldl fun _ _ h1 => h1.modCell
theorem arrivalCheck (h : d.Canonical) {over_ n t nominal} : (arrivalCheck d over_ n t nominal).Canonical :=
  .mapThreads (.ite (.mapThreads (.ite h.fset.fcount h.fset.fcount.ovrWriteRec)) h)
theorem wardenLearn (h : d.Canonical) {len en} : (wardenLearn d len en).Canonical := h.update
theorem tideEnergy (h : d.Canonical) {last t en} : (tideEnergy d last t en).Canonical :=
  .ite h ((((h.fset.fset.fset.fset.foldl (fun _ _ h1 => h1.fset)).update).fset).wardenLearn)

theorem reportSlack (h : d.Canonical) {tide slack} : (reportSlack d tide slack).Canonical := by
  unfold Machine.reportSlack
  dsimp only
  split
  exacts [.sendMgmt (.ite h.update.fset.fset h.update.fset), .ite h.update.fset.fset h.update.fset]

theorem layoutsDue (h : d.Canonical) {n} : (layoutsDue d n).Canonical := by
  unfold Machine.layoutsDue
  refine .foldl h ?_
  intro _ _ h1
  split
  · split
    exacts [.ite h1.layoutChange.writeFinal h1.writeFinal, h1.writeFinal]
  · exact h1

theorem capsDue (h : d.Canonical) {halts n} : (capsDue d halts n).Canonical := by
  unfold Machine.capsDue
  extract_lets d1 _ d2 shift _ d3
  have h1 : d1.Canonical := h.foldl fun _ _ h => by
    split
    exacts [h.setHostCap.writeFinal, h]
  have h2 : d2.Canonical := by
    unfold d2
    split
    exacts [h1.update.setRackCap, h1]
  clear_value shift
  split
  exacts [h2.update.setShift, h2.update]

theorem slotBudget (h : d.Canonical) {s} : (slotBudget d s).1.Canonical := .ite_fst h.takeFree h

theorem governor (h : d.Canonical) {n} : (governor d n).Canonical := by
  unfold Machine.governor
  refine .ite ?_ ?_
  · refine .fset ?_
    refine .update ?_
    refine .ite ?_ ?_
    · exact ((((h.slotBudget.foldl (fun _ _ h1 => h1.fset)).foldl (fun _ _ h1 => h1.fset)).fset).fset).fset
    · exact (((((h.slotBudget.foldl (fun _ _ h1 => h1.fset)).foldl (fun _ _ h1 => h1.fset)).fset).fset).fset).fcount
  · refine .update ?_
    refine .ite ?_ ?_
    · exact ((((h.slotBudget.foldl (fun _ _ h1 => h1.fset)).foldl (fun _ _ h1 => h1.fset)).fset).fset).fset
    · exact (((((h.slotBudget.foldl (fun _ _ h1 => h1.fset)).foldl (fun _ _ h1 => h1.fset)).fset).fset).fset).fcount

theorem stepsDue (h : d.Canonical) {n} : (stepsDue d n).Canonical := (h.foldl (fun _ _ h1 => h1.takeThmStep)).governor

theorem seedDue (h : d.Canonical) {over_ n} : (seedDue d over_ n).Canonical := by
  unfold Machine.seedDue
  refine .foldl ?_ fun _ _ h1 => h1.modCell
  refine .update ?_
  refine .ite h ?_
  refine .foldl h ?_
  intro _ _ h1
  split
  exacts [h1.update.writeFinal, h1]

theorem tideAfter (h : d.Canonical) {over_ stop} : (tideAfter d over_ stop).Canonical :=
  .ite h.update.fset.fset.raiseBoth (.ite h.update.fset.fset h.update.fset.fset)

theorem edgeHead (h : d.Canonical) {a t late nominal} : (edgeHead d a t late nominal).Canonical := by
  unfold Machine.edgeHead
  refine .emit ?_
  refine .ite ?_ ?_
  · refine .ite ?_ ?_
    · exact .fcount (.fset (.ite h.atTime.rset.rset.fset.fset.fcount h.atTime.rset.rset.fset.fset))
    · exact .ite h.atTime.rset.rset.fset.fset.fcount h.atTime.rset.rset.fset.fset
  · refine .setTide ?_
    refine .ite ?_ ?_
    · exact .fcount (.fset (.ite h.atTime.rset.rset.fset.fset.fcount h.atTime.rset.rset.fset.fset))
    · exact .ite h.atTime.rset.rset.fset.fset.fcount h.atTime.rset.rset.fset.fset

theorem fireEdge (h : d.Canonical) {a t late en} : (fireEdge d a t late en).Canonical := by
  unfold Machine.fireEdge
  extract_lets before last nominal slack _ d1 n d2 over_ d3 d4 d5 plain d6 d7 d8 d9 d10 d11 d12 d13 d14 d15 d16 d17 _ d18 d19
  have h1 : d1.Canonical := .ite h.update h.tideEnergy
  have h5 : d5.Canonical := h1.edgeHead.traceEv.arrivalCheck.startAborts.resolveWins
  have h8 : d8.Canonical := ((h5.foldl fun _ _ h => h.commitCmd).switchEdge).commitGauges.resolveLate
  have h10 : d10.Canonical := .regionsDue (.ite h8 h8.layoutsDue)
  have h13 : d13.Canonical := .seedDue (.stepsDue (.capsDue (.ite h10.d3Enter h10)))
  have h16 : d16.Canonical := .tideAfter (.setsEdge (.clvEdge (.ite h13 h13.sizUpdate.mapThreads)))
  have h17 : d17.Canonical := .ite h16 h16.reportSlack
  have h19 : d19.Canonical := h17.update.foldl fun _ _ h => by
    split
    exacts [h.requestReset, h]
  exact h19.tryArrive

theorem tideEdge (h : d.Canonical) {en} : (tideEdge d en).Canonical := by
  unfold Machine.tideEdge
  split
  exacts [h, .ite h h.fireEdge]

theorem tideInEdge (h : d.Canonical) {stamp en} : (tideInEdge d stamp en).Canonical := by
  unfold Machine.tideInEdge
  split
  exacts [h, .ite h h.fireEdge]

theorem tideInWindowExpire (h : d.Canonical) {en} : (tideInWindowExpire d en).Canonical := by
  unfold Machine.tideInWindowExpire
  split
  exacts [h, .ite h h.fireEdge]

/-! ## ExecPorts -/

theorem nodeIdTaken (h : d.Canonical) {by_ v} : (nodeIdTaken d by_ v).Canonical := .ite h h.nodeIdWrite.trafortStart.powerNote

end Dev.Canonical

/-! ## Every command completes and keeps the canonical form -/

/-- Each command is an operation on the device, which leaves the queue, and that operation keeps the canonical form. -/
theorem exec_eq_run_canonical (i : Instr) (s : State) : ∃ f : Dev → Dev, exec i s = run s f ∧ ∀ d, d.Canonical → (f d).Canonical := by
  cases i with
  | stitchIssue c e => exact ⟨fun d => stitchIssue d c e, rfl, fun _ h => h.stitchIssue⟩
  | gaugeWaitSatisfied c t => exact ⟨fun d => gaugeWaitSatisfied d c t, rfl, fun _ h => h.gaugeWaitSatisfied⟩
  | scalarLoadReturn c t id => exact ⟨fun d => scalarLoadReturn d c t id, rfl, fun _ h => h.scalarLoadReturn⟩
  | fenceRelPerformed c t => exact ⟨fun d => fenceRelPerformed d c t, rfl, fun _ h => h.fenceRelPerformed⟩
  | fenceAcqPerformed c t => exact ⟨fun d => fenceAcqPerformed d c t, rfl, fun _ h => h.fenceAcqPerformed⟩
  | drainComplete c t => exact ⟨fun d => drainComplete d c t, rfl, fun _ h => h.drainComplete⟩
  | patchGaugeUpdate patch gauge n => exact ⟨fun d => patchGaugeUpdate d patch gauge n, rfl, fun _ h => h.patchGaugeUpdate⟩
  | patchGaugeArrival c patch gauge remote => exact ⟨fun d => patchGaugeArrival d c patch gauge remote, rfl, fun _ h => h.patchGaugeArrival⟩
  | celGaugeWr c g v => exact ⟨fun d => gaugeWrite d c g v, rfl, fun _ h => h.gaugeWrite⟩
  | mma c e => exact ⟨fun d => mtxDispatch d c e .mma, rfl, fun _ h => h.mtxDispatch⟩
  | chainAdd c e => exact ⟨fun d => mtxDispatch d c e .chainAdd, rfl, fun _ h => h.mtxDispatch⟩
  | finish c e => exact ⟨fun d => mtxDispatch d c e .finish, rfl, fun _ h => h.mtxDispatch⟩
  | matrixComplete c => exact ⟨fun d => matrixComplete d c, rfl, fun _ h => h.matrixComplete⟩
  | tile => exact ⟨fun d => chainTile d, rfl, fun _ h => h.chainTile⟩
  | post => exact ⟨fun d => chainPostIn d, rfl, fun _ h => h.chainPostIn⟩
  | rerun => exact ⟨fun d => chainRerun d, rfl, fun _ h => h.chainRerun⟩
  | done => exact ⟨fun d => chainDone d, rfl, fun _ h => h.chainDone⟩
  | program c e => exact ⟨fun d => eleDispatch d c e .program, rfl, fun _ h => h.eleDispatch⟩
  | press c e => exact ⟨fun d => eleDispatch d c e .press, rfl, fun _ h => h.eleDispatch⟩
  | update c e => exact ⟨fun d => eleDispatch d c e .update, rfl, fun _ h => h.eleDispatch⟩
  | reseat c e => exact ⟨fun d => eleDispatch d c e .reseat, rfl, fun _ h => h.eleDispatch⟩
  | convert c e => exact ⟨fun d => eleDispatch d c e .convert, rfl, fun _ h => h.eleDispatch⟩
  | gather c e => exact ⟨fun d => eleDispatch d c e .gather, rfl, fun _ h => h.eleDispatch⟩
  | gatherLaneReturn c lane => exact ⟨fun d => gatherLaneReturn d c lane, rfl, fun _ h => h.gatherLaneReturn⟩
  | scatter c e => exact ⟨fun d => eleDispatch d c e .scatter, rfl, fun _ h => h.eleDispatch⟩
  | elementComplete c => exact ⟨fun d => elementComplete d c, rfl, fun _ h => h.elementComplete⟩
  | dmaDispatch c e => exact ⟨fun d => dmaDispatch d c e, rfl, fun _ h => h.dmaDispatch⟩
  | dmaDescriptor c n e => exact ⟨fun d => dmaDescriptor d c n e, rfl, fun _ h => h.dmaDescriptor⟩
  | dmaComplete c n => exact ⟨fun d => dmaComplete d c n, rfl, fun _ h => h.dmaComplete⟩
  | foreignRequest idx e => exact ⟨fun d => foreignRequest d idx e, rfl, fun _ h => h.foreignRequest⟩
  | rinseTick c dram e => exact ⟨fun d => rinseTick d c dram e, rfl, fun _ h => h.rinseTick⟩
  | verticalBeatError c bundle good => exact ⟨fun d => verticalBeatError d c bundle good, rfl, fun _ h => h.verticalBeatError⟩
  | colCtrClr c v => exact ⟨fun d => colCtrClr d c v, rfl, fun _ h => h.colCtrClr⟩
  | tierRequest idx retries hard e => exact ⟨fun d => tierRequest d idx retries hard e, rfl, fun _ h => h.tierRequest⟩
  | requestPromote idx => exact ⟨fun d => requestPromote d idx, rfl, fun _ h => h.requestPromote⟩
  | tierRinseTick ddr ch e => exact ⟨fun d => tierRinseTick d ddr ch e, rfl, fun _ h => h.tierRinseTick⟩
  | hbmTempRead stk t => exact ⟨fun d => hbmTempRead d stk t, rfl, fun _ h => h.hbmTempRead⟩
  | ddrTempRead k t => exact ⟨fun d => ddrTempRead d k t, rfl, fun _ h => h.ddrTempRead⟩
  | ceWindowExpire ddr ch => exact ⟨fun d => ceWindowExpire d ddr ch, rfl, fun _ h => h.ceWindowExpire⟩
  | tierListFix ddr => exact ⟨fun d => endBringUp (tierListFix d ddr), rfl, fun _ h => h.tierListFix.endBringUp⟩
  | hbmChCtlWrite by_ ddr ch v => exact ⟨fun d => hbmChCtlWrite d by_ ddr ch v, rfl, fun _ h => h.hbmChCtlWrite⟩
  | tgStart by_ ddr ch v => exact ⟨fun d => tgStart d by_ ddr ch v, rfl, fun _ h => h.tgStart⟩
  | tgRunEnd ddr ch errs => exact ⟨fun d => tgRunEnd d ddr ch errs, rfl, fun _ h => h.tgRunEnd⟩
  | farCacheRequest idx e => exact ⟨fun d => farCacheRequest d idx e, rfl, fun _ h => h.farCacheRequest⟩
  | farCacheFill idx victim => exact ⟨fun d => farCacheFill d idx victim, rfl, fun _ h => h.farCacheFill⟩
  | prefetchFill idx victim => exact ⟨fun d => prefetchFill d idx victim, rfl, fun _ h => h.prefetchFill⟩
  | xltProbeAddrWrite v => exact ⟨fun d => xltProbeAddrWrite d v, rfl, fun _ h => h.xltProbeAddrWrite⟩
  | xltProbeDone => exact ⟨fun d => xltProbeDone d, rfl, fun _ h => h.xltProbeDone⟩
  | farCtrClr v => exact ⟨fun d => farCtrClr d v, rfl, fun _ h => h.farCtrClr⟩
  | patCtlLoad by_ => exact ⟨fun d => patCtlLoad d by_, rfl, fun _ h => h.patCtlLoad⟩
  | patCtlSwitch by_ => exact ⟨fun d => patCtlSwitch d by_, rfl, fun _ h => h.patCtlSwitch⟩
  | patCtlDiscard by_ => exact ⟨fun d => amendEdge (patCtlDiscard d by_), rfl, fun _ h => h.patCtlDiscard.amendEdge⟩
  | patLoadDone body far e => exact ⟨fun d => patLoadDone d body far e, rfl, fun _ h => h.patLoadDone⟩
  | switchReady => exact ⟨fun d => switchReady d, rfl, fun _ h => h.switchReady⟩
  | readyMessage => exact ⟨fun d => readyMessage d, rfl, fun _ h => h.readyMessage⟩
  | switchWithdrawal => exact ⟨fun d => amendEdge (switchWithdrawal d), rfl, fun _ h => h.switchWithdrawal.amendEdge⟩
  | sizReport => exact ⟨fun d => sizReport d, rfl, fun _ h => h.sizReport⟩
  | sizSum => exact ⟨fun d => sizSum d, rfl, fun _ h => h.sizSum⟩
  | sizIdleUpdate => exact ⟨fun d => sizIdleUpdate d, rfl, fun _ h => h.sizIdleUpdate⟩
  | tidCtlStart by_ held t => exact ⟨fun d => tidCtlStart d by_ held t, rfl, fun _ h => h.tidCtlStart⟩
  | tidCtlStop by_ => exact ⟨fun d => tidCtlStop d by_, rfl, fun _ h => h.tidCtlStop⟩
  | tidCtlResume by_ held t => exact ⟨fun d => tidCtlResume d by_ held t, rfl, fun _ h => h.tidCtlResume⟩
  | tidCfgWrite by_ v => exact ⟨fun d => tidCfgWrite d by_ v, rfl, fun _ h => h.tidCfgWrite⟩
  | edgeAnnounce held t => exact ⟨fun d => edgeAnnounce d held t, rfl, fun _ h => h.edgeAnnounce⟩
  | edgeMessage t => exact ⟨fun d => edgeMessage d t, rfl, fun _ h => h.edgeMessage⟩
  | tideEdge en => exact ⟨fun d => tideEdge d en, rfl, fun _ h => h.tideEdge⟩
  | tideInEdge stamp en => exact ⟨fun d => tideInEdge d stamp en, rfl, fun _ h => h.tideInEdge⟩
  | tideInWindowExpire en => exact ⟨fun d => tideInWindowExpire d en, rfl, fun _ h => h.tideInWindowExpire⟩
  | timeSync t => exact ⟨fun d => timeSync d t, rfl, fun _ h => h.timeSync⟩
  | tideLostTimeout t => exact ⟨fun d => tideLostTimeout d t, rfl, fun _ h => h.tideLostTimeout⟩
  | arriveMessage => exact ⟨fun d => arriveMessage d, rfl, fun _ h => h.arriveMessage⟩
  | overrunRecordDone => exact ⟨fun d => overrunRecordDone d, rfl, fun _ h => h.overrunRecordDone⟩
  | freqStepComplete r => exact ⟨fun d => freqStepComplete d r, rfl, fun _ h => h.freqStepComplete⟩
  | tidCtrClr v => exact ⟨fun d => tidCtrClr d v, rfl, fun _ h => h.tidCtrClr⟩
  | cablePresent p present accepted => exact ⟨fun d => cablePresent d p present accepted, rfl, fun _ h => h.cablePresent⟩
  | portUp p peerNode peerPort => exact ⟨fun d => trfPortUp d p peerNode peerPort, rfl, fun _ h => h.trfPortUp⟩
  | portTrainTimeout p => exact ⟨fun d => portTrainTimeout d p, rfl, fun _ h => h.portTrainTimeout⟩
  | portTrainRetry p accepted => exact ⟨fun d => portTrainRetry d p accepted, rfl, fun _ h => h.portTrainRetry⟩
  | cmisPoll p flags t => exact ⟨fun d => cmisPoll d p flags t, rfl, fun _ h => h.cmisPoll⟩
  | nodeIdWrite by_ v => exact ⟨fun d => nodeIdTaken d by_ v, rfl, fun _ h => h.nodeIdTaken⟩
  | flitReceive p f => exact ⟨fun d => flitReceive d p f, rfl, fun _ h => h.flitReceive⟩
  | flitTransmit p => exact ⟨fun d => flitTransmit d p, rfl, fun _ h => h.flitTransmit⟩
  | replayTimeout p => exact ⟨fun d => replayTimeout d p, rfl, fun _ h => h.replayTimeout⟩
  | portRetrainDone p locked => exact ⟨fun d => portRetrainDone d p locked, rfl, fun _ h => h.portRetrainDone⟩
  | laneControlBlock p own ask t => exact ⟨fun d => laneControlBlock d p own ask t, rfl, fun _ h => h.laneControlBlock⟩
  | laneLossOfLock p l flag t => exact ⟨fun d => laneLossOfLock d p l flag t, rfl, fun _ h => h.laneLossOfLock⟩
  | laneWindowExpire p l => exact ⟨fun d => laneWindowExpire d p l, rfl, fun _ h => h.laneWindowExpire⟩
  | widthChange p => exact ⟨fun d => widthChange d p, rfl, fun _ h => h.widthChange⟩
  | reconfigDone p => exact ⟨fun d => reconfigDone d p, rfl, fun _ h => h.reconfigDone⟩
  | messageRoute t => exact ⟨fun d => messageRoute d t, rfl, fun _ h => h.messageRoute⟩
  | rd e => exact ⟨fun d => remoteRd d e, rfl, fun _ h => h.remoteRd⟩
  | wr => exact ⟨fun d => remoteWr d, rfl, fun _ h => h.remoteWr⟩
  | remoteGauge => exact ⟨fun d => remoteGauge d, rfl, fun _ h => h.remoteGauge⟩
  | rdRsp => exact ⟨fun d => rdRsp d, rfl, fun _ h => h.rdRsp⟩
  | wrRsp => exact ⟨fun d => wrRsp d, rfl, fun _ h => h.wrRsp⟩
  | gaugeRsp => exact ⟨fun d => gaugeRsp d, rfl, fun _ h => h.gaugeRsp⟩
  | remoteTimeout rid t => exact ⟨fun d => remoteTimeout d rid t, rfl, fun _ h => h.remoteTimeout⟩
  | trfPortDisable by_ p v accepted => exact ⟨fun d => trfPortDisable d by_ p v accepted, rfl, fun _ h => h.trfPortDisable⟩
  | trfPortRetrain by_ p v => exact ⟨fun d => trfPortRetrain d by_ p v, rfl, fun _ h => h.trfPortRetrain⟩
  | trfCmisGo p v => exact ⟨fun d => trfCmisGo d p v, rfl, fun _ h => h.trfCmisGo⟩
  | trfCmisDone p data => exact ⟨fun d => trfCmisDone d p data, rfl, fun _ h => h.trfCmisDone⟩
  | trfCtrClr v => exact ⟨fun d => trfCtrClr d v, rfl, fun _ h => h.trfCtrClr⟩
  | clvLaunch slot rank => exact ⟨fun d => clvLaunch d slot rank, rfl, fun _ h => h.clvLaunch⟩
  | data => exact ⟨fun d => clvData d, rfl, fun _ h => h.clvData⟩
  | result => exact ⟨fun d => clvResult d, rfl, fun _ h => h.clvResult⟩
  | credit => exact ⟨fun d => clvCredit d, rfl, fun _ h => h.clvCredit⟩
  | clvCombine slot rank k e => exact ⟨fun d => clvCombine d slot rank k e, rfl, fun _ h => h.clvCombine⟩
  | clvAckSend slot rank => exact ⟨fun d => clvAckSend d slot rank, rfl, fun _ h => h.clvAckSend⟩
  | ack => exact ⟨fun d => clvAck d, rfl, fun _ h => h.clvAck⟩
  | commit => exact ⟨fun d => clvCommit d, rfl, fun _ h => h.clvCommit⟩
  | clvAbort => exact ⟨fun d => clvAbort d, rfl, fun _ h => h.clvAbort⟩
  | fail => exact ⟨fun d => clvFail d, rfl, fun _ h => h.clvFail⟩
  | clvTimeout chain k tag rank t => exact ⟨fun d => clvTimeout d chain k tag rank t, rfl, fun _ h => h.clvTimeout⟩
  | clvCtrClr v => exact ⟨fun d => clvCtrClr d v, rfl, fun _ h => h.clvCtrClr⟩
  | ssPublish k e => exact ⟨fun d => ssPublish d k e, rfl, fun _ h => h.ssPublish⟩
  | ssFetch k => exact ⟨fun d => ssFetch d k, rfl, fun _ h => h.ssFetch⟩
  | fetchShardRetry k sh t => exact ⟨fun d => fetchShardRetry d k sh t, rfl, fun _ h => h.fetchShardRetry⟩
  | ssFetchDone k => exact ⟨fun d => ssFetchDone d k, rfl, fun _ h => h.ssFetchDone⟩
  | ssCheck k e => exact ⟨fun d => ssCheck d k e, rfl, fun _ h => h.ssCheck⟩
  | stateExport k e => exact ⟨fun d => stateExport d k e, rfl, fun _ h => h.stateExport⟩
  | stateImport k e => exact ⟨fun d => stateImport d k e, rfl, fun _ h => h.stateImport⟩
  | sluiceWrite j entry => exact ⟨fun d => sluiceWrite d j entry, rfl, fun _ h => h.sluiceWrite⟩
  | sluiceRead j => exact ⟨fun d => sluiceRead d j, rfl, fun _ h => h.sluiceRead⟩
  | sluiceMark j => exact ⟨fun d => sluiceMark d j, rfl, fun _ h => h.sluiceMark⟩
  | sluiceRewind j => exact ⟨fun d => sluiceRewind d j, rfl, fun _ h => h.sluiceRewind⟩
  | sluiceRelease j n => exact ⟨fun d => sluiceRelease d j n, rfl, fun _ h => h.sluiceRelease⟩
  | sluicePointerSync j release => exact ⟨fun d => sluicePointerSync d j release, rfl, fun _ h => h.sluicePointerSync⟩
  | slcPinselWrite by_ v => exact ⟨fun d => slcPinselWrite d by_ v, rfl, fun _ h => h.slcPinselWrite⟩
  | slcWmWrite by_ j v => exact ⟨fun d => slcWmWrite d by_ j v, rfl, fun _ h => h.slcWmWrite⟩
  | slcCtrClr v => exact ⟨fun d => slcCtrClr d v, rfl, fun _ h => h.slcCtrClr⟩
  | configRequest p write reg mask v => exact ⟨fun d => configRequest d p write reg mask v, rfl, fun _ h => h.configRequest⟩
  | registerWrite by_ off n v => exact ⟨fun d => registerWrite d by_ off n v, rfl, fun _ h => h.registerWrite⟩
  | bar2Read p secure off n e => exact ⟨fun d => bar2Read d p secure off n e, rfl, fun _ h => h.bar2Read⟩
  | bar2Write p secure off bytes ep => exact ⟨fun d => bar2Write d p secure off bytes ep, rfl, fun _ h => h.bar2Write⟩
  | hifBar2BaseWrite by_ p v => exact ⟨fun d => hifBar2BaseWrite d by_ p v, rfl, fun _ h => h.hifBar2BaseWrite⟩
  | unsupportedTlp p posted => exact ⟨fun d => unsupportedTlp d p posted, rfl, fun _ h => h.unsupportedTlp⟩
  | ingestWindowWrite p secure off bytes => exact ⟨fun d => ingestWindowWrite d p secure off bytes, rfl, fun _ h => h.ingestWindowWrite⟩
  | doorbell p => exact ⟨fun d => doorbell d p, rfl, fun _ h => h.doorbell⟩
  | mbxPush p => exact ⟨fun d => mbxPush d p, rfl, fun _ h => h.mbxPush⟩
  | mbxPop p => exact ⟨fun d => mbxPop d p, rfl, fun _ h => h.mbxPop⟩
  | functionLevelReset p => exact ⟨fun d => functionLevelReset d p, rfl, fun _ h => h.functionLevelReset⟩
  | hotReset p => exact ⟨fun d => hotReset d p, rfl, fun _ h => h.hotReset⟩
  | pcieLinkDown p => exact ⟨fun d => pcieLinkDown d p, rfl, fun _ h => h.pcieLinkDown⟩
  | pcieLinkUp p rate width l0p => exact ⟨fun d => pcieLinkUp d p rate width l0p, rfl, fun _ h => h.pcieLinkUp⟩
  | perstAssert p => exact ⟨fun d => perstAssert d p, rfl, fun _ h => h.perstAssert⟩
  | perstDeassert p => exact ⟨fun d => perstDeassert d p, rfl, fun _ h => h.perstDeassert⟩
  | dStateChange p d3 => exact ⟨fun d => dStateChange d p d3, rfl, fun _ h => h.dStateChange⟩
  | ideIntegrityFail p stream => exact ⟨fun d => ideIntegrityFail d p stream, rfl, fun _ h => h.ideIntegrityFail⟩
  | hifCtrClr p v => exact ⟨fun d => hifCtrClr d p v, rfl, fun _ h => h.hifCtrClr⟩
  | ringEnable by_ k => exact ⟨fun d => ringEnable d by_ k, rfl, fun _ h => h.ringEnable⟩
  | ringResume by_ k => exact ⟨fun d => ringResume d by_ k, rfl, fun _ h => h.ringResume⟩
  | ringStop by_ k => exact ⟨fun d => ringStop d by_ k, rfl, fun _ h => h.ringStop⟩
  | ringDisable by_ k => exact ⟨fun d => ringDisable d by_ k, rfl, fun _ h => h.ringDisable⟩
  | descriptorFetch k bytes e far => exact ⟨fun d => descriptorFetch d k bytes e far, rfl, fun _ h => h.descriptorFetch⟩
  | commandWorkEnd k seq => exact ⟨fun d => commandWorkEnd d k seq, rfl, fun _ h => h.commandWorkEnd⟩
  | completionPost k good => exact ⟨fun d => completionPost d k good, rfl, fun _ h => h.completionPost⟩
  | modTimeExpire k => exact ⟨fun d => modTimeExpire d k, rfl, fun _ h => h.modTimeExpire⟩
  | nop k => exact ⟨fun d => hostNop d k, rfl, fun _ h => h.hostNop⟩
  | copy k host hostBad e => exact ⟨fun d => hostCopy d k host hostBad e, rfl, fun _ h => h.hostCopy⟩
  | gauge k => exact ⟨fun d => hostGauge d k, rfl, fun _ h => h.hostGauge⟩
  | gaugeList k => exact ⟨fun d => hostGaugeList d k, rfl, fun _ h => h.hostGaugeList⟩
  | ingestSet k => exact ⟨fun d => hostIngestSet d k, rfl, fun _ h => h.hostIngestSet⟩
  | ingestBatch p n => exact ⟨fun d => ingestBatch d p n, rfl, fun _ h => h.ingestBatch⟩
  | patLoad k => exact ⟨fun d => hostPatLoad d k, rfl, fun _ h => h.hostPatLoad⟩
  | patSwitch k => exact ⟨fun d => hostPatSwitch d k, rfl, fun _ h => h.hostPatSwitch⟩
  | patDiscard k => exact ⟨fun d => amendEdge (hostPatDiscard d k), rfl, fun _ h => h.hostPatDiscard.amendEdge⟩
  | srSeed k => exact ⟨fun d => hostSrSeed d k, rfl, fun _ h => h.hostSrSeed⟩
  | clvLayout k => exact ⟨fun d => hostClvLayout d k, rfl, fun _ h => h.hostClvLayout⟩
  | abort k => exact ⟨fun d => amendEdge (hostAbort d k), rfl, fun _ h => h.hostAbort.amendEdge⟩
  | handover k => exact ⟨fun d => hostHandover d k, rfl, fun _ h => h.hostHandover⟩
  | handoverAck k => exact ⟨fun d => hostHandoverAck d k, rfl, fun _ h => h.hostHandoverAck⟩
  | handoverExpire p => exact ⟨fun d => handoverExpire d p, rfl, fun _ h => h.handoverExpire⟩
  | capSet k => exact ⟨fun d => hostCapSet d k, rfl, fun _ h => h.hostCapSet⟩
  | reset k => exact ⟨fun d => hostReset d k, rfl, fun _ h => h.hostReset⟩
  | pwrPolderOffWrite by_ v => exact ⟨fun d => pwrPolderOffWrite d by_ v, rfl, fun _ h => h.pwrPolderOffWrite⟩
  | pwrPolderOffHiWrite by_ v => exact ⟨fun d => pwrPolderOffHiWrite d by_ v, rfl, fun _ h => h.pwrPolderOffHiWrite⟩
  | slackReport => exact ⟨fun d => slackReport d, rfl, fun _ h => h.slackReport⟩
  | shiftInterval => exact ⟨fun d => shiftInterval d, rfl, fun _ h => h.shiftInterval⟩
  | budgetShift => exact ⟨fun d => budgetShift d, rfl, fun _ h => h.budgetShift⟩
  | shiftTimeout => exact ⟨fun d => shiftTimeout d, rfl, fun _ h => h.shiftTimeout⟩
  | coolFailAssert => exact ⟨fun d => coolFailAssert d, rfl, fun _ h => h.coolFailAssert⟩
  | coolantStopStage => exact ⟨fun d => coolantStopStage d, rfl, fun _ h => h.coolantStopStage⟩
  | pwrCtrClr v => exact ⟨fun d => pwrCtrClr d v, rfl, fun _ h => h.pwrCtrClr⟩
  | thermalSample ms t => exact ⟨fun d => thermalSample d ms t, rfl, fun _ h => h.thermalSample⟩
  | throttleLevelTimer r => exact ⟨fun d => throttleLevelTimer d r, rfl, fun _ h => h.throttleLevelTimer⟩
  | dieComparatorTrip r => exact ⟨fun d => dieComparatorTrip d r, rfl, fun _ h => h.dieComparatorTrip⟩
  | tripRestart r => exact ⟨fun d => tripRestart d r, rfl, fun _ h => h.tripRestart⟩
  | thmCtrClr v => exact ⟨fun d => thmCtrClr d v, rfl, fun _ h => h.thmCtrClr⟩
  | vauxPresent => exact ⟨fun d => vauxPresent d, rfl, fun _ h => h.vauxPresent⟩
  | vauxLoss => exact ⟨fun d => vauxLoss d, rfl, fun _ h => h.vauxLoss⟩
  | vinMainPresent => exact ⟨fun d => vinMainPresent d, rfl, fun _ h => h.vinMainPresent⟩
  | vinMainLoss => exact ⟨fun d => vinMainLoss d, rfl, fun _ h => h.vinMainLoss⟩
  | vddqDPresent => exact ⟨fun d => vddqPresent d, rfl, fun _ h => h.vddqPresent⟩
  | vddqDLoss => exact ⟨fun d => vddqLoss d, rfl, fun _ h => h.vddqLoss⟩
  | vddqWaitTimeout => exact ⟨fun d => vddqWaitTimeout d, rfl, fun _ h => h.vddqWaitTimeout⟩
  | sysclkStable => exact ⟨fun d => sysclkStable d, rfl, fun _ h => h.sysclkStable⟩
  | strapLatch tide own => exact ⟨fun d => strapLatch d tide own, rfl, fun _ h => h.strapLatch⟩
  | keeperStart prec carrier t => exact ⟨fun d => keeperStart d prec carrier t, rfl, fun _ h => h.keeperStart⟩
  | bringUp carrier t => exact ⟨fun d => bringUp d carrier t, rfl, fun _ h => h.bringUp⟩
  | regionGroupOn => exact ⟨fun d => regionGroupOn d, rfl, fun _ h => h.regionGroupOn⟩
  | regionSettled r test => exact ⟨fun d => regionSettled d r test, rfl, fun _ h => h.regionSettled⟩
  | hbmStackSettled stk id fails => exact ⟨fun d => hbmStackSettled d stk id fails, rfl, fun _ h => h.hbmStackSettled⟩
  | ddrChannelSettled k why => exact ⟨fun d => ddrChannelSettled d k why, rfl, fun _ h => h.ddrChannelSettled⟩
  | sysRstAssert => exact ⟨fun d => sysRstAssert d, rfl, fun _ h => h.sysRstAssert⟩
  | sysRstDeassert => exact ⟨fun d => sysRstDeassert d, rfl, fun _ h => h.sysRstDeassert⟩
  | leveeRaise scope target => exact ⟨fun d => leveeRaise d scope target, rfl, fun _ h => h.leveeRaise⟩
  | leveeLower scope target => exact ⟨fun d => leveeLower d scope target, rfl, fun _ h => h.leveeLower⟩
  | meshHopError c vertical good => exact ⟨fun d => meshHopError d c vertical good, rfl, fun _ h => h.meshHopError⟩
  | keeperWatchdog patched t => exact ⟨fun d => keeperWatchdog d patched t, rfl, fun _ h => h.keeperWatchdog⟩
  | status m => exact ⟨fun d => keeperStatus d m, rfl, fun _ h => h.keeperStatus⟩
  | flogDump m => exact ⟨fun d => flogDump d m, rfl, fun _ h => h.flogDump⟩
  | quote m => exact ⟨fun d => keeperQuote d m, rfl, fun _ h => h.keeperQuote⟩
  | scopeReset m => exact ⟨fun d => scopeReset d m, rfl, fun _ h => h.scopeReset⟩
  | powerOff m => exact ⟨fun d => keeperPowerOff d m, rfl, fun _ h => h.keeperPowerOff⟩
  | powerOn m carrier t => exact ⟨fun d => keeperPowerOn d m carrier t, rfl, fun _ h => h.keeperPowerOn⟩
  | coolantStop m => exact ⟨fun d => keeperCoolantStop d m, rfl, fun _ h => h.keeperCoolantStop⟩
  | rackCap m => exact ⟨fun d => keeperRackCap d m, rfl, fun _ h => h.keeperRackCap⟩
  | powerRead m => exact ⟨fun d => powerRead d m, rfl, fun _ h => h.powerRead⟩
  | setOwner m eid => exact ⟨fun d => keeperSetOwner d m eid, rfl, fun _ h => h.keeperSetOwner⟩
  | tideRole m => exact ⟨fun d => keeperTideRole d m, rfl, fun _ h => h.keeperTideRole⟩
  | secSubmit by_ => exact ⟨fun d => secSubmit d by_, rfl, fun _ h => h.secSubmit⟩
  | tokenCheckDone far e => exact ⟨fun d => tokenCheckDone d far e, rfl, fun _ h => h.tokenCheckDone⟩
  | secFwLoad by_ => exact ⟨fun d => secFwLoad d by_, rfl, fun _ h => h.secFwLoad⟩
  | fwLoadDone e => exact ⟨fun d => fwLoadDone d e, rfl, fun _ h => h.fwLoadDone⟩
  | secAnchorAdd by_ => exact ⟨fun d => secAnchorAdd d by_, rfl, fun _ h => h.secAnchorAdd⟩
  | anchorAddDone e => exact ⟨fun d => anchorAddDone d e, rfl, fun _ h => h.anchorAddDone⟩
  | secLockAnchors by_ => exact ⟨fun d => secLockAnchors d by_, rfl, fun _ h => h.secLockAnchors⟩
  | secRelock by_ => exact ⟨fun d => secRelock d by_, rfl, fun _ h => h.secRelock⟩
  | getVersion via => exact ⟨fun d => spdmVersion d via, rfl, fun _ h => h.spdmVersion⟩
  | getCapabilities via => exact ⟨fun d => spdmCapabilities d via, rfl, fun _ h => h.spdmCapabilities⟩
  | negotiateAlgorithms via => exact ⟨fun d => spdmAlgorithms d via, rfl, fun _ h => h.spdmAlgorithms⟩
  | getDigests via => exact ⟨fun d => spdmDigests d via, rfl, fun _ h => h.spdmDigests⟩
  | getCertificate via slot off len => exact ⟨fun d => spdmCertificate d via slot off len, rfl, fun _ h => h.spdmCertificate⟩
  | challenge via slot nonce => exact ⟨fun d => spdmChallenge d via slot nonce, rfl, fun _ h => h.spdmChallenge⟩
  | getMeasurements via index nonce => exact ⟨fun d => spdmMeasurements d via index nonce, rfl, fun _ h => h.spdmMeasurements⟩
  | keyExchange via => exact ⟨fun d => spdmKeyExchange d via, rfl, fun _ h => h.spdmKeyExchange⟩
  | heartbeat via id => exact ⟨fun d => spdmHeartbeat d via id, rfl, fun _ h => h.spdmHeartbeat⟩
  | keyUpdate via id => exact ⟨fun d => spdmKeyUpdate d via id, rfl, fun _ h => h.spdmKeyUpdate⟩
  | endSession via id => exact ⟨fun d => spdmEndSession d via id, rfl, fun _ h => h.spdmEndSession⟩
  | vendorDefinedRequest via id msg => exact ⟨fun d => spdmVendorDefined d via id msg, rfl, fun _ h => h.spdmVendorDefined⟩
  | spdmUnsupportedRequest via => exact ⟨fun d => spdmUnsupported d via, rfl, fun _ h => h.spdmUnsupported⟩
  | dbgResumeAll by_ => exact ⟨fun d => dbgResumeAll d by_, rfl, fun _ h => h.dbgResumeAll⟩
  | dbgResumeOne by_ => exact ⟨fun d => dbgResumeOne d by_, rfl, fun _ h => h.dbgResumeOne⟩
  | trcStart by_ => exact ⟨fun d => trcStart d by_, rfl, fun _ h => h.trcStart⟩
  | trcStop by_ => exact ⟨fun d => trcStop d by_, rfl, fun _ h => h.trcStop⟩
  | trcClear by_ => exact ⟨fun d => trcClear d by_, rfl, fun _ h => h.trcClear⟩
  | stitchCommit by_ => exact ⟨fun d => stitchCommit d by_, rfl, fun _ h => h.stitchCommit⟩
  | dbgFreezeWrite by_ v => exact ⟨fun d => dbgFreezeWrite d by_ v, rfl, fun _ h => h.dbgFreezeWrite⟩
  | dbgBpWrite by_ k v => exact ⟨fun d => dbgBpWrite d by_ k v, rfl, fun _ h => h.dbgBpWrite⟩
  | dbgBpCntWrite by_ k v => exact ⟨fun d => dbgBpCntWrite d by_ k v, rfl, fun _ h => h.dbgBpCntWrite⟩
  | dbgTagctrCfgWrite by_ j v => exact ⟨fun d => dbgTagctrCfgWrite d by_ j v, rfl, fun _ h => h.dbgTagctrCfgWrite⟩
  | telemetrySnapshot => exact ⟨fun d => telemetrySnapshot d, rfl, fun _ h => h.telemetrySnapshot⟩
  | tapReset => exact ⟨fun d => tapReset_ d, rfl, fun _ h => h.tapReset_⟩
  | extest pins shiftIn => exact ⟨fun d => tapExtest d pins shiftIn, rfl, fun _ h => h.tapExtest⟩
  | idcode => exact ⟨fun d => tapIdcode d, rfl, fun _ h => h.tapIdcode⟩
  | samplePreload pins shiftIn => exact ⟨fun d => tapSamplePreload d pins shiftIn, rfl, fun _ h => h.tapSamplePreload⟩
  | clamp => exact ⟨fun d => tapClamp d, rfl, fun _ h => h.tapClamp⟩
  | highz => exact ⟨fun d => tapHighz d, rfl, fun _ h => h.tapHighz⟩
  | stackSel => exact ⟨fun d => tapStackSel d, rfl, fun _ h => h.tapStackSel⟩
  | scan => exact ⟨fun d => tapScan d, rfl, fun _ h => h.tapScan⟩
  | bypass => exact ⟨fun d => tapBypass d, rfl, fun _ h => h.tapBypass⟩
  | mtxCtrClr c v => exact ⟨fun d => mtxCtrClr d c v, rfl, fun _ h => h.mtxCtrClr⟩
  | eleCtrClr c v => exact ⟨fun d => eleCtrClr d c v, rfl, fun _ h => h.eleCtrClr⟩
  | spdmFinish via id => exact ⟨fun d => spdmFinish d via id, rfl, fun _ h => h.spdmFinish⟩
  | coolFailDeassert t => exact ⟨fun d => coolFailDeassert d t, rfl, fun _ h => h.coolFailDeassert⟩
  | coreReady => exact ⟨fun d => coreReady d, rfl, fun _ h => h.coreReady⟩
  | configSpaceReady p => exact ⟨fun d => configSpaceReady d p, rfl, fun _ h => h.configSpaceReady⟩
  | slackReportAck => exact ⟨fun d => slackReportAck d, rfl, fun _ h => h.slackReportAck⟩
  | dynamicAddressAssign addr => exact ⟨fun d => dynamicAddressAssign d addr, rfl, fun _ h => h.dynamicAddressAssign⟩
  | msiXTableWrite p n addr data masked => exact ⟨fun d => msixTableWrite d p n addr data masked, rfl, fun _ h => h.msixTableWrite⟩
  | ridReuseTimeout rid t => exact ⟨fun d => ridReuseTimeout d rid t, rfl, fun _ h => h.ridReuseTimeout⟩

/-- Settles O1: with a command at the front of the queue, the step is its meaning on the queue's rest. -/
theorem stepRunsFront : Obligations.StepRunsFront := by
  intro s c rest h
  rw [step, h]

/-- Settles O2: the empty queue is the first arm of the step, and every meaning is a `run`. -/
theorem everyStepCompletes : Obligations.EveryStepCompletes := by
  refine ⟨fun s h => by rw [step, h], fun s c => ?_⟩
  obtain ⟨f, hf, -⟩ := exec_eq_run_canonical c s
  exact ⟨f s.dev, hf⟩

/-- Settles O3: a reset register holds its table's value, by evaluation of the register map. -/
theorem resetValues : Obligations.ResetValues := by
  refine ⟨rfl, rfl, rfl, rfl, rfl, rfl, by decide, ?_, ?_, ?_, ?_, ?_⟩
  · decide
  · decide
  · decide
  · decide
  · decide

/-- Settles O4: the maps of the reset device are empty. -/
theorem resetIsCanonical : Obligations.ResetIsCanonical := Dev.Canonical.devReset

/-- Settles O5: by the command at the front of the queue, each of whose operations keeps the canonical form. -/
theorem stepKeepsCanonical : Obligations.StepKeepsCanonical := by
  intro s s' hs hstep
  cases hp : s.pending with
  | nil =>
    rw [everyStepCompletes.1 s hp] at hstep
    cases hstep
    exact hs
  | cons c rest =>
    rw [stepRunsFront s c rest hp] at hstep
    obtain ⟨f, hf, hkeep⟩ := exec_eq_run_canonical c { s with pending := rest }
    rw [hf] at hstep
    cases hstep
    exact hkeep _ hs

end Sys2Proof.Machine
end

section
/-! PROOF. Writes by a port that does not own what it writes (O8). -/
namespace Sys2Proof.Machine

/-! ## Who may write -/

theorem ownerWrites_of_ne {d : Dev} {p : PciePort} (h : p.val ≠ fget d HIF_CTRL_OWNER) : ownerWrites d (some p) = false := by
  simpa [ownerWrites, ownerPort] using h

theorem secWrites_of_ne {d : Dev} {p : PciePort} (h : p.val ≠ fget d HIF_CTRL_OWNER) : secWrites d (some p) = false := by
  simp [secWrites, ownerWrites_of_ne h]

theorem dbgWrites_of_ne {d : Dev} {p : PciePort} (h : p.val ≠ fget d HIF_CTRL_OWNER) : dbgWrites d (some p) = false := by
  simp [dbgWrites, ownerWrites_of_ne h]

theorem ringWrites_of_ne {p : PciePort} {k : Nat} (h : p.val ≠ k / 16) : ringWrites (some p) k = false := by
  simpa [ringWrites] using h

/-- A write of START or RESUME by a port that does not own the control leaves the tide. -/
theorem beginTide_of_ne {d : Dev} {p : PciePort} (h : p.val ≠ fget d HIF_CTRL_OWNER) (state : Nat) (held : Bool) (t : Nat) :
    beginTide d (some p) state held t = d := by
  simp [beginTide, ownerWrites_of_ne h]

/-! ## The statement -/

/-- Settles O8: every operation of a command register asks who writes before it does anything. -/
theorem otherPortWrites : Obligations.OtherPortWrites := by
  intro s p
  refine ⟨fun h => ?_, fun k h => ?_, fun q v h => ?_⟩
  · have ho := ownerWrites_of_ne h
    have hsec := secWrites_of_ne h
    have hdbg := dbgWrites_of_ne h
    refine ⟨fun ddr ch v => ⟨?_, ?_⟩, fun held t => ⟨?_, ?_⟩, fun q acc v => ⟨?_, ?_⟩, fun j v => ?_, fun k j v => ?_⟩
    · exact runs_of (fun d => hbmChCtlWrite d (some p) ddr ch v) rfl (by simp [hbmChCtlWrite, ho])
    · exact runs_of (fun d => tgStart d (some p) ddr ch v) rfl (by simp [tgStart, ho])
    · exact runs_of (fun d => tidCtlStart d (some p) held t) rfl (beginTide_of_ne h _ _ _)
    · exact runs_of (fun d => tidCtlResume d (some p) held t) rfl (beginTide_of_ne h _ _ _)
    · exact runs_of (fun d => trfPortDisable d (some p) q v acc) rfl (by simp [trfPortDisable, ho])
    · exact runs_of (fun d => trfPortRetrain d (some p) q v) rfl (by simp [trfPortRetrain, ho])
    · exact runs_of (fun d => slcWmWrite d (some p) j v) rfl (by simp [slcWmWrite, ho])
    · simp only [List.forall_mem_cons, List.not_mem_nil, false_imp_iff, implies_true, and_true]
      refine ⟨?_, ?_, ?_, ?_, ?_, ?_, ?_, ?_, ?_, ?_, ?_, ?_, ?_, ?_, ?_, ?_, ?_, ?_, ?_, ?_, ?_, ?_, ?_⟩
      · exact runs_of (fun d => patCtlLoad d (some p)) rfl (by simp [patCtlLoad, ho])
      · exact runs_of (fun d => patCtlSwitch d (some p)) rfl (by simp [patCtlSwitch, ho])
      · exact runs_of (fun d => tidCtlStop d (some p)) rfl (by simp [tidCtlStop, ho])
      · exact runs_of (fun d => tidCfgWrite d (some p) v) rfl (by simp [tidCfgWrite, ho])
      · exact runs_of (fun d => nodeIdTaken d (some p) v) rfl (by simp [nodeIdTaken, ho])
      · exact runs_of (fun d => slcPinselWrite d (some p) v) rfl (by simp [slcPinselWrite, ho])
      · exact runs_of (fun d => pwrPolderOffWrite d (some p) v) rfl (by simp [pwrPolderOffWrite, ho])
      · exact runs_of (fun d => pwrPolderOffHiWrite d (some p) v) rfl (by simp [pwrPolderOffHiWrite, ho])
      · exact runs_of (fun d => secSubmit d (some p)) rfl (by simp [secSubmit, hsec])
      · exact runs_of (fun d => secFwLoad d (some p)) rfl (by simp [secFwLoad, hsec])
      · exact runs_of (fun d => secAnchorAdd d (some p)) rfl (by simp [secAnchorAdd, hsec])
      · exact runs_of (fun d => secLockAnchors d (some p)) rfl (by simp [secLockAnchors, hsec])
      · exact runs_of (fun d => secRelock d (some p)) rfl (by simp [secRelock, hsec])
      · exact runs_of (fun d => dbgResumeAll d (some p)) rfl (by simp [dbgResumeAll, hdbg])
      · exact runs_of (fun d => dbgResumeOne d (some p)) rfl (by simp [dbgResumeOne, hdbg])
      · exact runs_of (fun d => trcStart d (some p)) rfl (by simp [trcStart, hdbg])
      · exact runs_of (fun d => trcStop d (some p)) rfl (by simp [trcStop, hdbg])
      · exact runs_of (fun d => trcClear d (some p)) rfl (by simp [trcClear, hdbg])
      · exact runs_of (fun d => stitchCommit d (some p)) rfl (by simp [stitchCommit, hdbg])
      · exact runs_of (fun d => dbgFreezeWrite d (some p) v) rfl (by simp [dbgFreezeWrite, hdbg])
      · exact runs_of (fun d => dbgBpWrite d (some p) k v) rfl (by simp [dbgBpWrite, hdbg])
      · exact runs_of (fun d => dbgBpCntWrite d (some p) k v) rfl (by simp [dbgBpCntWrite, hdbg])
      · exact runs_of (fun d => dbgTagctrCfgWrite d (some p) j v) rfl (by simp [dbgTagctrCfgWrite, hdbg])
  · have hr := ringWrites_of_ne h
    simp only [List.forall_mem_cons, List.not_mem_nil, false_imp_iff, implies_true, and_true]
    refine ⟨?_, ?_, ?_, ?_⟩
    · exact runs_of (fun d => ringEnable d (some p) k) rfl (by simp [ringEnable, hr])
    · exact runs_of (fun d => ringResume d (some p) k) rfl (by simp [ringResume, hr])
    · exact runs_of (fun d => ringStop d (some p) k) rfl (by simp [ringStop, hr])
    · exact runs_of (fun d => ringDisable d (some p) k) rfl (by simp [ringDisable, hr])
  · exact runs_of (fun d => hifBar2BaseWrite d (some p) q v) rfl (by simp [hifBar2BaseWrite, h.symm])

end Sys2Proof.Machine
end

section
/-! PROOF. The events of a thread (O10): each meaning is taken in the case that its statement names, and what it leaves is read off the update. -/
namespace Sys2Proof.Machine

/-! ## Frames of a change of one cell or thread -/

theorem cellsBut_setCell (d : Dev) (c : Nat) (x : Cell) : CellsBut c d (setCell d c x) := fun k hk => by simp [getCell_setCell, hk]

theorem cellsBut_modCell (d : Dev) (c : Nat) (g : Cell → Cell) : CellsBut c d (modCell d c g) := cellsBut_setCell d c _

theorem cellsBut_modTh (d : Dev) (c t : Nat) (g : Thread → Thread) : CellsBut c d (modTh d c t g) := cellsBut_modCell d c _

/-- Frames compose when the second step leaves the list of cells. -/
theorem CellsBut.trans_eq {c : Nat} {d d₁ d₂ : Dev} (h : CellsBut c d d₁) (he : d₂.cells = d₁.cells) : CellsBut c d d₂ :=
  fun k hk => by simpa [getCell, he] using h k hk

theorem CellsBut.trans {c : Nat} {d d₁ d₂ : Dev} (h : CellsBut c d d₁) (h' : CellsBut c d₁ d₂) : CellsBut c d d₂ :=
  fun k hk => (h' k hk).trans (h k hk)

theorem getCell_modTh_same (d : Dev) (c t : Nat) (g : Thread → Thread) :
    getCell (modTh d c t g) c = setTh (getCell d c) t (g (thread d c t)) := getCell_modCell_same d c _

/-- A thread is read from the list of cells alone. -/
theorem thread_congr {d d' : Dev} (h : d'.cells = d.cells) (c t : Nat) : thread d' c t = thread d c t := by simp [thread, getCell, h]

/-! ## Waits -/

/-- A thread whose stitch nothing holds runs. -/
theorem considerThread_go {d : Dev} {c t : Nat} (h : verdict (getCell d c) t = .go) :
    considerThread d c t = setCell d c (setTh (noteWait (getCell d c) t) t { getTh (noteWait (getCell d c) t) t with st := .run, stallOn := 0 }) := by
  simp [considerThread, h]

/-- The thread's state after it has been considered with nothing to hold it. -/
theorem thread_considerThread_go {d : Dev} {c t : Nat} (h : verdict (getCell d c) t = .go) :
    (thread (considerThread d c t) c t).st = .run ∧ (thread (considerThread d c t) c t).stallOn = 0 := by
  simp [considerThread_go h, thread]

theorem gaugeWaitSatisfied_eq {d : Dev} {c : CellId} {t : ThreadId} (hst : (thread d c t).st = .wait) (hok : (thread d c t).waitOk = true) :
    gaugeWaitSatisfied d c t = considerThread (modTh d c t (fun th => { th with st := .run })) c t := by
  simp [gaugeWaitSatisfied, hst, hok]

/-! ## Loads -/

theorem xreg_setX (th : Thread) (r : Nat) (w : Word) (k : Nat) : xreg (setX th r w) k = if k = r then w else xreg th k :=
  smGet_smSet _ _ _ _ _

/-- An 8-byte load that has come writes its register whole. -/
theorem scalarLoadReturn_ready {d : Dev} {c : CellId} {t : ThreadId} {l : PendingLoad} {v : Nat}
    (hfind : (thread d c t).loads.find? (fun k => k.id == l.id) = some l) (hbytes : l.bytes = 8) (hst : l.st = .ready v) :
    scalarLoadReturn d c t l.id = modTh (takeFree d).2 c t (fun th =>
      setX { th with loads := (thread d c t).loads.filter (fun k => k.id != l.id) } l.reg (BitVec.ofNat 64 v)) := by
  have hw : BitVec.ofNat 64 (v % 2 ^ (8 * 8)) = BitVec.ofNat 64 v := BitVec.eq_of_toNat_eq (by simp)
  simp only [scalarLoadReturn, hfind, hst, hbytes, if_true, Nat.add_zero, hw]

/-! ## Fences -/

theorem lineKey_div (node a : Nat) (h : a < 2 ^ 41) : lineKey node a / 2 ^ 41 = node := by
  unfold lineKey
  omega

theorem fget_fcount (d : Dev) (f : Fld) (n : Nat) (h : f.lo + f.wid ≤ 64) : fget (fcount d f n) f = min (fget d f + n) (2 ^ f.wid - 1) := by
  have hpos : 0 < 2 ^ f.wid := by positivity
  rw [fcount, fget_fset _ _ _ h, Nat.mod_eq_of_lt (by omega)]

theorem fenceRelPerformed_eq {d : Dev} {c : CellId} {t : ThreadId} {scope : FenceScope} (hf : (thread d c t).fence = some (false, scope))
    (hstores : (thread d c t).openStores = 0) (hcmds : (thread d c t).openCmds = 0) (hheld : (getCell d c).held = []) :
    fenceRelPerformed d c t = modTh d c t (fun th => { th with fence := none }) := by
  unfold thread at hf hstores hcmds
  simp [fenceRelPerformed, hf, hstores, hcmds, hheld]

/-- The lines and misses that an acquire fence at gang or hall scope gives up: those of other devices that are of the scope. -/
def acquireHits (d : Dev) (scope : FenceScope) (node : Nat) : Bool :=
  decide (node ≠ nodeId d) && (decide (scope = .hall) || (gangNodes d).contains node)

/-- The far cache after an acquire fence. -/
def acquireFar (d : Dev) (scope : FenceScope) : FarState :=
  { d.far with
    lines := smKeep (fun k => !acquireHits d scope (k / 2 ^ 41)) d.far.lines,
    misses := d.far.misses.map (fun m => if acquireHits d scope m.node then { m with discard := true } else m) }

/-- The device with the far cache `f`. -/
def withFar (d : Dev) (f : FarState) : Dev := { d with far := f }

/-- The device after a fence of a thread has ended. -/
def fenceEnded (d : Dev) (c t : Nat) : Dev := modTh d c t (fun th => { th with fence := none })

theorem rget_farEnded (d : Dev) (c t : Nat) (f : FarState) (o : Nat) : rget (withFar (fenceEnded d c t) f) o = rget d o := rfl

theorem fenceEnded_fence (d : Dev) (c t : Nat) : thread (fenceEnded d c t) c t = { thread d c t with fence := none } := thread_modTh_same _ _ _ _

theorem fenceAcqPerformed_wide {d : Dev} {c : CellId} {t : ThreadId} {scope : FenceScope} (hf : (thread d c t).fence = some (true, scope))
    (hs : scope = .gang ∨ scope = .hall) :
    fenceAcqPerformed d c t =
      fcount (withFar (fenceEnded d c t) (acquireFar (fenceEnded d c t) scope)) FAR_ACQ_ACQUIRES 1 := by
  simp only [fenceAcqPerformed, hf, hs, if_true]
  rfl

theorem fenceAcqPerformed_narrow {d : Dev} {c : CellId} {t : ThreadId} {scope : FenceScope} (hf : (thread d c t).fence = some (true, scope))
    (hs : ¬ (scope = .gang ∨ scope = .hall)) : fenceAcqPerformed d c t = modTh d c t (fun th => { th with fence := none }) := by
  simp only [fenceAcqPerformed, hf, hs, if_false]

/-- An acquire fence at hall scope leaves no line of another device. -/
theorem getLine_acquireFar_hall {d d' : Dev} (hd : d'.far = acquireFar d .hall) {node a : Nat} (hn : node ≠ nodeId d) (ha : a < 2 ^ 41) :
    getLine d' node a = none := by
  have hhit : acquireHits d .hall (lineKey node a / 2 ^ 41) = true := by
    rw [lineKey_div node a ha]
    simp [acquireHits, hn]
  rw [getLine, hd, acquireFar, smGet_smKeep, hhit]
  rfl

theorem drainComplete_eq {d : Dev} {c : CellId} {t : ThreadId} (hst : (thread d c t).st = .stall) (hd : (thread d c t).draining = true)
    (hc : (thread d c t).openCmds = 0) :
    drainComplete d c t = tryArrive (modTh d c t (fun th => { th with st := .barrier, stallOn := 0, draining := false })) := by
  simp [drainComplete, hst, hd, hc]

/-! ## The statement -/

/-- Settles O10: each event in turn, by the equation of its meaning in the case named. -/
theorem threadEvents : Obligations.ThreadEvents := by
  intro s c t
  refine ⟨fun hst hok hv => ?wait, fun l v hfind hbytes hst => ?load, fun scope hf hstores hcmds hheld => ?release, fun scope hf => ?acquire,
    fun hst hd hc => ?drain⟩
  case wait =>
    refine runs_of (fun d => gaugeWaitSatisfied d c t) rfl ?_
    set d1 := modTh s.dev c t (fun th => { th with st := .run }) with hd1
    have hgo : verdict (getCell d1 c) t = .go := by rw [hd1, getCell_modTh_same]; exact hv
    simp only [gaugeWaitSatisfied_eq hst hok, ← hd1]
    obtain ⟨hrun, hstall⟩ := thread_considerThread_go hgo
    refine ⟨hrun, hstall, ?_⟩
    rw [considerThread_go hgo]
    exact ⟨(cellsBut_modTh _ _ _ _).trans (cellsBut_setCell _ _ _), memSame_of rfl, regsBut_of _ rfl⟩
  case load =>
    refine runs_of (fun d => scalarLoadReturn d c t l.id) rfl ?_
    simp only [scalarLoadReturn_ready hfind hbytes hst, thread_modTh_same]
    refine ⟨by simp [xreg_setX], fun r hr => ?_, rfl, cellsBut_modTh (takeFree s.dev).2 c t _, memSame_of rfl, regsBut_of _ rfl⟩
    simp only [xreg_setX, hr, if_false]
    rfl
  case release =>
    refine runs_of (fun d => fenceRelPerformed d c t) rfl ?_
    simp only [fenceRelPerformed_eq hf hstores hcmds hheld, thread_modTh_same]
    exact ⟨trivial, cellsBut_modTh _ _ _ _, memSame_of rfl, regsBut_of _ rfl⟩
  case acquire =>
    refine runs_of (fun d => fenceAcqPerformed d c t) rfl ?_
    by_cases hs : scope = .gang ∨ scope = .hall
    · simp only [fenceAcqPerformed_wide hf hs]
      have hcells : CellsBut c s.dev (fenceEnded s.dev c t) := cellsBut_modTh _ _ _ _
      refine ⟨?_, hcells.trans_eq (fcount_cells _ _ _), memSame_of (fcount_mem _ _ _), fun o ho => ?_, fun _ => ?_, fun hh node a hn ha => ?_⟩
      · exact (thread_congr (fcount_cells (withFar (fenceEnded s.dev c t) _) _ _) c t).trans (fenceEnded_fence _ _ _)
      · rw [rget_fcount_ne _ FAR_ACQ_ACQUIRES 1 (by simpa [FAR_ACQ_ACQUIRES] using ho), rget_farEnded]
      · rw [fget_fcount _ FAR_ACQ_ACQUIRES 1 (by decide), fget, rget_farEnded]
        rfl
      · subst hh
        exact getLine_acquireFar_hall (d := fenceEnded s.dev c t) (by simp [withFar]) hn ha
    · simp only [fenceAcqPerformed_narrow hf hs, thread_modTh_same]
      exact ⟨trivial, cellsBut_modTh _ _ _ _, memSame_of rfl, regsBut_of _ rfl, fun h => absurd h hs, fun h => absurd (.inr h) hs⟩
  case drain =>
    refine runs_of (fun d => drainComplete d c t) rfl ?_
    simp only [drainComplete_eq hst hd hc]
    refine ⟨?_, (cellsBut_modTh s.dev c t _).trans_eq (tryArrive_cells _), memSame_of (by rw [tryArrive_mem]; rfl), fun o ho => ?_⟩
    · rw [thread_congr (tryArrive_cells _), thread_modTh_same]
    · exact tryArrive_rget _ (by simpa using ho)

end Sys2Proof.Machine
end

section
/-! PROOF. O13: what the completion of a command does to its thread, its gauge and its engine's status. -/
namespace Sys2Proof.Machine

/-- A field reads the same where its register does. -/
theorem fget_congr {d d' : Dev} (f : Fld) (h : rget d' f.off = rget d f.off) : fget d' f = fget d f := by rw [fget, fget, h]

theorem rget_setCell (d : Dev) (c : Nat) (x : Cell) (o : Nat) : rget (setCell d c x) o = rget d o := (rfl)

theorem getCell_congr {d d' : Dev} (h : d'.cells = d.cells) (c : Nat) : getCell d' c = getCell d c := by rw [getCell, getCell, h]

/-- A field is unchanged by a write of a field apart from it, in its own register or in another. -/
theorem fget_fset_skip (d : Dev) (f g : Fld) (v : Nat) (hf : f.lo + f.wid ≤ 64) (h : g.off ≠ f.off ∨ g.lo + g.wid ≤ f.lo ∨ f.lo + f.wid ≤ g.lo) :
    fget (fset d f v) g = fget d g := by
  by_cases ho : g.off = f.off
  · exact fget_fset_apart d f g v hf ho (h.resolve_left (fun hn => hn ho))
  · exact fget_fset_ne d f g v ho

theorem fget_fcount_skip (d : Dev) (f g : Fld) (n : Nat) (hf : f.lo + f.wid ≤ 64) (h : g.off ≠ f.off ∨ g.lo + g.wid ≤ f.lo ∨ f.lo + f.wid ≤ g.lo) :
    fget (fcount d f n) g = fget d g := fget_fset_skip d f g _ hf h

/-! ## The report of a completion -/

@[simp] theorem noteDone_core (d : Dev) (c t tag : Nat) (st : Status) (ext : Nat × Nat) : (noteDone d c t tag st ext).core = d.core := by
  rw [noteDone, countTag_core, traceEv_core]

@[simp] theorem noteDone_cells (d : Dev) (c t tag : Nat) (st : Status) (ext : Nat × Nat) : (noteDone d c t tag st ext).cells = d.cells :=
  core_cells (noteDone_core d c t tag st ext)

@[simp] theorem noteDone_mem (d : Dev) (c t tag : Nat) (st : Status) (ext : Nat × Nat) : (noteDone d c t tag st ext).mem = d.mem :=
  core_mem (noteDone_core d c t tag st ext)

theorem noteDone_rget (d : Dev) (c t tag : Nat) (st : Status) (ext : Nat × Nat) {o : Nat} (ht : o ≠ DBG_TRC_STATUS) (hc : ∀ j, o ≠ DBG_TAGCTR j) :
    rget (noteDone d c t tag st ext) o = rget d o := by
  rw [noteDone, countTag_rget _ _ _ _ hc, traceEv_rget _ _ _ _ _ _ _ _ ht]

/-! ## A thread's count of commands -/

theorem openCmds_latchWaits (x : Cell) (r : GaugeRef) (t : Nat) : (getTh (latchWaits x r) t).openCmds = (getTh x t).openCmds := by
  refine foldl_keeps (fun x => (getTh x t).openCmds) _ (fun x k => ?_) _ _
  by_cases hk : t = k
  · subst hk
    simp only
    split_ifs <;> simp
  · simp only
    split_ifs <;> simp [getTh_setTh, hk]

theorem thread_closeCmd (d : Dev) (c t : Nat) : (thread (closeCmd d c t) c t).openCmds = (thread d c t).openCmds - 1 := by
  rw [closeCmd, thread_modTh_same]

/-- Closing a command keeps every part of the cell but the threads. -/
theorem closeCmd_keeps {α : Type} (get : Cell → α) (h : ∀ x t th, get (setTh x t th) = get x) (d : Dev) (c t : Nat) :
    get (getCell (closeCmd d c t) c) = get (getCell d c) := by
  rw [closeCmd, modTh, getCell_modCell_same, h]

theorem closeCmd_rget (d : Dev) (c t o : Nat) : rget (closeCmd d c t) o = rget d o := (rfl)

theorem closeCmd_mem (d : Dev) (c t : Nat) : (closeCmd d c t).mem = d.mem := (rfl)

theorem closeCmd_others (d : Dev) (c t : Nat) : CellsBut c d (closeCmd d c t) := fun _ h => getCell_modCell_ne _ h _

/-! ## The gauge that a completion names, at its own cell -/

theorem completeGauge_eq {k : Completion} (h : k.gauge.patch = 0) (d : Dev) (c : Nat) (src : GaugeSource) :
    completeGauge d c k src = applyCellGauge d c k.gauge.gauge
      [{ patch := k.gauge.patch, gauge := k.gauge.gauge, src := src, cell := c, node := nodeId d, op := .add k.inc }] := by
  simp [completeGauge, updateGauge, h]

/-- The cell after an update of one of its gauges: the gauge has changed, and the waits that it satisfies are noted. -/
theorem getCell_applyCellGauge (d : Dev) (c : Nat) (g : Fin 64) (u : GaugeUpd) : ∃ v,
    getCell (applyCellGauge d c g [u]) c = latchWaits { getCell d c with gauges := smSet (fun _ => 0) (getCell d c).gauges g v } ⟨0, g⟩ := by
  refine ⟨BitVec.ofNat 64 (combineGauge (cellGauge (getCell d c) g) [u]).1, ?_⟩
  simp only [applyCellGauge, List.isEmpty_cons, Bool.false_eq_true, if_false]
  split_ifs <;> simp

theorem completeGauge_keeps {α : Type} (get : Cell → α) (h : ∀ x t th, get (setTh x t th) = get x) (hg : ∀ (x : Cell) g, get { x with gauges := g } = get x)
    {k : Completion} (hk : k.gauge.patch = 0) (d : Dev) (c : Nat) (src : GaugeSource) :
    get (getCell (completeGauge d c k src) c) = get (getCell d c) := by
  rw [completeGauge_eq hk]
  obtain ⟨v, hv⟩ := getCell_applyCellGauge d c k.gauge.gauge
    { patch := k.gauge.patch, gauge := k.gauge.gauge, src := src, cell := c, node := nodeId d, op := .add k.inc }
  rw [hv, latchWaits_keeps get h, hg]

theorem completeGauge_openCmds {k : Completion} (hk : k.gauge.patch = 0) (d : Dev) (c t : Nat) (src : GaugeSource) :
    (thread (completeGauge d c k src) c t).openCmds = (thread d c t).openCmds := by
  rw [completeGauge_eq hk]
  obtain ⟨v, hv⟩ := getCell_applyCellGauge d c k.gauge.gauge
    { patch := k.gauge.patch, gauge := k.gauge.gauge, src := src, cell := c, node := nodeId d, op := .add k.inc }
  rw [thread, hv, openCmds_latchWaits]
  rfl

theorem completeGauge_value {k : Completion} (hk : k.gauge.patch = 0) (d : Dev) (c : Nat) (src : GaugeSource) :
    cellGauge (getCell (completeGauge d c k src) c) k.gauge.gauge = min (cellGauge (getCell d c) k.gauge.gauge + k.inc) (2 ^ 64 - 1) := by
  rw [completeGauge_eq hk, applyCellGauge_lone_add rfl]

theorem completeGauge_others {k : Completion} (hk : k.gauge.patch = 0) (d : Dev) (c : Nat) (src : GaugeSource) :
    CellsBut c d (completeGauge d c k src) := fun j hj => by rw [completeGauge_eq hk, applyCellGauge_others _ _ _ _ hj]

theorem completeGauge_mem {k : Completion} (hk : k.gauge.patch = 0) (d : Dev) (c : Nat) (src : GaugeSource) :
    (completeGauge d c k src).mem = d.mem := by rw [completeGauge_eq hk, applyCellGauge_mem]

theorem completeGauge_rget {k : Completion} (hk : k.gauge.patch = 0) (d : Dev) (c : Nat) (src : GaugeSource) {o : Nat} (h1 : o ≠ CEL_GAUGE_SAT c)
    (h2 : o ≠ CEL_GAUGE_CONFLICT c) : rget (completeGauge d c k src) o = rget d o := by rw [completeGauge_eq hk, applyCellGauge_rget _ _ _ _ h1 h2]

/-- What every completion at cell `c` gives: the thread has one command fewer, the gauge is raised, memory and the other cells stay. -/
def Ended (s : Dev) (c : Nat) (t : Nat) (k : Completion) (d : Dev) : Prop :=
  (thread d c t).openCmds = (thread s c t).openCmds - 1 ∧
  cellGauge (getCell d c) k.gauge.gauge = min (cellGauge (getCell s c) k.gauge.gauge + k.inc) (2 ^ 64 - 1) ∧
  MemSame s d ∧ CellsBut c s d

/-- The gauge's update ends the command of a device that has closed it. -/
theorem ended_completeGauge {s d : Dev} {c t : Nat} {k : Completion} (src : GaugeSource) (hk : k.gauge.patch = 0)
    (hopen : (thread d c t).openCmds = (thread s c t).openCmds - 1) (hgauges : (getCell d c).gauges = (getCell s c).gauges) (hmem : d.mem = s.mem)
    (hcells : CellsBut c s d) : Ended s c t k (completeGauge d c k src) :=
  ⟨by rw [completeGauge_openCmds hk, hopen], by rw [completeGauge_value hk, cellGauge, cellGauge, hgauges],
    memSame_of ((completeGauge_mem hk _ _ _).trans hmem), hcells.trans (completeGauge_others hk _ _ _)⟩

/-! ## DMA commands -/

/-- A tag with nothing under way and nothing left to do. -/
theorem dmaComplete_eq {d : Dev} {c : CellId} {n : Fin 8} {tg : DmaTag} (htag : dmaTag d c n = some tg) (hcur : tg.cur = none)
    (hreq : tg.openReq = 0) (hheld : tg.held = 0) (hover : tg.status ≠ .ok ∨ tg.listN = 0 ∧ tg.todo = []) :
    dmaComplete d c n = completeGauge (closeCmd (noteDone (modCell d c (fun x => { x with tags := smSet (fun _ => none) x.tags n none })) c
      tg.entry.thread tg.entry.cmd.done.tag tg.status (tg.entry.cmd.src, tg.entry.cmd.len)) c tg.entry.thread) c tg.entry.cmd.done .dma := by
  have hover' : (decide (tg.status ≠ .ok) || (decide (tg.listN = 0) && tg.todo.isEmpty)) = true := by simpa using hover
  rw [dmaComplete]
  simp only [htag, hcur, hreq, hheld, hover']
  rfl

theorem dmaComplete_ends {d : Dev} {c : CellId} {n : Fin 8} {tg : DmaTag} (htag : dmaTag d c n = some tg) (hcur : tg.cur = none)
    (hreq : tg.openReq = 0) (hheld : tg.held = 0) (hover : tg.status ≠ .ok ∨ tg.listN = 0 ∧ tg.todo = [])
    (hk : tg.entry.cmd.done.gauge.patch = 0) :
    dmaTag (dmaComplete d c n) c n = none ∧ Ended d c tg.entry.thread tg.entry.cmd.done (dmaComplete d c n) := by
  rw [dmaComplete_eq htag hcur hreq hheld hover]
  set d1 := modCell d c (fun x => { x with tags := smSet (fun _ => none) x.tags n none }) with hd1
  set d2 := noteDone d1 c tg.entry.thread tg.entry.cmd.done.tag tg.status (tg.entry.cmd.src, tg.entry.cmd.len) with hd2
  have hcell : getCell d2 c = { getCell d c with tags := smSet (fun _ => none) (getCell d c).tags n none } := by
    rw [hd2, getCell_congr (noteDone_cells _ _ _ _ _ _), hd1, getCell_modCell_same]
  refine ⟨?_, ended_completeGauge .dma hk ?_ ?_ ?_ ?_⟩
  · rw [dmaTag, completeGauge_keeps Cell.tags (fun _ _ _ => rfl) (fun _ _ => rfl) hk, closeCmd_keeps Cell.tags (fun _ _ _ => rfl), hcell]
    simp
  · rw [thread_closeCmd, thread, hcell]
    rfl
  · rw [closeCmd_keeps Cell.gauges (fun _ _ _ => rfl), hcell]
  · exact noteDone_mem _ _ _ _ _ _
  · exact ((cellsBut_modCell d c _).trans_eq (noteDone_cells _ _ _ _ _ _)).trans (closeCmd_others _ _ _)

/-! ## Element commands -/

/-- The cell after the run of its element engine has ended. -/
def eleCellEnded (x : Cell) (r : EleRun) : Cell :=
  { (match r.entry.cmd.summary with
    | some (src, fresh) => writeSummary x r.entry.thread.val src fresh r.active
    | none => x) with erun := none }

/-- The element engine's registers after the end of a run: its status, its fault note and its counters. -/
def eleRegsEnded (d : Dev) (c : Nat) (r : EleRun) : Dev :=
  let d := fset d (ELE_STATUS_BUSY c) 0
  let d := fset (fset d (ELE_STATUS_LAST_TAG c) r.entry.cmd.done.tag) (ELE_STATUS_LAST_STATUS c) (statusCode r.status)
  let d := if (r.entry.cmd.kind = .gather || r.entry.cmd.kind = .scatter) && decide (r.status ≠ .ok) then fset d (ELE_STATUS_GATHER_FAULT c) 1 else d
  fcount (fcount d (ELE_CTR_COMMANDS c) 1) (ELE_CTR_PASSES c) r.passes

theorem eleRegsEnded_cells (d : Dev) (c : Nat) (r : EleRun) : (eleRegsEnded d c r).cells = d.cells := by
  simp only [eleRegsEnded]
  split_ifs <;> simp

theorem eleRegsEnded_mem (d : Dev) (c : Nat) (r : EleRun) : (eleRegsEnded d c r).mem = d.mem := by
  simp only [eleRegsEnded]
  split_ifs <;> simp

/-- The three fields of ELE_STATUS that a completion writes. -/
theorem eleRegsEnded_status (d : Dev) (c : Nat) (r : EleRun) : fget (eleRegsEnded d c r) (ELE_STATUS_BUSY c) = 0 ∧
    fget (eleRegsEnded d c r) (ELE_STATUS_LAST_TAG c) = r.entry.cmd.done.tag % 2 ^ 16 ∧
    fget (eleRegsEnded d c r) (ELE_STATUS_LAST_STATUS c) = statusCode r.status := by
  have hst : statusCode r.status % 2 ^ 8 = statusCode r.status := by cases r.status <;> rfl
  simp only [eleRegsEnded]
  split_ifs <;>
    simp (disch := (dsimp only [ELE_STATUS_BUSY, ELE_STATUS_LAST_TAG, ELE_STATUS_LAST_STATUS, ELE_STATUS_GATHER_FAULT, ELE_CTR_COMMANDS, ELE_CTR_PASSES,
      ELE_CTR, ELE_STATUS]; omega)) only [fget_fset, fget_fset_skip, fget_fcount_skip] <;>
    exact ⟨rfl, rfl, hst⟩

theorem openCmds_writeSummary (x : Cell) (k src : Nat) (fresh : Bool) (active : List Nat) (t : Nat) :
    (getTh (writeSummary x k src fresh active) t).openCmds = (getTh x t).openCmds := by
  by_cases ht : t = k
  · subst ht
    simp only [writeSummary, getTh_setTh_same]
  · simp only [writeSummary, getTh_setTh, if_neg ht]

/-- The end of a run touches nothing of the cell but its threads' summaries and the run. -/
theorem eleCellEnded_openCmds (x : Cell) (r : EleRun) (t : Nat) : (getTh (eleCellEnded x r) t).openCmds = (getTh x t).openCmds := by
  simp only [eleCellEnded]
  split
  · exact openCmds_writeSummary _ _ _ _ _ _
  · rfl

theorem eleCellEnded_gauges (x : Cell) (r : EleRun) : (eleCellEnded x r).gauges = x.gauges := by
  simp only [eleCellEnded]
  split <;> rfl

/-- No report or gauge bit of a cell is in an element engine's status register. -/
theorem eleStatus_apart (c : CellId) : ELE_STATUS c ≠ DBG_TRC_STATUS ∧ (∀ j, ELE_STATUS c ≠ DBG_TAGCTR j) ∧ ELE_STATUS c ≠ CEL_GAUGE_SAT c ∧
    ELE_STATUS c ≠ CEL_GAUGE_CONFLICT c := by
  have hc : c.val < 4096 := c.isLt
  unfold ELE_STATUS DBG_TRC_STATUS DBG_TAGCTR CEL_GAUGE_SAT CEL_GAUGE_CONFLICT
  refine ⟨?_, fun j => ?_, ?_, ?_⟩
  all_goals omega

/-- The device of an element command that has ended, before its thread and its gauge are told. -/
def eleReported (d : Dev) (c : Nat) (r : EleRun) : Dev :=
  noteDone (eleRegsEnded (modCell d c (fun x => eleCellEnded x r)) c r) c r.entry.thread r.entry.cmd.done.tag r.status
    (r.entry.cmd.e.getD 0 0, r.entry.cmd.count)

theorem elementComplete_eq {d : Dev} {c : CellId} {r : EleRun} (hrun : (getCell d c).erun = some r) (hl : r.lanes = []) :
    elementComplete d c = completeGauge (closeCmd (eleReported d c r) c r.entry.thread) c r.entry.cmd.done .engine := by
  simp only [elementComplete, hrun, hl, List.isEmpty_nil, Bool.not_true, Bool.false_eq_true, if_false]
  rfl

theorem eleReported_cells (d : Dev) (c : Nat) (r : EleRun) : (eleReported d c r).cells = (modCell d c (fun x => eleCellEnded x r)).cells := by
  rw [eleReported, noteDone_cells, eleRegsEnded_cells]

theorem eleReported_cell (d : Dev) (c : Nat) (r : EleRun) : getCell (eleReported d c r) c = eleCellEnded (getCell d c) r := by
  rw [getCell_congr (eleReported_cells d c r), getCell_modCell_same]

theorem eleReported_mem (d : Dev) (c : Nat) (r : EleRun) : (eleReported d c r).mem = d.mem := by
  rw [eleReported, noteDone_mem, eleRegsEnded_mem, modCell_mem]

theorem eleReported_others (d : Dev) (c : Nat) (r : EleRun) : CellsBut c d (eleReported d c r) :=
  (cellsBut_modCell d c _).trans_eq (eleReported_cells d c r)

/-- The three fields of ELE_STATUS that a completion writes. -/
theorem eleReported_status (d : Dev) (c : CellId) (r : EleRun) : fget (eleReported d c r) (ELE_STATUS_BUSY c) = 0 ∧
    fget (eleReported d c r) (ELE_STATUS_LAST_TAG c) = r.entry.cmd.done.tag % 2 ^ 16 ∧
    fget (eleReported d c r) (ELE_STATUS_LAST_STATUS c) = statusCode r.status := by
  obtain ⟨htrc, htag, -, -⟩ := eleStatus_apart c
  have hstatus : rget (eleReported d c r) (ELE_STATUS c) = rget (eleRegsEnded (modCell d c (fun x => eleCellEnded x r)) c r) (ELE_STATUS c) :=
    noteDone_rget _ _ _ _ _ _ htrc htag
  obtain ⟨hbusy, hlastTag, hlastSt⟩ := eleRegsEnded_status (modCell d c (fun x => eleCellEnded x r)) c r
  exact ⟨(fget_congr (ELE_STATUS_BUSY c) hstatus).trans hbusy, (fget_congr (ELE_STATUS_LAST_TAG c) hstatus).trans hlastTag,
    (fget_congr (ELE_STATUS_LAST_STATUS c) hstatus).trans hlastSt⟩

theorem elementComplete_ends {d : Dev} {c : CellId} {r : EleRun} (hrun : (getCell d c).erun = some r) (hl : r.lanes = [])
    (hk : r.entry.cmd.done.gauge.patch = 0) :
    (getCell (elementComplete d c) c).erun = none ∧ fget (elementComplete d c) (ELE_STATUS_BUSY c) = 0 ∧
    fget (elementComplete d c) (ELE_STATUS_LAST_TAG c) = r.entry.cmd.done.tag % 2 ^ 16 ∧
    fget (elementComplete d c) (ELE_STATUS_LAST_STATUS c) = statusCode r.status ∧
    Ended d c r.entry.thread r.entry.cmd.done (elementComplete d c) := by
  obtain ⟨-, -, hsat, hconf⟩ := eleStatus_apart c
  have hstatus : rget (elementComplete d c) (ELE_STATUS c) = rget (eleReported d c r) (ELE_STATUS c) := by
    rw [elementComplete_eq hrun hl, completeGauge_rget hk _ _ _ hsat hconf, closeCmd_rget]
  obtain ⟨hbusy, hlastTag, hlastSt⟩ := eleReported_status d c r
  refine ⟨?_, (fget_congr (ELE_STATUS_BUSY c) hstatus).trans hbusy, (fget_congr (ELE_STATUS_LAST_TAG c) hstatus).trans hlastTag,
    (fget_congr (ELE_STATUS_LAST_STATUS c) hstatus).trans hlastSt, ?_⟩
  · rw [elementComplete_eq hrun hl, completeGauge_keeps Cell.erun (fun _ _ _ => rfl) (fun _ _ => rfl) hk, closeCmd_keeps Cell.erun (fun _ _ _ => rfl), eleReported_cell]
    rfl
  · rw [elementComplete_eq hrun hl]
    refine ended_completeGauge .engine hk ?_ ?_ ((closeCmd_mem _ _ _).trans (eleReported_mem d c r)) ((eleReported_others d c r).trans (closeCmd_others _ _ _))
    · rw [thread_closeCmd, thread, eleReported_cell, eleCellEnded_openCmds, thread]
    · rw [closeCmd_keeps Cell.gauges (fun _ _ _ => rfl), eleReported_cell, eleCellEnded_gauges]

/-! ## Matrix commands -/

/-- The cell after a matrix command outside a chain has ended. -/
def mtxCellEnded (x : Cell) (short : Bool) (r : MtxRun) : Cell :=
  let m := r.entry.cmd
  let x := { x with mrun := none }
  let x := if r.closes then setGroup x m.group none else x
  if m.skip && oneCommand m && !short then
    let old := (smGet (fun _ => []) x.zmaps m.entry.val).filter (fun b => decide ((m.kCmd + 31) / 32 ≤ b))
    { x with zmaps := smSet (fun _ => []) x.zmaps m.entry.val (r.zmap ++ old) }
  else x

/-- The matrix engine's registers after the end of a command: free, with the predictor and the last anchor where they are written. -/
def mtxRegsEnded (d : Dev) (c : Nat) (short : Bool) (r : MtxRun) : Dev :=
  let m := r.entry.cmd
  let d := fset d (MTX_STATUS_BUSY c) 0
  let d := if oneCommand m && !short then setPredictor d c m r.aObs else d
  let d := if !short && (r.closes || (decide (m.op = .chainAdd) && m.start)) then setAnchorLast d c m.done.tag r.anchor0 r.anchor r.source else d
  fset (fset d (MTX_STATUS_LAST_TAG c) m.done.tag) (MTX_STATUS_LAST_STATUS c) (statusCode r.status)

/-- The device of a matrix command that has ended, before its thread and its gauge are told. -/
def mtxReported (d : Dev) (c : Nat) (r : MtxRun) : Dev :=
  noteDone (mtxRegsEnded (modCell d c (fun x => mtxCellEnded x (getCell d c).short r)) c (getCell d c).short r) c r.entry.thread
    r.entry.cmd.done.tag r.status (r.entry.cmd.a, r.entry.cmd.kCmd)

theorem matrixComplete_eq {d : Dev} {c : CellId} {r : MtxRun} (hrun : (getCell d c).mrun = some r) (hchain : r.entry.cmd.chain = .none) :
    matrixComplete d c = completeGauge (releaseHeld (noteGroups (closeCmd (mtxReported d c r) c r.entry.thread) c) c) c r.entry.cmd.done .engine := by
  have hc : isChain r.entry.cmd = false := by simp [isChain, hchain]
  simp only [matrixComplete, hrun, hc, Bool.false_eq_true, if_false]
  rfl

/-- With no write held nothing is released. -/
theorem releaseHeld_nil {d : Dev} {c : Nat} (h : (getCell d c).held = []) : releaseHeld d c = setCell d c (getCell d c) := by
  have hx : { getCell d c with held := [] } = getCell d c := by rw [← h]
  simp only [releaseHeld, h, List.filter_nil, List.foldl_nil, hx]

theorem noteGroups_cells (d : Dev) (c : Nat) : (noteGroups d c).cells = d.cells := by simp [noteGroups]

theorem noteGroups_mem (d : Dev) (c : Nat) : (noteGroups d c).mem = d.mem := by simp [noteGroups]

/-- The count of open groups and of chains leaves the fields of a completion. -/
theorem noteGroups_fget (d : Dev) (c : Nat) {f : Fld} (h : f.lo + f.wid ≤ 51) : fget (noteGroups d c) f = fget d f := by
  simp (disch := (dsimp only [MTX_STATUS_GROUPS_OPEN, MTX_STATUS_CHAINS_PENDING]; omega)) only [noteGroups, fget_fset_skip]

theorem setPredictor_cells (d : Dev) (c : Nat) (m : MtxCmd Nat) (a : Int) : (setPredictor d c m a).cells = d.cells := by
  unfold setPredictor
  split_ifs <;> simp

theorem setPredictor_mem (d : Dev) (c : Nat) (m : MtxCmd Nat) (a : Int) : (setPredictor d c m a).mem = d.mem := by
  unfold setPredictor
  split_ifs <;> simp

theorem setPredictor_rget (d : Dev) (c : Nat) (m : MtxCmd Nat) (a : Int) {o : Nat} (h : o ≠ MTX_PRED c m.entry) :
    rget (setPredictor d c m a) o = rget d o := by
  unfold setPredictor
  split_ifs
  · rw [rget_fset_ne _ _ _ h, rget_fset_ne _ _ _ h]
  · rfl

theorem setAnchorLast_cells (d : Dev) (c tag : Nat) (a0 a : Int) (src : AnchorSrc) : (setAnchorLast d c tag a0 a src).cells = d.cells :=
  rset_cells _ _ _

theorem setAnchorLast_mem (d : Dev) (c tag : Nat) (a0 a : Int) (src : AnchorSrc) : (setAnchorLast d c tag a0 a src).mem = d.mem :=
  rset_mem _ _ _

theorem setAnchorLast_rget (d : Dev) (c tag : Nat) (a0 a : Int) (src : AnchorSrc) {o : Nat} (h : o ≠ MTX_ANCHOR_LAST c) :
    rget (setAnchorLast d c tag a0 a src) o = rget d o := rget_rset_ne _ h _

theorem mtxRegsEnded_cells (d : Dev) (c : Nat) (short : Bool) (r : MtxRun) : (mtxRegsEnded d c short r).cells = d.cells := by
  simp only [mtxRegsEnded]
  split_ifs <;> simp [setPredictor_cells, setAnchorLast_cells]

theorem mtxRegsEnded_mem (d : Dev) (c : Nat) (short : Bool) (r : MtxRun) : (mtxRegsEnded d c short r).mem = d.mem := by
  simp only [mtxRegsEnded]
  split_ifs <;> simp [setPredictor_mem, setAnchorLast_mem]

/-- MTX_STATUS is no predictor register and not MTX_ANCHOR_LAST. -/
theorem mtxStatus_apart_pred (c j : Nat) (hj : j < 64) : MTX_STATUS c ≠ MTX_PRED c j ∧ MTX_STATUS c ≠ MTX_ANCHOR_LAST c := by
  unfold MTX_STATUS MTX_PRED MTX_ANCHOR_LAST
  omega

/-- No report or gauge bit of a cell is in a matrix engine's status register. -/
theorem mtxStatus_apart (c : CellId) : MTX_STATUS c ≠ DBG_TRC_STATUS ∧ (∀ j, MTX_STATUS c ≠ DBG_TAGCTR j) ∧ MTX_STATUS c ≠ CEL_GAUGE_SAT c ∧
    MTX_STATUS c ≠ CEL_GAUGE_CONFLICT c := by
  have hc : c.val < 4096 := c.isLt
  unfold MTX_STATUS DBG_TRC_STATUS DBG_TAGCTR CEL_GAUGE_SAT CEL_GAUGE_CONFLICT
  refine ⟨?_, fun j => ?_, ?_, ?_⟩
  all_goals omega

/-- The three fields of MTX_STATUS that a completion writes. -/
theorem mtxRegsEnded_status (d : Dev) (c : Nat) (short : Bool) (r : MtxRun) : fget (mtxRegsEnded d c short r) (MTX_STATUS_BUSY c) = 0 ∧
    fget (mtxRegsEnded d c short r) (MTX_STATUS_LAST_TAG c) = r.entry.cmd.done.tag % 2 ^ 16 ∧
    fget (mtxRegsEnded d c short r) (MTX_STATUS_LAST_STATUS c) = statusCode r.status := by
  have hst : statusCode r.status % 2 ^ 8 = statusCode r.status := by cases r.status <;> rfl
  obtain ⟨hpred, hlast⟩ := mtxStatus_apart_pred c r.entry.cmd.entry r.entry.cmd.entry.isLt
  have hp : ∀ (d : Dev) a, fget (setPredictor d c r.entry.cmd a) (MTX_STATUS_BUSY c) = fget d (MTX_STATUS_BUSY c) := fun d a =>
    fget_congr _ (setPredictor_rget d c _ a hpred)
  have ha : ∀ (d : Dev) tag a0 a src, fget (setAnchorLast d c tag a0 a src) (MTX_STATUS_BUSY c) = fget d (MTX_STATUS_BUSY c) :=
    fun d tag a0 a src => fget_congr _ (setAnchorLast_rget d c tag a0 a src hlast)
  simp only [mtxRegsEnded]
  split_ifs <;>
    simp (disch := (dsimp only [MTX_STATUS_BUSY, MTX_STATUS_LAST_TAG, MTX_STATUS_LAST_STATUS] <;> omega)) only
      [fget_fset, fget_fset_skip, hp, ha] <;>
    exact ⟨rfl, rfl, hst⟩

/-- The end of a command touches nothing of the cell but its run, its groups and its zero maps. -/
theorem mtxCellEnded_eq (x : Cell) (short : Bool) (r : MtxRun) : mtxCellEnded x short r =
    { x with mrun := none, groups := (mtxCellEnded x short r).groups, zmaps := (mtxCellEnded x short r).zmaps } := by
  simp only [mtxCellEnded, setGroup]
  split_ifs <;> rfl

theorem mtxCellEnded_keeps {α : Type} (get : Cell → α) (h : ∀ (x : Cell) g z, get { x with mrun := none, groups := g, zmaps := z } = get x)
    (x : Cell) (short : Bool) (r : MtxRun) : get (mtxCellEnded x short r) = get x := by
  rw [mtxCellEnded_eq]
  exact h _ _ _

theorem mtxCellEnded_mrun (x : Cell) (short : Bool) (r : MtxRun) : (mtxCellEnded x short r).mrun = none := by
  simp only [mtxCellEnded, setGroup]
  split_ifs <;> rfl

theorem mtxCellEnded_group (x : Cell) (short : Bool) {r : MtxRun} (h : r.closes = true) :
    getGroup (mtxCellEnded x short r) r.entry.cmd.group = none := by
  simp only [mtxCellEnded, h, if_true, getGroup, setGroup]
  split_ifs <;> simp

theorem mtxReported_cells (d : Dev) (c : Nat) (r : MtxRun) :
    (mtxReported d c r).cells = (modCell d c (fun x => mtxCellEnded x (getCell d c).short r)).cells := by
  rw [mtxReported, noteDone_cells, mtxRegsEnded_cells]

theorem mtxReported_cell (d : Dev) (c : Nat) (r : MtxRun) : getCell (mtxReported d c r) c = mtxCellEnded (getCell d c) (getCell d c).short r := by
  rw [getCell_congr (mtxReported_cells d c r), getCell_modCell_same]

theorem mtxReported_mem (d : Dev) (c : Nat) (r : MtxRun) : (mtxReported d c r).mem = d.mem := by
  rw [mtxReported, noteDone_mem, mtxRegsEnded_mem, modCell_mem]

theorem mtxReported_others (d : Dev) (c : Nat) (r : MtxRun) : CellsBut c d (mtxReported d c r) :=
  (cellsBut_modCell d c _).trans_eq (mtxReported_cells d c r)

theorem mtxReported_status (d : Dev) (c : CellId) (r : MtxRun) : fget (mtxReported d c r) (MTX_STATUS_BUSY c) = 0 ∧
    fget (mtxReported d c r) (MTX_STATUS_LAST_TAG c) = r.entry.cmd.done.tag % 2 ^ 16 ∧
    fget (mtxReported d c r) (MTX_STATUS_LAST_STATUS c) = statusCode r.status := by
  obtain ⟨htrc, htag, -, -⟩ := mtxStatus_apart c
  have hstatus : ∀ d, rget (noteDone d c r.entry.thread r.entry.cmd.done.tag r.status (r.entry.cmd.a, r.entry.cmd.kCmd)) (MTX_STATUS c) =
      rget d (MTX_STATUS c) := fun d => noteDone_rget d _ _ _ _ _ htrc htag
  obtain ⟨hbusy, hlastTag, hlastSt⟩ :=
    mtxRegsEnded_status (modCell d c (fun x => mtxCellEnded x (getCell d c).short r)) c (getCell d c).short r
  exact ⟨(fget_congr (MTX_STATUS_BUSY c) (hstatus _)).trans hbusy, (fget_congr (MTX_STATUS_LAST_TAG c) (hstatus _)).trans hlastTag,
    (fget_congr (MTX_STATUS_LAST_STATUS c) (hstatus _)).trans hlastSt⟩

/-- With no write held, the groups are counted and the command's gauge is raised; the rest of the cell stays. -/
theorem getCell_releaseHeld_nil {d : Dev} {c : Nat} (h : (getCell d c).held = []) : getCell (releaseHeld (noteGroups d c) c) c = getCell d c := by
  have hg : getCell (noteGroups d c) c = getCell d c := getCell_congr (noteGroups_cells d c) c
  rw [releaseHeld_nil (by rw [hg, h]), getCell_setCell_same, hg]

theorem matrixComplete_ends {d : Dev} {c : CellId} {r : MtxRun} (hrun : (getCell d c).mrun = some r) (hchain : r.entry.cmd.chain = .none)
    (hheld : (getCell d c).held = []) (hk : r.entry.cmd.done.gauge.patch = 0) :
    (getCell (matrixComplete d c) c).mrun = none ∧ fget (matrixComplete d c) (MTX_STATUS_BUSY c) = 0 ∧
    fget (matrixComplete d c) (MTX_STATUS_LAST_TAG c) = r.entry.cmd.done.tag % 2 ^ 16 ∧
    fget (matrixComplete d c) (MTX_STATUS_LAST_STATUS c) = statusCode r.status ∧
    (r.closes = true → getGroup (getCell (matrixComplete d c) c) r.entry.cmd.group = none) ∧
    Ended d c r.entry.thread r.entry.cmd.done (matrixComplete d c) := by
  obtain ⟨-, -, hsat, hconf⟩ := mtxStatus_apart c
  obtain ⟨d1, hd1⟩ : ∃ d1, d1 = closeCmd (mtxReported d c r) c r.entry.thread := ⟨_, rfl⟩
  have heq : matrixComplete d c = completeGauge (releaseHeld (noteGroups d1 c) c) c r.entry.cmd.done .engine := by rw [hd1, matrixComplete_eq hrun hchain]
  have hkeep : ∀ {α : Type} (get : Cell → α), (∀ x t th, get (setTh x t th) = get x) → get (getCell d1 c) = get (mtxCellEnded (getCell d c) (getCell d c).short r) :=
    fun get h => by rw [hd1, closeCmd_keeps get h, mtxReported_cell]
  have hheld1 : (getCell d1 c).held = [] := by
    rw [hkeep Cell.held (fun _ _ _ => rfl), mtxCellEnded_keeps Cell.held (fun _ _ _ => rfl), hheld]
  have hfget : ∀ f, f.off = MTX_STATUS c → f.lo + f.wid ≤ 51 → fget (matrixComplete d c) f = fget (mtxReported d c r) f := by
    intro f hoff hf
    rw [heq, fget_congr f (completeGauge_rget hk _ _ _ (hoff ▸ hsat) (hoff ▸ hconf)), releaseHeld_nil
      (by rw [getCell_congr (noteGroups_cells d1 c), hheld1]), fget_congr f (rget_setCell _ _ _ _), noteGroups_fget _ _ hf, hd1,
      fget_congr f (closeCmd_rget _ _ _ _)]
  have hcell : ∀ {α : Type} (get : Cell → α), (∀ x t th, get (setTh x t th) = get x) → (∀ (x : Cell) g, get { x with gauges := g } = get x) →
      get (getCell (matrixComplete d c) c) = get (mtxCellEnded (getCell d c) (getCell d c).short r) := by
    intro α get h hg
    rw [heq, completeGauge_keeps get h hg hk, getCell_releaseHeld_nil hheld1, hkeep get h]
  obtain ⟨hbusy, hlastTag, hlastSt⟩ := mtxReported_status d c r
  refine ⟨(hcell Cell.mrun (fun _ _ _ => rfl) (fun _ _ => rfl)).trans (mtxCellEnded_mrun _ _ _), (hfget (MTX_STATUS_BUSY c) rfl (by dsimp only [MTX_STATUS_BUSY]; omega)).trans hbusy,
    (hfget (MTX_STATUS_LAST_TAG c) rfl (by dsimp only [MTX_STATUS_LAST_TAG]; omega)).trans hlastTag, (hfget (MTX_STATUS_LAST_STATUS c) rfl (by dsimp only [MTX_STATUS_LAST_STATUS]; omega)).trans hlastSt, fun hcl => ?_, ?_⟩
  · exact (hcell (fun x => getGroup x r.entry.cmd.group) (fun _ _ _ => rfl) (fun _ _ => rfl)).trans (mtxCellEnded_group _ _ hcl)
  · rw [heq]
    refine ended_completeGauge .engine hk ?_ ?_ ?_ ?_
    · rw [thread, getCell_releaseHeld_nil hheld1, ← thread, hd1, thread_closeCmd, thread, mtxReported_cell,
        mtxCellEnded_keeps (fun x => (getTh x r.entry.thread).openCmds) (fun _ _ _ => rfl), thread]
    · rw [getCell_releaseHeld_nil hheld1, hkeep Cell.gauges (fun _ _ _ => rfl),
        mtxCellEnded_keeps Cell.gauges (fun _ _ _ => rfl)]
    · rw [releaseHeld_nil (by rw [getCell_congr (noteGroups_cells d1 c), hheld1]), setCell_mem, noteGroups_mem, hd1, closeCmd_mem, mtxReported_mem]
    · rw [releaseHeld_nil (by rw [getCell_congr (noteGroups_cells d1 c), hheld1]), hd1]
      exact (((mtxReported_others d c r).trans (closeCmd_others _ _ _)).trans_eq (noteGroups_cells _ _)).trans (cellsBut_setCell _ _ _)

/-! ## The statement -/

/-- Settles O13: each engine's end is its report, the thread's count and the gauge's update, in that order. -/
theorem engineCommandsComplete : Obligations.EngineCommandsComplete := by
  intro s c
  refine ⟨fun r hrun hchain hheld hk => ?matrix, fun r hrun hl hk => ?element, fun n tg htag hcur hreq hheld hover hk => ?dma⟩
  case matrix => exact runs_of (fun d => matrixComplete d c) rfl (matrixComplete_ends hrun hchain hheld hk)
  case element => exact runs_of (fun d => elementComplete d c) rfl (elementComplete_ends hrun hl hk)
  case dma => exact runs_of (fun d => dmaComplete d c n) rfl (dmaComplete_ends htag hcur hreq hheld hover hk)

end Sys2Proof.Machine
end

section
/-! PROOF. Frames: how the frame of a chain of writes is read off its parts, and what taking a message and sending an edge leave. -/
namespace Sys2Proof.Machine

/-! ## Registers but those named -/

theorem RegsBut.refl (os : List Nat) (d : Dev) : RegsBut os d d := fun _ _ => rfl

theorem RegsBut.trans {os : List Nat} {d d₁ d₂ : Dev} (h : RegsBut os d d₁) (h' : RegsBut os d₁ d₂) : RegsBut os d d₂ :=
  fun o ho => (h' o ho).trans (h o ho)

theorem RegsBut.mono {os os' : List Nat} {d d' : Dev} (h : RegsBut os d d') (hs : os ⊆ os') : RegsBut os' d d' := fun o ho => h o (fun hm => ho (hs hm))

theorem RegsBut.of_regs {os : List Nat} {d d₁ d₂ : Dev} (h : RegsBut os d d₁) (e : d₂.regs = d₁.regs) : RegsBut os d d₂ :=
  h.trans (regsBut_of os e)

theorem RegsBut.rset {os : List Nat} {d d₁ : Dev} (h : RegsBut os d d₁) {o : Nat} (ho : o ∈ os) (v : Word) : RegsBut os d (rset d₁ o v) :=
  fun k hk => (rget_rset_ne _ (ne_of_mem_of_not_mem ho hk).symm v).trans (h k hk)

theorem RegsBut.fset {os : List Nat} {d d₁ : Dev} (h : RegsBut os d d₁) (f : Fld) (ho : f.off ∈ os) (v : Nat) : RegsBut os d (fset d₁ f v) :=
  fun k hk => (rget_fset_ne _ f v (ne_of_mem_of_not_mem ho hk).symm).trans (h k hk)

theorem RegsBut.fcount {os : List Nat} {d d₁ : Dev} (h : RegsBut os d d₁) (f : Fld) (ho : f.off ∈ os) (n : Nat) : RegsBut os d (fcount d₁ f n) :=
  h.fset f ho _

theorem RegsBut.rsetBit {os : List Nat} {d d₁ : Dev} (h : RegsBut os d d₁) {o : Nat} (ho : o ∈ os) (n : Nat) (b : Bool) :
    RegsBut os d (rsetBit d₁ o n b) := h.fset ⟨o, n, 1⟩ ho _

theorem rget_congr {d d' : Dev} (h : d'.regs = d.regs) (o : Nat) : rget d' o = rget d o := by rw [rget, rget, h]

theorem fget_of_regs {d d' : Dev} (h : d'.regs = d.regs) (f : Fld) : fget d' f = fget d f := fget_congr f (rget_congr h f.off)

/-! ## Taking a message -/

/-- Taking a message changes the waiting messages alone. -/
theorem takeMsg_dev {d d0 : Dev} {m : Msg} {p : Msg → Bool} (h : takeMsg d p = some (m, d0)) : d0 = { d with inbox := d.inbox.erase m } := by
  unfold takeMsg at h
  split at h
  · exact absurd h (by simp)
  · simp only [Option.some.injEq, Prod.mk.injEq] at h
    obtain ⟨hm, hd⟩ := h
    rw [← hd, hm]

section
variable {d d0 : Dev} {m : Msg} {p : Msg → Bool} (h : takeMsg d p = some (m, d0))
include h

theorem takeMsg_regs : d0.regs = d.regs := by rw [takeMsg_dev h]
theorem takeMsg_mem : d0.mem = d.mem := by rw [takeMsg_dev h]
theorem takeMsg_cells : d0.cells = d.cells := by rw [takeMsg_dev h]
theorem takeMsg_tide : d0.tide = d.tide := by rw [takeMsg_dev h]
theorem takeMsg_pwr : d0.pwr = d.pwr := by rw [takeMsg_dev h]

end

/-! ## Sending an edge -/

/-- Sending an edge touches nothing but the ports. -/
theorem sendEdge_keeps {α : Type} (get : Dev → α) (h : ∀ d p b vc, get (sendSide d p b vc) = get d) (d : Dev) (a : Announce) :
    get (sendEdge d a) = get d := foldl_keeps get _ (fun _ _ => h _ _ _ _) _ _

theorem amendEdge_keeps {α : Type} (get : Dev → α) (h : ∀ d p b vc, get (sendSide d p b vc) = get d) (ht : ∀ (d : Dev) t, get { d with tide := t } = get d)
    (d : Dev) : get (amendEdge d) = get d := by
  unfold amendEdge
  split
  · split_ifs
    · rw [sendEdge_keeps get h, ht]
    · rfl
  · rfl

theorem amendEdge_regs (d : Dev) : (amendEdge d).regs = d.regs := amendEdge_keeps Dev.regs (fun _ _ _ _ => rfl) (fun _ _ => rfl) d
theorem amendEdge_mem (d : Dev) : (amendEdge d).mem = d.mem := amendEdge_keeps Dev.mem (fun _ _ _ _ => rfl) (fun _ _ => rfl) d
theorem amendEdge_pat (d : Dev) : (amendEdge d).pat = d.pat := amendEdge_keeps Dev.pat (fun _ _ _ _ => rfl) (fun _ _ => rfl) d

end Sys2Proof.Machine
end

section
/-! PROOF. O21, O22, O23, O27: the Pattern stage, its messages, and the frequency steps. -/
namespace Sys2Proof.Machine

/-! ## The stage's actions (R208, R210, R212) -/

/-- The registers that emptying the stage writes. -/
def emptyStageRegs (d : Dev) : Dev :=
  rset (rset (fset (fset d PAT_STATUS_STAGE 0) PAT_STATUS_GANG 0) (PAT_STAGED_ID 0) 0) (PAT_STAGED_ID 1) 0

theorem emptyStage_regs (d : Dev) : (emptyStage d).regs = (emptyStageRegs d).regs := (rfl)

@[simp] theorem emptyStage_mem (d : Dev) : (emptyStage d).mem = d.mem := by simp [emptyStage]

@[simp] theorem emptyStage_pat (d : Dev) : (emptyStage d).pat = { d.pat with staged := none, loading := none, loadCmd := none, swCmd := none, due := 0 } := by
  simp [emptyStage]

theorem emptyStage_regsBut (d : Dev) : RegsBut [PAT_STATUS, PAT_STAGED_ID 0, PAT_STAGED_ID 1] d (emptyStage d) :=
  RegsBut.of_regs (d₁ := emptyStageRegs d) (((((RegsBut.refl _ d).fset PAT_STATUS_STAGE (by simp [PAT_STATUS_STAGE]) 0).fset PAT_STATUS_GANG
    (by simp [PAT_STATUS_GANG]) 0).rset (by simp : PAT_STAGED_ID 0 ∈ _) 0).rset (by simp : PAT_STAGED_ID 1 ∈ _) 0) (emptyStage_regs d)

/-- Emptying the stage reads on PAT_STATUS as setting two of its fields. -/
theorem emptyStage_status (d : Dev) : rget (emptyStage d) PAT_STATUS = rget (fset (fset d PAT_STATUS_STAGE 0) PAT_STATUS_GANG 0) PAT_STATUS := by
  have h0 : PAT_STATUS ≠ PAT_STAGED_ID 0 := by decide
  have h1 : PAT_STATUS ≠ PAT_STAGED_ID 1 := by decide
  rw [rget_congr (emptyStage_regs d), emptyStageRegs, rget_rset_ne _ h1, rget_rset_ne _ h0]

theorem patStage_emptyStage (d : Dev) : patStage (emptyStage d) = 0 := by
  rw [patStage, fget_congr PAT_STATUS_STAGE (emptyStage_status d), fget_fset_skip _ _ _ _ (by decide) (by decide), fget_fset _ _ _ (by decide),
    Nat.zero_mod]

/-- The stage after it has been set. -/
theorem patStage_fset (d : Dev) {n : Nat} (h : n < 4) : patStage (fset d PAT_STATUS_STAGE n) = n := by
  rw [patStage, fget_fset _ _ _ (by decide)]
  exact Nat.mod_eq_of_lt h

/-- The Pattern's and the tide's state hold no register. -/
theorem rget_pat_tide (d : Dev) (p : PatState) (t : TideState) (o : Nat) : rget { d with pat := p, tide := t } o = rget d o := (rfl)
theorem patStage_pat (d : Dev) (p : PatState) : patStage { d with pat := p } = patStage d := (rfl)
theorem patStage_pat_tide (d : Dev) (p : PatState) (t : TideState) : patStage { d with pat := p, tide := t } = patStage d := (rfl)

theorem startLoad_ready {d : Dev} (h : patStage d = 0 ∨ patStage d = 2) (addr len : Nat) (key : Option (Nat × Nat)) :
    (startLoad d addr len key).1 = { fset (emptyStage d) PAT_STATUS_STAGE 1 with
      pat := { (fset (emptyStage d) PAT_STATUS_STAGE 1).pat with loading := some (addr, len), loadCmd := key } } := by
  rw [startLoad, if_pos h]

/-- The registers that a switch writes. -/
def stageSwitchRegs (d : Dev) (e : Nat) : Dev := rset (fset d PAT_STATUS_STAGE 3) PAT_SWITCH_DONE (BitVec.ofNat 64 (edgeUsed d e))

theorem startSwitch_staged {d : Dev} (h : patStage d = 2) (e : Nat) (key : Option (Nat × Nat)) :
    (startSwitch d e key).1 = { stageSwitchRegs d e with
      pat := { (stageSwitchRegs d e).pat with due := edgeUsed d e, swCmd := key },
      tide := { (stageSwitchRegs d e).tide with sentReady := false, withdrawn := false } } := by
  rw [startSwitch, if_pos h]
  rfl

theorem stageSwitchRegs_regsBut (d : Dev) (e : Nat) : RegsBut [PAT_STATUS, PAT_SWITCH_DONE] d (stageSwitchRegs d e) :=
  ((RegsBut.refl _ d).fset PAT_STATUS_STAGE (by simp [PAT_STATUS_STAGE]) 3).rset (by simp : PAT_SWITCH_DONE ∈ _) _

theorem stageSwitchRegs_done (d : Dev) (e : Nat) : rget (stageSwitchRegs d e) PAT_SWITCH_DONE = BitVec.ofNat 64 (edgeUsed d e) := by
  rw [stageSwitchRegs, rget_rset_same]

theorem stageSwitchRegs_mem (d : Dev) (e : Nat) : (stageSwitchRegs d e).mem = d.mem := by rw [stageSwitchRegs, rset_mem, fset_mem]

theorem patStage_stageSwitchRegs (d : Dev) (e : Nat) : patStage (stageSwitchRegs d e) = 3 := by
  rw [patStage, stageSwitchRegs, fget_congr PAT_STATUS_STAGE (rget_rset_ne _ (by decide) _)]
  exact patStage_fset d (by decide)

/-- Settles O21: each action of PAT_CTL in the stage that takes it, and in the others. -/
theorem patternStageActions : Obligations.PatternStageActions := by
  intro s by_ ho
  refine ⟨fun h => ?load, fun h0 h2 => ?loadNot, fun h => ?switch, fun h => ?switchNot, fun h => ?discard⟩
  case load =>
    refine runs_of (fun d => patCtlLoad d by_) rfl ?_
    simp only [patCtlLoad, ho, if_true, startLoad_ready h]
    exact ⟨(patStage_pat _ _).trans (patStage_fset (emptyStage s.dev) (by decide)), trivial, by simp, by simp, memSame_of (by simp),
      ((emptyStage_regsBut s.dev).fset PAT_STATUS_STAGE (by simp [PAT_STATUS_STAGE]) 1).of_regs (by dsimp only)⟩
  case loadNot =>
    refine runs_of (fun d => patCtlLoad d by_) rfl ?_
    simp [patCtlLoad, startLoad, h0, h2]
  case switch =>
    intro e n
    refine runs_of (fun d => patCtlSwitch d by_) rfl ?_
    simp only [patCtlSwitch, ho, if_true, startSwitch_staged h]
    exact ⟨(patStage_pat_tide _ _ _).trans (patStage_stageSwitchRegs s.dev _), by simp only [edgeUsed, e, n], by simp [stageSwitchRegs],
      by rw [rget_pat_tide, stageSwitchRegs_done], memSame_of (by dsimp only; exact stageSwitchRegs_mem _ _),
      (stageSwitchRegs_regsBut s.dev _).of_regs (by dsimp only)⟩
  case switchNot =>
    refine runs_of (fun d => patCtlSwitch d by_) rfl ?_
    simp [patCtlSwitch, startSwitch, h]
  case discard =>
    refine runs_of (fun d => amendEdge (patCtlDiscard d by_)) rfl ?_
    have hd : patCtlDiscard s.dev by_ = emptyStage s.dev := by simp [patCtlDiscard, ho, discardStage, h]
    simp only [hd, amendEdge_pat]
    refine ⟨?_, by simp, by simp, memSame_of (by simp [amendEdge_mem]), (emptyStage_regsBut s.dev).of_regs (amendEdge_regs _)⟩
    rw [patStage, fget_of_regs (amendEdge_regs _)]
    exact patStage_emptyStage _

end Sys2Proof.Machine
end

section
/-! PROOF. O22, O23, O27: how a Pattern load ends, the messages of a switch and of the size table, and the frequency steps. -/
namespace Sys2Proof.Machine

/-! ## The end of a load (R209) -/

theorem raiseBoth_bits (d : Dev) {n : Nat} (hn : n < 64) : rbit (raiseBoth d n) (HIF_EVENT 0) n = true ∧ rbit (raiseBoth d n) (HIF_EVENT 1) n = true := by
  refine ⟨?_, raiseEvent_bit _ _ _ hn⟩
  rw [raiseBoth, rbit, raiseEvent_rget _ _ _ (by decide)]
  exact raiseEvent_bit _ _ _ hn

/-- Raising an event at both ports leaves the other registers. -/
theorem raiseBoth_fget (d : Dev) (n : Nat) (f : Fld) (h0 : f.off ≠ HIF_EVENT 0) (h1 : f.off ≠ HIF_EVENT 1) : fget (raiseBoth d n) f = fget d f :=
  fget_congr f (raiseBoth_rget d n h0 h1)

/-- The registers of a load that ends with an image. -/
def stagedRegs (d : Dev) (i : PatImage) : Dev :=
  let d := fset (fset (fset d PAT_STATUS_STAGE 2) PAT_STATUS_REASON 0) PAT_STATUS_LAST_STATUS 0
  let d := fset d PAT_STATUS_GANG (if i.gang then 1 else 0)
  rset (rset d (PAT_STAGED_ID 0) (BitVec.ofNat 64 i.id)) (PAT_STAGED_ID 1) (BitVec.ofNat 64 (i.id / 2 ^ 64))

theorem stagedRegs_stage (d : Dev) (i : PatImage) : fget (stagedRegs d i) PAT_STATUS_STAGE = 2 ∧ fget (stagedRegs d i) PAT_STATUS_REASON = 0 := by
  have h0 : PAT_STATUS ≠ PAT_STAGED_ID 0 := by decide
  have h1 : PAT_STATUS ≠ PAT_STAGED_ID 1 := by decide
  have hr : ∀ (d : Dev) f v w, f.off = PAT_STATUS → fget (rset (rset d (PAT_STAGED_ID 0) v) (PAT_STAGED_ID 1) w) f = fget d f := by
    intro d f v w hf
    rw [fget_congr f (rget_rset_ne _ (by rw [hf]; exact h1) _), fget_congr f (rget_rset_ne _ (by rw [hf]; exact h0) _)]
  constructor
  · rw [stagedRegs, hr _ _ _ _ rfl, fget_fset_skip _ _ _ _ (by decide) (by decide), fget_fset_skip _ _ _ _ (by decide) (by decide),
      fget_fset_skip _ _ _ _ (by decide) (by decide), fget_fset _ _ _ (by decide)]
    rfl
  · rw [stagedRegs, hr _ _ _ _ rfl, fget_fset_skip _ _ _ _ (by decide) (by decide), fget_fset_skip _ _ _ _ (by decide) (by decide),
      fget_fset _ _ _ (by decide)]
    rfl

/-- The device with `p` for the Pattern's state. -/
def withPat (d : Dev) (p : PatState) : Dev := { d with pat := p }

@[simp] theorem withPat_pat (d : Dev) (p : PatState) : (withPat d p).pat = p := (rfl)

theorem withPat_fget (d : Dev) (p : PatState) (f : Fld) : fget (withPat d p) f = fget d f := (rfl)

/-- The device of a load that ends with the image `i`, before the event is raised. -/
def imageStaged (d : Dev) (i : PatImage) : Dev :=
  withPat (stagedRegs d i) { (stagedRegs d i).pat with loading := none, loadCmd := none, staged := some i }

/-- A load that every check passes stages its image. -/
theorem patLoadDone_staged {d d0 : Dev} {body : Option PatBody} {b : PatBody} {far : List (Nat × Byte)} {e : EccHits} {addr len : Nat} {bs : List Byte}
    (hload : d.pat.loading = some (addr, len)) (hfetch : fetchRange d e .fetch far addr len 0 0xFFFF = (d0, .bytes bs false))
    (hcmd : d0.pat.loadCmd = none) (hb : body = some b) (hv : loadVerdict d0 bs len body = none) :
    patLoadDone d body far e = raiseBoth (imageStaged d0 (stageImage bs b)) 18 := by
  subst hb
  simp only [patLoadDone, hload, hfetch, hcmd, hv, markOverOpt, Bool.false_eq_true, if_false]
  rfl

/-- The registers of a load that a check refuses. -/
def refusedRegs (d : Dev) (reason : Nat) (st : Status) : Dev :=
  fcount (fset (fset (emptyStage d) PAT_STATUS_REASON reason) PAT_STATUS_LAST_STATUS (statusCode st)) PAT_STATUS_FAILURES 1

theorem patLoadDone_refused {d d0 : Dev} {body : Option PatBody} {far : List (Nat × Byte)} {e : EccHits} {addr len reason : Nat} {bs : List Byte} {st : Status}
    (hload : d.pat.loading = some (addr, len)) (hfetch : fetchRange d e .fetch far addr len 0 0xFFFF = (d0, .bytes bs false))
    (hcmd : d0.pat.loadCmd = none) (hv : loadVerdict d0 bs len body = some (reason, st)) :
    patLoadDone d body far e = raiseBoth (refusedRegs d0 reason st) 18 := by
  simp only [patLoadDone, hload, hfetch, hv, Bool.false_eq_true, if_false, loadRefused, hcmd, markOverOpt]
  rfl

theorem refusedRegs_status (d : Dev) (reason : Nat) (st : Status) (hr : reason < 256) : patStage (refusedRegs d reason st) = 0 ∧
    fget (refusedRegs d reason st) PAT_STATUS_REASON = reason ∧ fget (refusedRegs d reason st) PAT_STATUS_LAST_STATUS = statusCode st := by
  have hst : statusCode st % 2 ^ 8 = statusCode st := by cases st <;> rfl
  refine ⟨?_, ?_, ?_⟩
  · rw [patStage, refusedRegs, fget_fcount_skip _ _ _ _ (by decide) (by decide), fget_fset_skip _ _ _ _ (by decide) (by decide),
      fget_fset_skip _ _ _ _ (by decide) (by decide), ← patStage, patStage_emptyStage]
  · rw [refusedRegs, fget_fcount_skip _ _ _ _ (by decide) (by decide), fget_fset_skip _ _ _ _ (by decide) (by decide), fget_fset _ _ _ (by decide)]
    exact Nat.mod_eq_of_lt hr
  · rw [refusedRegs, fget_fcount_skip _ _ _ _ (by decide) (by decide), fget_fset _ _ _ (by decide)]
    exact hst

/-- Settles O22: the last step of a load, in the case that every check passes and in the case that one refuses. -/
theorem patternLoadEnds : Obligations.PatternLoadEnds := by
  intro s body far e addr len d0 bs hload hfetch hcmd
  refine ⟨fun b hb hv => ?pass, fun reason st hr hv => ?refuse⟩
  case pass =>
    refine runs_of (fun d => patLoadDone d body far e) rfl ?_
    simp only [patLoadDone_staged hload hfetch hcmd hb hv]
    obtain ⟨hstage, hreason⟩ := stagedRegs_stage d0 (stageImage bs b)
    obtain ⟨h0, h1⟩ := raiseBoth_bits (imageStaged d0 (stageImage bs b)) (n := 18) (by decide)
    refine ⟨?_, by simp [imageStaged], by simp [imageStaged], ?_, h0, h1⟩
    · rw [patStage, raiseBoth_fget _ _ PAT_STATUS_STAGE (by decide) (by decide), imageStaged, withPat_fget, hstage]
    · rw [raiseBoth_fget _ _ PAT_STATUS_REASON (by decide) (by decide), imageStaged, withPat_fget, hreason]
  case refuse =>
    refine runs_of (fun d => patLoadDone d body far e) rfl ?_
    simp only [patLoadDone_refused hload hfetch hcmd hv]
    obtain ⟨hstage, hreason, hlast⟩ := refusedRegs_status d0 reason st (by omega)
    obtain ⟨h0, h1⟩ := raiseBoth_bits (refusedRegs d0 reason st) (n := 18) (by decide)
    refine ⟨?_, by simp [refusedRegs], by simp [refusedRegs], ?_, ?_, h0, h1⟩
    · exact (raiseBoth_fget _ _ PAT_STATUS_STAGE (by decide) (by decide)).trans hstage
    · exact (raiseBoth_fget _ _ PAT_STATUS_REASON (by decide) (by decide)).trans hreason
    · exact (raiseBoth_fget _ _ PAT_STATUS_LAST_STATUS (by decide) (by decide)).trans hlast

/-! ## The messages of a switch and of the size table (R213, R214, R220) -/

/-- Settles O23: each message is taken by the equation of its meaning, in the case that its statement names. -/
theorem agreementAndSizes : Obligations.AgreementAndSizes := by
  intro s m d0
  refine ⟨fun h3 hsent hw hq hrole => ?own, fun job id digest htake hm hrole => ?ready, fun htake hrole => ?withdraw,
    fun k words p htake hm hp hhome => ?report, fun k words htake hm => ?sum, fun hst => ?idle⟩
  case own =>
    intro f
    refine runs_of (fun d => switchReady d) rfl ?_
    have hrole' : ∀ t, tideRole { s.dev with tide := t } = tideRole s.dev := fun _ => rfl
    simp only [switchReady, h3, hsent, hw, hq, Bool.not_false, and_self, if_true, hrole', hrole, if_false]
    rfl
  case ready =>
    refine runs_of (fun d => readyMessage d) rfl ?_
    have hrole' : tideRole d0 ≠ 0 := by rwa [tideRole, fget_of_regs (takeMsg_regs htake)]
    simp only [readyMessage]
    erw [htake]
    simp only [hm, hrole', if_false]
  case withdraw =>
    refine runs_of (fun d => amendEdge (switchWithdrawal d)) rfl ?_
    have hrole' : tideRole d0 ≠ 0 := by rwa [tideRole, fget_of_regs (takeMsg_regs htake)]
    simp only [switchWithdrawal]
    erw [htake]
    simp only [hrole', if_false]
  case report =>
    intro reps sum
    refine runs_of (fun d => sizReport d) rfl ?_
    simp only [sizReport]
    erw [htake]
    simp only [hm, hp, hhome, ne_eq, not_true_eq_false, if_false]
    rfl
  case sum =>
    refine runs_of (fun d => sizSum d) rfl ?_
    simp only [sizSum]
    erw [htake]
    simp only [hm]
  case idle =>
    refine runs_of (fun d => sizIdleUpdate d) rfl ?_
    simp only [sizIdleUpdate, hst, if_false]

/-! ## Frequency steps (R356, R357) -/

theorem pwrRgn_ne_pwrCtr (r : Nat) : PWR_RGN r ≠ PWR_CTR := by
  unfold PWR_RGN PWR_CTR
  omega

/-- Settles O27: the step is written first, and a counter after it. -/
theorem stepsComplete : Obligations.StepsComplete := by
  intro s r hon
  refine runs_of (fun d => freqStepComplete d r) rfl ?_
  generalize hn : min 8 (min (fget s.dev (PWR_RGN_GOV_STEP r)) (fget s.dev (PWR_RGN_THM_STEP r))) = n
  have hn8 : n < 2 ^ (PWR_RGN_STEP r).wid := lt_of_le_of_lt (hn ▸ min_le_left _ _) (by decide : 8 < 2 ^ 4)
  have hne := pwrRgn_ne_pwrCtr r
  obtain ⟨d1, hd1⟩ : ∃ d1, d1 = fset s.dev (PWR_RGN_STEP r) n := ⟨_, rfl⟩
  have hstep : fget d1 (PWR_RGN_STEP r) = n := by rw [hd1, fget_fset _ _ _ (by simp [PWR_RGN_STEP]), Nat.mod_eq_of_lt hn8]
  have hregs : RegsBut [(PWR_RGN_STEP r).off, PWR_CTR] s.dev d1 := hd1 ▸ (RegsBut.refl _ _).fset _ (by simp) _
  have hup : fget d1 PWR_CTR_STEPS_UP = fget s.dev PWR_CTR_STEPS_UP := by
    rw [hd1]
    exact fget_fset_ne _ _ _ _ hne.symm
  have hmem : d1.mem = s.dev.mem := by rw [hd1, fset_mem]
  have hcells : d1.cells = s.dev.cells := by rw [hd1, fset_cells]
  have hcount : ∀ f, f.off = PWR_CTR → fget (fcount d1 f 1) (PWR_RGN_STEP r) = n := fun f hf =>
    (fget_congr _ (rget_fcount_ne _ f 1 (by rw [hf]; exact hne))).trans hstep
  simp only [freqStepComplete, hon, Bool.not_true, Bool.false_eq_true, if_false, hn, ← hd1]
  split_ifs with hlt hgt
  · refine ⟨hcount _ rfl, fun _ => ?_, memSame_of (by simp [hmem]), by simp [hcells], hregs.fcount _ (by simp [PWR_CTR_STEPS_UP]) 1⟩
    rw [fget_fcount _ _ _ (by decide), hup]
  · refine ⟨hcount _ rfl, fun h => ?_, memSame_of (by simp [hmem]), by simp [hcells], hregs.fcount _ (by simp [PWR_CTR_STEPS_DOWN]) 1⟩
    rw [hcount PWR_CTR_STEPS_DOWN rfl] at h
    exact absurd h hlt
  · exact ⟨hstep, fun h => absurd (by rwa [hstep] at h) hlt, memSame_of hmem, hcells, hregs⟩

end Sys2Proof.Machine
end

section
/-! PROOF. O24, O26: the announcement of an edge, and the tide's other events. -/
namespace Sys2Proof.Machine

/-- The time holds no register. -/
theorem rget_atTime (d : Dev) (t o : Nat) : rget (atTime d t) o = rget d o := (rfl)
theorem fget_atTime (d : Dev) (t : Nat) (f : Fld) : fget (atTime d t) f = fget d f := (rfl)
theorem now_atTime (d : Dev) (t : Nat) : (atTime d t).now = max d.now t := (rfl)

/-! ## The announcement of an edge (R228, R236, R238) -/

/-- What an announcement at a ROOT leaves: the edge is pending, at every child, and neither memory, registers nor cells change. -/
theorem announceEdge_spec (d : Dev) (fireAt : Nat) (overrun : Bool) (v : Nat) : ∃ a, (announceEdge d fireAt overrun v).tide.next = some a ∧
    a.n = tideNo d + 1 ∧ a.fireAt = fireAt ∧ a.stop = d.tide.stopAsked ∧ a.overrun = overrun ∧ (announceEdge d fireAt overrun v).mem = d.mem ∧
    (announceEdge d fireAt overrun v).regs = d.regs ∧ (announceEdge d fireAt overrun v).cells = d.cells := by
  refine ⟨_, sendEdge_keeps (fun d => d.tide.next) (fun _ _ _ _ => rfl) _ _, rfl, rfl, rfl, rfl, ?_, ?_, ?_⟩
  · exact sendEdge_keeps Dev.mem (fun _ _ _ _ => rfl) _ _
  · exact sendEdge_keeps Dev.regs (fun _ _ _ _ => rfl) _ _
  · exact sendEdge_keeps Dev.cells (fun _ _ _ _ => rfl) _ _

theorem announceNow_eq (d : Dev) : ∃ o v, announceNow d = announceEdge d (d.now + fget d TID_PARAM_LEAD_NS) o v := ⟨_, _, rfl⟩

/-- A ROOT that may begin its tide announces the next edge one lead ahead. -/
theorem beginTide_spec {d : Dev} {by_ : Option PciePort} {state t : Nat} (ho : ownerWrites d by_ = true) (hrole : tideRole d = 2)
    (hst : tideState d = state) (hnext : d.tide.next = none) (hbrk : breakHere d = false) :
    ∃ a, (beginTide d by_ state false t).tide.next = some a ∧ a.n = tideNo d + 1 ∧ a.fireAt = max d.now t + fget d TID_PARAM_LEAD_NS ∧
      a.stop = d.tide.stopAsked ∧ (beginTide d by_ state false t).mem = d.mem ∧ (beginTide d by_ state false t).regs = d.regs ∧
      (beginTide d by_ state false t).cells = d.cells := by
  have hbrk' : breakHere (atTime d t) = false := hbrk
  have heq : beginTide d by_ state false t = announceNow (atTime d t) := by simp [beginTide, ho, hrole, hst, hnext, hbrk']
  obtain ⟨o, v, hnow⟩ := announceNow_eq (atTime d t)
  obtain ⟨a, hn, hno, hfire, hstop, -, hmem, hregs, hcells⟩ := announceEdge_spec (atTime d t) ((atTime d t).now + fget (atTime d t) TID_PARAM_LEAD_NS) o v
  rw [heq, hnow]
  exact ⟨a, hn, hno, hfire, hstop, hmem, hregs, hcells⟩

/-- Settles O24: START and RESUME by what an announcement leaves, STOP on the pending edge or on the next, and the edge of a running ROOT. -/
theorem tideControl : Obligations.TideControl := by
  intro s by_ t lead nominal ho hrole
  refine ⟨fun hst hnext hbrk => ?start, fun hst hnext hbrk => ?resume, fun a hnext => ?stop, fun hst hnext => ?stopNext, fun hst hnext hbrk hpol hnom => ?edge⟩
  case start =>
    refine runs_of (fun d => tidCtlStart d by_ false t) rfl ?_
    obtain ⟨a, hn, hno, hfire, hstop, hmem, hregs, hcells⟩ := beginTide_spec (t := t) ho hrole hst hnext hbrk
    exact ⟨a, hn, hno, hfire, hstop, memSame_of hmem, regsBut_of _ hregs, hcells⟩
  case resume =>
    refine runs_of (fun d => tidCtlResume d by_ false t) rfl ?_
    obtain ⟨a, hn, hno, hfire, -, hmem, hregs, hcells⟩ := beginTide_spec (t := t) ho hrole hst hnext hbrk
    exact ⟨a, hn, hno, hfire, memSame_of hmem, regsBut_of _ hregs, hcells⟩
  case stop =>
    refine runs_of (fun d => tidCtlStop d by_) rfl ?_
    simp only [tidCtlStop, ho, hrole, hnext, Bool.not_true, ne_eq, not_true_eq_false, decide_false, Bool.or_self, Bool.false_eq_true, if_false]
    exact ⟨sendEdge_keeps (fun d => d.tide.next) (fun _ _ _ _ => rfl) _ _, memSame_of (sendEdge_keeps Dev.mem (fun _ _ _ _ => rfl) _ _),
      regsBut_of _ (sendEdge_keeps Dev.regs (fun _ _ _ _ => rfl) _ _), sendEdge_keeps Dev.cells (fun _ _ _ _ => rfl) _ _⟩
  case stopNext =>
    refine runs_of (fun d => tidCtlStop d by_) rfl ?_
    simp [tidCtlStop, ho, hrole, hnext, hst]
  case edge =>
    refine runs_of (fun d => edgeAnnounce d false t) rfl ?_
    have hst' : tideState (atTime s.dev t) = 1 := hst
    have hpol' : fbit (atTime s.dev t) TID_PARAM_POLICY = true := hpol
    have hsoon : ¬ (max s.dev.now t + fget s.dev TID_PARAM_LEAD_NS < (rget s.dev TID_LAST_TIME).toNat + fget s.dev TID_PARAM_PERIOD_NS) :=
      not_lt.2 hnom
    have heq : edgeAnnounce s.dev false t = announceEdge (atTime s.dev t) (max nominal (max s.dev.now t + lead)) false
        (switchVerdict (atTime s.dev t) (tideNo (atTime s.dev t) + 1)) := by
      rw [edgeAnnounce, if_neg (by simp [hrole, hnext, hbrk])]
      simp only [rget_atTime, fget_atTime, now_atTime]
      rw [if_neg (not_not.2 hst'), if_neg hsoon, if_pos (by simp [hpol'])]
    obtain ⟨a, hn, hno, hfire, -, hover, hmem, hregs, hcells⟩ := announceEdge_spec (atTime s.dev t) (max nominal (max s.dev.now t + lead)) false
      (switchVerdict (atTime s.dev t) (tideNo (atTime s.dev t) + 1))
    simp only [heq]
    exact ⟨a, hn, hno, hfire, hover, memSame_of hmem, regsBut_of _ hregs, hcells⟩

end Sys2Proof.Machine
end

section
/-! PROOF. O26: the tide's other events. -/
namespace Sys2Proof.Machine

/-! ## What a change of the budget shift leaves -/

/-- Setting a bit clears no other. -/
theorem rsetBit_keeps_bit {d : Dev} {o k : Nat} (o' : Nat) {n : Nat} (hn : n < 64) (h : rbit d o k = true) : rbit (rsetBit d o' n true) o k = true := by
  by_cases ho : o = o'
  · subst ho
    simp only [rbit, rsetBit, fset, rget_rset_same]
    rw [setBits_testBit _ _ _ _ _ (by omega)]
    split_ifs with hk
    · have : k - n = 0 := by omega
      simp [this]
    · exact h
  · rw [rbit_rsetBit_ne _ ho, h]

/-- A bit of a register that is set stays set while an event is raised. -/
theorem raiseEvent_keeps_bit {d : Dev} {o k : Nat} (p : Nat) {n : Nat} (hn : n < 64) (h : rbit d o k = true) : rbit (raiseEvent d p n) o k = true := by
  unfold raiseEvent
  split_ifs with hb
  · exact h
  · rw [rbit, rget_congr (signalMsix_regs _ _ _), ← rbit, rsetBit_keeps_bit _ hn h]

theorem raiseBoth_keeps_bit {d : Dev} {o k : Nat} {n : Nat} (hn : n < 64) (h : rbit d o k = true) : rbit (raiseBoth d n) o k = true :=
  raiseEvent_keeps_bit _ hn (raiseEvent_keeps_bit _ hn h)

/-- What a change of the budget shift keeps: what the writes of its three registers and every event keep. -/
theorem setShift_keeps {α : Type} (get : Dev → α) (hf : ∀ d f v, f ∈ [PWR_CAP_SHIFT, PWR_CTR_SHIFTS, PWR_CAP_EFFECTIVE] → get (fset d f v) = get d)
    (hr : ∀ d, get (raiseBoth d 21) = get d) (d : Dev) (v : Int) : get (setShift d v) = get d := by
  have hc : ∀ d, get (capUpdate d) = get d := fun d => by
    simp only [capUpdate]
    split_ifs
    · rfl
    · rw [hr, hf _ _ _ (by simp)]
  unfold setShift
  split_ifs
  · rfl
  · rw [hc, fcount, hf _ _ _ (by simp), hf _ _ _ (by simp)]

/-- The registers that a change of the budget shift writes. -/
def shiftRegs : List Nat := [PWR_CAP_SHIFT.off, PWR_CTR_SHIFTS.off, PWR_CAP_EFFECTIVE.off]

theorem mem_shiftRegs {f : Fld} (h : f ∈ [PWR_CAP_SHIFT, PWR_CTR_SHIFTS, PWR_CAP_EFFECTIVE]) : f.off ∈ shiftRegs := by
  simp only [List.mem_cons, List.not_mem_nil, or_false] at h
  obtain rfl | rfl | rfl := h <;> simp [shiftRegs]

theorem setShift_rget (d : Dev) (v : Int) {o : Nat} (h : o ∉ shiftRegs) (h0 : o ≠ HIF_EVENT 0) (h1 : o ≠ HIF_EVENT 1) :
    rget (setShift d v) o = rget d o :=
  setShift_keeps (fun d => rget d o) (fun _ f w hf => rget_fset_ne _ f w (ne_of_mem_of_not_mem (mem_shiftRegs hf) h).symm)
    (fun _ => raiseBoth_rget _ _ h0 h1) d v

/-- A change of the budget shift clears no bit of another register. -/
theorem setShift_keeps_bit {d : Dev} {o k : Nat} (v : Int) (ho : o ∉ shiftRegs) (h : rbit d o k = true) : rbit (setShift d v) o k = true := by
  have hf : ∀ d f w, f ∈ [PWR_CAP_SHIFT, PWR_CTR_SHIFTS, PWR_CAP_EFFECTIVE] → rbit d o k = true → rbit (fset d f w) o k = true := fun d f w hm h => by
    rw [rbit, rget_fset_ne _ f w (ne_of_mem_of_not_mem (mem_shiftRegs hm) ho).symm, ← rbit, h]
  have hc : ∀ d, rbit d o k = true → rbit (capUpdate d) o k = true := fun d h => by
    simp only [capUpdate]
    split_ifs
    · exact h
    · exact raiseBoth_keeps_bit (by decide) (hf _ _ _ (by simp) h)
  unfold setShift
  split_ifs
  · exact h
  · exact hc _ (hf _ _ _ (by simp) (hf _ _ _ (by simp) h))

/-! ## The statement -/

/-- The registers of a tide that is lost. -/
def lostRegs (d : Dev) (t : Nat) : Dev := raiseBoth (fset (atTime d t) TID_STATUS_STATE 3) 17

/-- The device with `t` for the tide's state and `p` for the governor's. -/
def withTidePwr (d : Dev) (t : TideState) (p : PwrState) : Dev := { d with tide := t, pwr := p }

theorem withTidePwr_rget (d : Dev) (t : TideState) (p : PwrState) (o : Nat) : rget (withTidePwr d t p) o = rget d o := (rfl)
theorem withTidePwr_mem (d : Dev) (t : TideState) (p : PwrState) : (withTidePwr d t p).mem = d.mem := (rfl)
theorem withTidePwr_cells (d : Dev) (t : TideState) (p : PwrState) : (withTidePwr d t p).cells = d.cells := (rfl)
theorem withTidePwr_tide (d : Dev) (t : TideState) (p : PwrState) : (withTidePwr d t p).tide = t := (rfl)

/-- The device of a tide that is lost, before its budget shift ends. -/
def tideLostDev (d : Dev) (t : Nat) : Dev :=
  withTidePwr (lostRegs d t) { (lostRegs d t).tide with cfgWritten := false } { (lostRegs d t).pwr with shiftNew := none }

theorem tideLostTimeout_eq {d : Dev} {t : Nat} (hrole : tideRole d ≠ 2) (hst : tideState d = 1) (hnext : d.tide.next = none)
    (hlate : (rget d TID_LAST_TIME).toNat + fget d TID_PARAM_PERIOD_NS + fget d TID_STRETCH_MAX_NS + 1000000 < t) :
    tideLostTimeout d t = setShift (tideLostDev d t) 0 := by
  rw [tideLostTimeout, if_neg (by simp [hrole, hst, hnext, hlate])]
  rfl

/-- Settles O26: each event in the case that its statement names. -/
theorem tideEvents : Obligations.TideEvents := by
  intro s t m d0
  refine ⟨fun by_ v ho => ?config, fun n fireAt o sw st why param htake hm hrole hn hst hnext => ?edge, fun htake hm hkid harr => ?arrive,
    fun htake hrole hup => ?time, fun hrole hst hnext hlate => ?lost, fun hready => ?record⟩
  case config =>
    refine runs_of (fun d => tidCfgWrite d by_ v) rfl ?_
    simp only [tidCfgWrite, ho, if_true]
  case edge =>
    intro a
    refine runs_of (fun d => edgeMessage d t) rfl ?_
    have hmem0 : d0.mem = s.dev.mem := takeMsg_mem htake
    have hregs0 : d0.regs = s.dev.regs := takeMsg_regs htake
    have hcells0 : d0.cells = s.dev.cells := takeMsg_cells htake
    have hregs : (atTime d0 t).regs = s.dev.regs := Eq.trans (b := d0.regs) rfl hregs0
    have hrole' : tideRole (atTime d0 t) = 0 := by rw [tideRole, fget_of_regs hregs, ← tideRole, hrole]
    have hst' : tideState (atTime d0 t) = 1 := by rw [tideState, fget_of_regs hregs, ← tideState, hst]
    have hn' : n ≠ tideNo (atTime d0 t) := by rwa [tideNo, rget_congr hregs, ← tideNo]
    have hnext' : (atTime d0 t).tide.next = none := (congrArg TideState.next (takeMsg_tide htake)).trans hnext
    have hnow : (atTime d0 t).now = max s.dev.now t := by rw [takeMsg_dev htake, now_atTime]
    have hown : ownEdge (atTime d0 t) a = a := by simp [ownEdge, hrole']
    have heq : edgeMessage s.dev t = sendEdge { atTime d0 t with tide := { (atTime d0 t).tide with next := some a, cfgWritten := false } } a := by
      simp only [edgeMessage]
      erw [htake]
      simp only [hm, hnext', hnow]
      rw [if_neg (by simp [hrole', hst', hn']), hown, if_neg (by simp [hst']), hnow]
    simp only [heq]
    refine ⟨sendEdge_keeps (fun d => d.tide.next) (fun _ _ _ _ => rfl) _ _, memSame_of ?_, regsBut_of _ ?_, ?_⟩
    · exact (sendEdge_keeps Dev.mem (fun _ _ _ _ => rfl) _ _).trans hmem0
    · exact (sendEdge_keeps Dev.regs (fun _ _ _ _ => rfl) _ _).trans hregs0
    · exact (sendEdge_keeps Dev.cells (fun _ _ _ _ => rfl) _ _).trans hcells0
  case arrive =>
    refine runs_of (fun d => arriveMessage d) rfl ?_
    have hkid' : d0.tide.children.contains m.rid = true := by simpa [takeMsg_tide htake] using hkid
    have harr' : d0.tide.arrived.contains m.rid = false := by simpa [takeMsg_tide htake] using harr
    simp only [arriveMessage]
    erw [htake]
    simp only [hkid', harr', hm, if_true, Bool.false_eq_true, if_false]
  case time =>
    refine runs_of (fun d => timeSync d t) rfl ?_
    have hrole' : tideRole d0 ≠ 2 := by rwa [tideRole, fget_of_regs (takeMsg_regs htake)]
    simp only [timeSync]
    erw [htake]
    simp [hup, hrole']
  case lost =>
    refine runs_of (fun d => tideLostTimeout d t) rfl ?_
    simp only [tideLostTimeout_eq hrole hst hnext hlate]
    have hstate : fget (lostRegs s.dev t) TID_STATUS_STATE = 3 := by
      rw [lostRegs, raiseBoth_fget _ _ _ (by decide) (by decide), fget_fset _ _ _ (by decide)]
      rfl
    refine ⟨?_, ?_, ?_, memSame_of ?_, ?_⟩
    · rw [tideState, fget_congr _ (setShift_rget _ _ (by decide) (by decide) (by decide)), tideLostDev, fget_congr _ (withTidePwr_rget _ _ _ _), hstate]
    · rw [setShift_keeps (fun d => d.tide.cfgWritten) (fun _ _ _ _ => by simp) (fun _ => by simp), tideLostDev, withTidePwr_tide]
    · refine setShift_keeps_bit _ (by decide) ?_
      rw [rbit, tideLostDev, withTidePwr_rget, ← rbit]
      exact (raiseBoth_bits _ (by decide)).1
    · rw [setShift_keeps Dev.mem (fun _ _ _ _ => fset_mem _ _ _) (fun _ => raiseBoth_mem _ _), tideLostDev, withTidePwr_mem]
      simp [lostRegs, atTime]
    · rw [setShift_keeps Dev.cells (fun _ _ _ _ => fset_cells _ _ _) (fun _ => raiseBoth_cells _ _), tideLostDev, withTidePwr_cells]
      simp [lostRegs, atTime]
  case record =>
    intro o d1
    refine runs_of (fun d => overrunRecordDone d) rfl ?_
    simp only [overrunRecordDone, hready, Bool.not_true, Bool.false_eq_true, if_false]
    rfl

end Sys2Proof.Machine
end

section
/-! PROOF. O28: polder registers, and the messages of the power pool. -/
namespace Sys2Proof.Machine

theorem powerNote_keeps {α : Type} (get : Dev → α) (hp : ∀ (d : Dev) p, get { d with pwr := p } = get d)
    (hf : ∀ d v, get (fset d PWR_STATUS_STATE v) = get d) (hr : ∀ d, get (raiseBoth d 21) = get d) (d : Dev) : get (powerNote d) = get d := by
  simp only [powerNote]
  split_ifs <;> simp only [hr, hf, hp]

theorem powerNote_rget (d : Dev) {o : Nat} (h : o ≠ PWR_STATUS_STATE.off) (h0 : o ≠ HIF_EVENT 0) (h1 : o ≠ HIF_EVENT 1) :
    rget (powerNote d) o = rget d o :=
  powerNote_keeps (fun d => rget d o) (fun _ _ => rfl) (fun _ _ => rget_fset_ne _ _ _ h) (fun _ => raiseBoth_rget _ _ h0 h1) d

/-- A write of PWR_POLDER_OFF that changes no bit acts on no region. -/
theorem pwrPolderOffWrite_same {d : Dev} {by_ : Option PciePort} (ho : ownerWrites d by_ = true) :
    pwrPolderOffWrite d by_ (rget d PWR_POLDER_OFF) = rset d PWR_POLDER_OFF (rget d PWR_POLDER_OFF) ∨
    pwrPolderOffWrite d by_ (rget d PWR_POLDER_OFF) = tryArrive (powerNote (rset d PWR_POLDER_OFF (rget d PWR_POLDER_OFF))) := by
  have hid : ∀ (l : List Nat) (d : Dev) (f : Dev → Nat → Dev), (∀ d r, f d r = d) → l.foldl f d = d := fun l d f hf => by
    induction l generalizing d with
    | nil => rfl
    | cons r t ih => rw [List.foldl_cons, hf, ih]
  simp only [pwrPolderOffWrite, ho, Bool.not_true, Bool.false_eq_true, if_false]
  split_ifs
  · exact .inl rfl
  · refine .inr (congrArg (fun d => tryArrive (powerNote d)) (hid _ _ _ fun d r => ?_))
    cases (rget d PWR_POLDER_OFF).toNat.testBit r <;> simp

theorem sendMgmt_keeps {α : Type} (get : Dev → α) (hi : ∀ (d : Dev) q, get { d with inbox := q } = get d) (hq : ∀ (d : Dev) q, get { d with toRoute := q } = get d)
    (d : Dev) (dest : Nat) (m : MgmtMsg) : get (sendMgmt d dest m) = get d := by
  unfold sendMgmt
  dsimp only
  split_ifs
  · exact hi _ _
  · exact hq _ _

/-- The device with `p` for the governor's state. -/
def withPwr (d : Dev) (p : PwrState) : Dev := { d with pwr := p }

/-- The reports of a member that the pool holds. -/
def oldSlacks (d : Dev) (node : Nat) : List Nat :=
  match d.pwr.pool.find? (fun x => x.node == node) with
  | some x => x.slacks
  | none => []

/-- The pool after a member's report. -/
def poolAfter (d : Dev) (node : Nat) (slack base : Nat) (shift : Int) (limit : Nat) : List PoolMember :=
  d.pwr.pool.filter (fun y => y.node != node) ++
    [⟨node, (slack :: oldSlacks d node).take (shiftInt d), base, shift, limit⟩]

/-- Settles O28: each command in the case that its statement names. -/
theorem powerCommands : Obligations.PowerCommands := by
  intro s m d0 by_
  refine ⟨fun ho => ?off, fun v ho h0 h63 => ?offHi, fun e slack base shift limit p htake hm hp hhome hmem => ?report, fun htake => ?ack,
    fun delta htake hm => ?shift, fun hpos hquiet => ?timeout, fun p hp hhome hint hmove => ?interval⟩
  case off =>
    refine runs_of (fun d => pwrPolderOffWrite d by_ (rget s.dev PWR_POLDER_OFF)) rfl ?_
    have hsame : ∀ o, rget (rset s.dev PWR_POLDER_OFF (rget s.dev PWR_POLDER_OFF)) o = rget s.dev o := fun o => by
      rw [rget_rset]
      split_ifs with h
      · rw [h]
      · rfl
    obtain h | h := pwrPolderOffWrite_same ho
    · rw [h]
      exact ⟨hsame _, hsame _, memSame_of (rset_mem _ _ _), rset_cells _ _ _⟩
    · rw [h]
      refine ⟨?_, ?_, memSame_of ?_, ?_⟩
      · rw [tryArrive_rget _ (by decide), powerNote_rget _ (by decide) (by decide) (by decide), hsame]
      · rw [tryArrive_rget _ (by decide), powerNote_rget _ (by decide) (by decide) (by decide), hsame]
      · rw [tryArrive_mem, powerNote_keeps Dev.mem (fun _ _ => rfl) (fun _ _ => fset_mem _ _ _) (fun _ => raiseBoth_mem _ _), rset_mem]
      · rw [tryArrive_cells, powerNote_keeps Dev.cells (fun _ _ => rfl) (fun _ _ => fset_cells _ _ _) (fun _ => raiseBoth_cells _ _), rset_cells]
  case offHi =>
    refine runs_of (fun d => pwrPolderOffHiWrite d by_ v) rfl ?_
    have hpart : (v.toNat % 2 ^ 15 % 64 ≠ 0 ∧ v.toNat % 2 ^ 15 % 64 ≠ 63) := by omega
    rw [pwrPolderOffHiWrite]
    dsimp only
    rw [if_neg (by simp [ho]), if_pos (.inl hpart)]
  case report =>
    refine runs_of (fun d => slackReport d) rfl ?_
    have heq : slackReport s.dev = sendMgmt (withPwr d0 { d0.pwr with pool := poolAfter d0 m.src slack base shift limit }) m.src .slackAck := by
      simp only [slackReport]
      erw [htake]
      simp only [hm, hp]
      rw [if_neg (by simp [hhome, hmem])]
      rfl
    have hregs : d0.regs = s.dev.regs := takeMsg_regs htake
    have hmem0 : d0.mem = s.dev.mem := takeMsg_mem htake
    have hcells : d0.cells = s.dev.cells := takeMsg_cells htake
    simp only [heq]
    refine ⟨?_, memSame_of ?_, regsBut_of _ ?_, ?_⟩
    · rw [sendMgmt_keeps Dev.pwr (fun _ _ => rfl) (fun _ _ => rfl)]
      refine ⟨_, List.mem_append_right _ (List.mem_singleton.2 rfl), rfl, ?_, rfl, rfl, rfl⟩
      obtain ⟨n, hn⟩ : ∃ n, shiftInt d0 = n + 1 := ⟨shiftInt d0 - 1, by unfold shiftInt; omega⟩
      rw [hn, List.take_succ_cons, List.head?_cons]
    · exact (sendMgmt_keeps Dev.mem (fun _ _ => rfl) (fun _ _ => rfl) _ _ _).trans hmem0
    · exact (sendMgmt_keeps Dev.regs (fun _ _ => rfl) (fun _ _ => rfl) _ _ _).trans hregs
    · exact (sendMgmt_keeps Dev.cells (fun _ _ => rfl) (fun _ _ => rfl) _ _ _).trans hcells
  case ack =>
    refine runs_of (fun d => slackReportAck d) rfl ?_
    simp only [slackReportAck]
    erw [htake]
  case shift =>
    intro v d1
    have hregs : d0.regs = s.dev.regs := takeMsg_regs htake
    have hv : d0.pwr.shiftNew.getD (shiftWatts d0) + delta = v := by rw [takeMsg_pwr htake, shiftWatts, fget_of_regs hregs, ← shiftWatts]
    have hrun : tideRuns d1 = decide (tideState s.dev = 1) := by
      have : tideState d1 = tideState s.dev := fget_of_regs hregs _
      rw [tideRuns, this]
      rfl
    have heq : budgetShift s.dev = if tideState s.dev = 1 then { d1 with pwr := { d1.pwr with shiftNew := some v } } else setShift d1 v := by
      simp only [budgetShift]
      erw [htake]
      simp only [hm, hv]
      exact if_congr (by rw [hrun, decide_eq_true_iff]) rfl rfl
    refine ⟨fun hst => runs_of (fun d => budgetShift d) rfl ?_, fun hst => runs_of (fun d => budgetShift d) rfl ?_⟩
    · rw [heq, if_pos hst]
    · rw [heq, if_neg hst]
  case timeout =>
    refine runs_of (fun d => shiftTimeout d) rfl ?_
    rw [shiftTimeout]
    exact if_pos (.inl ⟨hpos, hquiet⟩)
  case interval =>
    intro pool
    refine runs_of (fun d => shiftInterval d) rfl ?_
    simp only [shiftInterval, hp, hmove]
    rw [if_neg (by simp [hhome, hint])]

end Sys2Proof.Machine
end

section
/-! PROOF. Sluice operations: what a change of a sluice, of its marks and of its pins leaves. -/
namespace Sys2Proof.Machine

/-- What a part of the device has to be kept by, for the sluices' own reports to keep it. -/
structure KeptBySluices {α : Type} (get : Dev → α) : Prop where
  setSlc : ∀ d i q, get (setSlc d i q) = get d
  changes : ∀ d i n, get (fcount d (SLC_CTR_WM_CHANGES i) n) = get d
  raise : ∀ d p n, get (raiseEvent d p n) = get d
  emit : ∀ d o, get (emit d o) = get d
  pins : ∀ d v, get (rset d SLC_PIN_STATUS v) = get d

namespace KeptBySluices
variable {α : Type} {get : Dev → α} (h : KeptBySluices get)
include h

theorem raiseBoth (d : Dev) (n : Nat) : get (raiseBoth d n) = get d := by rw [Machine.raiseBoth, h.raise, h.raise]

theorem pinsFollow (d : Dev) : get (pinsFollow d) = get d := by
  simp only [Machine.pinsFollow]
  split_ifs <;> simp only [h.emit, h.pins]

theorem slcMarks (d : Dev) (i : Nat) : get (slcMarks d i) = get d := by
  simp only [Machine.slcMarks]
  split_ifs <;> simp only [h.pinsFollow, h.raiseBoth, h.changes, h.setSlc]

theorem slcPut (d : Dev) (i : Nat) (entry : List Byte) : get (slcPut d i entry) = get d := by
  simp only [Machine.slcPut]
  split_ifs
  · rfl
  · rw [h.slcMarks, h.setSlc]

variable (hk : ∀ (d : Dev) q, get { d with kpr := { d.kpr with outbox := q } } = get d)
include hk

theorem respFlush (d : Dev) (i : Nat) : get (respFlush d i) = get d := by
  refine foldl_keeps get _ (fun d e => ?_) _ _
  dsimp only
  split_ifs
  · rfl
  · rw [h.slcPut, hk]

theorem respPut (d : Dev) (i : Nat) (entry : List Byte) : get (respPut d i entry) = get d := by rw [Machine.respPut, h.respFlush hk, hk]

/-- A keeper's response goes through its sluice. -/
theorem kprRespond (d : Dev) (q : KeeperReq) (st : Status) (more : Bool) (data : List Byte) : get (kprRespond d q st more data) = get d := by
  simp only [Machine.kprRespond]
  split_ifs <;> simp only [h.raise, h.respPut hk]

end KeptBySluices

theorem KeptBySluices.comp {α β : Type} {get : Dev → β} (h : KeptBySluices get) (f : β → α) : KeptBySluices (fun d => f (get d)) :=
  ⟨fun d i q => congrArg f (h.setSlc d i q), fun d i n => congrArg f (h.changes d i n), fun d p n => congrArg f (h.raise d p n),
    fun d o => congrArg f (h.emit d o), fun d v => congrArg f (h.pins d v)⟩

theorem keptBySluices_mem : KeptBySluices Dev.mem :=
  ⟨fun _ _ _ => rfl, fun _ _ _ => fcount_mem _ _ _, fun _ _ _ => raiseEvent_mem _ _ _, fun _ _ => rfl, fun _ _ => rset_mem _ _ _⟩

theorem keptBySluices_cells : KeptBySluices Dev.cells :=
  ⟨fun _ _ _ => rfl, fun _ _ _ => fcount_cells _ _ _, fun _ _ _ => raiseEvent_cells _ _ _, fun _ _ => rfl, fun _ _ => rset_cells _ _ _⟩

theorem keptBySluices_kpr : KeptBySluices Dev.kpr :=
  ⟨fun _ _ _ => rfl, fun _ _ _ => fcount_kpr _ _ _, fun _ _ _ => raiseEvent_kpr _ _ _, fun _ _ => rfl, fun _ _ => rset_kpr _ _ _⟩

/-- A register that is no sluice's and no event register. -/
theorem keptBySluices_rget {o : Nat} (hc : ∀ i, o ≠ SLC_CTR i) (he : ∀ p, o ≠ HIF_EVENT p) (hp : o ≠ SLC_PIN_STATUS) : KeptBySluices (fun d => rget d o) :=
  ⟨fun _ _ _ => rfl, fun _ i _ => rget_fcount_ne _ _ _ (hc i), fun _ p _ => raiseEvent_rget _ _ _ (he p), fun _ _ => rfl,
    fun _ _ => rget_rset_ne _ hp _⟩

/-- The registers below the sluices' are no sluice's and no event register. -/
theorem keptBySluices_rget_low {o : Nat} (h : o < 0x750000) : KeptBySluices (fun d => rget d o) :=
  keptBySluices_rget (fun i => by unfold SLC_CTR; omega) (fun p => by unfold HIF_EVENT; omega) (by unfold SLC_PIN_STATUS; omega)

end Sys2Proof.Machine
end

section
/-! PROOF. O29: COOL_FAIL_N, and the stages of the stop by hardware. -/
namespace Sys2Proof.Machine

/-! ## What the parts of a stop leave -/

theorem noteResets_keeps {α : Type} (get : Dev → α) (hf : ∀ d f v, f.off = KPR_RESET_STATUS → get (fset d f v) = get d) (d : Dev) :
    get (noteResets d) = get d := by
  simp only [noteResets]
  split
  · exact hf _ _ _ rfl
  · rw [hf _ _ _ rfl, hf _ _ _ rfl, hf _ _ _ rfl]

theorem noteSessions_keeps {α : Type} (get : Dev → α) (hs : ∀ d v, get (rset d SEC_SPDM_STATUS v) = get d) (d : Dev) : get (noteSessions d) = get d := by
  rw [noteSessions, hs]

theorem endSessions_keeps {α : Type} (get : Dev → α) (hs : ∀ d v, get (rset d SEC_SPDM_STATUS v) = get d) (hsec : ∀ (d : Dev) x, get { d with sec := x } = get d)
    (d : Dev) (gone : Nat → Bool) : get (endSessions d gone) = get d := by
  rw [endSessions, noteSessions_keeps get hs, hsec]

/-- KPR_READY after a DEBUG lifecycle state has been left. -/
theorem endDebug_rget (d : Dev) {o : Nat} (h : o < 0x750000) : rget (endDebug d) o = rget d o := by
  have hs : ∀ (d : Dev) v, rget (rset d SEC_SPDM_STATUS v) o = rget d o := fun d v => rget_rset_ne _ (by unfold SEC_SPDM_STATUS; omega) _
  have hi : ∀ (d : Dev) p, rget (endIde d p) o = rget d o := fun d p => rget_fset_ne _ _ _ (by unfold HIF_LINK_IDE_SECURE HIF_LINK; dsimp only; omega)
  unfold endDebug
  split_ifs
  · simp only [lifecycleChange]
    rw [raiseBoth_rget _ _ (by unfold HIF_EVENT; omega) (by unfold HIF_EVENT; omega), hi, hi, endSessions_keeps (fun d => rget d o) hs (fun _ _ => rfl),
      rget_rset_ne _ (by unfold SEC_DBG_PERMS; omega), rget_fset_ne _ _ _ (by unfold SEC_STATUS_LIFECYCLE SEC_STATUS; dsimp only; omega)]
  · rfl

theorem endResets_rget (d : Dev) {o : Nat} (h : o < 0x750000) (hne : o ≠ KPR_RESET_STATUS) : rget (endResets d) o = rget d o := by
  have hr : ∀ (l : List KeeperReq) (d : Dev), rget (l.foldl (fun d q => kprRespond d q .resetAborted false []) d) o = rget d o := fun l d =>
    foldl_keeps (fun d => rget d o) _ (fun d q => (keptBySluices_rget_low h).kprRespond (fun _ _ => rfl) d q _ _ _) l d
  simp only [endResets]
  rw [hr, noteResets_keeps (fun d => rget d o) (fun _ _ _ hf => rget_fset_ne _ _ _ (by rw [hf]; exact hne))]
  rfl

/-- The end of the resets keeps of the keeper's state all but its resets and its responses. -/
theorem endResets_kpr {α : Type} (get : KeeperState → α) (ho : ∀ (k : KeeperState) q, get { k with outbox := q } = get k)
    (hres : ∀ (k : KeeperState) r, get { k with resets := r } = get k) (d : Dev) : get (endResets d).kpr = get d.kpr := by
  have hr : ∀ (l : List KeeperReq) (d : Dev), get (l.foldl (fun d q => kprRespond d q .resetAborted false []) d).kpr = get d.kpr := fun l d =>
    foldl_keeps (fun d => get d.kpr) _ (fun d q => (keptBySluices_kpr.comp get).kprRespond (fun _ _ => ho _ _) d q _ _ _) l d
  simp only [endResets]
  rw [hr, noteResets_keeps (fun d => get d.kpr) (fun _ _ _ _ => by rw [fset_kpr]), hres]

theorem endDebug_kpr (d : Dev) : (endDebug d).kpr = d.kpr := by
  unfold endDebug
  split_ifs
  · simp only [lifecycleChange, endIde]
    rw [raiseBoth_kpr, fset_kpr, fset_kpr, endSessions_keeps Dev.kpr (fun _ _ => rset_kpr _ _ _) (fun _ _ => rfl), rset_kpr, fset_kpr]
  · rfl

/-- The device with `k` for the keeper's state. -/
def withKpr (d : Dev) (k : KeeperState) : Dev := { d with kpr := k }

theorem withKpr_rget (d : Dev) (k : KeeperState) (o : Nat) : rget (withKpr d k) o = rget d o := (rfl)
theorem withKpr_kpr (d : Dev) (k : KeeperState) : (withKpr d k).kpr = k := (rfl)
theorem withKpr_regs (d : Dev) (k : KeeperState) : (withKpr d k).regs = d.regs := (rfl)
theorem withKpr_mem (d : Dev) (k : KeeperState) : (withKpr d k).mem = d.mem := (rfl)

/-- The ready registers of a part that begins to stop. -/
def stopRegs (d : Dev) : Dev := rset (rset d KPR_READY (BitVec.ofNat 64 ((rget d KPR_READY).toNat % 8))) KPR_RGN_READY 0

theorem stopLatch_eq (d : Dev) (last : Nat) : stopLatch d last =
    withKpr (stopRegs (endResets (endDebug d))) { (stopRegs (endResets (endDebug d))).kpr with stop := some (0, last), bringing := false } := (rfl)

theorem stopLatch_ready (d : Dev) (last : Nat) : rget (stopLatch d last) KPR_RGN_READY = 0 ∧
    (rget (stopLatch d last) KPR_READY).toNat = (rget d KPR_READY).toNat % 8 := by
  have hold : rget (endResets (endDebug d)) KPR_READY = rget d KPR_READY := by
    rw [endResets_rget _ (by decide) (by decide), endDebug_rget _ (by decide)]
  constructor
  · rw [stopLatch_eq, withKpr_rget, stopRegs, rget_rset_same]
  · rw [stopLatch_eq, withKpr_rget, stopRegs, rget_rset_ne _ (by decide), rget_rset_same, hold, BitVec.toNat_ofNat]
    omega

theorem stopLatch_kpr (d : Dev) (last : Nat) : (stopLatch d last).kpr.stop = some (0, last) ∧ (stopLatch d last).kpr.coolLow = d.kpr.coolLow := by
  constructor
  · rw [stopLatch_eq, withKpr_kpr]
  · rw [stopLatch_eq, withKpr_kpr, stopRegs]
    dsimp only
    rw [rset_kpr, rset_kpr, endResets_kpr KeeperState.coolLow (fun _ _ => rfl) (fun _ _ => rfl), endDebug_kpr]

theorem coolRecord_kpr (d : Dev) (cause : Nat) : (coolRecord d cause).kpr = d.kpr := by
  simp only [coolRecord]
  rw [addFault_kpr]
  rfl

theorem coolRecord_rget (d : Dev) (cause : Nat) {o : Nat} (h : o < KPR_FLOG_NEWEST) : rget (coolRecord d cause) o = rget d o := by
  have h' : o < 0x300 := h
  simp only [coolRecord]
  rw [addFault_rget _ _ _ _ _ _ _ _ _ _ _ (by unfold KPR_FLOG_STATUS; omega) (by unfold KPR_FLOG_NEWEST; omega) (by unfold KPR_FLOG_OLDEST; omega)
    (by unfold HIF_EVENT; omega) (by unfold HIF_EVENT; omega) (by unfold DBG_TRC_STATUS; omega)]
  rfl

/-! ## Memory and lists of the stages -/

/-- The registers of a region that goes dark. -/
def regionDarkStep (p : Nat → Bool) (d : Dev) (r : Nat) : Dev :=
  if !p r then d else
    let d := rsetBit (rsetBit d PWR_POLDER_ON r false) KPR_RGN_READY r false
    let up := if d.rgnUp.testBit r then d.rgnUp - 2 ^ r else d.rgnUp
    fset { d with rgnUp := up } (PWR_RGN_STEP r) 0

theorem regionDarkStep_mem (p : Nat → Bool) (d : Dev) (r : Nat) : (regionDarkStep p d r).mem = d.mem := by
  simp only [regionDarkStep]
  split_ifs <;> simp

theorem regionsDark_mem (d : Dev) (p : Nat → Bool) : (regionsDark d p).mem = smKeep (fun a => !nearIn p a) d.mem :=
  foldl_keeps Dev.mem (regionDarkStep p) (regionDarkStep_mem p) _ _

theorem resetRegs_keeps {α : Type} (get : Dev → α) (hregs : ∀ (d : Dev) r, get { d with regs := r } = get d) (d : Dev) (p : Nat → Bool) :
    get (resetRegs d p) = get d := by
  have hset : ∀ (d : Dev) o v, get (rset d o v) = get d := fun d o v => hregs d _
  exact (foldl_keeps get _ (fun d _ => hset d _ _) _ _).trans (hregs d _)

theorem testOff_keeps {α : Type} (get : Dev → α) (hregs : ∀ (d : Dev) r, get { d with regs := r } = get d) (ht : ∀ (d : Dev) x, get { d with trace := x } = get d)
    (hp : ∀ (d : Dev) x, get { d with tap := x } = get d) (d : Dev) : get (testOff d) = get d := by
  have hset : ∀ (d : Dev) o v, get (rset d o v) = get d := fun d o v => hregs d _
  have hbit : ∀ (d : Dev) o n b, get (rsetBit d o n b) = get d := fun d o n b => hset d _ _
  simp only [testOff]
  rw [hbit, hp, resetRegs_keeps get hregs, ht]

/-- The bytes of a tier. -/
def tierHolds (ddr : Bool) (a : Nat) : Bool := if ddr then decide (ddrBase ≤ a ∧ a < cdramBase) else decide (a < ddrBase)

theorem tierReady_keeps {α : Type} (get : Dev → α) (hregs : ∀ (d : Dev) r, get { d with regs := r } = get d) (d : Dev) : get (tierReady d) = get d := by
  have hset : ∀ (d : Dev) f v, get (fset d f v) = get d := fun d f v => hregs d _
  simp only [tierReady, hset]

/-- A tier that is switched off: its bytes read zero, its list is empty, and of memory and of the other tier's list the rest stays. -/
theorem tierOff_keeps {α : Type} (get : Dev → α) (hregs : ∀ (d : Dev) r, get { d with regs := r } = get d) (d : Dev) (ddr : Bool) :
    get (tierOff d ddr) = get { failMisses d ddr .resetAborted with
      mem := smKeep (fun a => !tierHolds ddr a) d.mem, poison := smKeep (fun g => !tierHolds ddr (64 * g)) d.poison,
      ddrList := if ddr then [] else d.ddrList, hbmList := if ddr then d.hbmList else [],
      tierPos := smKeep (fun k => decide (192 ≤ k) != ddr) d.tierPos, ceWin := smKeep (fun k => decide (192 ≤ k) != ddr) d.ceWin } := by
  have hset : ∀ (d : Dev) f v, get (fset d f v) = get d := fun d f v => hregs d _
  cases ddr
  all_goals
    simp only [tierOff, Bool.false_eq_true, if_false, if_true]
    rw [tierReady_keeps get hregs, hset, resetRegs_keeps get hregs]
    rfl

theorem tierOff_mem (d : Dev) (ddr : Bool) : (tierOff d ddr).mem = smKeep (fun a => !tierHolds ddr a) d.mem := tierOff_keeps Dev.mem (fun _ _ => rfl) d ddr
theorem tierOff_hbmList (d : Dev) (ddr : Bool) : (tierOff d ddr).hbmList = if ddr then d.hbmList else [] :=
  tierOff_keeps Dev.hbmList (fun _ _ => rfl) d ddr
theorem tierOff_ddrList (d : Dev) (ddr : Bool) : (tierOff d ddr).ddrList = if ddr then [] else d.ddrList :=
  tierOff_keeps Dev.ddrList (fun _ _ => rfl) d ddr

theorem tiersDark_mem (d : Dev) : (tiersDark d).mem = smKeep (fun a => !tierHolds true a) (smKeep (fun a => !tierHolds false a) d.mem) := by
  rw [tiersDark, tierOff_mem, tierOff_mem]

/-- No byte of either tier is left. -/
theorem rdByte_tiersDark (d : Dev) {a : Nat} (h : a < 0x020000000000) : rdByte (tiersDark d) a = 0 := by
  have hin : tierHolds false a = true ∨ tierHolds true a = true := by
    have hd : ddrBase = 0x010000000000 := rfl
    have hc : cdramBase = 0x020000000000 := rfl
    simp only [tierHolds, Bool.false_eq_true, if_false, if_true, decide_eq_true_iff, hd, hc]
    omega
  rw [rdByte, tiersDark_mem, smGet_smKeep, smGet_smKeep]
  obtain h | h := hin <;> simp [h]

/-! ## Keeper-only -/

/-- The registers of a part that goes Keeper-only. -/
def keeperOnlyRegs (d : Dev) (last : Nat) : Dev :=
  let d := resetRegs d (fun o => !regKeeper o)
  let d := rset (rset d PWR_POLDER_ON 0) PWR_POLDER_ON_HI 0x8000
  let d := rset (fset d KPR_START_LAST_STOP last) KPR_READY (BitVec.ofNat 64 ((rget d KPR_READY).toNat % 8))
  let d := [KPR_SETTLED, KPR_RGN_READY, KPR_RGN_SETTLED].foldl (fun d o => rset d o 0) d
  let d := fset (fset d HIF_CTRL_OFFER_A 0) HIF_CTRL_OFFER_B 0
  fset d TID_CFG_ROLE (if d.kpr.strapTide then 2 else 0)

theorem keeperOnlyRegs_keeps {α : Type} (get : Dev → α) (hregs : ∀ (d : Dev) r, get { d with regs := r } = get d) (d : Dev) (last : Nat) :
    get (keeperOnlyRegs d last) = get d := by
  have hset : ∀ (d : Dev) o v, get (rset d o v) = get d := fun d o v => hregs d _
  have hfset : ∀ (d : Dev) f v, get (fset d f v) = get d := fun d f v => hregs d _
  simp only [keeperOnlyRegs, List.foldl_cons, List.foldl_nil, hfset, hset]
  exact resetRegs_keeps get hregs _ _

theorem keeperOnly_regs (d : Dev) (last : Nat) : (keeperOnly d last).regs = (keeperOnlyRegs d last).regs := by simp only [keeperOnly, keeperOnlyRegs]

theorem keeperOnly_mem (d : Dev) (last : Nat) : (keeperOnly d last).mem = [] := by
  simp only [keeperOnly]
  rfl

theorem keeperOnly_cells (d : Dev) (last : Nat) : (keeperOnly d last).cells = [] := by
  simp only [keeperOnly]
  rfl

theorem keeperOnly_flog (d : Dev) (last : Nat) : (keeperOnly d last).flog = d.flog := by
  refine Eq.trans ?_ (keeperOnlyRegs_keeps Dev.flog (fun _ _ => rfl) d last)
  simp only [keeperOnly, keeperOnlyRegs]

theorem keeperOnly_state (d : Dev) (last : Nat) : (keeperOnly d last).pwr.state = 3 := by simp only [keeperOnly]

theorem keeperOnly_stop (d : Dev) (last : Nat) : (keeperOnly d last).kpr.stop = none := by simp only [keeperOnly]

theorem keeperOnly_vaux (d : Dev) (last : Nat) : (keeperOnly d last).kpr.vaux = d.kpr.vaux := by
  refine Eq.trans ?_ (keeperOnlyRegs_keeps (fun d => d.kpr.vaux) (fun _ _ => rfl) d last)
  simp only [keeperOnly, keeperOnlyRegs]

theorem keeperOnlyRegs_polders (d : Dev) (last : Nat) : rget (keeperOnlyRegs d last) PWR_POLDER_ON = 0 ∧
    rget (keeperOnlyRegs d last) PWR_POLDER_ON_HI = 0x8000 ∧ fget (keeperOnlyRegs d last) KPR_START_LAST_STOP = last % 2 ^ 8 := by
  have hne : ∀ (d : Dev) f v o, o ≠ f.off → rget (fset d f v) o = rget d o := fun d f v o h => rget_fset_ne d f v h
  have hne' : ∀ (d : Dev) o v k, k ≠ o → rget (rset d o v) k = rget d k := fun d o v k h => rget_rset_ne d h v
  refine ⟨?_, ?_, ?_⟩
  · simp (disch := decide) only [keeperOnlyRegs, List.foldl_cons, List.foldl_nil, hne, hne', rget_rset_same]
  · simp (disch := decide) only [keeperOnlyRegs, List.foldl_cons, List.foldl_nil, hne, hne', rget_rset_same]
  · have hs : ∀ (d : Dev) f v, f.off ≠ KPR_START → fget (fset d f v) KPR_START_LAST_STOP = fget d KPR_START_LAST_STOP := fun d f v h =>
      fget_fset_ne d f _ v (Ne.symm h)
    have hr : ∀ (d : Dev) o v, o ≠ KPR_START → fget (rset d o v) KPR_START_LAST_STOP = fget d KPR_START_LAST_STOP := fun d o v h =>
      fget_congr _ (rget_rset_ne d (Ne.symm h) v)
    simp (disch := decide) only [keeperOnlyRegs, List.foldl_cons, List.foldl_nil, hs, hr, fget_fset]
    rfl

theorem coolantStopStage_regions {d : Dev} {last : Nat} (h : d.kpr.stop = some (1, last)) : coolantStopStage d =
    withKpr (testOff (regionsDark d (fun _ => true))) { (testOff (regionsDark d (fun _ => true))).kpr with stop := some (2, last) } := by
  simp only [coolantStopStage, h]
  rfl

theorem coolantStopStage_tiers {d : Dev} {last : Nat} (h : d.kpr.stop = some (2, last)) : coolantStopStage d =
    withKpr (tiersDark d) { (tiersDark d).kpr with stop := some (3, last) } := by
  simp only [coolantStopStage, h]
  rfl

theorem withKpr_hbmList (d : Dev) (k : KeeperState) : (withKpr d k).hbmList = d.hbmList := (rfl)
theorem withKpr_ddrList (d : Dev) (k : KeeperState) : (withKpr d k).ddrList = d.ddrList := (rfl)
theorem rdByte_withKpr (d : Dev) (k : KeeperState) (a : Nat) : rdByte (withKpr d k) a = rdByte d a := (rfl)

/-- The last stage of a stop. -/
theorem coolantStopStage_last {d : Dev} {last : Nat} (h : d.kpr.stop = some (3, last)) : coolantStopStage d =
    if (keeperOnly d last).kpr.vaux then keeperOnly d last else powerOffAll (keeperOnly d last) := by
  simp only [coolantStopStage, h]

/-- Settles O29: each event, and each stage by what its parts leave. -/
theorem hardwareStop : Obligations.HardwareStop := by
  intro s t
  refine ⟨fun hvaux hst hstop => ?low, fun hlow => ?high, fun last hstop => ?links, fun last hstop => ?regions, fun last hstop => ?tiers,
    fun last hlast hstop hvaux => ?keeper⟩
  case low =>
    refine runs_of (fun d => coolFailAssert d) rfl ?_
    obtain ⟨d1, hd1⟩ : ∃ d1, d1 = withKpr s.dev { s.dev.kpr with coolLow := true } := ⟨_, rfl⟩
    have hlow : d1.kpr.coolLow = true := by rw [hd1, withKpr_kpr]
    have hr : ∀ o, rget d1 o = rget s.dev o := fun o => by rw [hd1, withKpr_rget]
    have heq : coolFailAssert s.dev = coolRecord (stopLatch d1 2) 1 := by
      have hh : hwStop d1 2 = stopLatch d1 2 := by
        rw [hwStop, if_neg]
        simp [hd1, withKpr, hstop, hst]
      rw [← hh, hd1, coolFailAssert, if_neg]
      · rfl
      · simp [hvaux, hst, hstop]
    obtain ⟨hk1, hk2⟩ := stopLatch_kpr d1 2
    obtain ⟨hr1, hr2⟩ := stopLatch_ready d1 2
    simp only [heq, coolRecord_kpr, coolRecord_rget _ _ (by decide : KPR_RGN_READY < KPR_FLOG_NEWEST),
      coolRecord_rget _ _ (by decide : KPR_READY < KPR_FLOG_NEWEST)]
    exact ⟨hk2.trans hlow, hk1, hr1, by rw [hr2, hr]⟩
  case high =>
    intro n
    refine runs_of (fun d => coolFailDeassert d t) rfl ?_
    simp only [coolFailDeassert, hlow, Bool.not_true, Bool.false_eq_true, if_false]
    rfl
  case links =>
    refine runs_of (fun d => coolantStopStage d) rfl ?_
    simp only [coolantStopStage, hstop]
  case regions =>
    refine runs_of (fun d => coolantStopStage d) rfl ?_
    simp only [coolantStopStage_regions hstop, withKpr_kpr, rdByte_withKpr]
    refine ⟨trivial, fun a ha => ?_⟩
    rw [rdByte, testOff_keeps Dev.mem (fun _ _ => rfl) (fun _ _ => rfl) (fun _ _ => rfl), regionsDark_mem, smGet_smKeep, ha]
    rfl
  case tiers =>
    refine runs_of (fun d => coolantStopStage d) rfl ?_
    simp only [coolantStopStage_tiers hstop, withKpr_kpr, withKpr_hbmList, withKpr_ddrList, rdByte_withKpr]
    refine ⟨trivial, ?_, ?_, fun a ha => rdByte_tiersDark s.dev ha⟩
    · simp [tiersDark, tierOff_hbmList]
    · simp [tiersDark, tierOff_ddrList]
  case keeper =>
    refine runs_of (fun d => coolantStopStage d) rfl ?_
    have heq : coolantStopStage s.dev = keeperOnly s.dev last := by
      rw [coolantStopStage_last hstop, if_pos ((keeperOnly_vaux _ _).trans hvaux)]
    obtain ⟨hon, hhi, hls⟩ := keeperOnlyRegs_polders s.dev last
    simp only [heq, rget_congr (keeperOnly_regs _ _), fget_of_regs (keeperOnly_regs _ _)]
    refine ⟨keeperOnly_stop _ _, keeperOnly_state _ _, hon, hhi, ?_, keeperOnly_cells _ _, keeperOnly_mem _ _, keeperOnly_flog _ _⟩
    rw [hls, Nat.mod_eq_of_lt (by omega)]


end Sys2Proof.Machine
end

section
/-! PROOF. O14: the operations of a sluice. -/
namespace Sys2Proof.Machine

theorem getSlc_setSlc_same (d : Dev) (i : Nat) (q : Sluice) : getSlc (setSlc d i q) i = q := smGet_smSet_same _ _ _ _
theorem getSlc_setSlc_ne (d : Dev) {i j : Nat} (h : j ≠ i) (q : Sluice) : getSlc (setSlc d i q) j = getSlc d j := smGet_smSet_ne _ _ h _
theorem getSlc_congr {d d' : Dev} (h : d'.slc = d.slc) (i : Nat) : getSlc d' i = getSlc d i := by rw [getSlc, getSlc, h]

theorem OnlyRegs.refl (d : Dev) : OnlyRegs d d := (rfl)

theorem OnlyRegs.rset {d d₁ : Dev} (h : OnlyRegs d d₁) (o : Nat) (v : Word) : OnlyRegs d (rset d₁ o v) := by
  unfold OnlyRegs at h ⊢
  generalize d₁.regs = r at h
  subst h
  rfl

theorem OnlyRegs.fset {d d₁ : Dev} (h : OnlyRegs d d₁) (f : Fld) (v : Nat) : OnlyRegs d (fset d₁ f v) := h.rset _ _

theorem OnlyRegs.fcount {d d₁ : Dev} (h : OnlyRegs d d₁) (f : Fld) (n : Nat) : OnlyRegs d (fcount d₁ f n) := h.rset _ _

/-- A sluice holds at most 4096 entries. -/
theorem slcCap_le (i : Nat) : slcCap i ≤ 4096 := by
  simp only [slcCap, sluiceLog2]
  split_ifs <;> decide

theorem slcCap_pos (i : Nat) : 0 < slcCap i := by
  unfold slcCap
  positivity

theorem slcDiff_lt (i a b : Nat) : slcDiff (slcCap i) a b < 8192 := by
  have hle := slcCap_le i
  have hpos := slcCap_pos i
  have := Nat.mod_lt (a + 2 * slcCap i - b) (show 0 < 2 * slcCap i by omega)
  unfold slcDiff
  omega

/-- The status word of a read. -/
def sluiceWord (valid held : Bool) (avail n r : Nat) : Nat :=
  (if valid then 2 ^ 63 else 0) + (if held then 2 ^ 62 else 0) + avail * 2 ^ 45 + n * 2 ^ 16 + r

/-- The fields of a status word are apart. -/
theorem sluiceWord_fields (valid held : Bool) {avail n r : Nat} (ha : avail < 8192) (hn : n < 8192) (hr : r < 2 ^ 16) :
    sluiceWord valid held avail n r / 2 ^ 63 = (if valid then 1 else 0) ∧
    (sluiceWord valid held avail n r / 2 ^ 62 % 2 = 1 ↔ held = true) ∧ sluiceWord valid held avail n r % 2 ^ 16 = r := by
  cases valid <;> cases held <;> simp only [sluiceWord, Bool.false_eq_true, if_true, if_false, iff_true, iff_false] <;> omega

theorem slcPlace_lt (i r : Nat) : r % slcCap i < 2 ^ 16 := by
  have := Nat.mod_lt r (slcCap_pos i)
  have := slcCap_le i
  omega

/-- A read of a sluice with an entry readable. -/
theorem sluiceRead_some {d : Dev} {i : Fin 46} (h : slcAvail (slcCap i) (getSlc d i) ≠ 0) :
    sluiceRead d i = emit (setSlc d i { getSlc d i with r := ((getSlc d i).r + 1) % (2 * slcCap i) })
      (.sluice i (sluiceWord true (getSlc d i).mark.isSome
        (slcAvail (slcCap i) { getSlc d i with r := ((getSlc d i).r + 1) % (2 * slcCap i) })
        (slcHeld (slcCap i) { getSlc d i with r := ((getSlc d i).r + 1) % (2 * slcCap i) }) ((getSlc d i).r % slcCap i))
      (smGet (fun _ => []) (getSlc d i).data ((getSlc d i).r % slcCap i))) := by
  simp only [sluiceRead, slcFront, slcTake, h, if_false, getSlc_setSlc_same, Option.isSome_some, if_true, Option.getD_some]
  rfl

theorem sluiceRead_none {d : Dev} {i : Fin 46} (h : slcAvail (slcCap i) (getSlc d i) = 0) :
    sluiceRead d i = emit d (.sluice i (sluiceWord false (getSlc d i).mark.isSome (slcAvail (slcCap i) (getSlc d i))
      (slcHeld (slcCap i) (getSlc d i)) ((getSlc d i).r % slcCap i)) (List.replicate 64 0)) := by
  simp only [sluiceRead, slcFront, slcTake, h, if_true]
  rfl

/-- The sluice after its consumer has released entries. -/
def releasedSlc (i : Nat) (q : Sluice) (k : Nat) : Sluice :=
  { q with l := (q.l + k) % (2 * slcCap i),
           mark := match q.mark with
             | some m => if slcDiff (slcCap i) m q.l < k then none else some m
             | none => none
           data := (List.range k).foldl (fun m j => smSet (fun _ => []) m ((q.l + j) % slcCap i) []) q.data }

theorem slcRelease_eq (d : Dev) (i n : Nat) : slcRelease d i n =
    setSlc (if slcHeld (slcCap i) (getSlc d i) < n then fcount d (SLC_CTR_BAD_OPS i) 1 else d) i
      (releasedSlc i (getSlc d i) (min n (slcHeld (slcCap i) (getSlc d i)))) := (rfl)

/-- Settles O14: each operation by its own equation, the frame by what a change of one sluice leaves. -/
theorem sluiceOperations : Obligations.SluiceOperations := by
  intro s i q c others
  refine ⟨fun entry => ⟨fun h => ?put, fun h hhost => ?dropped, fun h hhost => ?full⟩, fun h => ?read, fun h => ?empty, ?mark, ?rewind,
    fun n => ?release, ?sync, ?syncRelease, fun by_ v ho => ⟨?pins, fun hok => ?marks, fun hbad => ?marksBad⟩⟩
  case put =>
    refine runs_of (fun d => sluiceWrite d i entry) rfl ?_
    have h' : slcCredits (slcCap i) (getSlc s.dev i) ≠ 0 := h
    simp only [sluiceWrite, slcHostPut, slcPut, h', if_false, ite_self]
    rfl
  case dropped =>
    refine runs_of (fun d => sluiceWrite d i entry) rfl ?_
    have h' : slcCredits (slcCap i) (getSlc s.dev i) = 0 := h
    simp only [sluiceWrite, hhost, if_true, slcHostPut, h']
    refine ⟨getSlc_congr ?_ _, ?_, ((OnlyRegs.refl _).fset _ _).fcount _ _⟩
    · rw [fcount_slc, fset_slc]
    · rw [fget_fcount_skip _ _ _ _ (by dsimp only [SLC_CTR_DROPS]; omega)
        (by dsimp only [SLC_CTR_DROPS, SLC_STATUS_DROPPED, SLC_CTR, SLC_STATUS]; omega), fget_fset _ _ _ (by dsimp only [SLC_STATUS_DROPPED]; omega)]
      rfl
  case full =>
    refine runs_of (fun d => sluiceWrite d i entry) rfl ?_
    have h' : slcCredits (slcCap i) (getSlc s.dev i) = 0 := h
    simp only [sluiceWrite, hhost, Bool.false_eq_true, if_false, slcPut, h', if_true]
  case read =>
    refine runs_of (fun d => sluiceRead d i) rfl ?_
    simp only [sluiceRead_some h]
    obtain ⟨hv, hm, hr⟩ := sluiceWord_fields true q.mark.isSome (slcDiff_lt i q.wSync ((q.r + 1) % (2 * c)))
      (slcDiff_lt i ((q.r + 1) % (2 * c)) q.l) (slcPlace_lt i q.r)
    exact ⟨_, rfl, hv, hm, hr⟩
  case empty =>
    refine runs_of (fun d => sluiceRead d i) rfl ?_
    simp only [sluiceRead_none h]
    obtain ⟨hv, -, -⟩ := sluiceWord_fields false q.mark.isSome (slcDiff_lt i q.wSync q.r) (slcDiff_lt i q.r q.l) (slcPlace_lt i q.r)
    exact ⟨_, rfl, hv⟩
  case mark => exact runs_of (fun d => sluiceMark d i) rfl rfl
  case rewind =>
    refine runs_of (fun d => sluiceRewind d i) rfl ?_
    simp only [sluiceRewind, slcRewind]
    refine ⟨(getSlc_congr (fcount_slc _ _ _) _).trans (getSlc_setSlc_same _ _ _), ?_, memSame_of (fcount_mem _ _ _), fun j hj => ?_⟩
    · exact ((RegsBut.refl _ s.dev).of_regs rfl : RegsBut [SLC_CTR i] s.dev (setSlc s.dev i _)).fcount _ (by simp [SLC_CTR_REWINDS]) 1
    · exact (getSlc_congr (fcount_slc _ _ _) _).trans (getSlc_setSlc_ne _ hj _)
  case release =>
    intro k
    refine runs_of (fun d => sluiceRelease d i n) rfl ?_
    obtain ⟨d1, hd1⟩ : ∃ d1, d1 = if slcHeld c q < n then fcount s.dev (SLC_CTR_BAD_OPS i) 1 else s.dev := ⟨_, rfl⟩
    have heq : slcRelease s.dev i n = setSlc d1 i (releasedSlc i q k) := by rw [hd1, slcRelease_eq]
    have hslc : d1.slc = s.dev.slc := by
      rw [hd1]
      split_ifs
      · rw [fcount_slc]
      · rfl
    have hmem : d1.mem = s.dev.mem := by
      rw [hd1]
      split_ifs
      · rw [fcount_mem]
      · rfl
    have hregs : RegsBut (if slcHeld c q < n then [SLC_CTR i] else []) s.dev d1 := by
      rw [hd1]
      split_ifs
      · exact (RegsBut.refl _ _).fcount _ (by simp [SLC_CTR_BAD_OPS]) 1
      · exact RegsBut.refl _ _
    simp only [sluiceRelease, heq, getSlc_setSlc_same]
    exact ⟨rfl, rfl, rfl, rfl, hregs.of_regs rfl, memSame_of hmem,
      fun j hj => (getSlc_setSlc_ne _ hj _).trans (getSlc_congr hslc j)⟩
  case sync => exact runs_of (fun d => sluicePointerSync d i false) rfl rfl
  case syncRelease => exact runs_of (fun d => sluicePointerSync d i true) rfl rfl
  case pins =>
    refine runs_of (fun d => slcPinselWrite d by_ v) rfl ?_
    simp only [slcPinselWrite, ho, if_true]
  case marks =>
    refine runs_of (fun d => slcWmWrite d by_ i v) rfl ?_
    simp only [slcWmWrite, ho, Bool.true_and]
    exact if_pos (decide_eq_true hok)
  case marksBad =>
    refine runs_of (fun d => slcWmWrite d by_ i v) rfl ?_
    simp only [slcWmWrite, ho, Bool.true_and]
    exact if_neg (by rwa [decide_eq_true_iff])

end Sys2Proof.Machine
end

section
/-! PROOF. O16, O18, O20: a gather lane's data, the tiers, their unit lists and the lookup probe. -/
namespace Sys2Proof.Machine

/-! ## A lane of a gather (R129) -/

theorem tileKey_inj {n p n' p' : Nat} (hp : p < 1024) (hp' : p' < 1024) (h : tileKey n p = tileKey n' p') : n = n' ∧ p = p' := by
  unfold tileKey at h
  omega

/-- One element written to a tile register. -/
theorem tileBits_writeTile_one (x : Cell) (n : Nat) (ty : EType) (p v : Nat) (active : List Nat) (k j : Nat) (hp : p < 1024) (hj : j < 1024) :
    tileBits (writeTile x n ty [(p, v)] active false) k j = if k = n ∧ j = p then v % 2 ^ 32 else tileBits x k j := by
  simp only [tileBits, writeTile, Bool.false_eq_true, if_false, List.foldl_cons, List.foldl_nil]
  rw [smGet_smSet]
  by_cases h : k = n ∧ j = p
  · obtain ⟨rfl, rfl⟩ := h
    simp
  · rw [if_neg h, if_neg (fun e => h (tileKey_inj hj hp e))]

/-- A lane without an error worsens no status. -/
theorem laneWorse_ok (st : Status) : laneWorse st .ok = st := by cases st <;> rfl

/-- The cell after a lane has returned. -/
def laneReturned (x : Cell) (r : EleRun) (p v : Nat) (st : Status) : Cell :=
  { writeTile x r.entry.cmd.reg r.entry.cmd.ty [(p, v)] r.active false with
    erun := some { r with lanes := r.lanes.filter (fun l => l.1 != p), status := laneWorse r.status st } }

theorem gatherLaneReturn_i32 {d : Dev} {c : CellId} {r : EleRun} {lane w : Nat} (hrun : (getCell d c).erun = some r)
    (hlane : r.lanes.find? (fun l => l.1 == lane) = some (lane, .ready w)) (hsrc : r.entry.cmd.src = .i32) :
    gatherLaneReturn d c lane = modCell d c (fun x => laneReturned x r lane w .ok) := by
  simp only [gatherLaneReturn, hrun, hlane, hsrc]
  rfl

/-- Settles O16: the lane's element is written, and the lane leaves the run. -/
theorem gatherLaneReturns : Obligations.GatherLaneReturns := by
  intro s c r lane w hrun hlane hsrc hlt
  refine runs_of (fun d => gatherLaneReturn d c lane) rfl ?_
  simp only [gatherLaneReturn_i32 hrun hlane hsrc, getCell_modCell_same]
  have htile : ∀ k j, j < 1024 → tileBits (laneReturned (getCell s.dev c) r lane w .ok) k j =
      if k = r.entry.cmd.reg ∧ j = lane then w % 2 ^ 32 else tileBits (getCell s.dev c) k j := fun k j hj =>
    tileBits_writeTile_one (getCell s.dev c) r.entry.cmd.reg r.entry.cmd.ty lane w r.active k j hlt hj
  refine ⟨by rw [htile _ _ hlt, if_pos ⟨rfl, rfl⟩], fun n p hp hne => ?_, ⟨_, rfl, rfl, ?_⟩, memSame_of rfl, regsBut_of _ rfl, cellsBut_modCell _ _ _⟩
  · rw [htile n p hp, if_neg (fun e => hne.elim (fun h => h (Fin.ext e.1)) (fun h => h e.2))]
  · exact laneWorse_ok r.status

/-! ## The tiers -/

/-- A read that meets no error changes nothing. -/
theorem eccRead_none (d : Dev) (a n : Nat) : eccRead d ⟨[], []⟩ a n = d := rfl

/-- Settles O18: each command in the case that its statement names. -/
theorem tierCommands : Obligations.TierCommands := by
  intro s ddr ch by_ v
  refine ⟨fun i m retries t k hm hw hc hch hst => ?request, fun i m hm hw hp => ?promote, fun hlt hst => ?rinse, ?window, fun hlt ho => ?oos,
    fun hlt ho hv hbusy hst => ?start, fun hlt ho hv hbusy hst => ?startNot, fun hlt hbusy hmode => ?runEnd⟩
  case request =>
    refine runs_of (fun d => tierRequest d i retries false ⟨[], []⟩) rfl ?_
    simp only [tierRequest, hm, hw, hc, hch, hst, Bool.not_true, Bool.true_or, Bool.or_self, Bool.false_eq_true, if_false, eccRead_none]
    rw [fcount_far]
  case promote =>
    refine runs_of (fun d => requestPromote d i) rfl ?_
    simp only [requestPromote, hm, hw, hp, Bool.not_false, Bool.and_self, if_true]
  case rinse =>
    intro key total
    refine runs_of (fun d => tierRinseTick d ddr ch ⟨[], []⟩) rfl ?_
    rw [tierRinseTick, if_neg (by simp [hst, not_le.2 hlt])]
    simp only [eccRead_none]
    split <;> rfl
  case window => exact runs_of (fun d => ceWindowExpire d ddr ch) rfl rfl
  case oos =>
    refine runs_of (fun d => hbmChCtlWrite d by_ ddr ch v) rfl ?_
    simp [hbmChCtlWrite, ho, not_le.2 hlt]
  case start =>
    refine runs_of (fun d => tgStart d by_ ddr ch v) rfl ?_
    simp only [tgStart]
    rw [if_neg (by simp [ho, not_le.2 hlt, hv, hbusy]), if_neg (not_not.2 hst)]
  case startNot =>
    refine runs_of (fun d => tgStart d by_ ddr ch v) rfl ?_
    simp only [tgStart]
    rw [if_neg (by simp [ho, not_le.2 hlt, hv, hbusy]), if_pos hst]
  case runEnd =>
    refine runs_of (fun d => tgRunEnd d ddr ch []) rfl ?_
    simp only [tgRunEnd]
    rw [if_neg (by simp [not_le.2 hlt, hbusy]), if_pos hmode]
    rfl

end Sys2Proof.Machine
end

section
/-! PROOF. O20: the unit lists of the tiers, and the lookup probe. -/
namespace Sys2Proof.Machine

/-! ## What the counts of units in service leave -/

theorem countInService_keeps {α : Type} (get : Dev → α) (hregs : ∀ (d : Dev) r, get { d with regs := r } = get d) (d : Dev) :
    get (countInService d) = get d := by
  have hset : ∀ (d : Dev) f v, get (fset d f v) = get d := fun d f v => hregs d _
  simp only [countInService]
  rw [hset, hset, tierReady_keeps get hregs]

theorem tierReady_rget (d : Dev) {o : Nat} (h : o ≠ KPR_READY) : rget (tierReady d) o = rget d o := by
  have hset : ∀ (d : Dev) f v, f.off = KPR_READY → rget (fset d f v) o = rget d o := fun d f v hf => rget_fset_ne d f v (by rw [hf]; exact h)
  simp only [tierReady]
  rw [hset _ _ _ rfl, hset _ _ _ rfl, hset _ _ _ rfl, hset _ _ _ rfl]

/-- The counts of units in service touch KPR_READY and the two IN_SERVICE fields. -/
theorem countInService_fget (d : Dev) {f : Fld} (h0 : f.off ≠ KPR_READY) (h1 : f.off ≠ HBM_TIER_STATUS ∨ f.lo + f.wid ≤ 16 ∨ 25 ≤ f.lo)
    (h2 : f.off ≠ DDR_TIER_STATUS ∨ f.lo + f.wid ≤ 16 ∨ 25 ≤ f.lo) : fget (countInService d) f = fget d f := by
  simp only [countInService]
  rw [fget_fset_skip _ _ _ _ (by decide) h2, fget_fset_skip _ _ _ _ (by decide) h1, fget_congr _ (tierReady_rget _ h0)]

/-! ## The end of bring-up -/

theorem endBringUp_keeps {α : Type} (get : Dev → α) (hk : ∀ (d : Dev) k, get { d with kpr := k } = get d) (hp : ∀ (d : Dev) p, get { d with pwr := p } = get d)
    (hf : ∀ d v, get (fset d PWR_STATUS_STATE v) = get d) (hr : ∀ d, get (raiseBoth d 21) = get d) (d : Dev) : get (endBringUp d) = get d := by
  simp only [endBringUp]
  rw [powerNote_keeps get hp hf hr]
  split_ifs
  · exact hk _ _
  · rfl

theorem endBringUp_fget (d : Dev) {f : Fld} (h : f.off ≠ PWR_STATUS_STATE.off) (h0 : f.off ≠ HIF_EVENT 0) (h1 : f.off ≠ HIF_EVENT 1) :
    fget (endBringUp d) f = fget d f :=
  fget_congr f (endBringUp_keeps (fun d => rget d f.off) (fun _ _ => rfl) (fun _ _ => rfl) (fun _ _ => rget_fset_ne _ _ _ h)
    (fun _ => raiseBoth_rget _ _ h0 h1) d)

/-! ## The unit lists (R162, R163) -/

def withDdrList (d : Dev) (us : List Nat) : Dev := { d with ddrList := us }
def withHbmList (d : Dev) (us : List Nat) : Dev := { d with hbmList := us }

/-- The registers of a list of the DDR tier that is fixed. -/
def ddrFixedRegs (d : Dev) (n : Nat) : Dev :=
  rsetBit (fset (fset (fset d DDR_TIER_STATUS_FIXED 1) DDR_TIER_STATUS_N_UNITS n) DDR_TIER_STATUS_CAP_GIB (128 * n)) KPR_SETTLED 24 true

/-- The registers of a list of the HBM tier that is fixed. -/
def hbmFixedRegs (d : Dev) (n : Nat) : Dev :=
  rsetBit (fset (fset (fset d HBM_TIER_STATUS_FIXED 1) HBM_TIER_STATUS_N_UNITS n) HBM_TIER_STATUS_CAP_GIB (2 * n)) KPR_SETTLED 15 true

theorem fget_rsetBit_ne (d : Dev) {o : Nat} (f : Fld) (n : Nat) (b : Bool) (h : f.off ≠ o) : fget (rsetBit d o n b) f = fget d f :=
  fget_fset_ne d ⟨o, n, 1⟩ f _ h

theorem ddrFixedRegs_fields (d : Dev) {n : Nat} (hn : n < 512) : fget (ddrFixedRegs d n) DDR_TIER_STATUS_FIXED = 1 ∧
    fget (ddrFixedRegs d n) DDR_TIER_STATUS_N_UNITS = n := by
  constructor
  · rw [ddrFixedRegs, fget_rsetBit_ne _ _ _ _ (by decide), fget_fset_skip _ _ _ _ (by decide) (by decide), fget_fset_skip _ _ _ _ (by decide) (by decide),
      fget_fset _ _ _ (by decide)]
    rfl
  · rw [ddrFixedRegs, fget_rsetBit_ne _ _ _ _ (by decide), fget_fset_skip _ _ _ _ (by decide) (by decide), fget_fset _ _ _ (by decide)]
    exact Nat.mod_eq_of_lt hn

theorem hbmFixedRegs_fields (d : Dev) {n : Nat} (hn : n < 512) : fget (hbmFixedRegs d n) HBM_TIER_STATUS_FIXED = 1 ∧
    fget (hbmFixedRegs d n) HBM_TIER_STATUS_N_UNITS = n := by
  constructor
  · rw [hbmFixedRegs, fget_rsetBit_ne _ _ _ _ (by decide), fget_fset_skip _ _ _ _ (by decide) (by decide), fget_fset_skip _ _ _ _ (by decide) (by decide),
      fget_fset _ _ _ (by decide)]
    rfl
  · rw [hbmFixedRegs, fget_rsetBit_ne _ _ _ _ (by decide), fget_fset_skip _ _ _ _ (by decide) (by decide), fget_fset _ _ _ (by decide)]
    exact Nat.mod_eq_of_lt hn

/-- A unit goes into its tier's list when its channel is in service, out of service or stopped. -/
def chListed (d : Dev) (ddr : Bool) (ch : Nat) : Bool :=
  fget d (chState ddr ch) == 2 || fget d (chState ddr ch) == 3 || fget d (chState ddr ch) == 4

theorem chListed_eq (d : Dev) (ddr : Bool) (ch : Nat) :
    chListed d ddr ch = decide (fget d (chState ddr ch) = 2 ∨ fget d (chState ddr ch) = 3 ∨ fget d (chState ddr ch) = 4) := by
  simp only [chListed, Bool.decide_or, Bool.or_assoc]
  rfl

theorem tierListFix_ddr {d : Dev} (hfix : fbit d DDR_TIER_STATUS_FIXED = false) (hset : fget d ⟨KPR_SETTLED, 16, 8⟩ = 0xFF) (hnil : d.ddrList = []) :
    tierListFix d true = countInService (ddrFixedRegs (withDdrList d ((List.range 8).filter (chListed d true)))
      ((List.range 8).filter (chListed d true)).length) := by
  simp only [tierListFix, if_true]
  rw [if_neg (by simp [hfix, hset]), hnil]
  rfl

theorem tierListFix_hbm {d : Dev} (hfix : fbit d HBM_TIER_STATUS_FIXED = false) (hset : fget d ⟨KPR_SETTLED, 8, 6⟩ = 0x3F) (hnil : d.hbmList = []) :
    tierListFix d false = countInService (hbmFixedRegs (withHbmList d ((List.range 384).filter (fun u => chListed d false (hbmChan u))))
      ((List.range 384).filter (fun u => chListed d false (hbmChan u))).length) := by
  simp only [tierListFix, Bool.false_eq_true, if_false]
  rw [if_neg (by simp [hfix, hset]), hnil]
  rfl

theorem ddrFixedRegs_keeps {α : Type} (get : Dev → α) (hr : ∀ (d : Dev) r, get { d with regs := r } = get d) (d : Dev) (n : Nat) :
    get (ddrFixedRegs d n) = get d := by
  have hf : ∀ d f v, get (fset d f v) = get d := fun d f v => hr d _
  rw [ddrFixedRegs, rsetBit, hf, hf, hf, hf]

theorem hbmFixedRegs_keeps {α : Type} (get : Dev → α) (hr : ∀ (d : Dev) r, get { d with regs := r } = get d) (d : Dev) (n : Nat) :
    get (hbmFixedRegs d n) = get d := by
  have hf : ∀ d f v, get (fset d f v) = get d := fun d f v => hr d _
  rw [hbmFixedRegs, rsetBit, hf, hf, hf, hf]

/-- What follows the fixing of a list keeps the lists. -/
theorem listFixed_keeps {α : Type} (get : Dev → α) (hk : ∀ (d : Dev) k, get { d with kpr := k } = get d) (hp : ∀ (d : Dev) p, get { d with pwr := p } = get d)
    (hr : ∀ (d : Dev) r, get { d with regs := r } = get d) (he : ∀ d, get (raiseBoth d 21) = get d) (d : Dev) :
    get (endBringUp (countInService d)) = get d := by
  rw [endBringUp_keeps get hk hp (fun d _ => hr d _) he, countInService_keeps get hr]

/-- What follows the fixing of a list keeps the tier's status but its count of units in service. -/
theorem listFixed_fget (d : Dev) {f : Fld} (hoff : f.off = HBM_TIER_STATUS ∨ f.off = DDR_TIER_STATUS) (hf : f.lo + f.wid ≤ 16 ∨ 25 ≤ f.lo) :
    fget (endBringUp (countInService d)) f = fget d f := by
  have hne : f.off ≠ KPR_READY ∧ f.off ≠ PWR_STATUS_STATE.off ∧ f.off ≠ HIF_EVENT 0 ∧ f.off ≠ HIF_EVENT 1 := by
    obtain h | h := hoff <;> rw [h] <;> decide
  rw [endBringUp_fget _ hne.2.1 hne.2.2.1 hne.2.2.2, countInService_fget _ hne.1 (.inr hf) (.inr hf)]

/-! ## The lookup probe (R181, R204) -/

/-- The device with a probe under way or not. -/
def withProbing (d : Dev) (b : Bool) : Dev := { d with probing := b }

theorem withProbing_probing (d : Dev) (b : Bool) : (withProbing d b).probing = b := (rfl)
theorem withProbing_mem (d : Dev) (b : Bool) : (withProbing d b).mem = d.mem := (rfl)
theorem withProbing_regs (d : Dev) (b : Bool) : (withProbing d b).regs = d.regs := (rfl)
theorem withProbing_map (d : Dev) (b : Bool) : (withProbing d b).map = d.map := (rfl)
theorem takeFree_regs (d : Dev) : (takeFree d).2.regs = d.regs := (rfl)
theorem takeFree_mem (d : Dev) : (takeFree d).2.mem = d.mem := (rfl)
theorem takeFree_map (d : Dev) : (takeFree d).2.map = d.map := (rfl)

theorem countWalk_eq (d : Dev) : countWalk d = fcount (takeFree d).2 XLT_CTR_WALKS (Config.free (takeFree d).1 % 2) := (rfl)

theorem countWalk_regsBut (d : Dev) : RegsBut [XLT_PROBE_RES, XLT_CTR] d (countWalk d) := by
  rw [countWalk_eq]
  exact ((RegsBut.refl _ d).of_regs (takeFree_regs d)).fcount _ (by simp [XLT_CTR_WALKS]) _

theorem countWalk_mem (d : Dev) : (countWalk d).mem = d.mem := by rw [countWalk_eq, fcount_mem, takeFree_mem]

/-- A walk that is counted changes no translation. -/
theorem lookup_probe (d : Dev) (a : Nat) : lookup (withProbing (countWalk d) false) a = lookup d a := by
  have hmap : (countWalk d).map = d.map := by rw [countWalk_eq, fcount_map, takeFree_map]
  have hnode : nodeId (withProbing (countWalk d) false) = nodeId d :=
    fget_congr _ ((rget_congr (withProbing_regs _ _) _).trans (countWalk_regsBut d _ (by decide)))
  rw [lookup, lookup, withProbing_map, hmap, hnode]

theorem xltProbeDone_none {d : Dev} {level : Nat} (hp : d.probing = true) (hl : lookup d (rget d XLT_PROBE_ADDR).toNat = .none level) :
    xltProbeDone d = rset (withProbing (countWalk d) false) XLT_PROBE_RES (BitVec.ofNat 64 (2 ^ 63 + 3 * 2 ^ 60)) := by
  have hl' : lookup { countWalk d with probing := false } (rget d XLT_PROBE_ADDR).toNat = .none level := (lookup_probe d _).trans hl
  simp only [xltProbeDone, hp, Bool.not_true, Bool.false_eq_true, if_false, hl']
  rfl

theorem xltProbeDone_leaf {d : Dev} {l : Leaf} {level : Nat} (hp : d.probing = true) (hl : lookup d (rget d XLT_PROBE_ADDR).toNat = .leaf l level) :
    xltProbeDone d = rset (withProbing (countWalk d) false) XLT_PROBE_RES (BitVec.ofNat 64 (2 ^ 63 + 2 ^ 62 + l.size * 2 ^ 60 + attrCode l.attr * 2 ^ 53 +
      l.node * 2 ^ 32 + l.addr / 2 ^ 16 % 2 ^ 32)) := by
  have hl' : lookup { countWalk d with probing := false } (rget d XLT_PROBE_ADDR).toNat = .leaf l level := (lookup_probe d _).trans hl
  simp only [xltProbeDone, hp, Bool.not_true, Bool.false_eq_true, if_false, hl']
  rfl

/-- The end of a probe with the answer `v`. -/
theorem probe_ends (d : Dev) (v : Word) : (rset (withProbing (countWalk d) false) XLT_PROBE_RES v).probing = false ∧
    rget (rset (withProbing (countWalk d) false) XLT_PROBE_RES v) XLT_PROBE_RES = v ∧
    RegsBut [XLT_PROBE_RES, XLT_CTR] d (rset (withProbing (countWalk d) false) XLT_PROBE_RES v) ∧
    MemSame d (rset (withProbing (countWalk d) false) XLT_PROBE_RES v) := by
  refine ⟨?_, rget_rset_same _ _ _, ((countWalk_regsBut d).of_regs (withProbing_regs _ _)).rset (by simp : XLT_PROBE_RES ∈ _) _, memSame_of ?_⟩
  · rw [rset_probing, withProbing_probing]
  · rw [rset_mem, withProbing_mem, countWalk_mem]

theorem xltProbeAddrWrite_eq (d : Dev) (v : Word) : xltProbeAddrWrite d v = withProbing (fset (rset d XLT_PROBE_ADDR v) XLT_PROBE_RES_DONE 0) true := (rfl)

/-! ## The statement -/

/-- Settles O20: the lists by what fixing one leaves, the probe by its start and its two ends. -/
theorem listsAndProbes : Obligations.ListsAndProbes := by
  intro s good
  refine ⟨fun hfix hset hnil => ?ddr, fun hfix hset hnil => ?hbm, fun v => ?start, fun level hp hl => ?endNone, fun l level hp hl => ?endLeaf⟩
  case ddr =>
    refine runs_of (fun d => endBringUp (tierListFix d true)) rfl ?_
    have hus : (List.range 8).filter (chListed s.dev true) = (List.range 8).filter (fun k => decide (good (DDR_CH_STATUS_STATE k))) :=
      List.filter_congr fun k _ => chListed_eq s.dev true k
    generalize (List.range 8).filter (fun k => decide (good (DDR_CH_STATUS_STATE k))) = us at hus ⊢
    have hlen : us.length < 512 := by
      rw [← hus]
      exact lt_of_le_of_lt (List.length_filter_le _ _) (by simp)
    have heq : endBringUp (tierListFix s.dev true) = endBringUp (countInService (ddrFixedRegs (withDdrList s.dev us) us.length)) := by
      rw [tierListFix_ddr hfix hset hnil, hus]
    obtain ⟨h1, h2⟩ := ddrFixedRegs_fields (withDdrList s.dev us) hlen
    have hd : (endBringUp (countInService (ddrFixedRegs (withDdrList s.dev us) us.length))).ddrList = us :=
      (listFixed_keeps Dev.ddrList (fun _ _ => rfl) (fun _ _ => rfl) (fun _ _ => rfl) (fun _ => raiseBoth_ddrList _ _) _).trans
        (ddrFixedRegs_keeps Dev.ddrList (fun _ _ => rfl) _ _)
    simp only [heq, hd]
    refine ⟨trivial, (listFixed_fget _ (.inr rfl) (by decide)).trans h1, (listFixed_fget _ (.inr rfl) (by decide)).trans h2, ?_⟩
    exact (listFixed_keeps Dev.hbmList (fun _ _ => rfl) (fun _ _ => rfl) (fun _ _ => rfl) (fun _ => raiseBoth_hbmList _ _) _).trans
      (ddrFixedRegs_keeps Dev.hbmList (fun _ _ => rfl) _ _)
  case hbm =>
    refine runs_of (fun d => endBringUp (tierListFix d false)) rfl ?_
    have hus : (List.range 384).filter (fun u => chListed s.dev false (hbmChan u)) =
        (List.range 384).filter (fun u => decide (good (HBM_CH_STATUS_STATE (hbmChan u)))) := List.filter_congr fun u _ => chListed_eq s.dev false (hbmChan u)
    generalize (List.range 384).filter (fun u => decide (good (HBM_CH_STATUS_STATE (hbmChan u)))) = us at hus ⊢
    have hlen : us.length < 512 := by
      rw [← hus]
      exact lt_of_le_of_lt (List.length_filter_le _ _) (by simp)
    have heq : endBringUp (tierListFix s.dev false) = endBringUp (countInService (hbmFixedRegs (withHbmList s.dev us) us.length)) := by
      rw [tierListFix_hbm hfix hset hnil, hus]
    obtain ⟨h1, h2⟩ := hbmFixedRegs_fields (withHbmList s.dev us) hlen
    have hd : (endBringUp (countInService (hbmFixedRegs (withHbmList s.dev us) us.length))).hbmList = us :=
      (listFixed_keeps Dev.hbmList (fun _ _ => rfl) (fun _ _ => rfl) (fun _ _ => rfl) (fun _ => raiseBoth_hbmList _ _) _).trans
        (hbmFixedRegs_keeps Dev.hbmList (fun _ _ => rfl) _ _)
    simp only [heq, hd]
    refine ⟨trivial, (listFixed_fget _ (.inl rfl) (by decide)).trans h1, (listFixed_fget _ (.inl rfl) (by decide)).trans h2, ?_⟩
    exact (listFixed_keeps Dev.ddrList (fun _ _ => rfl) (fun _ _ => rfl) (fun _ _ => rfl) (fun _ => raiseBoth_ddrList _ _) _).trans
      (hbmFixedRegs_keeps Dev.ddrList (fun _ _ => rfl) _ _)
  case start =>
    refine runs_of (fun d => xltProbeAddrWrite d v) rfl ?_
    simp only [xltProbeAddrWrite_eq]
    refine ⟨withProbing_probing _ _, ?_, ?_, ?_, memSame_of ?_⟩
    · rw [rget_congr (withProbing_regs _ _), rget_fset_ne _ _ _ (by decide), rget_rset_same]
    · rw [fget_of_regs (withProbing_regs _ _), fget_fset _ _ _ (by decide), Nat.zero_mod]
    · exact (((RegsBut.refl _ s.dev).rset (by simp : XLT_PROBE_ADDR ∈ _) v).fset XLT_PROBE_RES_DONE (by simp [XLT_PROBE_RES_DONE]) 0).of_regs
        (withProbing_regs _ _)
    · rw [withProbing_mem, fset_mem, rset_mem]
  case endNone =>
    refine runs_of (fun d => xltProbeDone d) rfl ?_
    simp only [xltProbeDone_none hp hl]
    exact probe_ends _ _
  case endLeaf =>
    refine runs_of (fun d => xltProbeDone d) rfl ?_
    simp only [xltProbeDone_leaf hp hl]
    exact probe_ends _ _

end Sys2Proof.Machine
end

section
/-! PROOF. O19: rinse ticks of the column channels, and temperatures. -/
namespace Sys2Proof.Machine

/-! ## Rinse ticks (R148, R149) -/

/-- Counting beats touches registers alone. -/
theorem countBeats_keeps {α : Type} (get : Dev → α) (hregs : ∀ (d : Dev) r, get { d with regs := r } = get d) (d : Dev) (a n : Nat) (write : Bool) :
    get (countBeats d a n write) = get d := by
  have hf : ∀ d f v, get (fwrap d f v) = get d := fun d f v => hregs d _
  simp only [countBeats]
  split
  · split_ifs <;> rw [hf, hf]
  · split_ifs <;> rw [hf, hf]
  · rfl

/-- The walker of a cell's rinse after a line. -/
def rinsed (dram : Bool) (q : Nat) (x : Cell) : Cell := if dram then { x with rinseDram := q } else { x with rinseSram := q }

/-- The place of a cell's walker. -/
def walker (dram : Bool) (x : Cell) : Nat := if dram then x.rinseDram else x.rinseSram

/-- The line that a walker reads. -/
def rinseAddr (c : Nat) (dram : Bool) (p : Nat) : Nat := (if dram then cdramBase + c * 0x800000 else csramBase + c * 0x80000) + p * rinseLine dram

/-- A pass is counted when the walker is back at its first line. -/
def passCounted (c : Nat) (dram : Bool) (q : Nat) (d : Dev) : Dev :=
  if q = 0 then fwrap d (if dram then COL_RINSE_PASS_DRAM (regionOf c) else COL_RINSE_PASS_SRAM (regionOf c)) 1 else d

/-- A tick that meets no error counts its beats and its pass, and moves the walker. -/
theorem rinseTick_clean {d : Dev} {c : CellId} {dram : Bool} (h : rinseRuns d c dram = true) : rinseTick d c dram ⟨[], []⟩ =
    passCounted c dram ((walker dram (getCell d c) + 1) % rinseLines dram)
      (modCell (countBeats d (rinseAddr c dram (walker dram (getCell d c))) (rinseLine dram) false) c
        (rinsed dram ((walker dram (getCell d c) + 1) % rinseLines dram))) := by
  simp only [rinseTick, h, Bool.not_true, Bool.false_eq_true, if_false, eccRead_none, List.any_nil, Bool.and_false]
  rfl

theorem passCounted_keeps {α : Type} (get : Dev → α) (hregs : ∀ (d : Dev) r, get { d with regs := r } = get d) (c : Nat) (dram : Bool) (q : Nat) (d : Dev) :
    get (passCounted c dram q d) = get d := by
  unfold passCounted
  split_ifs
  · exact hregs d _
  · exact hregs d _
  · rfl

theorem rinseTick_cell {d : Dev} {c : CellId} {dram : Bool} (h : rinseRuns d c dram = true) :
    getCell (rinseTick d c dram ⟨[], []⟩) c = rinsed dram ((walker dram (getCell d c) + 1) % rinseLines dram) (getCell d c) := by
  rw [rinseTick_clean h, getCell_congr (passCounted_keeps Dev.cells (fun _ _ => rfl) _ _ _ _), getCell_modCell_same,
    getCell_congr (countBeats_keeps Dev.cells (fun _ _ => rfl) _ _ _ _)]

theorem rinseTick_frame {d : Dev} {c : CellId} {dram : Bool} (h : rinseRuns d c dram = true) :
    MemSame d (rinseTick d c dram ⟨[], []⟩) ∧ CellsBut c d (rinseTick d c dram ⟨[], []⟩) := by
  rw [rinseTick_clean h]
  constructor
  · refine memSame_of ?_
    rw [passCounted_keeps Dev.mem (fun _ _ => rfl), modCell_mem, countBeats_keeps Dev.mem (fun _ _ => rfl)]
  · intro k hk
    rw [getCell_congr (passCounted_keeps Dev.cells (fun _ _ => rfl) _ _ _ _), getCell_modCell_ne _ hk,
      getCell_congr (countBeats_keeps Dev.cells (fun _ _ => rfl) _ _ _ _)]

/-! ## Temperatures (R169, R170, R383) -/

/-- An index of a range is acted on once, and what it reads is its own step's. -/
theorem foldl_range_at {σ α : Type} (step : σ → Nat → σ) (get : Nat → σ → α) (val : α → α) (n : Nat)
    (hne : ∀ d j k, j < n → k < n → k ≠ j → get k (step d j) = get k d) (hat : ∀ d k, k < n → get k (step d k) = val (get k d)) (d : σ) :
    ∀ k < n, get k ((List.range n).foldl step d) = val (get k d) := by
  have hall : ∀ m, m ≤ n → ∀ k < n, get k ((List.range m).foldl step d) = if k < m then val (get k d) else get k d := by
    intro m
    induction m with
    | zero => intro _ k _; simp
    | succ m ih =>
      intro hm k hk
      rw [List.range_succ, List.foldl_append, List.foldl_cons, List.foldl_nil]
      by_cases hkm : k = m
      · subst hkm
        rw [hat _ _ hk, ih (by omega) _ hk, if_neg (lt_irrefl _), if_pos (Nat.lt_succ_self _)]
      · rw [hne _ _ _ (by omega) hk hkm, ih (by omega) _ hk]
        exact if_congr (by omega) rfl rfl
  intro k hk
  rw [hall n le_rfl k hk, if_pos hk]

/-- Settling a channel: nothing, or a new state, with the traffic generator stopped or not, and the counts. -/
theorem hbmSettle_cases (d : Dev) (ch : Nat) : hbmSettle d ch = d ∨ ∃ n d1, hbmSettle d ch = countInService (fset d1 (HBM_CH_STATUS_STATE ch) n) ∧
    (d1 = d ∨ d1 = tgStop d (HBM_TG_RES_BUSY ch) (HBM_TG_RES_RESULT ch) (HBM_TG_RES_DONE ch)) := by
  by_cases h : fget d (HBM_CH_STATUS_STATE ch) ≤ 1 ∨ fget d (HBM_CH_STATUS_STATE ch) = 5
  · refine .inl ?_
    simp only [hbmSettle]
    rw [if_pos (by simpa using h)]
  · generalize hn : (if fget d (HBM_CH_STATUS_REFRESH ch) = 3 then 4 else if fbit d (HBM_CH_CTL_OOS ch) then 3 else 2) = n
    refine .inr ⟨n, if n = 4 then tgStop d (HBM_TG_RES_BUSY ch) (HBM_TG_RES_RESULT ch) (HBM_TG_RES_DONE ch) else d, ?_, ?_⟩
    · simp only [hbmSettle]
      rw [if_neg (by simpa using h), hn]
    · split_ifs <;> simp

theorem ddrSettle_cases (d : Dev) (ch : Nat) : ddrSettle d ch = d ∨ ∃ n d1, ddrSettle d ch = countInService (fset d1 (DDR_CH_STATUS_STATE ch) n) ∧
    (d1 = d ∨ d1 = tgStop d (DDR_TG_RES_BUSY ch) (DDR_TG_RES_RESULT ch) (DDR_TG_RES_DONE ch)) := by
  by_cases h : fget d (DDR_CH_STATUS_STATE ch) ≤ 1 ∨ fget d (DDR_CH_STATUS_STATE ch) = 5
  · refine .inl ?_
    simp only [ddrSettle]
    rw [if_pos (by simpa using h)]
  · generalize hn : (if fget d (DDR_CH_STATUS_REFRESH ch) = 3 then 4 else if fbit d (DDR_CH_CTL_OOS ch) then 3 else 2) = n
    refine .inr ⟨n, if n = 4 then tgStop d (DDR_TG_RES_BUSY ch) (DDR_TG_RES_RESULT ch) (DDR_TG_RES_DONE ch) else d, ?_, ?_⟩
    · simp only [ddrSettle]
      rw [if_neg (by simpa using h), hn]
    · split_ifs <;> simp

/-- A field that no settling of a channel touches but by its state: not a count of its tier, and not an event. -/
def ChField (f : Fld) : Prop := 4 ≤ f.lo ∧ f.off ≠ KPR_READY ∧ f.off ≠ HBM_TIER_STATUS ∧ f.off ≠ DDR_TIER_STATUS ∧ f.off ≠ HIF_EVENT 0 ∧ f.off ≠ HIF_EVENT 1

theorem tgStop_fget (d : Dev) {busy result done : Fld} {f : Fld} (h : ChField f) (hb : f.off ≠ busy.off) (hs : f.off ≠ result.off) (hd : f.off ≠ done.off) :
    fget (tgStop d busy result done) f = fget d f := by
  obtain ⟨-, -, -, -, h0, h1⟩ := h
  unfold tgStop
  split_ifs
  · rw [raiseBoth_fget _ _ _ h0 h1, fget_fset_ne _ _ _ _ hd, fget_fset_ne _ _ _ _ hs, fget_fset_ne _ _ _ _ hb]
  · rfl

/-- Settling an HBM channel keeps the fields of its status but the state. -/
theorem hbmSettle_fget (d : Dev) (ch : Nat) {f : Fld} (h : ChField f) (htg : f.off ≠ HBM_TG_RES ch) : fget (hbmSettle d ch) f = fget d f := by
  obtain ⟨hlo, h0, h1, h2, -, -⟩ := id h
  obtain he | ⟨n, d1, he, hd1⟩ := hbmSettle_cases d ch
  · rw [he]
  · rw [he, countInService_fget _ h0 (.inl h1) (.inl h2), fget_fset_skip _ _ _ _ (by dsimp only [HBM_CH_STATUS_STATE]; omega)
      (by dsimp only [HBM_CH_STATUS_STATE]; omega)]
    obtain rfl | rfl := hd1
    · rfl
    · exact tgStop_fget _ h htg htg htg

theorem ddrSettle_fget (d : Dev) (ch : Nat) {f : Fld} (h : ChField f) (htg : f.off ≠ DDR_TG_RES ch) : fget (ddrSettle d ch) f = fget d f := by
  obtain ⟨hlo, h0, h1, h2, -, -⟩ := id h
  obtain he | ⟨n, d1, he, hd1⟩ := ddrSettle_cases d ch
  · rw [he]
  · rw [he, countInService_fget _ h0 (.inl h1) (.inl h2), fget_fset_skip _ _ _ _ (by dsimp only [DDR_CH_STATUS_STATE]; omega)
      (by dsimp only [DDR_CH_STATUS_STATE]; omega)]
    obtain rfl | rfl := hd1
    · rfl
    · exact tgStop_fget _ h htg htg htg

theorem tgStop_mem (d : Dev) (busy result done : Fld) : (tgStop d busy result done).mem = d.mem := by
  unfold tgStop
  split_ifs
  · rw [raiseBoth_mem, fset_mem, fset_mem, fset_mem]
  · rfl

theorem hbmSettle_mem (d : Dev) (ch : Nat) : (hbmSettle d ch).mem = d.mem := by
  obtain he | ⟨n, d1, he, rfl | rfl⟩ := hbmSettle_cases d ch <;> rw [he]
  · rw [countInService_keeps Dev.mem (fun _ _ => rfl), fset_mem]
  · rw [countInService_keeps Dev.mem (fun _ _ => rfl), fset_mem, tgStop_mem]

theorem ddrSettle_mem (d : Dev) (ch : Nat) : (ddrSettle d ch).mem = d.mem := by
  obtain he | ⟨n, d1, he, rfl | rfl⟩ := ddrSettle_cases d ch <;> rw [he]
  · rw [countInService_keeps Dev.mem (fun _ _ => rfl), fset_mem]
  · rw [countInService_keeps Dev.mem (fun _ _ => rfl), fset_mem, tgStop_mem]

theorem chField_hbm {ch : Nat} (h : ch < 192) : ChField (HBM_CH_STATUS_TEMP ch) ∧ ChField (HBM_CH_STATUS_REFRESH ch) := by
  simp only [ChField, HBM_CH_STATUS_TEMP, HBM_CH_STATUS_REFRESH, HBM_CH_STATUS, KPR_READY, HBM_TIER_STATUS, DDR_TIER_STATUS, HIF_EVENT]
  omega

theorem chField_ddr {ch : Nat} (h : ch < 8) : ChField (DDR_CH_STATUS_TEMP ch) ∧ ChField (DDR_CH_STATUS_REFRESH ch) := by
  simp only [ChField, DDR_CH_STATUS_TEMP, DDR_CH_STATUS_REFRESH, DDR_CH_STATUS, KPR_READY, HBM_TIER_STATUS, DDR_TIER_STATUS, HIF_EVENT]
  omega

theorem stepBy_lt {up hold cur : Nat} (hu : up < 4) (hh : hold < 4) : stepBy up hold cur < 4 := by
  unfold stepBy
  omega

theorem hbmStep_lt (cur t : Nat) : hbmStep cur t < 4 := by
  unfold hbmStep
  refine stepBy_lt ?_ ?_ <;> split_ifs <;> decide

theorem three_of_two_lt {n : Nat} (h : n < 4) : (if n = 2 then 3 else n) < 4 := by split_ifs <;> omega

theorem ddrStep_lt (cur t : Nat) : ddrStep cur t < 4 :=
  three_of_two_lt (stepBy_lt (by split_ifs <;> decide) (by split_ifs <;> decide))

/-- One channel's part of a stack's temperature read. -/
def hbmTempStep (t base : Nat) (d : Dev) (k : Nat) : Dev :=
  hbmSettle (fset (fset d (HBM_CH_STATUS_TEMP (base + k)) (min t 255)) (HBM_CH_STATUS_REFRESH (base + k))
    (hbmStep (fget (fset d (HBM_CH_STATUS_TEMP (base + k)) (min t 255)) (HBM_CH_STATUS_REFRESH (base + k))) t)) (base + k)

/-- What follows a stack's temperature read touches the limit, its counter and the events. -/
def hbmThrottled (d : Dev) (lim : Fld) (t : Nat) : Dev :=
  if hbmRow (limitRow (fget d lim)) t = limitRow (fget d lim) then d
  else raiseBoth (fcount (fset d lim (rowLimit (hbmRow (limitRow (fget d lim)) t))) THM_CTR_LEVEL_CHANGES 1) 20

theorem hbmTempRead_eq (d : Dev) (stk : Fin 6) (t : Nat) : hbmTempRead d stk t =
    hbmThrottled ((List.range 32).foldl (hbmTempStep t (32 * stk.val)) d) ⟨HBM_THROTTLE, 7 * stk.val, 7⟩ t := (rfl)

theorem hbmTempStep_ne (t base : Nat) (d : Dev) {j k : Nat} {f : Fld} (hf : f.off = HBM_CH_STATUS (base + k)) (hch : ChField f) (hjk : k ≠ j) :
    fget (hbmTempStep t base d j) f = fget d f := by
  have hne : f.off ≠ HBM_CH_STATUS (base + j) := by
    rw [hf]
    unfold HBM_CH_STATUS
    omega
  rw [hbmTempStep, hbmSettle_fget _ _ hch (by rw [hf]; unfold HBM_CH_STATUS HBM_TG_RES; omega), fget_fset_ne _ _ _ _ hne, fget_fset_ne _ _ _ _ hne]

theorem hbmTempStep_at (t base : Nat) (d : Dev) {k : Nat} (h : base + k < 192) :
    fget (hbmTempStep t base d k) (HBM_CH_STATUS_TEMP (base + k)) = min t 255 ∧
    fget (hbmTempStep t base d k) (HBM_CH_STATUS_REFRESH (base + k)) = hbmStep (fget d (HBM_CH_STATUS_REFRESH (base + k))) t := by
  obtain ⟨ht, hr⟩ := chField_hbm h
  have htg : HBM_CH_STATUS (base + k) ≠ HBM_TG_RES (base + k) := by unfold HBM_CH_STATUS HBM_TG_RES; omega
  constructor
  · rw [hbmTempStep, hbmSettle_fget _ _ ht htg, fget_fset_skip _ _ _ _ (by dsimp only [HBM_CH_STATUS_REFRESH]; omega)
      (by dsimp only [HBM_CH_STATUS_REFRESH, HBM_CH_STATUS_TEMP]; omega), fget_fset _ _ _ (by dsimp only [HBM_CH_STATUS_TEMP]; omega)]
    exact Nat.mod_eq_of_lt (by dsimp only [HBM_CH_STATUS_TEMP]; omega)
  · rw [hbmTempStep, hbmSettle_fget _ _ hr htg, fget_fset _ _ _ (by dsimp only [HBM_CH_STATUS_REFRESH]; omega),
      fget_fset_skip _ _ _ _ (by dsimp only [HBM_CH_STATUS_TEMP]; omega) (by dsimp only [HBM_CH_STATUS_REFRESH, HBM_CH_STATUS_TEMP]; omega)]
    exact Nat.mod_eq_of_lt (hbmStep_lt _ _)

theorem hbmThrottled_fget (d : Dev) (lim : Fld) (t : Nat) {f : Fld} (h : f.off ≠ lim.off) (hc : f.off ≠ THM_CTR) (h0 : f.off ≠ HIF_EVENT 0)
    (h1 : f.off ≠ HIF_EVENT 1) : fget (hbmThrottled d lim t) f = fget d f := by
  unfold hbmThrottled
  split_ifs
  · rfl
  · rw [raiseBoth_fget _ _ _ h0 h1, fcount, fget_fset_ne _ _ _ _ hc, fget_fset_ne _ _ _ _ h]

theorem hbmThrottled_mem (d : Dev) (lim : Fld) (t : Nat) : (hbmThrottled d lim t).mem = d.mem := by
  unfold hbmThrottled
  split_ifs
  · rfl
  · rw [raiseBoth_mem, fcount_mem, fset_mem]

theorem hbmChStatus_apart {ch : Nat} (h : ch < 192) : HBM_CH_STATUS ch ≠ HBM_THROTTLE ∧ HBM_CH_STATUS ch ≠ THM_CTR ∧ HBM_CH_STATUS ch ≠ HIF_EVENT 0 ∧
    HBM_CH_STATUS ch ≠ HIF_EVENT 1 := by
  unfold HBM_CH_STATUS HBM_THROTTLE THM_CTR HIF_EVENT
  omega

/-- Settles O19: a tick by what it moves, a temperature read channel by channel. -/
theorem rinseAndTemperature : Obligations.RinseAndTemperature := by
  intro s c t
  refine ⟨fun h => ?dram, fun h => ?sram, fun stk k hk => ?stack, fun k => ?module⟩
  case dram =>
    refine runs_of (fun d => rinseTick d c true ⟨[], []⟩) rfl ?_
    simp only [rinseTick_cell h]
    exact ⟨rfl, rfl, rinseTick_frame h⟩
  case sram =>
    refine runs_of (fun d => rinseTick d c false ⟨[], []⟩) rfl ?_
    simp only [rinseTick_cell h]
    exact ⟨rfl, rfl, rinseTick_frame h⟩
  case stack =>
    refine runs_of (fun d => hbmTempRead d stk t) rfl ?_
    have hch : ∀ j, j < 32 → 32 * stk.val + j < 192 := fun j hj => by have := stk.isLt; omega
    have htemp := foldl_range_at (hbmTempStep t (32 * stk.val)) (fun k d => fget d (HBM_CH_STATUS_TEMP (32 * stk.val + k))) (fun _ => min t 255) 32
      (fun d j k _ hk hjk => hbmTempStep_ne _ _ _ rfl (chField_hbm (hch k hk)).1 hjk) (fun d k hk => (hbmTempStep_at t _ d (hch k hk)).1) s.dev k hk
    have hrefresh := foldl_range_at (hbmTempStep t (32 * stk.val)) (fun k d => fget d (HBM_CH_STATUS_REFRESH (32 * stk.val + k)))
      (fun v => hbmStep v t) 32 (fun d j k _ hk hjk => hbmTempStep_ne _ _ _ rfl (chField_hbm (hch k hk)).2 hjk)
      (fun d k hk => (hbmTempStep_at t _ d (hch k hk)).2) s.dev k hk
    obtain ⟨h1, h2, h3, h4⟩ := hbmChStatus_apart (hch k hk)
    simp only [hbmTempRead_eq]
    refine ⟨(hbmThrottled_fget _ _ _ h1 h2 h3 h4).trans htemp, (hbmThrottled_fget _ _ _ h1 h2 h3 h4).trans hrefresh, memSame_of ?_⟩
    rw [hbmThrottled_mem]
    refine foldl_keeps Dev.mem _ (fun d j => ?_) _ _
    rw [hbmTempStep, hbmSettle_mem, fset_mem, fset_mem]
  case module =>
    refine runs_of (fun d => ddrTempRead d k t) rfl ?_
    obtain ⟨ht, hr⟩ := chField_ddr k.isLt
    have htg : DDR_CH_STATUS k ≠ DDR_TG_RES k := by unfold DDR_CH_STATUS DDR_TG_RES; omega
    simp only [ddrTempRead, chTemp, chRefresh, if_true]
    refine ⟨?_, ?_, memSame_of ?_⟩
    · rw [ddrSettle_fget _ _ ht htg, fget_fset_skip _ _ _ _ (by dsimp only [DDR_CH_STATUS_REFRESH]; omega)
        (by dsimp only [DDR_CH_STATUS_REFRESH, DDR_CH_STATUS_TEMP]; omega), fget_fset _ _ _ (by dsimp only [DDR_CH_STATUS_TEMP]; omega)]
      exact Nat.mod_eq_of_lt (by dsimp only [DDR_CH_STATUS_TEMP]; omega)
    · rw [ddrSettle_fget _ _ hr htg, fget_fset _ _ _ (by dsimp only [DDR_CH_STATUS_REFRESH]; omega),
        fget_fset_skip _ _ _ _ (by dsimp only [DDR_CH_STATUS_TEMP]; omega) (by dsimp only [DDR_CH_STATUS_REFRESH, DDR_CH_STATUS_TEMP]; omega)]
      exact Nat.mod_eq_of_lt (ddrStep_lt _ _)
    · rw [ddrSettle_mem, fset_mem, fset_mem]

end Sys2Proof.Machine
end

section
/-! PROOF. O31, O32: the messages of a collective and of a matrix chain. -/
namespace Sys2Proof.Machine

/-! ## Taking a collective message -/

/-- A collective message that is taken changes the waiting messages alone. -/
theorem takeColl_dev {d d0 : Dev} {k : CollKind} {x : CollMsg × GroupDef × Layout} (h : takeColl d k = (d0, some x)) : ∃ q, d0 = { d with inbox := q } := by
  unfold takeColl at h
  split at h
  · simp at h
  · next m d1 htake =>
    have hd1 := takeMsg_dev htake
    split at h
    · split at h
      · simp at h
      · split_ifs at h
        · simp at h
        · simp only [Prod.mk.injEq] at h
          exact ⟨_, h.1 ▸ hd1⟩
    · simp at h

section
variable {d d0 : Dev} {k : CollKind} {x : CollMsg × GroupDef × Layout} (h : takeColl d k = (d0, some x))
include h

theorem takeColl_mem : d0.mem = d.mem := by obtain ⟨q, rfl⟩ := takeColl_dev h; rfl
theorem takeColl_regs : d0.regs = d.regs := by obtain ⟨q, rfl⟩ := takeColl_dev h; rfl
theorem takeColl_cells : d0.cells = d.cells := by obtain ⟨q, rfl⟩ := takeColl_dev h; rfl

end

/-! ## The state of a collective under way -/

theorem findInst_of_msgInst {d : Dev} {c : CollMsg} {i : CollInst} (h : msgInst d c = some i) : findInst d c.slot c.rank = some i := by
  unfold msgInst at h
  cases hf : findInst d c.slot c.rank with
  | none => simp [hf] at h
  | some j =>
    simp only [hf, Option.bind_some] at h
    split_ifs at h
    exact h

/-- The waits of a collective after a change of it. -/
def instRenewed (d : Dev) (slot : Nat) (heard : List Nat) (f : CollInst → CollInst) (i : CollInst) : CollInst :=
  { f i with waits := renewWaits d.now (match slotSetup d slot with | some (s, _, l) => instAwaits s l (f i) | none => []) heard i.waits }

/-- A collective that has changed is found with its change. -/
theorem findInst_modInst {d : Dev} {slot rank : Nat} {heard : List Nat} {f : CollInst → CollInst} {i : CollInst} (hs : ∀ i, (f i).slot = i.slot)
    (hr : ∀ i, (f i).rank = i.rank) (h : findInst d slot rank = some i) :
    findInst (modInst d slot rank heard f) slot rank = some (instRenewed d slot heard f i) := by
  have hi : (i.slot == slot && i.rank == rank) = true :=
    List.find?_some (p := fun i : CollInst => i.slot == slot && i.rank == rank) h
  rw [findInst, modInst, List.find?_map]
  have hp : ((fun i : CollInst => i.slot == slot && i.rank == rank) ∘ fun i => if i.slot == slot && i.rank == rank then
      instRenewed d slot heard f i else i) = fun i => i.slot == slot && i.rank == rank := by
    funext j
    simp only [Function.comp]
    split_ifs with hj
    · simp [instRenewed, hs, hr]
    · rfl
  rw [findInst] at h
  exact (congrArg _ ((congrArg (fun p => List.find? p d.clv.insts) hp).trans h)).trans (congrArg some (if_pos hi))

theorem modInst_mem (d : Dev) (slot rank : Nat) (heard : List Nat) (f : CollInst → CollInst) : (modInst d slot rank heard f).mem = d.mem := (rfl)
theorem modInst_regs (d : Dev) (slot rank : Nat) (heard : List Nat) (f : CollInst → CollInst) : (modInst d slot rank heard f).regs = d.regs := (rfl)
theorem modInst_cells (d : Dev) (slot rank : Nat) (heard : List Nat) (f : CollInst → CollInst) : (modInst d slot rank heard f).cells = d.cells := (rfl)

/-- Settles O31: each message at its member, by the equation of its meaning. -/
theorem collectiveMessages : Obligations.CollectiveMessages := by
  intro s d0 c g gs l ls i sd hslot hinst hsetup
  have hfind := findInst_of_msgInst hinst
  refine ⟨fun e htake he hheld => ?data, fun htake => ?result, fun e htake he => ?credit, fun p htake hp hrank hack => ?ack, fun htake => ?commit,
    fun htake => ?abort, fun htake => ?fail⟩
  case data =>
    refine runs_of (fun d => clvData d) rfl ?_
    simp only [clvData]
    erw [htake]
    simp only [hinst, hsetup, he, keepChunk]
    refine ⟨⟨_, findInst_modInst (fun i => ?_) (fun i => ?_) hfind, ?_, ?_, ?_⟩, memSame_of ?_, regsBut_of _ ?_, ?_⟩
    · split_ifs <;> rfl
    · split_ifs <;> rfl
    · simp [instRenewed, hheld]
    · simp [instRenewed, hheld]
    · simp [instRenewed, hheld]
    · rw [modInst_mem, takeColl_mem htake]
    · rw [modInst_regs, takeColl_regs htake]
    · rw [modInst_cells, takeColl_cells htake]
  case result =>
    intro e hedge
    refine runs_of (fun d => clvResult d) rfl ?_
    simp only [clvResult]
    erw [htake]
    simp only [hinst, hsetup]
    exact if_pos hedge
  case credit =>
    refine runs_of (fun d => clvCredit d) rfl ?_
    simp only [clvCredit]
    erw [htake]
    simp only [hinst, hsetup, he]
  case ack =>
    refine runs_of (fun d => clvAck d) rfl ?_
    have hack' : i.acks.contains c.sender = false := by simpa using hack
    simp only [clvAck]
    erw [htake]
    simp only [hinst, hp, hrank, if_false]
    refine ⟨⟨_, findInst_modInst (fun _ => rfl) (fun _ => rfl) hfind, ?_, rfl⟩, memSame_of ?_, regsBut_of _ ?_, ?_⟩
    · simp only [instRenewed, hack', Bool.false_eq_true, if_false]
    · rw [modInst_mem, takeColl_mem htake]
    · rw [modInst_regs, takeColl_regs htake]
    · rw [modInst_cells, takeColl_cells htake]
  case commit =>
    refine runs_of (fun d => clvCommit d) rfl ?_
    simp only [clvCommit]
    erw [htake]
    simp only [hinst]
  case abort =>
    refine runs_of (fun d => clvAbort d) rfl ?_
    simp only [clvAbort]
    erw [htake]
    simp only [hinst, hslot, if_false]
  case fail =>
    refine runs_of (fun d => clvFail d) rfl ?_
    simp only [clvFail]
    erw [htake]
    simp only [hinst, hslot, if_false]

/-- Settles O32: each message of a chain at its part, by the equation of its meaning. -/
theorem chainMessages : Obligations.ChainMessages := by
  intro s d0 c g l ch
  refine ⟨fun htake hch => ⟨fun hpass => ?postOther, fun hpass => ?post⟩, fun p ch' htake hch hp hpass hposted => ?tile, fun htake => ?done,
    fun htake => ?rerunLate, fun e htake => ?rerun, fun hslot htake hch => ?abort, fun hslot htake hch => ?fail⟩
  case postOther =>
    refine runs_of (fun d => chainPostIn d) rfl ?_
    simp only [chainPostIn]
    erw [htake]
    simp only [hch, ne_eq, hpass, not_false_eq_true, if_true]
  case post =>
    refine runs_of (fun d => chainPostIn d) rfl ?_
    simp only [chainPostIn]
    erw [htake]
    simp only [hch, ne_eq, hpass, not_true_eq_false, if_false]
  case tile =>
    intro d1 hfind
    refine runs_of (fun d => chainTile d) rfl ?_
    have hgo : ¬ (decide (ch.pass ≠ c.pass) || ch.posted.isNone) = true := by
      rw [Option.isNone_eq_false_iff.2 hposted]
      simp [hpass]
    simp only [chainTile]
    erw [htake]
    simp only [hch, hp]
    rw [if_neg hgo]
    exact (congrArg (fun o => match o with | some ch => placeTile d1 ch l | none => d1) hfind)
  case done =>
    intro d1 hch st
    refine runs_of (fun d => chainDone d) rfl ?_
    have hch' : msgChain (chainSpread d0 g l c.rank c) g c = some ch := hch
    simp only [chainDone]
    erw [htake]
    simp only [hch']
    rfl
  case rerunLate =>
    intro d1 hch hpass
    refine runs_of (fun d => chainRerun d) rfl ?_
    have hch' : msgChain (chainSpread d0 g l c.rank c) g c = some ch := hch
    simp only [chainRerun]
    erw [htake]
    simp only [hch', hpass, if_true]
    rfl
  case rerun =>
    intro d1 hch hpass hposted d2 hwait
    refine runs_of (fun d => chainRerun d) rfl ?_
    have hch' : msgChain (chainSpread d0 g l c.rank c) g c = some ch := hch
    simp only [chainRerun]
    erw [htake]
    simp only [hch', hpass, hposted, Bool.false_eq_true, if_false, Option.isSome_none]
    exact congrArg (fun o => match o with
      | some e => modCell d2 ch.cell.val (fun x => { x with redo := x.redo ++
          [{ e with cmd := { e.cmd with anchor := .explicit, anchorV := ofSigned 64 c.value } }] })
      | none => d2) hwait
  case abort =>
    refine runs_of (fun d => clvAbort d) rfl ?_
    simp only [clvAbort]
    erw [htake]
    simp only [hslot, if_true, hch]
  case fail =>
    refine runs_of (fun d => clvFail d) rfl ?_
    simp only [clvFail]
    erw [htake]
    simp only [hslot, if_true, hch]

end Sys2Proof.Machine
end

section
/-! PROOF. O38: the counter clear registers. -/
namespace Sys2Proof.Machine

theorem OnlyRegs.trans {d d₁ d₂ : Dev} (h : OnlyRegs d d₁) (h' : OnlyRegs d₁ d₂) : OnlyRegs d d₂ := by
  unfold OnlyRegs at h h' ⊢
  generalize d₁.regs = r at h
  subst h
  exact h'

/-- The registers `os` made 0, in their order: what a counter clear does. -/
def zeroed (d : Dev) (os : List Nat) : Dev := os.foldl (fun d o => rset d o 0) d

theorem zeroed_cons (d : Dev) (o : Nat) (os : List Nat) : zeroed d (o :: os) = zeroed (rset d o 0) os := (rfl)

theorem zeroed_regsBut (os : List Nat) : ∀ {ps : List Nat} {d d₁ : Dev}, RegsBut ps d d₁ → os ⊆ ps → RegsBut ps d (zeroed d₁ os) := by
  induction os with
  | nil => exact fun h _ => h
  | cons o os ih => exact fun h hs => ih (h.rset (hs List.mem_cons_self) 0) (fun x hx => hs (List.mem_cons_of_mem o hx))

theorem zeroed_onlyRegs (os : List Nat) : ∀ {d d₁ : Dev}, OnlyRegs d d₁ → OnlyRegs d (zeroed d₁ os) := by
  induction os with
  | nil => exact fun h => h
  | cons o os ih => exact fun h => ih (h.rset o 0)

theorem rget_zeroed_of_zero (os : List Nat) : ∀ {d : Dev} {o : Nat}, rget d o = 0 → rget (zeroed d os) o = 0 := by
  induction os with
  | nil => exact fun h => h
  | cons p os ih =>
    intro d o h
    refine ih ?_
    rw [rget_rset]
    split
    · rfl
    · exact h

theorem rget_zeroed (os : List Nat) : ∀ (d : Dev), ∀ o ∈ os, rget (zeroed d os) o = 0 := by
  induction os with
  | nil => intro d o ho; cases ho
  | cons p os ih =>
    intro d o ho
    rcases List.mem_cons.mp ho with rfl | ho
    · exact rget_zeroed_of_zero os (rget_rset_same d o 0)
    · exact ih _ o ho

/-- A clear of the registers `os` makes them 0 and changes nothing else. -/
theorem zeroed_spec (d : Dev) (os : List Nat) :
    (∀ o ∈ os, rget (zeroed d os) o = 0) ∧ RegsBut os d (zeroed d os) ∧ OnlyRegs d (zeroed d os) :=
  ⟨rget_zeroed os d, zeroed_regsBut os (RegsBut.refl os d) (List.Subset.refl os), zeroed_onlyRegs os (OnlyRegs.refl d)⟩

theorem zeroed_append (d : Dev) (os ps : List Nat) : zeroed d (os ++ ps) = zeroed (zeroed d os) ps := List.foldl_append

theorem zeroed_map (d : Dev) (f : Nat → Nat) (l : List Nat) : zeroed d (l.map f) = l.foldl (fun d k => rset d (f k) 0) d := List.foldl_map

theorem zeroed_flatMap (d : Dev) (f : Nat → List Nat) (l : List Nat) : zeroed d (l.flatMap f) = l.foldl (fun d k => zeroed d (f k)) d :=
  List.foldl_flatMap ..

/-! ## Each register as a clear -/

theorem trfCtrClr_eq (d : Dev) (v : Word) :
    trfCtrClr d v = if v.toNat % 2 = 0 then d else zeroed d (TRF_CTR :: (List.range 12).flatMap (fun k => [TRF_PORT_LINK k, TRF_PORT_FEC k])) := by
  rw [zeroed_cons, zeroed_flatMap]
  rfl

theorem clvCtrClr_eq (d : Dev) (v : Word) :
    clvCtrClr d v = if v.toNat % 2 = 0 then d else
      zeroed d (CLV_CTR :: (List.range 64).map CLV_SS_CTR ++ (List.range 12).flatMap (fun g => (List.range 10).map (CLV_GRP_DIG g))) := by
  rw [zeroed_append, zeroed_cons, zeroed_map, zeroed_flatMap]
  simp only [zeroed_map]
  rfl

theorem slcCtrClr_eq (d : Dev) (v : Word) : slcCtrClr d v = if v.toNat.testBit 0 then zeroed d ((List.range 46).map SLC_CTR) else d := by
  rw [zeroed_map]
  rfl

/-- A clear register that clears `os` when CLEAR is set, and does nothing else. -/
theorem clears_of {i : Instr} {s : State} {v : Word} {os : List Nat} (f : Dev → Dev) (h : exec i s = run s f)
    (h1 : v.toNat % 2 = 1 → f s.dev = zeroed s.dev os) (h0 : v.toNat % 2 = 0 → f s.dev = s.dev) :
    (v.toNat % 2 = 1 → Runs i s (fun d => (∀ o ∈ os, rget d o = 0) ∧ RegsBut os s.dev d ∧ OnlyRegs s.dev d)) ∧
    (v.toNat % 2 = 0 → Runs i s (fun d => d = s.dev)) := by
  refine ⟨fun hv => runs_of f h ?_, fun hv => runs_of f h (h0 hv)⟩
  rw [h1 hv]
  exact zeroed_spec s.dev os

theorem testBit_zero_of_odd {n : Nat} (h : n % 2 = 1) : n.testBit 0 = true := by simp [Nat.testBit_zero, h]

theorem testBit_zero_of_even {n : Nat} (h : n % 2 = 0) : ¬ n.testBit 0 = true := by simp [Nat.testBit_zero, h]

/-! ## The registers with a field among others, or with the misses of the predictor -/

/-- A run of field writes of 0, each the whole low half of its own register. -/
theorem foldl_fset_spec (f : Nat → Fld) (hf : ∀ e, (f e).lo + (f e).wid ≤ 64) (hne : ∀ a b, a ≠ b → (f a).off ≠ (f b).off) (n : Nat) :
    ∀ d : Dev, let d' := (List.range n).foldl (fun d e => fset d (f e) 0) d
      (∀ e, e < n → fget d' (f e) = 0) ∧ RegsBut ((List.range n).map (fun e => (f e).off)) d d' ∧ OnlyRegs d d' := by
  induction n with
  | zero => exact fun d => ⟨fun e he => absurd he (Nat.not_lt_zero e), RegsBut.refl _ d, OnlyRegs.refl d⟩
  | succ n ih =>
    intro d
    obtain ⟨hz, hr, ho⟩ := ih d
    simp only [List.range_succ, List.foldl_append, List.foldl_cons, List.foldl_nil, List.map_append, List.map_cons, List.map_nil]
    refine ⟨fun e he => ?_, ?_, ho.fset _ _⟩
    · by_cases hen : e = n
      · subst hen
        rw [fget_fset _ _ _ (hf e)]
        simp
      · rw [fget_fset_ne _ _ _ _ (hne e n hen)]
        exact hz e (by omega)
    · exact (hr.mono (List.subset_append_left _ _)).fset _ (by simp) 0

theorem mtxCtrClr_spec (d : Dev) (c : CellId) (v : Word) (h : v.toNat % 2 = 1) :
    rget (mtxCtrClr d c v) (MTX_REPEAT c) = 0 ∧ rget (mtxCtrClr d c v) (MTX_SKIP c) = 0 ∧
      (∀ e, e < 64 → fget (mtxCtrClr d c v) (MTX_PRED_MISSES c e) = 0) ∧
      RegsBut (MTX_REPEAT c :: MTX_SKIP c :: (List.range 64).map (fun e => (MTX_PRED_MISSES c e).off)) d (mtxCtrClr d c v) ∧
      OnlyRegs d (mtxCtrClr d c v) := by
  obtain ⟨d1, hd1⟩ : ∃ d1, d1 = zeroed d [MTX_REPEAT c, MTX_SKIP c] := ⟨_, rfl⟩
  have he : mtxCtrClr d c v = (List.range 64).foldl (fun d e => fset d (MTX_PRED_MISSES c e) 0) d1 := by
    rw [hd1]
    exact if_pos h
  obtain ⟨hz, hr, ho⟩ := foldl_fset_spec (fun e => MTX_PRED_MISSES c e) (fun e => by dsimp only [MTX_PRED_MISSES]; omega)
    (fun a b hab => by dsimp only [MTX_PRED_MISSES, MTX_PRED]; omega) 64 d1
  have hout : ∀ o, o < 0x3000018 + 0x400 * c.val → o ∉ (List.range 64).map (fun e => (MTX_PRED_MISSES c e).off) := by
    intro o ho' hm
    obtain ⟨e, -, rfl⟩ := List.mem_map.mp hm
    dsimp only [MTX_PRED_MISSES, MTX_PRED] at ho'
    omega
  have h1 : RegsBut [MTX_REPEAT c, MTX_SKIP c] d d1 := hd1 ▸ (zeroed_spec d _).2.1
  rw [he]
  refine ⟨?_, ?_, hz, ?_, ?_⟩
  · rw [hr _ (hout _ (by dsimp only [MTX_REPEAT]; omega)), hd1]
    exact rget_zeroed _ d _ (by simp)
  · rw [hr _ (hout _ (by dsimp only [MTX_SKIP]; omega)), hd1]
    exact rget_zeroed _ d _ (by simp)
  · exact (h1.mono (by simp)).trans (hr.mono (fun x hx => by simp only [List.mem_cons]; exact .inr (.inr hx)))
  · exact (hd1 ▸ (zeroed_spec d _).2.2 : OnlyRegs d d1).trans ho

theorem colCtrClr_spec (d : Dev) (c : CellId) (v : Word) (h : v.toNat % 2 = 1) :
    rget (colCtrClr d c v) (COL_ECC c) = 0 ∧ rget (colCtrClr d c v) (COL_SP_CONFLICT c) = 0 ∧ fget (colCtrClr d c v) (COL_STATUS_OWN_DENY c) = 0 ∧
      RegsBut [COL_ECC c, COL_SP_CONFLICT c, (COL_STATUS_OWN_DENY c).off] d (colCtrClr d c v) ∧ OnlyRegs d (colCtrClr d c v) := by
  obtain ⟨d1, hd1⟩ : ∃ d1, d1 = zeroed d [COL_ECC c, COL_SP_CONFLICT c] := ⟨_, rfl⟩
  have he : colCtrClr d c v = fset d1 (COL_STATUS_OWN_DENY c) 0 := by
    rw [hd1]
    exact if_pos h
  obtain ⟨hz, hr, ho⟩ := hd1 ▸ zeroed_spec d [COL_ECC c, COL_SP_CONFLICT c]
  rw [he]
  refine ⟨?_, ?_, ?_, (hr.mono (by simp)).fset _ (by simp) 0, ho.fset _ _⟩
  · rw [rget_fset_ne _ _ _ (by dsimp only [COL_STATUS_OWN_DENY, COL_STATUS, COL_ECC]; omega)]
    exact hz _ (by simp)
  · rw [rget_fset_ne _ _ _ (by dsimp only [COL_STATUS_OWN_DENY, COL_STATUS, COL_SP_CONFLICT]; omega)]
    exact hz _ (by simp)
  · rw [fget_fset _ _ _ (by dsimp only [COL_STATUS_OWN_DENY]; omega)]
    simp

theorem farCtrClr_spec (d : Dev) (v : Word) (h : v.toNat % 2 = 1) :
    (∀ o ∈ [FAR_CTR, FAR_PF, FAR_PF_DROP, FAR_ACQ, XLT_CTR], rget (farCtrClr d v) o = 0) ∧ fget (farCtrClr d v) FAR_STATUS_MISS_HWM = 0 ∧
      RegsBut [FAR_CTR, FAR_PF, FAR_PF_DROP, FAR_ACQ, XLT_CTR, FAR_STATUS_MISS_HWM.off] d (farCtrClr d v) ∧ OnlyRegs d (farCtrClr d v) := by
  obtain ⟨d1, hd1⟩ : ∃ d1, d1 = zeroed d [FAR_CTR, FAR_PF, FAR_PF_DROP, FAR_ACQ, XLT_CTR] := ⟨_, rfl⟩
  have he : farCtrClr d v = fset d1 FAR_STATUS_MISS_HWM 0 := by
    rw [hd1]
    exact if_pos h
  obtain ⟨hz, hr, ho⟩ := hd1 ▸ zeroed_spec d [FAR_CTR, FAR_PF, FAR_PF_DROP, FAR_ACQ, XLT_CTR]
  have hout : FAR_STATUS_MISS_HWM.off ∉ [FAR_CTR, FAR_PF, FAR_PF_DROP, FAR_ACQ, XLT_CTR] := by decide
  rw [he]
  refine ⟨fun o hm => ?_, ?_, (hr.mono (by simp)).fset _ (by simp) 0, ho.fset _ _⟩
  · rw [rget_fset_ne _ _ _ (ne_of_mem_of_not_mem hm hout)]
    exact hz o hm
  · rw [fget_fset _ _ _ (by decide)]
    simp

/-- Settles O38: each clear register writes 0 to its own counters, one after another, or does nothing. -/
theorem counterClears : Obligations.CounterClears := by
  intro s c p v clears
  have odd := fun h : v.toNat % 2 = 1 => testBit_zero_of_odd h
  have even := fun h : v.toNat % 2 = 0 => testBit_zero_of_even h
  refine ⟨?_, ?_, ?_, ?_, ?_, ?_, ?_, ?_, fun hv => ⟨?_, ?_, ?_⟩, fun hv => ⟨?_, ?_, ?_⟩⟩
  · exact clears_of (fun d => eleCtrClr d c v) rfl (fun h => if_pos h) (fun h => if_neg (by omega))
  · exact clears_of (fun d => tidCtrClr d v) rfl (fun h => if_pos (odd h)) (fun h => if_neg (even h))
  · exact clears_of (fun d => trfCtrClr d v) rfl (fun h => (trfCtrClr_eq s.dev v).trans (if_neg (by omega)))
      (fun h => (trfCtrClr_eq s.dev v).trans (if_pos h))
  · exact clears_of (fun d => clvCtrClr d v) rfl (fun h => (clvCtrClr_eq s.dev v).trans (if_neg (by omega)))
      (fun h => (clvCtrClr_eq s.dev v).trans (if_pos h))
  · exact clears_of (fun d => slcCtrClr d v) rfl (fun h => (slcCtrClr_eq s.dev v).trans (if_pos (odd h)))
      (fun h => (slcCtrClr_eq s.dev v).trans (if_neg (even h)))
  · exact clears_of (fun d => hifCtrClr d p v) rfl (fun h => if_pos (odd h)) (fun h => if_neg (even h))
  · exact clears_of (fun d => pwrCtrClr d v) rfl (fun h => if_pos (odd h)) (fun h => if_neg (even h))
  · exact clears_of (fun d => thmCtrClr d v) rfl (fun h => if_pos (odd h)) (fun h => if_neg (even h))
  · exact runs_of (fun d => mtxCtrClr d c v) rfl (mtxCtrClr_spec s.dev c v hv)
  · exact runs_of (fun d => colCtrClr d c v) rfl (colCtrClr_spec s.dev c v hv)
  · exact runs_of (fun d => farCtrClr d v) rfl (farCtrClr_spec s.dev v hv)
  · exact runs_of (fun d => mtxCtrClr d c v) rfl (if_neg (by omega))
  · exact runs_of (fun d => colCtrClr d c v) rfl (if_neg (by omega))
  · exact runs_of (fun d => farCtrClr d v) rfl (if_neg (by omega))

end Sys2Proof.Machine
end

section
/-! PROOF. O35, O36: the file commands of a shard, and the DMA commands. -/
namespace Sys2Proof.Machine

/-! ## The DMA commands -/

/-- The tag that a command of the DMA queue takes. -/
def takenTag (en : DmaEntry) (seq : Nat) : DmaTag :=
  { entry := en, seq := seq, list := [], listN := 0, todo := [], cur := none, got := [], gotBad := [], writing := false, openReq := 0, held := 0,
    status := .ok }

/-- The device after the oldest DMA command has taken the tag `n`. -/
def tagTaken (d : Dev) (c : CellId) (en : DmaEntry) (rest : List DmaEntry) (n : Nat) : Dev :=
  setCell d c { getCell d c with dq := rest, dmaSeq := ((getCell d c).dmaSeq + 1) % 2 ^ 32,
                                 tags := smSet (fun _ => none) (getCell d c).tags n (some (takenTag en (((getCell d c).dmaSeq + 1) % 2 ^ 32))) }

/-- The transfer of a single command. -/
def singleTransfer (m : DmaCmd Nat) : Transfer :=
  { src := m.src, dst := m.dst, len := m.len, stride := m.stride, cache := m.cache, bad := decide (2 ^ 32 ≤ m.len) }

/-- The lowest free tag of a cell. -/
def freeTag (d : Dev) (c : CellId) : Option Nat :=
  [0, 1, 2, 3, 4, 5, 6, 7].find? (fun n => (smGet (fun _ => (none : Option DmaTag)) (getCell d c).tags n).isNone)

theorem dmaDispatch_start {d : Dev} {c : CellId} {en : DmaEntry} {rest : List DmaEntry} {n : Nat} (hq : (getCell d c).dq = en :: rest)
    (hf : freeTag d c = some n) (hc : cellRuns d c = true) (e : EccHits) :
    dmaDispatch d c e =
      if en.cmd.list then startList (tagTaken d c en rest n) e c n en.cmd else startTransfer (tagTaken d c en rest n) e c n (singleTransfer en.cmd) := by
  rw [freeTag] at hf
  simp only [dmaDispatch, hq, hf, hc, Bool.not_true, if_neg Bool.false_ne_true]
  rfl

theorem dmaDispatch_empty {d : Dev} {c : CellId} (hq : (getCell d c).dq = []) (e : EccHits) : dmaDispatch d c e = d := by
  simp only [dmaDispatch, hq]

theorem dmaDispatch_noTag {d : Dev} {c : CellId} (hf : freeTag d c = none) (e : EccHits) : dmaDispatch d c e = d := by
  rw [freeTag] at hf
  simp only [dmaDispatch, hf]
  cases (getCell d c).dq <;> rfl

/-- With every tag in use there is no free one. -/
theorem freeTag_none {d : Dev} {c : CellId} (h : ∀ n, n < 8 → (dmaTag d c n).isSome) : freeTag d c = none := by
  refine List.find?_eq_none.mpr (fun n hn => ?_)
  have hlt : n < 8 := by simp only [List.mem_cons, List.not_mem_nil, or_false] at hn; omega
  have hs := h n hlt
  rw [dmaTag] at hs
  cases hg : smGet (fun _ => (none : Option DmaTag)) (getCell d c).tags n with
  | none => rw [hg] at hs; cases hs
  | some t => simp

/-- A tag with its list parsed, if it has just been read. -/
def parsedTag (tg : DmaTag) : DmaTag :=
  if 0 < tg.listN then { tg with todo := (List.range tg.listN).map (parseDesc tg.list), listN := 0, list := [] } else tg

/-- A tag that waits for its next descriptor starts it. -/
theorem dmaDescriptor_start {d : Dev} {c : CellId} {n : Fin 8} {tg : DmaTag} (ht : dmaTag d c n = some tg) (hcur : tg.cur = none) (hreq : tg.openReq = 0)
    (hst : tg.status = .ok) (hc : cellRuns d c = true) {t : Transfer} {rest : List Transfer} (htd : (parsedTag tg).todo = t :: rest) (e : EccHits) :
    dmaDescriptor d c n e = startTransfer (modTag d c n (fun _ => { parsedTag tg with todo := rest })) e c n t := by
  unfold dmaDescriptor
  rw [ht]
  refine (if_neg (by simp [hcur, hreq, hst, hc])).trans ?_
  exact congrArg (fun l => match l with
    | [] => d
    | t :: rest => startTransfer (modTag d c n (fun _ => { parsedTag tg with todo := rest })) e c n t) htd

/-- The parsed list, its first descriptor apart. -/
theorem parsed_cons {n : Nat} (h : 0 < n) (f : Nat → Transfer) : (List.range n).map f = f 0 :: (List.range (n - 1)).map (fun i => f (i + 1)) := by
  obtain ⟨m, rfl⟩ := Nat.exists_eq_add_of_lt h
  simp [List.range_succ_eq_map, Function.comp_def]

/-- Settles O36: the front of the DMA queue takes the lowest free tag, and a tag takes its transfers in the order of its list. -/
theorem dmaCommands : Obligations.DmaCommands := by
  intro s c e
  refine ⟨fun en rest n hq hf hc d1 seq hseq hd1 => ⟨fun hl => ?_, fun hl => ?_⟩, fun hno => ?_,
    fun n tg t rest ht hcur hreq hst hc => ⟨fun h0 htd => ?_, fun hl => ?_⟩⟩
  · subst hseq hd1
    refine runs_of (fun d => dmaDispatch d c e) rfl ?_
    exact (dmaDispatch_start hq hf hc e).trans (if_pos hl)
  · subst hseq hd1
    refine runs_of (fun d => dmaDispatch d c e) rfl ?_
    exact (dmaDispatch_start hq hf hc e).trans (if_neg (by simp [hl]))
  · refine runs_of (fun d => dmaDispatch d c e) rfl ?_
    rcases hno with hq | hall
    · exact dmaDispatch_empty hq e
    · exact dmaDispatch_noTag (freeTag_none hall) e
  · refine runs_of (fun d => dmaDescriptor d c n e) rfl ?_
    have hp : parsedTag tg = tg := if_neg (by omega)
    rw [dmaDescriptor_start ht hcur hreq hst hc (by rw [hp, htd]), hp]
  · refine runs_of (fun d => dmaDescriptor d c n e) rfl ?_
    have hp : parsedTag tg = { tg with todo := (List.range tg.listN).map (parseDesc tg.list), listN := 0, list := [] } := if_pos hl
    rw [dmaDescriptor_start ht hcur hreq hst hc (by rw [hp]; exact parsed_cons hl _), hp]

/-! ## The file commands -/

/-- The STATE_EXPORT of a ring that has begun, and waits for its second step. -/
def begunExport (d : Dev) (k : Nat) : Option HostCmd :=
  (getRing d k).cmds.find? (fun c => c.started && !c.ended && c.final.isNone && (match c.op with | .stateExport _ _ _ => true | _ => false))

section
variable {d d1 : Dev} {k : Fin 32} {e : EccHits} {cmd : HostCmd} {set : Fin 64} {addr sh : Nat} {sd : SetDef} {g : GroupDef} {l : Layout}
  (hset : setSetup d set = some (sd, g, l))
include hset

/-- The first step of a STATE_EXPORT that has copied its shard. -/
theorem stateExport_copied (hb : begunExport d k = none) (hn : nextCmd d k = some cmd) (hop : cmd.op = .stateExport set sh addr) (hsh : sh < layoutSize l)
    (hs : cmd.started = false) {n v sum : Nat} (hc : exportCopy d e sd l sh addr = (d1, .ok, n, v, sum)) :
    stateExport d k e = modCmd d1 k cmd.seq (fun c => { c with started := true, result := n, detail := v, spans := [(addr + 104, sum)] }) := by
  simp only [stateExport]
  generalize hx : List.find? _ (getRing d k).cmds = begun
  obtain rfl : begun = none := hx.symm.trans hb
  simp only [Option.none_or, hn, hop, hset, if_neg (not_le.mpr hsh), hs, Bool.not_false, if_true, hc]

/-- The second step of a STATE_EXPORT whose shard has been published again since. -/
theorem stateExport_republished (hb : begunExport d k = some cmd) (hop : cmd.op = .stateExport set sh addr) (hsh : sh < layoutSize l)
    (hs : cmd.started = true) {v : Nat} (hp : pubVersion d e sd l sh = (d1, .ok, v)) (hv : v ≠ cmd.detail) :
    stateExport d k e = endFileOp d1 k cmd.seq set .aborted 6 sh cmd.result := by
  simp only [stateExport]
  generalize hx : List.find? _ (getRing d k).cmds = begun
  obtain rfl : begun = some cmd := hx.symm.trans hb
  simp only [Option.some_or, hop, hset, if_neg (not_le.mpr hsh), hs, Bool.not_true, if_neg Bool.false_ne_true, hp, ne_eq, not_true_eq_false, if_false, if_neg hv]

/-- The second step of a STATE_EXPORT: the digest goes behind the copy. -/
theorem stateExport_digest (hb : begunExport d k = some cmd) (hop : cmd.op = .stateExport set sh addr) (hsh : sh < layoutSize l)
    (hs : cmd.started = true) {sum : Nat} (hspans : cmd.spans = [(addr + 104, sum)]) (hp : pubVersion d e sd l sh = (d1, .ok, cmd.detail)) {d2 : Dev}
    (hw : engineWrite d1 (setCellOf d1 l) (addr + 104) (leBytes 8 sum) = (d2, .ok)) :
    stateExport d k e = endFileOp d2 k cmd.seq set .ok 0 0 cmd.result := by
  simp only [stateExport]
  generalize hx : List.find? _ (getRing d k).cmds = begun
  obtain rfl : begun = some cmd := hx.symm.trans hb
  simp only [Option.some_or, hop, hset, if_neg (not_le.mpr hsh), hs, Bool.not_true, if_neg Bool.false_ne_true, hp, ne_eq, not_true_eq_false, if_false, if_true,
    hspans, List.foldl_cons, List.foldl_nil, hw]
  rfl

/-- An import whose head does not fit its set. -/
theorem stateImport_badHead (hn : nextCmd d k = some cmd) (hop : cmd.op = .stateImport set addr) {head : List Byte}
    (hr : engineRead d e (setCellOf d l) addr 128 = (d1, .ok, head)) (hh : (fileHead sd head).ok = false) :
    stateImport d k e = endFileOp d1 k cmd.seq set .aborted 5 0 0 := by
  simp only [stateImport, hn, hop, hset, hr, hh]
  rfl

/-- An import whose head fits its set and whose parts have been read and written. -/
theorem stateImport_written (hn : nextCmd d k = some cmd) (hop : cmd.op = .stateImport set addr) {head : List Byte}
    (hr : engineRead d e (setCellOf d l) addr 128 = (d1, .ok, head)) (hh : (fileHead sd head).ok = true) {d2 d4 : Dev} {parts : List (Nat × List Byte)}
    (hp : importParts d1 e (setCellOf d l) sd (fileHead sd head) addr = (d2, .ok, parts)) {ws : List (Nat × List Byte)}
    (hws : ws = importWrites d2 sd l (fileHead sd head) parts) {spans : List (Nat × Nat)} (hspans : spans = ws.map (fun w => (w.1, w.2.length)))
    (hw : writeSpans (modCmd d2 k cmd.seq (fun c => { c with started := true, spans := spans })) (setCellOf d l) ws = (d4, .ok)) :
    stateImport d k e =
      if crc64 (parts.flatMap (fun p => p.2)) = (fileHead sd head).digest then endFileOp d4 k cmd.seq set .ok 0 0 (ws.map (fun w => w.2.length)).sum
      else endFileOp (poisonSpans d4 (setCellOf d l) spans) k cmd.seq set .digestMismatch 1 0 (ws.map (fun w => w.2.length)).sum := by
  subst hws hspans
  simp only [stateImport, hn, hop, hset, hr, hh, hp, hw]
  rfl

end

/-- Settles O35: the steps of a STATE_EXPORT and of a STATE_IMPORT, each along its branch. -/
theorem fileCommands : Obligations.FileCommands := by
  intro s k e cmd set addr sd g l hset begun
  refine ⟨fun sh d1 n v sum hb hn hop hsh hs hc => ?_, fun sh d1 d2 sum v hb hop hsh hs hspans hp => ⟨fun hv => ?_, fun hv hw => ?_⟩,
    fun d1 head hn hop hr => ⟨fun hh => ?_, ?_⟩⟩
  · exact runs_of (fun d => stateExport d k e) rfl (stateExport_copied hset hb hn hop hsh hs hc)
  · exact runs_of (fun d => stateExport d k e) rfl (stateExport_republished hset hb hop hsh hs hp hv)
  · subst hv
    exact runs_of (fun d => stateExport d k e) rfl (stateExport_digest hset hb hop hsh hs hspans hp hw)
  · exact runs_of (fun d => stateImport d k e) rfl (stateImport_badHead hset hn hop hr hh)
  · intro d2 parts d4 hh hp ws spans total hw
    have he := stateImport_written hset hn hop hr hh hp (ws := ws) rfl (spans := spans) rfl hw
    exact ⟨fun hd => runs_of (fun d => stateImport d k e) rfl (he.trans (if_pos hd)),
      fun hd => runs_of (fun d => stateImport d k e) rfl (he.trans (if_neg hd))⟩

end Sys2Proof.Machine
end

section
/-! PROOF. O43, O44: the requests that the keeper serves, and those that it turns away. -/
namespace Sys2Proof.Machine

/-! ## How a request is served -/

/-- The request at the front of a mailbox. -/
def kprReq (m : Fin 3) (bs : List Byte) : KeeperReq := ⟨m, leAt bs 0 2, leAt bs 2 2⟩

/-- The device after the request at the front of mailbox `m` has been taken out. -/
def kprTaken (d : Dev) (m : Fin 3) : Dev := slcRelease (slcTake d (40 + m)) (40 + m) 1

theorem atTime_zero (d : Dev) : atTime d 0 = d := by rw [atTime, Nat.max_zero]

section
variable {d : Dev} {m : Fin 3} {bs : List Byte} {op : Nat} (f : Dev → KeeperReq → List Byte → Dev)

theorem keeperServe_stopped (h : d.kpr.running = false) : keeperServe d m op f = d := if_pos (by simp [h])

theorem keeperServe_empty (h : slcFront d (40 + m) = none) : keeperServe d m op f = d := by
  simp only [keeperServe, h]
  split <;> rfl

variable (hr : d.kpr.running = true) (hf : slcFront d (40 + m) = some bs) (hop : leAt bs 0 2 = op)
include hr hf hop

/-- What the keeper does with a request of the operation that it serves. -/
theorem keeperServe_front : keeperServe d m op f =
    if !opFormed bs then kprRespond (kprTaken d m) (kprReq m bs) .aborted false []
    else if !opAdmits (kprTaken d m) op m then kprRespond (kprTaken d m) (kprReq m bs) .securityDenied false []
    else if lifecycle (kprTaken d m) = 3 && !opRetired op then kprRespond (kprTaken d m) (kprReq m bs) .securityDenied false []
    else if !(fbit (kprTaken d m) KPR_PREC_STATUS_SIG_OK && fbit (kprTaken d m) SEC_STATUS_ID_OK) && !opGuaranteed op then
      kprRespond (kprTaken d m) (kprReq m bs) .notReady false []
    else f (kprTaken d m) (kprReq m bs) bs := by
  have hnot : (decide (1 ≤ leAt bs 0 2 ∧ leAt bs 0 2 ≤ 0x0B) && leAt bs 0 2 != op) = false := by simp [hop]
  simp only [keeperServe, hr, hf, hnot, Bool.not_true, if_neg Bool.false_ne_true]
  rfl

theorem keeperServe_malformed (h : opFormed bs = false) :
    keeperServe d m op f = kprRespond (kprTaken d m) (kprReq m bs) .aborted false [] :=
  (keeperServe_front f hr hf hop).trans (if_pos (by simp [h]))

variable (hformed : opFormed bs = true)
include hformed

theorem keeperServe_unowned (h : opAdmits (kprTaken d m) op m = false) :
    keeperServe d m op f = kprRespond (kprTaken d m) (kprReq m bs) .securityDenied false [] := by
  rw [keeperServe_front f hr hf hop, if_neg (by simp [hformed]), if_pos (by simp [h])]

variable (hadmits : opAdmits (kprTaken d m) op m = true)
include hadmits

theorem keeperServe_retired (h : lifecycle (kprTaken d m) = 3) (hop' : opRetired op = false) :
    keeperServe d m op f = kprRespond (kprTaken d m) (kprReq m bs) .securityDenied false [] := by
  rw [keeperServe_front f hr hf hop, if_neg (by simp [hformed]), if_neg (by simp [hadmits]), if_pos (by simp [h, hop'])]

variable (hlife : lifecycle (kprTaken d m) ≠ 3 ∨ opRetired op = true)
include hlife

theorem keeperServe_unverified (h : fget (kprTaken d m) KPR_PREC_STATUS_SIG_OK = 0 ∨ fget (kprTaken d m) SEC_STATUS_ID_OK = 0)
    (hg : opGuaranteed op = false) : keeperServe d m op f = kprRespond (kprTaken d m) (kprReq m bs) .notReady false [] := by
  have hver : (fbit (kprTaken d m) KPR_PREC_STATUS_SIG_OK && fbit (kprTaken d m) SEC_STATUS_ID_OK) = false := by
    rcases h with h | h <;> simp [fbit, h]
  rw [keeperServe_front f hr hf hop, if_neg (by simp [hformed]), if_neg (by simp [hadmits]),
    if_neg (by rcases hlife with h | h <;> simp [h]), if_pos (by simp [hver, hg])]

/-- A request that nothing turns away has its effect. -/
theorem keeperServe_served (hsig : fget (kprTaken d m) KPR_PREC_STATUS_SIG_OK = 1) (hid : fget (kprTaken d m) SEC_STATUS_ID_OK = 1) :
    keeperServe d m op f = f (kprTaken d m) (kprReq m bs) bs := by
  rw [keeperServe_front f hr hf hop, if_neg (by simp [hformed]), if_neg (by simp [hadmits]),
    if_neg (by rcases hlife with h | h <;> simp [h]), if_neg (by simp [fbit, hsig, hid])]

end

/-! ## The refusals -/

/-- Each keeper operation is served under its own code. -/
theorem keeperOp_served (s : State) (m : Fin 3) (carrier : Option (List Byte)) (eid : Fin 256) (i : Nat × Instr)
    (h : i ∈ [(0x01, Instr.status m), (0x02, .flogDump m), (0x03, .quote m), (0x04, .scopeReset m), (0x05, .powerOff m), (0x06, .powerOn m carrier 0),
      (0x07, .coolantStop m), (0x08, .rackCap m), (0x09, .powerRead m), (0x0A, .setOwner m eid), (0x0B, .tideRole m)]) :
    ∃ f, exec i.2 s = run s (fun d => keeperServe d m i.1 f) := by
  simp only [List.mem_cons, List.not_mem_nil, or_false] at h
  rcases h with rfl | rfl | rfl | rfl | rfl | rfl | rfl | rfl | rfl | rfl | rfl
  case inr.inr.inr.inr.inr.inl =>
    have hexec : exec (.powerOn m carrier 0) s = run s (fun d => keeperPowerOn d m carrier 0) := rfl
    simp only [hexec, keeperPowerOn, atTime_zero]
    exact ⟨_, rfl⟩
  all_goals exact ⟨_, rfl⟩

/-- Settles O44: the refusals are those of the one way in which the keeper serves every operation. -/
theorem keeperRefusals : Obligations.KeeperRefusals := by
  intro s m carrier eid i hi
  obtain ⟨f, hx⟩ := keeperOp_served s m carrier eid i hi
  refine ⟨fun h => runs_of _ hx (keeperServe_stopped f h), fun h => runs_of _ hx (keeperServe_empty f h), fun bs d1 q hr hf hd1 hq hop => ?_⟩
  subst hd1 hq
  refine ⟨fun hfo => ?_, fun hfo had => ?_, fun hfo had => ⟨fun hl hret => ?_, fun hl hv hg => ?_⟩⟩
  · exact runs_of _ hx (keeperServe_malformed f hr hf hop hfo)
  · exact runs_of _ hx (keeperServe_unowned f hr hf hop hfo (hop ▸ had))
  · exact runs_of _ hx (keeperServe_retired f hr hf hop hfo (hop ▸ had) hl (hop ▸ hret))
  · exact runs_of _ hx (keeperServe_unverified f hr hf hop hfo (hop ▸ had) (.inl hl) hv (hop ▸ hg))

/-! ## The operations -/

theorem capClamp_idem (v : Nat) : capClamp (capClamp v) = capClamp v := by
  simp only [capClamp]
  omega

theorem tideRuns_iff (d : Dev) : tideRuns d = true ↔ tideState d = 1 := beq_iff_eq

theorem readCarrier_stop (d : Dev) (c : Option (List Byte)) : (readCarrier d c).kpr.stop = d.kpr.stop := by
  simp only [readCarrier, rset_kpr, fset_kpr]

/-- POWER_ON of a part in Keeper-only whose last stop is not held: it answers NOT_READY, or brings the part up or waits. -/
theorem powerOn_keeperOnly {d d1 d2 : Dev} {q : KeeperReq} {m : Fin 3} {carrier : Option (List Byte)} {bs : List Byte} (hcf : leAt bs 8 1 = 0)
    (hpw : d1.pwr.state = 3) (hst : d1.kpr.stop = none) (hd2 : d2 = readCarrier d1 carrier) (hlast : fget d1 KPR_START_LAST_STOP ≠ 4)
    (served : ∀ f, keeperServe d m 0x06 f = f d1 q bs) :
    keeperPowerOn d m carrier 0 =
      if coolantOk d2 d2.now = false ∨ recordsOk d2 = false then kprRespond d2 q .notReady false []
      else if autoOk (kprRespond { d2 with kpr := { d2.kpr with armed := true } } q .ok false []) then
        coldStart (kprRespond { d2 with kpr := { d2.kpr with armed := true } } q .ok false []) 1
      else noteWaiting (kprRespond { d2 with kpr := { d2.kpr with armed := true } } q .ok false []) := by
  have hs2 : d2.kpr.stop = none := by rw [hd2, readCarrier_stop, hst]
  simp only [keeperPowerOn, atTime_zero]
  refine (served _).trans ?_
  simp [hcf, hpw, hst, hlast, ← hd2, hs2]

/-- Settles O43: a well-formed request that nothing turns away runs its operation. -/
theorem keeperOperations : Obligations.KeeperOperations := by
  intro s m bs d1 q hr hf hfo hd1 hq hsig hid had hlife
  have served : ∀ op f, q.op = op → keeperServe s.dev m op f = f d1 q bs := fun op f hop => by
    subst hd1 hq
    exact keeperServe_served f hr hf hop hfo (hop ▸ had) (hop ▸ hlife) hsig hid
  refine ⟨fun h => ?_, fun h r hfind => ?_, fun h => ?_, fun h hv hst hpw => ?_, fun h => ?_, fun carrier d2 d3 h hcf => ⟨fun hpw hst => ?_, ?_⟩,
    fun h hst hpw => ?_, fun v h hv => ⟨fun ht => ?_, fun ht => ?_⟩, fun h => ?_, fun eid h hp => ?_, fun d2 h hd2 => ?_⟩
  · exact runs_of (fun d => keeperStatus d m) rfl (served _ _ h)
  · refine runs_of (fun d => flogDump d m) rfl ((served _ _ h).trans ?_)
    simp only [hfind]
  · refine runs_of (fun d => keeperQuote d m) rfl ((served _ _ h).trans ?_)
    exact if_neg (by simp [fbit, hid])
  · refine runs_of (fun d => scopeReset d m) rfl ((served _ _ h).trans ?_)
    exact (if_neg (by simp [hv])).trans ((if_neg (by simp [hst])).trans (if_neg (by simp [Nat.not_le.mpr hpw])))
  · exact runs_of (fun d => keeperPowerOff d m) rfl (served _ _ h)
  · refine runs_of (fun d => keeperPowerOn d m carrier 0) rfl ?_
    simp only [keeperPowerOn, atTime_zero]
    refine (served _ _ h).trans ?_
    exact (if_neg (by simp [hcf])).trans (if_pos (by simp [hst, hpw]))
  · intro hpw hst hd2 hlast
    have hon := powerOn_keeperOnly hcf hpw hst hd2 hlast (fun f => served 0x06 f h)
    refine ⟨fun hno => runs_of (fun d => keeperPowerOn d m carrier 0) rfl (hon.trans (if_pos hno)), fun hcool hrec hd3 => ?_⟩
    rw [if_neg (by simp [hcool, hrec]), ← hd3] at hon
    exact ⟨fun ha => runs_of (fun d => keeperPowerOn d m carrier 0) rfl (hon.trans (if_pos ha)),
      fun ha => runs_of (fun d => keeperPowerOn d m carrier 0) rfl (hon.trans (if_neg (by simp [ha])))⟩
  · refine runs_of (fun d => keeperCoolantStop d m) rfl ((served _ _ h).trans ?_)
    simp only [hst, if_neg (Nat.not_le.mpr hpw)]
  · refine runs_of (fun d => keeperRackCap d m) rfl ((served _ _ h).trans ?_)
    subst hv
    exact congrArg (fun d => kprRespond d q .ok false _) (if_pos ((tideRuns_iff d1).mpr ht))
  · refine runs_of (fun d => keeperRackCap d m) rfl ((served _ _ h).trans ?_)
    subst hv
    refine congrArg (fun d => kprRespond d q .ok false _) ((if_neg (fun hr => ht ((tideRuns_iff d1).mp hr))).trans ?_)
    rw [setRackCap, capClamp_idem]
  · exact runs_of (fun d => powerRead d m) rfl (served _ _ h)
  · refine runs_of (fun d => keeperSetOwner d m eid) rfl ?_
    exact ⟨_, _, rfl, (served _ _ h).trans (if_neg (Nat.not_lt.mpr hp))⟩
  · subst hd2
    exact runs_of (fun d => keeperTideRole d m) rfl (served _ _ h)

end Sys2Proof.Machine
end

section
/-! PROOF. O39: the supplies and the straps. -/
namespace Sys2Proof.Machine

/-! ## KPR_START.WAITING -/

/-- What no write of WAITING changes stays. -/
theorem noteWaiting_keeps {α : Type} (get : Dev → α) (hw : ∀ d v, get (fset d KPR_START_WAITING v) = get d) (d : Dev) : get (noteWaiting d) = get d := by
  unfold noteWaiting
  split_ifs
  · exact hw d _
  · exact hw d _
  · rfl

theorem noteWaiting_kpr (d : Dev) : (noteWaiting d).kpr = d.kpr := noteWaiting_keeps Dev.kpr (fun _ _ => fset_kpr _ _ _) d
theorem noteWaiting_pwr (d : Dev) : (noteWaiting d).pwr = d.pwr := noteWaiting_keeps Dev.pwr (fun _ _ => fset_pwr _ _ _) d
theorem noteWaiting_mem (d : Dev) : (noteWaiting d).mem = d.mem := noteWaiting_keeps Dev.mem (fun _ _ => fset_mem _ _ _) d
theorem noteWaiting_rget (d : Dev) {o : Nat} (h : o ≠ KPR_START) : rget (noteWaiting d) o = rget d o :=
  noteWaiting_keeps (fun d => rget d o) (fun _ _ => rget_fset_ne _ _ _ h) d

/-! ## The stop by hardware -/

theorem stopLatch_vaux (d : Dev) (last : Nat) : (stopLatch d last).kpr.vaux = d.kpr.vaux ∧ (stopLatch d last).kpr.vin = d.kpr.vin := by
  have keeps : ∀ {α : Type} (get : KeeperState → α), (∀ (k : KeeperState) q, get { k with outbox := q } = get k) →
      (∀ (k : KeeperState) r, get { k with resets := r } = get k) → get (stopRegs (endResets (endDebug d))).kpr = get d.kpr := fun get ho hr => by
    rw [stopRegs, rset_kpr, rset_kpr, endResets_kpr get ho hr, endDebug_kpr]
  rw [stopLatch_eq, withKpr_kpr]
  exact ⟨keeps KeeperState.vaux (fun _ _ => rfl) (fun _ _ => rfl), keeps KeeperState.vin (fun _ _ => rfl) (fun _ _ => rfl)⟩

theorem endDebug_mem (d : Dev) : (endDebug d).mem = d.mem := by
  unfold endDebug
  split_ifs
  · simp only [lifecycleChange, endIde]
    rw [raiseBoth_mem, fset_mem, fset_mem, endSessions_keeps Dev.mem (fun _ _ => rset_mem _ _ _) (fun _ _ => rfl), rset_mem, fset_mem]
  · rfl

theorem endResets_mem (d : Dev) : (endResets d).mem = d.mem := by
  have hr : ∀ (l : List KeeperReq) (d : Dev), (l.foldl (fun d q => kprRespond d q .resetAborted false []) d).mem = d.mem := fun l d =>
    foldl_keeps Dev.mem _ (fun d q => keptBySluices_mem.kprRespond (fun _ _ => rfl) d q _ _ _) l d
  simp only [endResets]
  rw [hr, noteResets_keeps Dev.mem (fun _ _ _ _ => fset_mem _ _ _)]

theorem stopLatch_mem (d : Dev) (last : Nat) : (stopLatch d last).mem = d.mem := by
  rw [stopLatch_eq, withKpr_mem, stopRegs, rset_mem, rset_mem, endResets_mem, endDebug_mem]

theorem hwStop_eq {d : Dev} (hst : d.pwr.state < 3) (hstop : d.kpr.stop = none) (last : Nat) : hwStop d last = stopLatch d last :=
  if_neg (by simp [hstop, Nat.not_le.mpr hst])

/-! ## The DDR tier's supply -/

theorem ddrOn_waits {d : Dev} (h : d.kpr.vddq = true) : ddrOn d = tierOn (withKpr d { d.kpr with vddqWait := false }) true := if_pos h

theorem tierOn_ddr (d : Dev) : tierOn d true = fset (rsetBit (fset d ⟨PWR_POLDER_ON_HI, 6, 2⟩ 3) KPR_SETTLED 24 false) ⟨KPR_SETTLED, 16, 8⟩ 0 := (rfl)

theorem tierOn_keeps {α : Type} (get : Dev → α) (hregs : ∀ (d : Dev) r, get { d with regs := r } = get d) (d : Dev) (ddr : Bool) :
    get (tierOn d ddr) = get d := by
  have hset : ∀ (d : Dev) f v, get (fset d f v) = get d := fun d f v => hregs d _
  have hbit : ∀ (d : Dev) o n b, get (rsetBit d o n b) = get d := fun d o n b => hset d _ _
  cases ddr <;> simp only [tierOn, hset, hbit, Bool.false_eq_true, if_false, if_true]

theorem tierOn_kpr (d : Dev) (ddr : Bool) : (tierOn d ddr).kpr = d.kpr := tierOn_keeps Dev.kpr (fun _ _ => rfl) d ddr
theorem tierOn_mem (d : Dev) (ddr : Bool) : (tierOn d ddr).mem = d.mem := tierOn_keeps Dev.mem (fun _ _ => rfl) d ddr

/-- The power switch and the settled channels of a DDR tier that has been switched on. -/
theorem tierOn_ddr_fields (d : Dev) : fget (tierOn d true) ⟨PWR_POLDER_ON_HI, 6, 2⟩ = 3 ∧ fget (tierOn d true) ⟨KPR_SETTLED, 16, 8⟩ = 0 := by
  rw [tierOn_ddr]
  constructor
  · rw [fget_fset_skip _ _ _ _ (by decide) (by decide), fget_rsetBit_ne _ _ _ _ (by decide), fget_fset _ _ _ (by decide)]
    rfl
  · rw [fget_fset _ _ _ (by decide)]
    rfl

theorem powerNote_kpr (d : Dev) : (powerNote d).kpr = d.kpr :=
  powerNote_keeps Dev.kpr (fun _ _ => rfl) (fun _ _ => fset_kpr _ _ _) (fun _ => raiseBoth_kpr _ _) d
theorem powerNote_mem (d : Dev) : (powerNote d).mem = d.mem :=
  powerNote_keeps Dev.mem (fun _ _ => rfl) (fun _ _ => fset_mem _ _ _) (fun _ => raiseBoth_mem _ _) d
theorem powerNote_cells (d : Dev) : (powerNote d).cells = d.cells :=
  powerNote_keeps Dev.cells (fun _ _ => rfl) (fun _ _ => fset_cells _ _ _) (fun _ => raiseBoth_cells _ _) d
theorem powerNote_lists (d : Dev) : (powerNote d).ddrList = d.ddrList ∧ (powerNote d).hbmList = d.hbmList :=
  ⟨powerNote_keeps Dev.ddrList (fun _ _ => rfl) (fun _ _ => fset_ddrList _ _ _) (fun _ => raiseBoth_ddrList _ _) d,
   powerNote_keeps Dev.hbmList (fun _ _ => rfl) (fun _ _ => fset_hbmList _ _ _) (fun _ => raiseBoth_hbmList _ _) d⟩

/-- A field of a register of neither the power state nor the events. -/
theorem powerNote_fget (d : Dev) {f : Fld} (h : f.off ≠ PWR_STATUS_STATE.off) (h0 : f.off ≠ HIF_EVENT 0) (h1 : f.off ≠ HIF_EVENT 1) :
    fget (powerNote d) f = fget d f := fget_congr f (powerNote_rget d h h0 h1)

theorem tierOff_kpr (d : Dev) (ddr : Bool) : (tierOff d ddr).kpr = d.kpr := tierOff_keeps Dev.kpr (fun _ _ => rfl) d ddr

theorem tierReady_fget (d : Dev) {f : Fld} (h : f.off ≠ KPR_READY) : fget (tierReady d) f = fget d f := fget_congr f (tierReady_rget d h)

/-- The power switch of a DDR tier that has gone off. -/
theorem tierOff_ddr_polder (d : Dev) : fget (tierOff d true) ⟨PWR_POLDER_ON_HI, 6, 2⟩ = 0 := by
  simp only [tierOff, if_true]
  rw [tierReady_fget _ (by decide), fget_fset _ _ _ (by decide)]
  rfl

theorem rdByte_tierOff_ddr (d : Dev) (a : Nat) : rdByte (tierOff d true) a = if ddrBase ≤ a ∧ a < cdramBase then 0 else rdByte d a := by
  rw [rdByte, tierOff_mem, smGet_smKeep, rdByte]
  simp only [tierHolds, if_true]
  by_cases h : ddrBase ≤ a ∧ a < cdramBase <;> simp [h]

theorem vddqPresent_waits {d : Dev} (h : d.kpr.vddqWait = true) :
    vddqPresent d = powerNote (tierOn (withKpr d { d.kpr with vddq := true, vddqWait := false }) true) :=
  (if_pos h).trans rfl

theorem vddqLoss_on {d : Dev} (h : polderHi d 6 = true) :
    vddqLoss d = powerNote (tierOff (withKpr d { d.kpr with vddq := false, vddqWait := true }) true) :=
  (if_pos h).trans rfl

theorem withKpr_polderHi (d : Dev) (k : KeeperState) (i : Nat) : polderHi (withKpr d k) i = polderHi d i := (rfl)
theorem withKpr_cells (d : Dev) (k : KeeperState) : (withKpr d k).cells = d.cells := (rfl)
theorem withKpr_pwr (d : Dev) (k : KeeperState) : (withKpr d k).pwr = d.pwr := (rfl)

/-! ## The DDR channels without their supply -/

/-- A DDR channel that settles without its supply. -/
def channelDark (d : Dev) (k : Nat) : Dev := fset (fset d (chState true k) 0) (chReason true k) 1

/-- The DDR channels that settle without their supply. -/
def channelsDark (d : Dev) : Dev := (List.range 8).foldl channelDark d

theorem channelsDark_keeps {α : Type} (get : Dev → α) (hregs : ∀ (d : Dev) r, get { d with regs := r } = get d) (d : Dev) : get (channelsDark d) = get d :=
  foldl_keeps get channelDark (fun d _ => (hregs _ _).trans (hregs d _)) _ d

/-- State and reason of a DDR channel without its supply. -/
theorem channelsDark_fields (d : Dev) {k : Nat} (hk : k < 8) :
    fget (channelsDark d) (DDR_CH_STATUS_STATE k) = 0 ∧ fget (channelsDark d) (DDR_CH_STATUS_REASON k) = 1 := by
  constructor
  · refine foldl_range_at channelDark (fun k d => fget d (DDR_CH_STATUS_STATE k)) (fun _ => 0) 8 (fun d j k _ _ hne => ?_) (fun d k _ => ?_) d k hk
    · simp (disch := (dsimp only [DDR_CH_STATUS_STATE, DDR_CH_STATUS_REASON, DDR_CH_STATUS]; omega)) only
        [channelDark, chState, chReason, if_true, fget_fset_skip]
    · simp (disch := (dsimp only [DDR_CH_STATUS_STATE, DDR_CH_STATUS_REASON, DDR_CH_STATUS]; omega)) only
        [channelDark, chState, chReason, if_true, fget_fset_skip, fget_fset]
      rfl
  · refine foldl_range_at channelDark (fun k d => fget d (DDR_CH_STATUS_REASON k)) (fun _ => 1) 8 (fun d j k _ _ hne => ?_) (fun d k _ => ?_) d k hk
    · simp (disch := (dsimp only [DDR_CH_STATUS_STATE, DDR_CH_STATUS_REASON, DDR_CH_STATUS]; omega)) only
        [channelDark, chState, chReason, if_true, fget_fset_skip]
    · simp (disch := (dsimp only [DDR_CH_STATUS_STATE, DDR_CH_STATUS_REASON, DDR_CH_STATUS]; omega)) only
        [channelDark, chState, chReason, if_true, fget_fset]
      rfl

theorem vddqWaitTimeout_eq {d : Dev} (hw : d.kpr.vddqWait = true) (hv : d.kpr.vddq = false) (hs : fget d ⟨KPR_SETTLED, 16, 8⟩ = 0) :
    vddqWaitTimeout d = fset (withKpr (channelsDark d) { (channelsDark d).kpr with vddqWait := false }) ⟨KPR_SETTLED, 16, 8⟩ 0xFF := by
  rw [vddqWaitTimeout, if_neg (by simp [hw, hv, hs])]
  rfl

/-! ## The straps -/

/-- The registers of the straps. -/
def strapRegs (d : Dev) (tide own : Bool) : Dev :=
  fset (fset (fset d TID_CFG_ROLE (if tide then 2 else 0)) HIF_CTRL_STRAP (if own then 1 else 0)) HIF_CTRL_OWNER (if own then 1 else 0)

theorem strapLatch_eq {d : Dev} (hv : d.kpr.vaux = true) (hr : d.kpr.running = false) (tide own : Bool) :
    strapLatch d tide own = strapRegs (withKpr d { d.kpr with strapTide := tide, strapOwn := own }) tide own := by
  rw [strapLatch, if_neg (by simp [hv, hr])]
  rfl

theorem strapRegs_fields (d : Dev) (tide own : Bool) : fget (strapRegs d tide own) TID_CFG_ROLE = (if tide then 2 else 0) ∧
    fget (strapRegs d tide own) HIF_CTRL_STRAP = (if own then 1 else 0) ∧ fget (strapRegs d tide own) HIF_CTRL_OWNER = (if own then 1 else 0) := by
  simp (disch := decide) only [strapRegs, fget_fset_skip, fget_fset]
  cases tide <;> cases own <;> decide

theorem strapRegs_regsBut (d : Dev) (tide own : Bool) : RegsBut [TID_CFG, HIF_CTRL] d (strapRegs d tide own) :=
  (((RegsBut.refl _ d).fset TID_CFG_ROLE (by decide) _).fset HIF_CTRL_STRAP (by decide) _).fset HIF_CTRL_OWNER (by decide) _

/-! ## Everything off -/

/-- Nothing but what the world outside sets is left: the registers, memory, cells and keeper of a part without VAUX. -/
theorem powerOffAll_regs (d : Dev) : (powerOffAll d).regs = [] ∧ (powerOffAll d).mem = [] ∧ (powerOffAll d).cells = [] := ⟨rfl, rfl, rfl⟩

theorem powerOffAll_kpr (d : Dev) : (powerOffAll d).kpr.vaux = false ∧ (powerOffAll d).kpr.running = false := ⟨rfl, rfl⟩

theorem rget_nil {d : Dev} (h : d.regs = []) (o : Nat) : rget d o = regDefault o := by
  rw [rget, h]
  rfl

/-- A device whose keeper has got its supply. -/
def keeperSupplied (d : Dev) : Dev := { d with kpr := { d.kpr with vaux := true }, pwr := { d.pwr with state := 3 } }

theorem keeperSupplied_kpr (d : Dev) : (keeperSupplied d).kpr = { d.kpr with vaux := true } := (rfl)
theorem keeperSupplied_state (d : Dev) : (keeperSupplied d).pwr.state = 3 := (rfl)
theorem keeperSupplied_regs (d : Dev) : (keeperSupplied d).regs = d.regs := (rfl)
theorem keeperSupplied_mem (d : Dev) : (keeperSupplied d).mem = d.mem := (rfl)
theorem keeperSupplied_cells (d : Dev) : (keeperSupplied d).cells = d.cells := (rfl)

theorem vauxPresent_eq {d : Dev} (h : d.kpr.vaux = false) : vauxPresent d = rset (keeperSupplied (powerOffAll d)) PWR_POLDER_ON_HI 0x8000 := by
  rw [vauxPresent, if_neg (by simp [h])]
  rfl

theorem vauxLoss_eq {d : Dev} (h : d.kpr.vaux = true) : vauxLoss d =
    if 3 ≤ d.pwr.state then powerOffAll (withKpr d { d.kpr with vaux := false })
    else hwStop (withKpr d { d.kpr with vaux := false }) (fget d KPR_START_LAST_STOP) := by
  rw [vauxLoss, if_neg (by simp [h])]
  rfl

theorem vinMainLoss_eq (d : Dev) : vinMainLoss d = noteWaiting (hwStop (withKpr d { d.kpr with vin := false }) 3) := (rfl)

/-- A stop that begins while the supplies change. -/
theorem hwStop_withKpr {d : Dev} {k : KeeperState} (hst : d.pwr.state < 3) (hstop : k.stop = none) (last : Nat) :
    hwStop (withKpr d k) last = stopLatch (withKpr d k) last :=
  hwStop_eq (by rw [withKpr_pwr]; exact hst) (by rw [withKpr_kpr]; exact hstop) last

/-- Settles O39: each supply and strap by what its event leaves of the state. -/
theorem supplies : Obligations.Supplies := by
  intro s
  refine ⟨fun hv => ?vauxOn, fun hv => ?vauxAlready, fun hv hst => ?vauxOff, fun hv hst hstop => ?vauxStop, ?vinOn, fun hst hstop => ?vinOff,
    fun hw => ?vddqOn, fun hw => ?vddqStart, fun hp => ?vddqIdle, fun hp => ?vddqOff, fun hw hq hs => ?vddqTimeout, ?sysclk, fun tide own hv hr => ?straps⟩
  case vauxOn =>
    refine runs_of (fun d => vauxPresent d) rfl ?_
    obtain ⟨hregs, hmem, hcells⟩ := powerOffAll_regs s.dev
    simp only [vauxPresent_eq hv, rset_kpr, rset_pwr, rset_mem, rset_cells, keeperSupplied_kpr, keeperSupplied_state, keeperSupplied_mem,
      keeperSupplied_cells]
    refine ⟨trivial, (powerOffAll_kpr _).2, trivial, rget_rset_same _ _ _, fun o ho => ?_, hmem, hcells⟩
    rw [rget_rset_ne _ ho]
    exact rget_nil ((keeperSupplied_regs _).trans hregs) o
  case vauxAlready => exact runs_of (fun d => vauxPresent d) rfl (if_pos hv)
  case vauxOff =>
    refine runs_of (fun d => vauxLoss d) rfl ?_
    rw [vauxLoss_eq hv, if_pos hst]
    exact ⟨(powerOffAll_kpr _).1, (powerOffAll_kpr _).2, (powerOffAll_regs _).2.1, (powerOffAll_regs _).2.2, rget_nil (powerOffAll_regs _).1⟩
  case vauxStop =>
    refine runs_of (fun d => vauxLoss d) rfl ?_
    rw [vauxLoss_eq hv, if_neg (Nat.not_le.mpr hst), hwStop_withKpr hst (by exact hstop)]
    refine ⟨?_, (stopLatch_kpr _ _).1, (stopLatch_ready _ _).1, memSame_of (by rw [stopLatch_mem, withKpr_mem])⟩
    rw [(stopLatch_vaux _ _).1, withKpr_kpr]
  case vinOn =>
    refine runs_of (fun d => vinMainPresent d) rfl ?_
    have heq : vinMainPresent s.dev = noteWaiting (withKpr s.dev { s.dev.kpr with vin := true }) := rfl
    rw [heq]
    refine ⟨by rw [noteWaiting_kpr, withKpr_kpr], by rw [noteWaiting_pwr, withKpr_pwr], memSame_of (by rw [noteWaiting_mem, withKpr_mem]), fun o ho => ?_⟩
    rw [noteWaiting_rget _ (by simpa using ho), withKpr_rget]
  case vinOff =>
    refine runs_of (fun d => vinMainLoss d) rfl ?_
    rw [vinMainLoss_eq, hwStop_withKpr hst (by exact hstop)]
    refine ⟨?_, ?_, ?_, memSame_of (by rw [noteWaiting_mem, stopLatch_mem, withKpr_mem])⟩
    · rw [noteWaiting_kpr, (stopLatch_vaux _ _).2, withKpr_kpr]
    · rw [noteWaiting_kpr, (stopLatch_kpr _ _).1]
    · rw [noteWaiting_rget _ (by decide), (stopLatch_ready _ _).1]
  case vddqOn => exact runs_of (fun d => vddqPresent d) rfl (if_neg (by simp [hw]))
  case vddqStart =>
    refine runs_of (fun d => vddqPresent d) rfl ?_
    rw [vddqPresent_waits hw]
    refine ⟨by rw [powerNote_kpr, tierOn_kpr, withKpr_kpr], ?_, ?_, memSame_of (by rw [powerNote_mem, tierOn_mem, withKpr_mem])⟩
    · rw [powerNote_fget _ (by decide) (by decide) (by decide), (tierOn_ddr_fields _).1]
    · rw [powerNote_fget _ (by decide) (by decide) (by decide), (tierOn_ddr_fields _).2]
  case vddqIdle =>
    have hp' : ¬ polderHi (withKpr s.dev { s.dev.kpr with vddq := false }) 6 = true := by rw [withKpr_polderHi, hp]; exact Bool.false_ne_true
    exact runs_of (fun d => vddqLoss d) rfl (if_neg hp')
  case vddqOff =>
    refine runs_of (fun d => vddqLoss d) rfl ?_
    rw [vddqLoss_on hp]
    refine ⟨by rw [powerNote_kpr, tierOff_kpr, withKpr_kpr], ?_, ?_, ?_, fun a => ?_⟩
    · rw [powerNote_fget _ (by decide) (by decide) (by decide), tierOff_ddr_polder]
    · rw [(powerNote_lists _).1, tierOff_ddrList, if_pos rfl]
    · rw [(powerNote_lists _).2, tierOff_hbmList, if_pos rfl, withKpr_hbmList]
    · rw [rdByte, powerNote_mem]
      exact rdByte_tierOff_ddr (withKpr s.dev _) a
  case vddqTimeout =>
    refine runs_of (fun d => vddqWaitTimeout d) rfl ?_
    rw [vddqWaitTimeout_eq hw hq hs]
    refine ⟨?_, by rw [fget_fset _ _ _ (by decide)]; rfl, fun k hk => ?_, memSame_of ?_, ?_⟩
    · rw [fset_kpr, withKpr_kpr, channelsDark_keeps Dev.kpr (fun _ _ => rfl)]
    · rw [fget_fset_ne _ _ _ _ (by dsimp only [DDR_CH_STATUS_STATE, DDR_CH_STATUS, KPR_SETTLED]; omega),
        fget_fset_ne _ _ _ _ (by dsimp only [DDR_CH_STATUS_REASON, DDR_CH_STATUS, KPR_SETTLED]; omega)]
      rw [fget_of_regs (withKpr_regs _ _), fget_of_regs (withKpr_regs _ _)]
      exact channelsDark_fields s.dev hk
    · rw [fset_mem, withKpr_mem, channelsDark_keeps Dev.mem (fun _ _ => rfl)]
    · rw [fset_cells, withKpr_cells, channelsDark_keeps Dev.cells (fun _ _ => rfl)]
  case sysclk => exact runs_of (fun d => sysclkStable d) rfl rfl
  case straps =>
    refine runs_of (fun d => strapLatch d tide own) rfl ?_
    rw [strapLatch_eq hv hr]
    obtain ⟨hrole, hstrap, hown⟩ := strapRegs_fields (withKpr s.dev { s.dev.kpr with strapTide := tide, strapOwn := own }) tide own
    refine ⟨?_, hrole, hstrap, hown, memSame_of ?_,
      (regsBut_of _ (withKpr_regs _ _)).trans (strapRegs_regsBut _ tide own)⟩
    · simp only [strapRegs, fset_kpr, withKpr_kpr]
    · simp only [strapRegs, fset_mem, withKpr_mem]

end Sys2Proof.Machine
end

section
/-! PROOF. O40: the keeper's start, and bring-up from Keeper-only. -/
namespace Sys2Proof.Machine

/-! ## What a start keeps -/

theorem fget_rset_ne (d : Dev) {o : Nat} (f : Fld) (v : Word) (h : f.off ≠ o) : fget (rset d o v) f = fget d f := fget_congr f (rget_rset_ne d h v)

/-- A part of the state that no register, no draw of the generators and no fault record holds. -/
structure KeptByStart {α : Type} (get : Dev → α) : Prop where
  regs : ∀ (d : Dev) r, get { d with regs := r } = get d
  sec : ∀ (d : Dev) x, get { d with sec := x } = get d
  free : ∀ d : Dev, get (takeFree d).2 = get d
  fault : ∀ d st a b, get (addFault d 0x12 st 0 0 0 0 a b 0 []) = get d

namespace KeptByStart
variable {α : Type} {get : Dev → α} (h : KeptByStart get)
include h

theorem rset (d : Dev) (o : Nat) (v : Word) : get (rset d o v) = get d := h.regs d _
theorem fset (d : Dev) (f : Fld) (v : Nat) : get (fset d f v) = get d := h.regs d _

end KeptByStart

theorem keptByStart_mem : KeptByStart Dev.mem := ⟨fun _ _ => rfl, fun _ _ => rfl, fun _ => rfl, fun _ _ _ _ => addFault_mem _ _ _ _ _ _ _ _ _ _ _⟩
theorem keptByStart_cells : KeptByStart Dev.cells := ⟨fun _ _ => rfl, fun _ _ => rfl, fun _ => rfl, fun _ _ _ _ => addFault_cells _ _ _ _ _ _ _ _ _ _ _⟩
theorem keptByStart_pwr : KeptByStart Dev.pwr := ⟨fun _ _ => rfl, fun _ _ => rfl, fun _ => rfl, fun _ _ _ _ => addFault_pwr _ _ _ _ _ _ _ _ _ _ _⟩
theorem keptByStart_kpr : KeptByStart Dev.kpr := ⟨fun _ _ => rfl, fun _ _ => rfl, fun _ => rfl, fun _ _ _ _ => addFault_kpr _ _ _ _ _ _ _ _ _ _ _⟩

/-! ## The stages of the keeper's start -/

/-- Whether a package record verifies. -/
def precGood (prec : Option PkgRec) : Bool := match prec with | some p => p.fail == 0 | none => false

/-- Whether the identity of a package record verifies. -/
def precIdOk (prec : Option PkgRec) : Bool := match prec with | some p => precGood prec && p.idOk | none => false

/-- The registers of the package record. -/
def startPrec (d : Dev) (prec : Option PkgRec) : Dev :=
  match prec with
  | none => d
  | some p =>
    let d := fset (fset (fset d KPR_PREC_STATUS_VALID 1) KPR_PREC_STATUS_SIG_OK (if precGood prec then 1 else 0)) KPR_READY_PREC
      (if precGood prec then 1 else 0)
    if precGood prec then
      fset (fset (fset d KPR_PREC_STATUS_LOG_ENTRIES p.logUsed) KPR_PREC_STATUS_CELLS_DARNED (darnCols p.faulty).length) KPR_PREC_STATUS_VIAS_DARNED p.vias
    else
      let (d, st) := freeStatus d
      addFault d 0x12 st 0 0 0 0 p.fail p.failSect 0 []

/-- The lifecycle state and the permissions of a debug session. -/
def startState (d : Dev) (st : Nat) : Dev := rset (fset d SEC_STATUS_LIFECYCLE st) SEC_DBG_PERMS (if st = 0 then 0x3F else 0)

/-- The nonce and the version of the ROM. -/
def startRom (d : Dev) (prec : Option PkgRec) : Dev :=
  let (n, d) := takeFree (drawNonce d)
  fset d SEC_FW_INFO_ROM_VERSION (match prec with | some p => p.romVer | none => Config.free n)

/-- The registers of a keeper that starts, up to its carrier record. -/
def startRegs (d : Dev) (prec : Option PkgRec) : Dev :=
  let r := startLifecycle (fset (startPrec d prec) SEC_STATUS_ID_OK (if precIdOk prec then 1 else 0)) prec
  startRom (startState r.1 r.2) prec

theorem keeperStart_eq {d : Dev} (hv : d.kpr.vaux = true) (hr : d.kpr.running = false) (hst : d.pwr.state = 3) (prec : Option PkgRec)
    (carrier : Option (List Byte)) (t : Nat) : keeperStart d prec carrier t =
    noteWaiting (fset (takeNodeId (readCarrier (startRegs (withKpr (atTime d t) { d.kpr with running := true, prec := prec }) prec) carrier))
      KPR_READY_KEEPER 1) := by
  unfold keeperStart
  rw [if_neg (by simp [hv, hr, hst])]
  cases prec <;> rfl

section
variable {α : Type} {get : Dev → α} (h : KeptByStart get)
include h

theorem startPrec_keeps (d : Dev) (prec : Option PkgRec) : get (startPrec d prec) = get d := by
  cases prec with
  | none => rfl
  | some p =>
    simp only [startPrec]
    split_ifs
    · simp only [h.fset]
    · simp only [h.fault, freeStatus, h.free, h.fset]

theorem startLifecycle_keeps (d : Dev) (prec : Option PkgRec) : get (startLifecycle d prec).1 = get d := by
  cases prec with
  | none => exact h.free d
  | some p =>
    simp only [startLifecycle]
    split_ifs
    · rfl
    · rfl
    · rfl
    · exact h.free d

theorem startRom_keeps (d : Dev) (prec : Option PkgRec) : get (startRom d prec) = get d := by
  simp only [startRom, h.fset, h.free, drawNonce, h.rset, h.sec]

theorem startRegs_keeps (d : Dev) (prec : Option PkgRec) : get (startRegs d prec) = get d := by
  simp only [startRegs, startState, startRom_keeps h, h.rset, h.fset, startLifecycle_keeps h, startPrec_keeps h]

theorem takeNodeId_keeps (d : Dev) : get (takeNodeId d) = get d := by
  simp only [takeNodeId]
  split_ifs
  · rfl
  · simp only [h.fset]

end

/-! ## The carrier record -/

/-- The carrier record's two words of registers. -/
def carrierWords (c : Option (List Byte)) : Word × Word :=
  let bs := if carReason c = 0 then c.getD [] else []
  let f := fun (o n : Nat) => recField bs o n
  (BitVec.ofNat 64 (f 48 2 * 2 ^ 48 + f 40 2 * 2 ^ 32 + f 42 1 * 2 ^ 24 + f 43 1 * 2 ^ 16 + f 46 1 * 2 ^ 8 + f 47 1),
   BitVec.ofNat 64 (f 44 2 * 2 ^ 48 + f 52 2 * 2 ^ 32 + f 54 2 * 2 ^ 16 + f 56 1 * 2 ^ 8 + f 50 1))

/-- The registers of a carrier record read. -/
def carrierRegs (d : Dev) (c : Option (List Byte)) : Dev :=
  rset (rset (fset (fset d KPR_START_CAR_REASON (carReason c)) KPR_READY_CARRIER (if carReason c = 0 then 1 else 0)) KPR_CARRIER (carrierWords c).1)
    KPR_CARRIER_PINS (carrierWords c).2

/-- The mode of the MCTP bus after a carrier record has been read. -/
def carrierI3c (d : Dev) (c : Option (List Byte)) : Bool :=
  let side := recField (if carReason c = 0 then c.getD [] else []) 51 1
  side.testBit 1 && (!side.testBit 0 || d.kpr.dynAddr.isSome)

theorem readCarrier_eq (d : Dev) (c : Option (List Byte)) : readCarrier d c =
    withKpr (carrierRegs d c) { (carrierRegs d c).kpr with carrier := c, i3c := carrierI3c (carrierRegs d c) c } := (rfl)

theorem carrierRegs_kpr (d : Dev) (c : Option (List Byte)) : (carrierRegs d c).kpr = d.kpr := by
  simp only [carrierRegs, rset_kpr, fset_kpr]

theorem readCarrier_kpr (d : Dev) (c : Option (List Byte)) : (readCarrier d c).kpr = { d.kpr with carrier := c, i3c := carrierI3c (carrierRegs d c) c } := by
  rw [readCarrier_eq, withKpr_kpr, carrierRegs_kpr]

/-- A carrier record read changes registers and the keeper's state. -/
theorem readCarrier_keeps {α : Type} {get : Dev → α} (h : KeptByStart get) (hk : ∀ (d : Dev) k, get { d with kpr := k } = get d) (d : Dev)
    (c : Option (List Byte)) : get (readCarrier d c) = get d := by
  simp only [readCarrier, hk, h.rset, h.fset]

theorem carReason_lt (c : Option (List Byte)) : carReason c < 2 ^ 8 := by
  unfold carReason
  split
  · decide
  · split_ifs <;> decide

/-- Fields that do not meet. -/
abbrev FldApart (f g : Fld) : Prop := g.off ≠ f.off ∨ g.lo + g.wid ≤ f.lo ∨ f.lo + f.wid ≤ g.lo

theorem readCarrier_fget (d : Dev) (c : Option (List Byte)) {f : Fld} (h0 : FldApart KPR_START_CAR_REASON f) (h1 : FldApart KPR_READY_CARRIER f)
    (h2 : f.off ≠ KPR_CARRIER) (h3 : f.off ≠ KPR_CARRIER_PINS) : fget (readCarrier d c) f = fget d f := by
  rw [readCarrier_eq, fget_of_regs (withKpr_regs _ _), carrierRegs, fget_rset_ne _ _ _ h3, fget_rset_ne _ _ _ h2, fget_fset_skip _ _ _ _ (by decide) h1,
    fget_fset_skip _ _ _ _ (by decide) h0]

/-- The registers of a carrier record read. -/
theorem readCarrier_fields (d : Dev) (c : Option (List Byte)) : fget (readCarrier d c) KPR_START_CAR_REASON = carReason c ∧
    fget (readCarrier d c) KPR_READY_CARRIER = (if carReason c = 0 then 1 else 0) := by
  constructor
  · rw [readCarrier_eq, fget_of_regs (withKpr_regs _ _), carrierRegs, fget_rset_ne _ _ _ (by decide), fget_rset_ne _ _ _ (by decide),
      fget_fset_skip _ _ _ _ (by decide) (by decide), fget_fset _ _ _ (by decide)]
    exact Nat.mod_eq_of_lt (carReason_lt c)
  · rw [readCarrier_eq, fget_of_regs (withKpr_regs _ _), carrierRegs, fget_rset_ne _ _ _ (by decide), fget_rset_ne _ _ _ (by decide),
      fget_fset _ _ _ (by decide)]
    split_ifs <;> rfl

theorem takeNodeId_fget (d : Dev) {f : Fld} (h0 : f.off ≠ TRF_NODE_CFG) (h1 : FldApart KPR_READY_NODE_ID f) : fget (takeNodeId d) f = fget d f := by
  simp only [takeNodeId]
  split_ifs
  · rfl
  · rw [fget_fset_skip _ _ _ _ (by decide) h1, fget_fset_ne _ _ _ _ h0, fget_fset_ne _ _ _ _ h0]

/-! ## The registers of a keeper that has started -/

theorem startRegs_good (d : Dev) {p : PkgRec} (h : p.fail = 0) : startRegs d (some p) =
    startRom (startState (fset (startPrec d (some p)) SEC_STATUS_ID_OK (if p.idOk then 1 else 0)) (if p.retired then 3 else if p.manufact then 0 else 1))
      (some p) := by
  simp only [startRegs, startLifecycle, precIdOk, precGood, h, beq_self_eq_true, Bool.true_and, if_true]

theorem startRom_fget (d : Dev) (prec : Option PkgRec) {f : Fld} (h0 : f.off ≠ SEC_FW_INFO) (h1 : f.off ≠ SEC_DBG_NONCE 0) (h2 : f.off ≠ SEC_DBG_NONCE 1) :
    fget (startRom d prec) f = fget d f := by
  simp only [startRom]
  rw [fget_fset_ne _ _ _ _ h0, fget_of_regs (takeFree_regs _), drawNonce, fget_rset_ne _ _ _ h2, fget_rset_ne _ _ _ h1]
  rfl

theorem startState_fget (d : Dev) (st : Nat) {f : Fld} (h0 : FldApart SEC_STATUS_LIFECYCLE f) (h1 : f.off ≠ SEC_DBG_PERMS) :
    fget (startState d st) f = fget d f := by
  rw [startState, fget_rset_ne _ _ _ h1, fget_fset_skip _ _ _ _ (by decide) h0]

/-- The registers of a package record that verifies. -/
theorem startRegs_fields (d : Dev) {p : PkgRec} (h : p.fail = 0) : fget (startRegs d (some p)) KPR_READY_PREC = 1 ∧
    fget (startRegs d (some p)) KPR_PREC_STATUS_SIG_OK = 1 ∧ fget (startRegs d (some p)) SEC_STATUS_ID_OK = (if p.idOk then 1 else 0) ∧
    lifecycle (startRegs d (some p)) = (if p.retired then 3 else if p.manufact then 0 else 1) := by
  have hgood : precGood (some p) = true := by simp [precGood, h]
  rw [startRegs_good d h]
  refine ⟨?_, ?_, ?_, ?_⟩
  · rw [startRom_fget _ _ (by decide) (by decide) (by decide), startState_fget _ _ (by decide) (by decide), fget_fset_ne _ _ _ _ (by decide)]
    simp (disch := decide) only [startPrec, hgood, if_true, fget_fset_skip, fget_fset]
    rfl
  · rw [startRom_fget _ _ (by decide) (by decide) (by decide), startState_fget _ _ (by decide) (by decide), fget_fset_ne _ _ _ _ (by decide)]
    simp (disch := decide) only [startPrec, hgood, if_true, fget_fset_skip, fget_fset]
    rfl
  · rw [startRom_fget _ _ (by decide) (by decide) (by decide), startState_fget _ _ (by decide) (by decide), fget_fset _ _ _ (by decide)]
    cases p.idOk <;> rfl
  · rw [lifecycle, startRom_fget _ _ (by decide) (by decide) (by decide), startState, fget_rset_ne _ _ _ (by decide), fget_fset _ _ _ (by decide)]
    cases p.retired <;> cases p.manufact <;> rfl

/-- A keeper that has started: its carrier record, its node ID and KPR_READY.KEEPER. -/
def keeperUp (d : Dev) (carrier : Option (List Byte)) : Dev := noteWaiting (fset (takeNodeId (readCarrier d carrier)) KPR_READY_KEEPER 1)

theorem keeperUp_keeps {α : Type} {get : Dev → α} (h : KeptByStart get) (hk : ∀ (d : Dev) k, get { d with kpr := k } = get d) (d : Dev)
    (carrier : Option (List Byte)) : get (keeperUp d carrier) = get d := by
  rw [keeperUp, noteWaiting_keeps get (fun d v => h.fset d _ v), h.fset, takeNodeId_keeps h, readCarrier_keeps h hk]

theorem noteWaiting_fget (d : Dev) {f : Fld} (h : FldApart KPR_START_WAITING f) : fget (noteWaiting d) f = fget d f :=
  noteWaiting_keeps (fun d => fget d f) (fun _ _ => fget_fset_skip _ _ _ _ (by decide) h) d

theorem keeperUp_fget (d : Dev) (carrier : Option (List Byte)) {f : Fld} (h0 : FldApart KPR_START_WAITING f) (h1 : FldApart KPR_READY_KEEPER f)
    (h2 : f.off ≠ TRF_NODE_CFG) (h3 : FldApart KPR_READY_NODE_ID f) :
    fget (keeperUp d carrier) f = fget (readCarrier d carrier) f := by
  rw [keeperUp, noteWaiting_fget _ h0, fget_fset_skip _ _ _ _ (by decide) h1, takeNodeId_fget _ h2 h3]

theorem keeperUp_kpr (d : Dev) (carrier : Option (List Byte)) : (keeperUp d carrier).kpr = (readCarrier d carrier).kpr := by
  rw [keeperUp, noteWaiting_kpr, fset_kpr, takeNodeId_keeps keptByStart_kpr]

/-! ## Bits as fields -/

theorem rbit_eq_fget (d : Dev) (o n : Nat) : rbit d o n = decide (fget d ⟨o, n, 1⟩ = 1) := Nat.testBit_eq_decide_div_mod_eq

theorem rbit_of_fget {d d' : Dev} {o n : Nat} (h : fget d' ⟨o, n, 1⟩ = fget d ⟨o, n, 1⟩) : rbit d' o n = rbit d o n := by
  rw [rbit_eq_fget, rbit_eq_fget, h]

/-! ## The effective cap -/

theorem capUpdate_keeps {α : Type} (get : Dev → α) (hf : ∀ d v, get (fset d PWR_CAP_EFFECTIVE v) = get d) (hr : ∀ d, get (raiseBoth d 21) = get d) (d : Dev) :
    get (capUpdate d) = get d := by
  simp only [capUpdate]
  split_ifs
  · rfl
  · rw [hr, hf]

theorem takeLimits_keeps {α : Type} (get : Dev → α) (hs : ∀ d v, get (rset d PWR_RESERVE v) = get d) (hf : ∀ d v, get (fset d PWR_CAP_EFFECTIVE v) = get d)
    (hr : ∀ d, get (raiseBoth d 21) = get d) (d : Dev) : get (takeLimits d) = get d := by
  simp only [takeLimits]
  rw [capUpdate_keeps get hf hr, hs]

theorem takeLimits_fget (d : Dev) {f : Fld} (h0 : f.off ≠ PWR_RESERVE) (h1 : f.off ≠ PWR_CAP) (h2 : f.off ≠ HIF_EVENT 0) (h3 : f.off ≠ HIF_EVENT 1) :
    fget (takeLimits d) f = fget d f :=
  takeLimits_keeps (fun d => fget d f) (fun _ _ => fget_rset_ne _ _ _ h0) (fun _ _ => fget_fset_ne _ _ _ _ h1) (fun _ => raiseBoth_fget _ _ _ h2 h3) d

/-! ## Bring-up begins (R387) -/

/-- The registers of a bring-up that begins, before the node ID and the limits. -/
def bringRegs (d : Dev) : Dev := testOn (rset (rset (fcount (fset d KPR_START_WAITING 0) KPR_START_STARTS 1) KPR_SETTLED 0) KPR_RGN_SETTLED 0)

theorem beginBringUp_eq (d : Dev) :
    beginBringUp d = takeLimits (takeNodeId (bringRegs (withKpr d { d.kpr with bringing := true, armed := false, groups := 0 }))) := (rfl)

/-- A part of the state that no register and no event holds stays as bring-up begins, but for the keeper's state. -/
theorem beginBringUp_keeps {α : Type} {get : Dev → α} (h : KeptByStart get) (hr : ∀ d, get (raiseBoth d 21) = get d) (d : Dev) :
    get (beginBringUp d) = get (withKpr d { d.kpr with bringing := true, armed := false, groups := 0 }) := by
  have hb : ∀ (d : Dev) o n b, get (rsetBit d o n b) = get d := fun d o n b => h.fset d _ _
  have hc : ∀ (d : Dev) f n, get (fcount d f n) = get d := fun d f n => h.fset d _ _
  rw [beginBringUp_eq, takeLimits_keeps get (fun d v => h.rset d _ v) (fun d v => h.fset d _ v) hr, takeNodeId_keeps h, bringRegs, testOn, hb, h.rset, h.rset,
    hc, h.fset]

theorem bringRegs_fget (d : Dev) {f : Fld} (h0 : f.off ≠ PWR_POLDER_ON_HI) (h1 : f.off ≠ KPR_SETTLED) (h2 : f.off ≠ KPR_RGN_SETTLED)
    (h3 : FldApart KPR_START_STARTS f) (h4 : FldApart KPR_START_WAITING f) : fget (bringRegs d) f = fget d f := by
  rw [bringRegs, testOn, fget_rsetBit_ne _ _ _ _ h0, fget_rset_ne _ _ _ h2, fget_rset_ne _ _ _ h1, fget_fcount_skip _ _ _ _ (by decide) h3,
    fget_fset_skip _ _ _ _ (by decide) h4]

theorem beginBringUp_cause (d : Dev) : fget (beginBringUp d) KPR_START_CAUSE = fget d KPR_START_CAUSE := by
  rw [beginBringUp_eq, takeLimits_fget _ (by decide) (by decide) (by decide) (by decide), takeNodeId_fget _ (by decide) (by decide),
    bringRegs_fget _ (by decide) (by decide) (by decide) (by decide) (by decide), fget_of_regs (withKpr_regs _ _)]

theorem beginBringUp_waiting (d : Dev) : fget (beginBringUp d) KPR_START_WAITING = 0 := by
  rw [beginBringUp_eq, takeLimits_fget _ (by decide) (by decide) (by decide) (by decide), takeNodeId_fget _ (by decide) (by decide), bringRegs, testOn,
    fget_rsetBit_ne _ _ _ _ (by decide), fget_rset_ne _ _ _ (by decide), fget_rset_ne _ _ _ (by decide), fget_fcount_skip _ _ _ _ (by decide) (by decide),
    fget_fset _ _ _ (by decide)]
  rfl

theorem takeNodeId_rget (d : Dev) {o : Nat} (h0 : o ≠ TRF_NODE_CFG) (h1 : o ≠ KPR_READY) : rget (takeNodeId d) o = rget d o := by
  simp only [takeNodeId]
  split_ifs
  · rfl
  · rw [rget_fset_ne _ _ _ h1, rget_fset_ne _ _ _ h0, rget_fset_ne _ _ _ h0]

theorem beginBringUp_settled (d : Dev) : rget (beginBringUp d) KPR_RGN_SETTLED = 0 := by
  have hl : ∀ d, rget (takeLimits d) KPR_RGN_SETTLED = rget d KPR_RGN_SETTLED :=
    takeLimits_keeps (fun d => rget d KPR_RGN_SETTLED) (fun _ _ => rget_rset_ne _ (by decide) _) (fun _ _ => rget_fset_ne _ _ _ (by decide))
      (fun _ => raiseBoth_rget _ _ (by decide) (by decide))
  rw [beginBringUp_eq, hl, takeNodeId_rget _ (by decide) (by decide), bringRegs, testOn, rsetBit, rget_fset_ne _ _ _ (by decide), rget_rset_same]

/-- The registers of a part that leaves Keeper-only. -/
def coldRegs (d : Dev) (cause : Nat) : Dev :=
  let d' := fset (fset d KPR_START_CAUSE cause) PWR_STATUS_COOL_SEEN (if fget d KPR_START_LAST_STOP = 2 then 1 else 0)
  if cause = 1 then fset d' KPR_START_LAST_STOP 0 else d'

theorem withPwr_regs (d : Dev) (p : PwrState) : (withPwr d p).regs = d.regs := (rfl)
theorem withPwr_mem (d : Dev) (p : PwrState) : (withPwr d p).mem = d.mem := (rfl)
theorem withPwr_cells (d : Dev) (p : PwrState) : (withPwr d p).cells = d.cells := (rfl)
theorem withPwr_pwr (d : Dev) (p : PwrState) : (withPwr d p).pwr = p := (rfl)

theorem coldStart_eq (d : Dev) (cause : Nat) : coldStart d cause =
    beginBringUp (fset (withPwr (coldRegs d cause) { (coldRegs d cause).pwr with state := 1 }) PWR_STATUS_STATE 1) := (rfl)

theorem coldRegs_keeps {α : Type} {get : Dev → α} (h : KeptByStart get) (d : Dev) (cause : Nat) : get (coldRegs d cause) = get d := by
  simp only [coldRegs]
  split_ifs <;> simp only [h.fset]

theorem coldRegs_cause (d : Dev) {cause : Nat} (h : cause < 3) : fget (coldRegs d cause) KPR_START_CAUSE = cause := by
  have hold : ∀ v, fget (fset (fset d KPR_START_CAUSE cause) PWR_STATUS_COOL_SEEN v) KPR_START_CAUSE = cause := fun v => by
    rw [fget_fset_ne _ _ _ _ (by decide), fget_fset _ _ _ (by decide)]
    exact Nat.mod_eq_of_lt (h.trans (by decide))
  simp only [coldRegs]
  by_cases hc : cause = 1
  · rw [if_pos hc, fget_fset_skip _ _ _ _ (by decide) (by decide), hold]
  · rw [if_neg hc, hold]

/-- A part that leaves Keeper-only: power state 1, bring-up under way with no region on, and its cause. -/
theorem coldStart_spec (d : Dev) {cause : Nat} (h : cause < 3) :
    ((coldStart d cause).kpr.bringing = true ∧ (coldStart d cause).kpr.armed = false ∧ (coldStart d cause).kpr.groups = 0) ∧
    (coldStart d cause).pwr.state = 1 ∧ fget (coldStart d cause) KPR_START_WAITING = 0 ∧ fget (coldStart d cause) KPR_START_CAUSE = cause ∧
    rget (coldStart d cause) KPR_RGN_SETTLED = 0 ∧ (coldStart d cause).mem = d.mem ∧ (coldStart d cause).cells = d.cells := by
  rw [coldStart_eq]
  refine ⟨?_, ?_, beginBringUp_waiting _, ?_, beginBringUp_settled _, ?_, ?_⟩
  · rw [beginBringUp_keeps keptByStart_kpr (fun _ => raiseBoth_kpr _ _), withKpr_kpr]
    exact ⟨rfl, rfl, rfl⟩
  · rw [beginBringUp_keeps keptByStart_pwr (fun _ => raiseBoth_pwr _ _), withKpr_pwr, fset_pwr, withPwr_pwr]
  · rw [beginBringUp_cause, fget_fset_ne _ _ _ _ (by decide), fget_of_regs (withPwr_regs _ _), coldRegs_cause _ h]
  · rw [beginBringUp_keeps keptByStart_mem (fun _ => raiseBoth_mem _ _), withKpr_mem, fset_mem, withPwr_mem, coldRegs_keeps keptByStart_mem]
  · rw [beginBringUp_keeps keptByStart_cells (fun _ => raiseBoth_cells _ _), withKpr_cells, fset_cells, withPwr_cells, coldRegs_keeps keptByStart_cells]

/-- The cause that Table 21-7 gives a bring-up. -/
def startCause (d : Dev) : Nat := if d.kpr.armed then 1 else if fget d KPR_START_LAST_STOP = 3 then 2 else 0

theorem startCause_lt (d : Dev) : startCause d < 3 := by
  unfold startCause
  split_ifs <;> decide

theorem bringUp_auto {d : Dev} (h : autoOk d = true) (carrier : Option (List Byte)) (t : Nat) : bringUp d carrier t =
    if autoOk (readCarrier (atTime d t) carrier) then coldStart (readCarrier (atTime d t) carrier) (startCause (readCarrier (atTime d t) carrier))
    else noteWaiting (readCarrier (atTime d t) carrier) := if_pos h

/-! ## CORE (R388) -/

/-- The field of a register of no port and of no event, and apart from the ports' ready bits. -/
def ApartFromPorts (f : Fld) : Prop :=
  f.off < 0x730000 ∧ (f.off ≠ KPR_READY ∨ f.lo + f.wid ≤ 32 ∨ 44 ≤ f.lo) ∨ 0x790000 ≤ f.off

theorem setPortState_fget (d : Dev) {p : Nat} (hp : p < 12) (st reason : Nat) {f : Fld} (h : ApartFromPorts f) :
    fget (setPortState d p st reason) f = fget d f := by
  have he : f.off ≠ HIF_EVENT 0 ∧ f.off ≠ HIF_EVENT 1 := by unfold ApartFromPorts at h; unfold HIF_EVENT; omega
  have hs : f.off ≠ TRF_STATUS := by unfold ApartFromPorts at h; unfold TRF_STATUS; omega
  have hps : f.off ≠ TRF_PORT_STATUS p := by unfold ApartFromPorts at h; unfold TRF_PORT_STATUS; omega
  have hr : FldApart ⟨KPR_READY, 32 + p, 1⟩ f := by unfold ApartFromPorts at h; dsimp only [FldApart, KPR_READY] at h ⊢; omega
  have hall : ∀ d b, fget (rsetBit (rsetBit (rsetBit (fset (fset d (TRF_PORT_STATUS_STATE p) st) (TRF_PORT_STATUS_REASON p) reason) TRF_STATUS (16 + p)
      (st == psUp)) TRF_STATUS p (st == psRetired)) KPR_READY (32 + p) b) f = fget d f := fun d b => by
    rw [rsetBit, fget_fset_skip _ _ _ _ (by dsimp only; omega) hr, fget_rsetBit_ne _ _ _ _ hs, fget_rsetBit_ne _ _ _ _ hs, fget_fset_ne _ _ _ _ hps,
      fget_fset_ne _ _ _ _ hps]
  simp only [setPortState]
  split_ifs
  · exact hall _ _
  · rw [raiseBoth_fget _ _ _ he.1 he.2]
    exact hall _ _

theorem setPortState_keeps {α : Type} {get : Dev → α} (hregs : ∀ (d : Dev) r, get { d with regs := r } = get d) (hr : ∀ d, get (raiseBoth d 24) = get d)
    (d : Dev) (p st reason : Nat) : get (setPortState d p st reason) = get d := by
  have hset : ∀ (d : Dev) f v, get (fset d f v) = get d := fun d f v => hregs d _
  have hbit : ∀ (d : Dev) o n b, get (rsetBit d o n b) = get d := fun d o n b => hset d _ _
  simp only [setPortState]
  split_ifs
  · simp only [hbit, hset]
  · simp only [hr, hbit, hset]

/-- The ports of a Trafort polder that comes on leave their DISABLED state. -/
def trafortPorts (d : Dev) (ps : List Nat) : Dev :=
  ps.foldl (fun d p => if portState d p = psDisabled && !fbit d (TRF_PORT_CTL_DISABLE p) then setPortState d p psDown 0 else d) d

/-- A fold each of whose steps keeps `get` keeps it. -/
theorem foldl_keeps_of_mem {σ α β : Type} (get : σ → α) (g : σ → β → σ) (l : List β) (h : ∀ d b, b ∈ l → get (g d b) = get d) :
    ∀ d, get (l.foldl g d) = get d := by
  induction l with
  | nil => exact fun _ => rfl
  | cons b l ih => exact fun d => (ih (fun d c hc => h d c (List.mem_cons_of_mem b hc)) _).trans (h d b List.mem_cons_self)

theorem trafortPorts_keeps {α : Type} (get : Dev → α) (ps : List Nat) (h : ∀ d p, p ∈ ps → get (setPortState d p psDown 0) = get d) (d : Dev) :
    get (trafortPorts d ps) = get d :=
  foldl_keeps_of_mem get _ ps (fun d p hp => by split_ifs; exacts [h d p hp, rfl]) d

theorem trafortOn_eq (d : Dev) (i : Nat) : trafortOn d i = trafortPorts (rsetBit d PWR_POLDER_ON_HI (8 + i) true) [3 * i, 3 * i + 1, 3 * i + 2] := (rfl)

/-- What the Trafort polders that come on with CORE leave as it was. -/
theorem trafortStart_keeps {α : Type} (get : Dev → α) (hon : ∀ d i, i < 4 → get (rsetBit d PWR_POLDER_ON_HI (8 + i) true) = get d)
    (hp : ∀ d p, p < 12 → get (setPortState d p psDown 0) = get d) (d : Dev) : get (trafortStart d) = get d := by
  have hall : ∀ d i, i < 4 → get (trafortOn d i) = get d := fun d i hi => by
    rw [trafortOn_eq, trafortPorts_keeps get _ (fun d p hm => hp d p (by simp only [List.mem_cons, List.not_mem_nil, or_false] at hm; omega)), hon d i hi]
  simp only [trafortStart]
  split_ifs
  · rfl
  · refine foldl_keeps_of_mem get _ [0, 1, 2, 3] (fun d i hi => ?_) d
    simp only [List.mem_cons, List.not_mem_nil, or_false] at hi
    split_ifs
    · rfl
    · exact hall d i (by omega)

theorem trafortStart_fget (d : Dev) {f : Fld} (h : ApartFromPorts f) (hon : f.off ≠ PWR_POLDER_ON_HI ∨ f.lo + f.wid ≤ 8 ∨ 12 ≤ f.lo) :
    fget (trafortStart d) f = fget d f :=
  trafortStart_keeps (fun d => fget d f) (fun d i hi => fget_fset_skip _ _ _ _ (by dsimp only; omega) (by dsimp only; omega))
    (fun d p hp => setPortState_fget d hp _ _ h) d

/-- The HBM tier and the DDR tier that come on with CORE. -/
def tiersStart (d : Dev) : Dev :=
  let d := if rbit d PWR_POLDER_OFF_HI 0 then d else tierOn d false
  if rbit d PWR_POLDER_OFF_HI 6 then d else ddrOn d

/-- CORE and the PCIe ports' polders. -/
def coreOn (d : Dev) : Dev := fset (rsetBit (fset d KPR_READY_CORE 1) KPR_SETTLED 48 true) ⟨PWR_POLDER_ON_HI, 12, 2⟩ 3

theorem coreReady_eq {d : Dev} (hb : d.kpr.bringing = true) (hc : d.kpr.sysclk = true) (hr : fget d KPR_READY_CORE = 0) :
    coreReady d = trafortStart (tiersStart (coreOn d)) := by
  rw [coreReady, if_neg (by simp [hb, hc, fbit, hr])]
  rfl

theorem ddrOn_fget (d : Dev) {f : Fld} (h0 : FldApart ⟨PWR_POLDER_ON_HI, 6, 2⟩ f) (h1 : FldApart ⟨KPR_SETTLED, 24, 1⟩ f) (h2 : FldApart ⟨KPR_SETTLED, 16, 8⟩ f) :
    fget (ddrOn d) f = fget d f := by
  have hk : ∀ k, fget (withKpr d k) f = fget d f := fun k => fget_of_regs (withKpr_regs d k) f
  by_cases hv : d.kpr.vddq = true
  · rw [ddrOn_waits hv, tierOn_ddr, fget_fset_skip _ _ _ _ (by decide) h2, rsetBit, fget_fset_skip _ _ _ _ (by decide) h1,
      fget_fset_skip _ _ _ _ (by decide) h0, hk]
  · exact (congrArg (fun d => fget d f) (if_neg hv)).trans (hk _)

theorem ddrOn_keeps {α : Type} (get : Dev → α) (hregs : ∀ (d : Dev) r, get { d with regs := r } = get d) (hk : ∀ (d : Dev) k, get { d with kpr := k } = get d)
    (d : Dev) : get (ddrOn d) = get d := by
  by_cases hv : d.kpr.vddq = true
  · rw [ddrOn_waits hv, tierOn_keeps get hregs]
    exact hk d _
  · exact (congrArg get (if_neg hv)).trans (hk d _)

theorem tiersStart_fget (d : Dev) {f : Fld} (hh : f.off ≠ PWR_POLDER_ON_HI ∨ 8 ≤ f.lo) (hs : f.off ≠ KPR_SETTLED ∨ 25 ≤ f.lo) :
    fget (tiersStart d) f = fget d f := by
  have hd : ∀ d, fget (ddrOn d) f = fget d f := fun d =>
    ddrOn_fget d (by dsimp only [FldApart]; omega) (by dsimp only [FldApart]; omega) (by dsimp only [FldApart]; omega)
  have ht : fget (tierOn d false) f = fget d f := by
    simp only [tierOn, Bool.false_eq_true, if_false, rsetBit]
    rw [fget_fset_skip _ _ _ _ (by decide) (by dsimp only; omega), fget_fset_skip _ _ _ _ (by decide) (by dsimp only; omega),
      fget_fset_skip _ _ _ _ (by decide) (by dsimp only; omega)]
  simp only [tiersStart]
  split_ifs <;> simp only [hd, ht]

/-- The HBM tier is switched on unless it is requested off. -/
theorem tiersStart_hbm {d : Dev} (h : rbit d PWR_POLDER_OFF_HI 0 = false) : fget (tiersStart d) ⟨PWR_POLDER_ON_HI, 0, 6⟩ = 0x3F := by
  have hd : ∀ d, fget (ddrOn d) ⟨PWR_POLDER_ON_HI, 0, 6⟩ = fget d ⟨PWR_POLDER_ON_HI, 0, 6⟩ := fun d =>
    ddrOn_fget d (by decide) (by decide) (by decide)
  have ht : fget (tierOn d false) ⟨PWR_POLDER_ON_HI, 0, 6⟩ = 0x3F := by
    simp only [tierOn, Bool.false_eq_true, if_false]
    rw [fget_fset_ne _ _ _ _ (by decide), fget_rsetBit_ne _ _ _ _ (by decide), fget_fset _ _ _ (by decide)]
    rfl
  simp only [tiersStart, h, Bool.false_eq_true, if_false]
  split_ifs <;> simp only [hd, ht]

theorem tiersStart_keeps {α : Type} (get : Dev → α) (hregs : ∀ (d : Dev) r, get { d with regs := r } = get d) (hk : ∀ (d : Dev) k, get { d with kpr := k } = get d)
    (d : Dev) : get (tiersStart d) = get d := by
  simp only [tiersStart]
  split_ifs <;> simp only [ddrOn_keeps get hregs hk, tierOn_keeps get hregs]

theorem coreOn_fields (d : Dev) : fget (coreOn d) KPR_READY_CORE = 1 ∧ fget (coreOn d) ⟨KPR_SETTLED, 48, 1⟩ = 1 ∧
    fget (coreOn d) ⟨PWR_POLDER_ON_HI, 12, 2⟩ = 3 ∧ fget (coreOn d) ⟨PWR_POLDER_OFF_HI, 0, 1⟩ = fget d ⟨PWR_POLDER_OFF_HI, 0, 1⟩ := by
  simp (disch := decide) only [coreOn, rsetBit, fget_fset_skip, fget_fset, if_true]
  decide

/-! ## The regions in groups (R388) -/

/-- The next regions of group `g`, the first `n` of them, unless they are requested off. -/
def groupOn (d : Dev) (g n : Nat) : Dev := (List.range n).foldl (fun d i => if rbit d PWR_POLDER_OFF (8 * g + i) then d else regionOn d (8 * g + i)) d

theorem groupOn_succ (d : Dev) (g n : Nat) : groupOn d g (n + 1) =
    if rbit (groupOn d g n) PWR_POLDER_OFF (8 * g + n) then groupOn d g n else regionOn (groupOn d g n) (8 * g + n) := by
  rw [groupOn, List.range_succ, List.foldl_append]
  rfl

theorem regionOn_keeps {α : Type} (get : Dev → α) (hregs : ∀ (d : Dev) r, get { d with regs := r } = get d) (d : Dev) (r : Nat) : get (regionOn d r) = get d := by
  have hset : ∀ (d : Dev) f v, get (fset d f v) = get d := fun d f v => hregs d _
  have hbit : ∀ (d : Dev) o n b, get (rsetBit d o n b) = get d := fun d o n b => hset d _ _
  simp only [regionOn]
  split_ifs
  · rfl
  · simp only [hset, hbit]

theorem groupOn_keeps {α : Type} (get : Dev → α) (hregs : ∀ (d : Dev) r, get { d with regs := r } = get d) (d : Dev) (g n : Nat) : get (groupOn d g n) = get d :=
  foldl_keeps get _ (fun d i => by split_ifs; exacts [rfl, regionOn_keeps get hregs d _]) _ d

theorem regionOn_off (d : Dev) (r k : Nat) : rbit (regionOn d r) PWR_POLDER_OFF k = rbit d PWR_POLDER_OFF k := by
  simp only [regionOn]
  split_ifs
  · rfl
  · refine rbit_of_fget ?_
    rw [fget_fset_ne _ _ _ _ (by dsimp only [PWR_RGN_STEP, PWR_RGN, PWR_POLDER_OFF]; omega),
      fget_rsetBit_ne _ _ _ _ (by exact (by decide : PWR_POLDER_OFF ≠ KPR_RGN_SETTLED)),
      fget_rsetBit_ne _ _ _ _ (by exact (by decide : PWR_POLDER_OFF ≠ PWR_POLDER_ON))]

theorem regionOn_on (d : Dev) {r : Nat} (hr : r < 64) : rbit (regionOn d r) PWR_POLDER_ON r = true := by
  simp only [regionOn]
  split_ifs with h
  · exact h
  · refine (rbit_of_fget (d := rsetBit d PWR_POLDER_ON r true) ?_).trans (rbit_rsetBit_same _ _ hr _)
    rw [fget_fset_ne _ _ _ _ (by dsimp only [PWR_RGN_STEP, PWR_RGN, PWR_POLDER_ON]; omega),
      fget_rsetBit_ne _ _ _ _ (by exact (by decide : PWR_POLDER_ON ≠ KPR_RGN_SETTLED))]

theorem regionOn_other (d : Dev) {r k : Nat} (hr : r < 64) (h : k ≠ r) : rbit (regionOn d r) PWR_POLDER_ON k = rbit d PWR_POLDER_ON k := by
  simp only [regionOn]
  split_ifs
  · rfl
  · refine rbit_of_fget ?_
    rw [fget_fset_ne _ _ _ _ (by dsimp only [PWR_RGN_STEP, PWR_RGN, PWR_POLDER_ON]; omega),
      fget_rsetBit_ne _ _ _ _ (by exact (by decide : PWR_POLDER_ON ≠ KPR_RGN_SETTLED)), rsetBit, fget_fset_skip _ _ _ _ (by dsimp only; omega) (by dsimp only; omega)]

theorem groupOn_off (d : Dev) (g n k : Nat) : rbit (groupOn d g n) PWR_POLDER_OFF k = rbit d PWR_POLDER_OFF k :=
  foldl_keeps (fun d => rbit d PWR_POLDER_OFF k) _ (fun d i => by split_ifs; exacts [rfl, regionOn_off d _ k]) _ d

/-- A region of another place is left as it was. -/
theorem groupOn_other (d : Dev) {g n k : Nat} (hg : g < 8) (hn : n ≤ 8) (hk : k < 8 * g ∨ 8 * g + n ≤ k) :
    rbit (groupOn d g n) PWR_POLDER_ON k = rbit d PWR_POLDER_ON k := by
  induction n with
  | zero => rfl
  | succ n ih =>
    rw [groupOn_succ]
    split_ifs
    · exact ih (by omega) (by omega)
    · rw [regionOn_other _ (by omega) (by omega)]
      exact ih (by omega) (by omega)

/-- Each region of the group that is not requested off is on. -/
theorem groupOn_on (d : Dev) {g n i : Nat} (hg : g < 8) (hn : n ≤ 8) (hi : i < n) (hoff : rbit d PWR_POLDER_OFF (8 * g + i) = false) :
    rbit (groupOn d g n) PWR_POLDER_ON (8 * g + i) = true := by
  induction n with
  | zero => exact absurd hi (Nat.not_lt_zero i)
  | succ n ih =>
    rw [groupOn_succ]
    by_cases hin : i = n
    · subst hin
      rw [groupOn_off, hoff, if_neg Bool.false_ne_true]
      exact regionOn_on _ (by omega)
    · have hi' := ih (by omega) (by omega)
      split_ifs
      · exact hi'
      · rw [regionOn_other _ (by omega) (by omega)]
        exact hi'

theorem regionGroupOn_eq {d : Dev} (hb : d.kpr.bringing = true) (hc : fget d KPR_READY_CORE = 1) (hg : d.kpr.groups < 8) :
    regionGroupOn d = endBringUp (withKpr (groupOn d d.kpr.groups 8) { (groupOn d d.kpr.groups 8).kpr with groups := d.kpr.groups + 1 }) := by
  rw [regionGroupOn, if_neg (by simp [hb, fbit, hc, Nat.not_le.mpr hg])]
  rfl

theorem endBringUp_groups (d : Dev) : (endBringUp d).kpr.groups = d.kpr.groups := by
  simp only [endBringUp, powerNote_kpr]
  split_ifs <;> rfl

theorem endBringUp_mem (d : Dev) : (endBringUp d).mem = d.mem :=
  endBringUp_keeps Dev.mem (fun _ _ => rfl) (fun _ _ => rfl) (fun _ _ => fset_mem _ _ _) (fun _ => raiseBoth_mem _ _) d
theorem endBringUp_cells (d : Dev) : (endBringUp d).cells = d.cells :=
  endBringUp_keeps Dev.cells (fun _ _ => rfl) (fun _ _ => rfl) (fun _ _ => fset_cells _ _ _) (fun _ => raiseBoth_cells _ _) d

theorem endBringUp_rbit (d : Dev) {o : Nat} (n : Nat) (h : o ≠ PWR_STATUS) (h0 : o ≠ HIF_EVENT 0) (h1 : o ≠ HIF_EVENT 1) :
    rbit (endBringUp d) o n = rbit d o n := rbit_of_fget (endBringUp_fget d h h0 h1)

/-- Settles O40: the keeper's start by its registers, bring-up by what leaving Keeper-only writes, CORE and the groups by what they switch on. -/
theorem startUp : Obligations.StartUp := by
  intro s carrier t
  refine ⟨fun prec hv hr hst => ?start, fun d1 hd1 ha => ⟨fun ha' => ?bring, fun ha' => ?waits⟩, fun ha hd => ?idle, fun hb hc hr => ?core,
    fun hb hc hg => ?group⟩
  case start =>
    refine runs_of (fun d => keeperStart d prec carrier t) rfl ?_
    obtain ⟨d0, hd0⟩ : ∃ d0, d0 = withKpr (atTime s.dev t) { s.dev.kpr with running := true, prec := prec } := ⟨_, rfl⟩
    have hk0 : d0.kpr = { s.dev.kpr with running := true, prec := prec } := by rw [hd0, withKpr_kpr]
    have heq : keeperStart s.dev prec carrier t = keeperUp (startRegs d0 prec) carrier := by rw [keeperStart_eq hv hr hst, hd0, keeperUp]
    have hk : (keeperUp (startRegs d0 prec) carrier).kpr =
        { (startRegs d0 prec).kpr with carrier := carrier, i3c := carrierI3c (carrierRegs (startRegs d0 prec) carrier) carrier } := by
      rw [keeperUp_kpr, readCarrier_kpr]
    rw [startRegs_keeps keptByStart_kpr, hk0] at hk
    obtain ⟨hcar, hready⟩ := readCarrier_fields (startRegs d0 prec) carrier
    rw [heq, hk]
    refine ⟨rfl, rfl, rfl, ?_, ?_, ?_, fun p hp hf => ?_, memSame_of ?_, ?_, ?_⟩
    · rw [keeperUp, noteWaiting_fget _ (by decide), fget_fset _ _ _ (by decide)]
      rfl
    · rw [keeperUp_fget _ _ (by decide) (by decide) (by decide) (by decide), hcar]
    · rw [keeperUp_fget _ _ (by decide) (by decide) (by decide) (by decide), hready]
    · subst hp
      obtain ⟨hprec, hsig, hid, hlife⟩ := startRegs_fields d0 hf
      have hget : ∀ {f : Fld}, FldApart KPR_START_WAITING f → FldApart KPR_READY_KEEPER f → f.off ≠ TRF_NODE_CFG → FldApart KPR_READY_NODE_ID f →
          FldApart KPR_START_CAR_REASON f → FldApart KPR_READY_CARRIER f → f.off ≠ KPR_CARRIER → f.off ≠ KPR_CARRIER_PINS →
          fget (keeperUp (startRegs d0 (some p)) carrier) f = fget (startRegs d0 (some p)) f := fun h0 h1 h2 h3 h4 h5 h6 h7 => by
        rw [keeperUp_fget _ _ h0 h1 h2 h3, readCarrier_fget _ _ h4 h5 h6 h7]
      refine ⟨?_, ?_, ?_, ?_⟩
      · rw [hget (by decide) (by decide) (by decide) (by decide) (by decide) (by decide) (by decide) (by decide), hprec]
      · rw [hget (by decide) (by decide) (by decide) (by decide) (by decide) (by decide) (by decide) (by decide), hsig]
      · rw [hget (by decide) (by decide) (by decide) (by decide) (by decide) (by decide) (by decide) (by decide), hid]
      · rw [lifecycle, hget (by decide) (by decide) (by decide) (by decide) (by decide) (by decide) (by decide) (by decide)]
        exact hlife
    · rw [keeperUp_keeps keptByStart_mem (fun _ _ => rfl), startRegs_keeps keptByStart_mem, hd0, withKpr_mem]
      rfl
    · rw [keeperUp_keeps keptByStart_cells (fun _ _ => rfl), startRegs_keeps keptByStart_cells, hd0, withKpr_cells]
      rfl
    · rw [keeperUp_keeps keptByStart_pwr (fun _ _ => rfl), startRegs_keeps keptByStart_pwr, hd0, withKpr_pwr]
      rfl
  case bring =>
    refine runs_of (fun d => bringUp d carrier t) rfl ?_
    have heq : bringUp s.dev carrier t = coldStart d1 (startCause d1) := by
      rw [bringUp_auto ha, ← hd1, if_pos ha']
    have hmem : d1.mem = s.dev.mem := by
      rw [hd1, readCarrier_keeps keptByStart_mem (fun _ _ => rfl)]
      rfl
    have hcells : d1.cells = s.dev.cells := by
      rw [hd1, readCarrier_keeps keptByStart_cells (fun _ _ => rfl)]
      rfl
    rw [heq]
    obtain ⟨⟨hb, harm, hg⟩, hst, hw, hcause, hset, hm, hc⟩ := coldStart_spec d1 (startCause_lt d1)
    exact ⟨hb, harm, hg, hst, hw, hcause, hset, memSame_of (hm.trans hmem), hc.trans hcells⟩
  case waits =>
    refine runs_of (fun d => bringUp d carrier t) rfl ?_
    rw [bringUp_auto ha, ← hd1, if_neg (by simp [ha'])]
  case idle =>
    refine runs_of (fun d => bringUp d carrier t) rfl ?_
    rw [bringUp, if_neg (by simp [ha]), if_neg (by simp [hd])]
  case core =>
    refine runs_of (fun d => coreReady d) rfl ?_
    rw [coreReady_eq hb hc hr]
    obtain ⟨hcore, hset, hpcie, hoff⟩ := coreOn_fields s.dev
    refine ⟨?_, ?_, ?_, fun h => ?_, memSame_of ?_, ?_⟩
    · rw [trafortStart_fget _ (by unfold ApartFromPorts; decide) (by decide), tiersStart_fget _ (by decide) (by decide), hcore]
    · rw [rbit_eq_fget, trafortStart_fget _ (by unfold ApartFromPorts; decide) (by decide), tiersStart_fget _ (by decide) (by decide), hset]
      rfl
    · rw [trafortStart_fget _ (by unfold ApartFromPorts; decide) (by decide), tiersStart_fget _ (by decide) (by decide), hpcie]
    · rw [trafortStart_fget _ (by unfold ApartFromPorts; decide) (by decide)]
      exact tiersStart_hbm ((rbit_of_fget hoff).trans h)
    · rw [trafortStart_keeps Dev.mem (fun _ _ _ => rsetBit_mem _ _ _ _) (fun _ _ _ => setPortState_keeps (fun _ _ => rfl) (fun _ => raiseBoth_mem _ _) _ _ _ _),
        tiersStart_keeps Dev.mem (fun _ _ => rfl) (fun _ _ => rfl), coreOn, fset_mem, rsetBit_mem, fset_mem]
    · rw [trafortStart_keeps Dev.cells (fun _ _ _ => rsetBit_cells _ _ _ _)
          (fun _ _ _ => setPortState_keeps (fun _ _ => rfl) (fun _ => raiseBoth_cells _ _) _ _ _ _),
        tiersStart_keeps Dev.cells (fun _ _ => rfl) (fun _ _ => rfl), coreOn, fset_cells, rsetBit_cells, fset_cells]
  case group =>
    refine runs_of (fun d => regionGroupOn d) rfl ?_
    rw [regionGroupOn_eq hb hc hg]
    refine ⟨?_, fun i hi hoff => ?_, fun k hk hne => ?_, memSame_of ?_, ?_⟩
    · rw [endBringUp_groups, withKpr_kpr]
    · rw [endBringUp_rbit _ _ (by decide) (by decide) (by decide)]
      exact groupOn_on s.dev hg le_rfl hi hoff
    · rw [endBringUp_rbit _ _ (by decide) (by decide) (by decide)]
      exact groupOn_other s.dev hg le_rfl (by omega)
    · rw [endBringUp_mem, withKpr_mem, groupOn_keeps Dev.mem (fun _ _ => rfl)]
    · rw [endBringUp_cells, withKpr_cells, groupOn_keeps Dev.cells (fun _ _ => rfl)]

end Sys2Proof.Machine
end

section
/-! PROOF. O41: the end of bring-up of a region, an HBM stack and a DDR channel. -/
namespace Sys2Proof.Machine

/-! ## A region that is retired -/

/-- A fold whose steps do something at `r` alone. -/
theorem foldl_only {σ : Type} (step : σ → Nat → σ) (r : Nat) (hne : ∀ d k, k ≠ r → step d k = d) {l : List Nat} (hm : r ∈ l) (hn : l.Nodup) (d : σ) :
    l.foldl step d = step d r := by
  have hskip : ∀ (l : List Nat) d, r ∉ l → l.foldl step d = d := fun l d h =>
    foldl_keeps_of_mem id step l (fun d k hk => hne d k (fun he => h (he ▸ hk))) d
  induction l generalizing d with
  | nil => cases hm
  | cons k l ih =>
    obtain ⟨hk, hl⟩ := List.nodup_cons.mp hn
    rcases List.mem_cons.mp hm with rfl | hm
    · exact hskip l _ hk
    · rw [List.foldl_cons, hne d k (fun he => hk (he ▸ hm)), ih hm hl]

/-- The device without the memory and the cells of region `r`. -/
def regionGone (d : Dev) (r : Nat) : Dev :=
  { d with mem := smKeep (fun a => !nearIn (fun k => k == r) a) d.mem, poison := smKeep (fun g => !nearIn (fun k => k == r) (64 * g)) d.poison,
           cells := smKeep (fun c => !(regionOf c == r)) d.cells }

theorem regionsDark_one (d : Dev) {r : Nat} (hr : r < 64) : regionsDark d (fun k => k == r) = regionDarkStep (fun k => k == r) (regionGone d r) r :=
  foldl_only (regionDarkStep (fun k => k == r)) r (fun d k hk => if_pos (by simpa using hk)) (List.mem_range.mpr hr) List.nodup_range (regionGone d r)

/-- The device with `u` for the regions that are up. -/
def withRgnUp (d : Dev) (u : Nat) : Dev := { d with rgnUp := u }

theorem withRgnUp_rbit (d : Dev) (u o n : Nat) : rbit (withRgnUp d u) o n = rbit d o n := (rfl)
theorem withRgnUp_rgnUp (d : Dev) (u : Nat) : (withRgnUp d u).rgnUp = u := (rfl)
theorem withRgnUp_mem (d : Dev) (u : Nat) : (withRgnUp d u).mem = d.mem := (rfl)

/-- A region's power and ready bits cleared. -/
def regionBitsOff (d : Dev) (r : Nat) : Dev := rsetBit (rsetBit d PWR_POLDER_ON r false) KPR_RGN_READY r false

theorem regionDarkStep_eq (d : Dev) (r : Nat) : regionDarkStep (fun k => k == r) d r = fset (withRgnUp (regionBitsOff d r)
    (if (regionBitsOff d r).rgnUp.testBit r then (regionBitsOff d r).rgnUp - 2 ^ r else (regionBitsOff d r).rgnUp)) (PWR_RGN_STEP r) 0 :=
  if_neg (by simp)

/-- A region's power and ready bits after it has gone dark. -/
theorem regionDarkStep_bits (d : Dev) {r : Nat} (hr : r < 64) : rbit (regionDarkStep (fun k => k == r) d r) PWR_POLDER_ON r = false ∧
    rbit (regionDarkStep (fun k => k == r) d r) KPR_RGN_READY r = false := by
  have hbit : ∀ d v o, o < 0x790100 → rbit (fset d (PWR_RGN_STEP r) v) o r = rbit d o r := fun d v o h => rbit_of_fget
    (fget_fset_ne _ _ _ _ (by dsimp only [PWR_RGN_STEP, PWR_RGN]; omega))
  rw [regionDarkStep_eq, hbit _ _ _ (by decide), hbit _ _ _ (by decide), withRgnUp_rbit, withRgnUp_rbit, regionBitsOff, rbit_rsetBit_same _ _ hr,
    rbit_rsetBit_ne _ (by decide), rbit_rsetBit_same _ _ hr]
  exact ⟨rfl, rfl⟩

theorem addFault_rbit (d : Dev) (typ : Nat) (st : Status) (flags uclass unit tag cause det0 det1 : Nat) (pl : List Byte) {o : Nat} (n : Nat)
    (h : o ≠ KPR_FLOG_STATUS ∧ o ≠ KPR_FLOG_NEWEST ∧ o ≠ KPR_FLOG_OLDEST ∧ o ≠ HIF_EVENT 0 ∧ o ≠ HIF_EVENT 1 ∧ o ≠ DBG_TRC_STATUS) :
    rbit (addFault d typ st flags uclass unit tag cause det0 det1 pl) o n = rbit d o n := by
  obtain ⟨h0, h1, h2, h3, h4, h5⟩ := h
  rw [rbit, addFault_rget _ _ _ _ _ _ _ _ _ _ _ h0 h1 h2 h3 h4 h5, rbit]

/-- The bits of a region that could not be brought up. -/
theorem regionFails_bits (d : Dev) {r : Nat} (hr : r < 64) (cause bundle : Nat) :
    rbit (regionFails d r cause bundle) KPR_RGN_READY r = false ∧ rbit (regionFails d r cause bundle) KPR_RGN_SETTLED r = true ∧
    rbit (regionFails d r cause bundle) KPR_DARN_RETIRED r = true ∧ rbit (regionFails d r cause bundle) PWR_POLDER_ON r = false := by
  simp only [regionFails, regionsDark_one d hr]
  obtain ⟨hon, hready⟩ := regionDarkStep_bits (regionGone d r) hr
  refine ⟨?_, ?_, ?_, ?_⟩
  · rw [addFault_rbit _ _ _ _ _ _ _ _ _ _ _ _ (by decide), rbit_rsetBit_ne _ (by decide), rbit_rsetBit_ne _ (by decide), hready]
  · rw [addFault_rbit _ _ _ _ _ _ _ _ _ _ _ _ (by decide), rbit_rsetBit_same _ _ hr]
  · rw [addFault_rbit _ _ _ _ _ _ _ _ _ _ _ _ (by decide), rbit_rsetBit_ne _ (by decide), rbit_rsetBit_same _ _ hr]
  · rw [addFault_rbit _ _ _ _ _ _ _ _ _ _ _ _ (by decide), rbit_rsetBit_ne _ (by decide), rbit_rsetBit_ne _ (by decide), hon]

/-! ## A region that passes -/

/-- The ready and settled bits of a region that has passed its tests. -/
def regionBitsOn (d : Dev) (r : Nat) : Dev := rsetBit (rsetBit d KPR_RGN_READY r true) KPR_RGN_SETTLED r true

/-- A region that has passed its tests is ready. -/
def regionUp (d : Dev) (r : Nat) : Dev := withRgnUp (regionBitsOn d r) ((regionBitsOn d r).rgnUp.lor (2 ^ r))

theorem regionUp_bits (d : Dev) {r : Nat} (hr : r < 64) :
    rbit (regionUp d r) KPR_RGN_READY r = true ∧ rbit (regionUp d r) KPR_RGN_SETTLED r = true ∧ (regionUp d r).rgnUp.testBit r = true := by
  rw [regionUp, withRgnUp_rbit, withRgnUp_rbit, withRgnUp_rgnUp, regionBitsOn, rbit_rsetBit_same _ _ hr, rbit_rsetBit_ne _ (by decide),
    rbit_rsetBit_same _ _ hr]
  refine ⟨rfl, rfl, (Nat.testBit_or ..).trans ?_⟩
  rw [Nat.testBit_two_pow_self, Bool.or_true]

theorem regionUp_mem (d : Dev) (r : Nat) : (regionUp d r).mem = d.mem := by rw [regionUp, withRgnUp_mem, regionBitsOn, rsetBit_mem, rsetBit_mem]

theorem endBringUp_rgnUp (d : Dev) : (endBringUp d).rgnUp = d.rgnUp :=
  endBringUp_keeps Dev.rgnUp (fun _ _ => rfl) (fun _ _ => rfl) (fun _ _ => fset_rgnUp _ _ _) (fun _ => raiseBoth_rgnUp _ _) d

/-- The faulty sites that the package record knows. -/
def knownSites (d : Dev) : List (Nat × Nat × Nat) := match d.kpr.prec with | some p => p.faulty | none => []

/-- The faulty sites of a region that its test has found, with those known before. -/
def allSites (d : Dev) (r : RegionId) (test : RegionTest) : List (Nat × Nat × Nat) := knownSites d ++ test.sites.map (fun s => (r.val, s.1, s.2.1))

/-- The cause with which a cell is retired at start. -/
def retireCause (known : List (Nat × Nat × Nat)) (r : RegionId) (test : RegionTest) (c : Nat) : Nat :=
  match test.sites.find? (fun s => !(lostCells known r).contains c && (lostCells (known ++ [(r.val, s.1, s.2.1)]) r).contains c) with
  | some s => s.2.2
  | none => 1

/-- The repairs of a region's test noted. -/
def repairsNoted (d : Dev) (r : RegionId) (test : RegionTest) : Dev :=
  let d1 := logRepairs d (test.vias + (test.sites.map (fun s => (r.val, s.1, s.2.1))).length)
  let d2 := withKpr d1 { d1.kpr with prec := d1.kpr.prec.map (fun p => { p with faulty := allSites d r test }) }
  fcount (fset d2 KPR_PREC_STATUS_CELLS_DARNED (darnCols (allSites d r test)).length) KPR_PREC_STATUS_VIAS_DARNED test.vias

/-- The cells that the region's test loses, retired. -/
def cellsRetired (d : Dev) (r : RegionId) (test : RegionTest) : Dev :=
  (lostCells (allSites d r test) r).foldl (fun x c => retireAtStart x c (retireCause (knownSites d) r test c)) (repairsNoted d r test)

theorem regionSettled_passes {d : Dev} {r : RegionId} {test : RegionTest} (hon : rbit d PWR_POLDER_ON r = true) (hs : rbit d KPR_RGN_SETTLED r = false)
    (hi : test.badI0 = none) (hl : test.badLogic = false) : regionSettled d r test = endBringUp (regionUp (cellsRetired d r test) r) := by
  unfold regionSettled
  rw [if_neg (by simp [hon, hs])]
  simp only [hi, hl, Bool.false_eq_true, if_false]
  rfl

theorem retireAtStart_mem (d : Dev) (c cause : Nat) : (retireAtStart d c cause).mem = d.mem := by
  simp only [retireAtStart]
  split_ifs
  · rfl
  · rw [addFault_mem, rsetBit_mem, modCell_mem, takeFree_mem]

theorem logRepairs_mem (d : Dev) (n : Nat) : (logRepairs d n).mem = d.mem := by
  simp only [logRepairs]
  split_ifs <;> simp only [fset_mem]

theorem cellsRetired_mem (d : Dev) (r : RegionId) (test : RegionTest) : (cellsRetired d r test).mem = d.mem := by
  rw [cellsRetired, foldl_keeps Dev.mem _ (fun x c => retireAtStart_mem x c _), repairsNoted, fcount_mem, fset_mem, withKpr_mem, logRepairs_mem]

theorem regionSettled_fails {d : Dev} {r : RegionId} {test : RegionTest} (hon : rbit d PWR_POLDER_ON r = true) (hs : rbit d KPR_RGN_SETTLED r = false)
    {b : Nat} (hi : test.badI0 = some b) : regionSettled d r test = endBringUp (regionFails d r 1 b) := by
  unfold regionSettled
  rw [if_neg (by simp [hon, hs])]
  simp only [hi]

/-! ## Channels -/

theorem tgStop_cells (d : Dev) (busy result done : Fld) : (tgStop d busy result done).cells = d.cells := by
  unfold tgStop
  split_ifs
  · rw [raiseBoth_cells, fset_cells, fset_cells, fset_cells]
  · rfl

theorem chSettle_hbm (d : Dev) (ch : Nat) : chSettle d false ch = hbmSettle d ch := if_neg Bool.false_ne_true
theorem chSettle_ddr (d : Dev) (ch : Nat) : chSettle d true ch = ddrSettle d ch := if_pos rfl

theorem chSettle_mem (d : Dev) (ddr : Bool) (ch : Nat) : (chSettle d ddr ch).mem = d.mem := by
  cases ddr
  · rw [chSettle_hbm, hbmSettle_mem]
  · rw [chSettle_ddr, ddrSettle_mem]

theorem chSettle_cells (d : Dev) (ddr : Bool) (ch : Nat) : (chSettle d ddr ch).cells = d.cells := by
  cases ddr
  · rw [chSettle_hbm]
    obtain he | ⟨n, d1, he, rfl | rfl⟩ := hbmSettle_cases d ch <;> rw [he]
    · rw [countInService_keeps Dev.cells (fun _ _ => rfl), fset_cells]
    · rw [countInService_keeps Dev.cells (fun _ _ => rfl), fset_cells, tgStop_cells]
  · rw [chSettle_ddr]
    obtain he | ⟨n, d1, he, rfl | rfl⟩ := ddrSettle_cases d ch <;> rw [he]
    · rw [countInService_keeps Dev.cells (fun _ _ => rfl), fset_cells]
    · rw [countInService_keeps Dev.cells (fun _ _ => rfl), fset_cells, tgStop_cells]

/-- The reason and the state of a channel whose start-up has ended. -/
def channelNoted (d : Dev) (ddr : Bool) (ch why : Nat) : Dev :=
  fset (fset d (chReason ddr ch) why) (chState ddr ch)
    (if why = 0 then 2 else if (chUnits ddr ch).any (fun u => (tierUnits d ddr).contains u) then 5 else 0)

theorem channelSettles_eq (d : Dev) (ddr : Bool) (ch why : Nat) :
    channelSettles d ddr ch why = if why = 0 then chSettle (channelNoted d ddr ch why) ddr ch else channelNoted d ddr ch why := (rfl)

theorem channelSettles_mem (d : Dev) (ddr : Bool) (ch why : Nat) : (channelSettles d ddr ch why).mem = d.mem := by
  rw [channelSettles_eq]
  split_ifs <;> simp only [chSettle_mem, channelNoted, fset_mem]

theorem channelSettles_cells (d : Dev) (ddr : Bool) (ch why : Nat) : (channelSettles d ddr ch why).cells = d.cells := by
  rw [channelSettles_eq]
  split_ifs <;> simp only [chSettle_cells, channelNoted, fset_cells]

theorem chField_reason {ch : Nat} (h : ch < 192) : ChField (HBM_CH_STATUS_REASON ch) := by
  simp only [ChField, HBM_CH_STATUS_REASON, HBM_CH_STATUS, KPR_READY, HBM_TIER_STATUS, DDR_TIER_STATUS, HIF_EVENT]
  omega

theorem chField_ddrReason {ch : Nat} (h : ch < 8) : ChField (DDR_CH_STATUS_REASON ch) := by
  simp only [ChField, DDR_CH_STATUS_REASON, DDR_CH_STATUS, KPR_READY, HBM_TIER_STATUS, DDR_TIER_STATUS, HIF_EVENT]
  omega

/-- The reason of an HBM channel whose start-up has ended. -/
theorem channelSettles_reason (d : Dev) {ch why : Nat} (hc : ch < 192) (hw : why < 8) :
    fget (channelSettles d false ch why) (HBM_CH_STATUS_REASON ch) = why := by
  have hn : fget (channelNoted d false ch why) (HBM_CH_STATUS_REASON ch) = why := by
    simp only [channelNoted, chReason, chState, Bool.false_eq_true, if_false]
    rw [fget_fset_skip _ _ _ _ (by dsimp only [HBM_CH_STATUS_STATE]; omega) (by dsimp only [HBM_CH_STATUS_STATE, HBM_CH_STATUS_REASON]; omega),
      fget_fset _ _ _ (by dsimp only [HBM_CH_STATUS_REASON]; omega)]
    exact Nat.mod_eq_of_lt hw
  rw [channelSettles_eq]
  split_ifs
  · rw [chSettle_hbm, hbmSettle_fget _ _ (chField_reason hc) (by dsimp only [HBM_CH_STATUS_REASON, HBM_CH_STATUS, HBM_TG_RES]; omega), hn]
  · exact hn

theorem channelSettles_other (d : Dev) {ch k why : Nat} (hk : k < 192) (hne : k ≠ ch) :
    fget (channelSettles d false ch why) (HBM_CH_STATUS_REASON k) = fget d (HBM_CH_STATUS_REASON k) := by
  have hn : fget (channelNoted d false ch why) (HBM_CH_STATUS_REASON k) = fget d (HBM_CH_STATUS_REASON k) := by
    simp only [channelNoted, chReason, chState, Bool.false_eq_true, if_false]
    rw [fget_fset_ne _ _ _ _ (by dsimp only [HBM_CH_STATUS_STATE, HBM_CH_STATUS_REASON, HBM_CH_STATUS]; omega),
      fget_fset_ne _ _ _ _ (by dsimp only [HBM_CH_STATUS_REASON, HBM_CH_STATUS]; omega)]
  rw [channelSettles_eq]
  split_ifs
  · rw [chSettle_hbm, hbmSettle_fget _ _ (chField_reason hk) (by dsimp only [HBM_CH_STATUS_REASON, HBM_CH_STATUS, HBM_TG_RES]; omega), hn]
  · exact hn

theorem channelSettles_ddrReason (d : Dev) {ch why : Nat} (hc : ch < 8) (hw : why < 8) :
    fget (channelSettles d true ch why) (DDR_CH_STATUS_REASON ch) = why := by
  have hn : fget (channelNoted d true ch why) (DDR_CH_STATUS_REASON ch) = why := by
    simp only [channelNoted, chReason, chState, if_true]
    rw [fget_fset_skip _ _ _ _ (by dsimp only [DDR_CH_STATUS_STATE]; omega) (by dsimp only [DDR_CH_STATUS_STATE, DDR_CH_STATUS_REASON]; omega),
      fget_fset _ _ _ (by dsimp only [DDR_CH_STATUS_REASON]; omega)]
    exact Nat.mod_eq_of_lt hw
  rw [channelSettles_eq]
  split_ifs
  · rw [chSettle_ddr, ddrSettle_fget _ _ (chField_ddrReason hc) (by dsimp only [DDR_CH_STATUS_REASON, DDR_CH_STATUS, DDR_TG_RES]; omega), hn]
  · exact hn

/-- A stack or channel that has settled, with the counts of what is in service. -/
def settledAt (d : Dev) (n : Nat) : Dev := endBringUp (countInService (rsetBit d KPR_SETTLED n true))

theorem settledAt_bit (d : Dev) {n : Nat} (hn : n < 64) : rbit (settledAt d n) KPR_SETTLED n = true := by
  rw [settledAt, endBringUp_rbit _ _ (by decide) (by decide) (by decide), rbit_eq_fget,
    countInService_fget _ (by exact (by decide : KPR_SETTLED ≠ KPR_READY)) (.inl (by exact (by decide : KPR_SETTLED ≠ HBM_TIER_STATUS)))
      (.inl (by exact (by decide : KPR_SETTLED ≠ DDR_TIER_STATUS))), ← rbit_eq_fget, rbit_rsetBit_same _ _ hn]

theorem settledAt_fget (d : Dev) (n : Nat) {f : Fld} (h : ChField f) (hs : f.off ≠ PWR_STATUS) (hk : f.off ≠ KPR_SETTLED) :
    fget (settledAt d n) f = fget d f := by
  obtain ⟨-, h0, h1, h2, h3, h4⟩ := h
  rw [settledAt, endBringUp_fget _ hs h3 h4, countInService_fget _ h0 (.inl h1) (.inl h2), fget_rsetBit_ne _ _ _ _ hk]

theorem settledAt_mem (d : Dev) (n : Nat) : (settledAt d n).mem = d.mem := by
  rw [settledAt, endBringUp_mem, countInService_keeps Dev.mem (fun _ _ => rfl), rsetBit_mem]

theorem settledAt_cells (d : Dev) (n : Nat) : (settledAt d n).cells = d.cells := by
  rw [settledAt, endBringUp_cells, countInService_keeps Dev.cells (fun _ _ => rfl), rsetBit_cells]

/-- Whether the package record holds the device ID of a stack. -/
def stackKnown (d : Dev) (stk : Fin 6) (id : Nat) : Bool := match d.kpr.prec with | some p => p.hbmIds.getD stk 0 == id | none => false

/-- The channels of a stack that has no failed channel. -/
def stackChannels (d : Dev) (stk : Fin 6) (why : Nat) : Dev := (List.range 32).foldl (fun d k => channelSettles d false (32 * stk.val + k) why) d

theorem hbmStackSettled_eq {d : Dev} {stk : Fin 6} (hon : polderHi d stk = true) (hs : rbit d KPR_SETTLED (8 + stk) = false)
    (hc : fget d KPR_READY_CORE = 1) (id : Nat) :
    hbmStackSettled d stk id [] = settledAt (stackChannels d stk (if stackKnown d stk id then 0 else 2)) (8 + stk) := by
  have hif : (if !stackKnown d stk id then 2 else 0) = if stackKnown d stk id then 0 else 2 := by cases stackKnown d stk id <;> rfl
  unfold hbmStackSettled
  rw [if_neg (by simp [hon, hs, fbit, hc]), ← hif]
  rfl

theorem stackChannels_reason (d : Dev) (stk : Fin 6) {why i : Nat} (hw : why < 8) (hi : i < 32) :
    fget (stackChannels d stk why) (HBM_CH_STATUS_REASON (32 * stk + i)) = why :=
  foldl_range_at (fun d k => channelSettles d false (32 * stk.val + k) why) (fun i d => fget d (HBM_CH_STATUS_REASON (32 * stk + i))) (fun _ => why) 32
    (fun d j k _ hk hne => channelSettles_other d (by omega) (by omega)) (fun d k hk => channelSettles_reason d (by omega) hw) d i hi

theorem ddrChannelSettled_eq {d : Dev} {k : Fin 8} (hon : polderHi d (6 + k.val / 4) = true) (hs : rbit d KPR_SETTLED (16 + k) = false)
    (hc : fget d KPR_READY_CORE = 1) (why : Fin 4) : ddrChannelSettled d k why = settledAt (channelSettles d true k why) (16 + k) :=
  if_neg (by simp [hon, hs, fbit, hc])

/-- Settles O41: a region by the bits that its test sets or clears, a stack and a channel by the reason that is noted. -/
theorem bringUpEnds : Obligations.BringUpEnds := by
  intro s r stk k
  refine ⟨fun test hon hs hi hl => ?passes, fun test b hon hs hi => ?fails, fun id hon hs hc => ?stack, fun why hon hs hc => ?channel⟩
  case passes =>
    refine runs_of (fun d => regionSettled d r test) rfl ?_
    rw [regionSettled_passes hon hs hi hl]
    obtain ⟨hready, hset, hup⟩ := regionUp_bits (cellsRetired s.dev r test) r.isLt
    refine ⟨?_, ?_, by rw [endBringUp_rgnUp]; exact hup, memSame_of (by rw [endBringUp_mem, regionUp_mem, cellsRetired_mem])⟩
    · rw [endBringUp_rbit _ _ (by decide) (by decide) (by decide), hready]
    · rw [endBringUp_rbit _ _ (by decide) (by decide) (by decide), hset]
  case fails =>
    refine runs_of (fun d => regionSettled d r test) rfl ?_
    rw [regionSettled_fails hon hs hi]
    obtain ⟨hready, hset, hret, hpol⟩ := regionFails_bits s.dev r.isLt 1 b
    refine ⟨?_, ?_, ?_, ?_⟩
    · rw [endBringUp_rbit _ _ (by decide) (by decide) (by decide), hready]
    · rw [endBringUp_rbit _ _ (by decide) (by decide) (by decide), hset]
    · rw [endBringUp_rbit _ _ (by decide) (by decide) (by decide), hret]
    · rw [endBringUp_rbit _ _ (by decide) (by decide) (by decide), hpol]
  case stack =>
    refine runs_of (fun d => hbmStackSettled d stk id []) rfl ?_
    rw [hbmStackSettled_eq hon hs hc]
    have hw : (if stackKnown s.dev stk id then 0 else 2) < 8 := by split_ifs <;> decide
    refine ⟨settledAt_bit _ (by omega), memSame_of ?_, ?_, fun i hi => ?_⟩
    · rw [settledAt_mem, stackChannels, foldl_keeps Dev.mem _ (fun d k => channelSettles_mem d _ _ _)]
    · rw [settledAt_cells, stackChannels, foldl_keeps Dev.cells _ (fun d k => channelSettles_cells d _ _ _)]
    · rw [settledAt_fget _ _ (chField_reason (by omega)) (by dsimp only [HBM_CH_STATUS_REASON, HBM_CH_STATUS, PWR_STATUS]; omega)
        (by dsimp only [HBM_CH_STATUS_REASON, HBM_CH_STATUS, KPR_SETTLED]; omega), stackChannels_reason _ _ hw hi]
      rfl
  case channel =>
    refine runs_of (fun d => ddrChannelSettled d k why) rfl ?_
    rw [ddrChannelSettled_eq hon hs hc]
    refine ⟨settledAt_bit _ (by omega), ?_, memSame_of ?_, ?_⟩
    · rw [settledAt_fget _ _ (chField_ddrReason k.isLt) (by dsimp only [DDR_CH_STATUS_REASON, DDR_CH_STATUS, PWR_STATUS]; omega)
        (by dsimp only [DDR_CH_STATUS_REASON, DDR_CH_STATUS, KPR_SETTLED]; omega), channelSettles_ddrReason _ k.isLt (by omega)]
    · rw [settledAt_mem, channelSettles_mem]
    · rw [settledAt_cells, channelSettles_cells]

end Sys2Proof.Machine
end

section
/-! PROOF. O42: reset requests, levees, the watchdog and the I3C address. -/
namespace Sys2Proof.Machine

/-! ## A DEVICE reset asked for by SYS_RST_N -/

theorem endDebug_cells (d : Dev) : (endDebug d).cells = d.cells := by
  unfold endDebug
  split_ifs
  · simp only [lifecycleChange, endIde]
    rw [raiseBoth_cells, fset_cells, fset_cells, endSessions_keeps Dev.cells (fun _ _ => rset_cells _ _ _) (fun _ _ => rfl), rset_cells, fset_cells]
  · rfl

/-- The run of a DEVICE reset that waits for its levee. -/
def deviceRun : ResetRun := { scope := 4, target := 0, raised := false, owed := [] }

theorem requestReset_device {d : Dev} (h : d.kpr.resets = []) :
    requestReset d 4 0 [] = noteResets (withKpr (endDebug d) { (endDebug d).kpr with resets := [deviceRun] }) := by
  have he : (endDebug d).kpr.resets = [] := by rw [endDebug_kpr, h]
  simp only [requestReset, le_refl, if_true, he, List.any_nil, Bool.false_eq_true, if_false, List.filter_nil, List.flatMap_nil, List.nil_append]
  rfl

theorem noteResets_one {d : Dev} {r : ResetRun} (h : d.kpr.resets = [r]) : noteResets d =
    fset (fset (fset d KPR_RESET_STATUS_BUSY 1) KPR_RESET_STATUS_SCOPE r.scope) KPR_RESET_STATUS_TARGET r.target := by
  simp only [noteResets, h, fset_kpr]
  rfl

theorem noteResets_kpr (d : Dev) : (noteResets d).kpr = d.kpr := noteResets_keeps Dev.kpr (fun _ _ _ _ => fset_kpr _ _ _) d
theorem noteResets_levees (d : Dev) : (noteResets d).levees = d.levees := noteResets_keeps Dev.levees (fun _ _ _ _ => fset_levees _ _ _) d
theorem noteResets_mem (d : Dev) : (noteResets d).mem = d.mem := noteResets_keeps Dev.mem (fun _ _ _ _ => fset_mem _ _ _) d
theorem noteResets_cells (d : Dev) : (noteResets d).cells = d.cells := noteResets_keeps Dev.cells (fun _ _ _ _ => fset_cells _ _ _) d

/-- BUSY shows whether a reset is in progress. -/
theorem noteResets_busy (d : Dev) : fget (noteResets d) KPR_RESET_STATUS_BUSY = if d.kpr.resets = [] then 0 else 1 := by
  have hb : ∀ n, n < 2 → fget (fset d KPR_RESET_STATUS_BUSY n) KPR_RESET_STATUS_BUSY = n := fun n h => by
    rw [fget_fset _ _ _ (by decide)]
    exact Nat.mod_eq_of_lt h
  cases h : d.kpr.resets with
  | nil =>
    simp only [noteResets, h, fset_kpr, List.isEmpty_nil, if_true]
    exact hb 0 (by decide)
  | cons r l =>
    simp only [noteResets, h, fset_kpr, List.isEmpty_cons, Bool.false_eq_true, if_false, reduceCtorEq]
    rw [fget_fset_skip _ _ _ _ (by decide) (by decide), fget_fset_skip _ _ _ _ (by decide) (by decide), hb 1 (by decide)]

theorem sysRstAssert_asks {d : Dev} (hvin : d.kpr.vin = true) (hr : d.kpr.running = true) (hst : d.pwr.state < 3) (hstop : d.kpr.stop = none)
    (hres : d.kpr.resets = []) : sysRstAssert d = requestReset (withKpr d { d.kpr with rstLow := true }) 4 0 [] := by
  simp only [sysRstAssert, hvin, hr, hst, hstop, hres, Option.isNone_none, decide_true, Bool.and_self, if_true, List.any_nil, Bool.false_eq_true, if_false]
  rfl

/-! ## A levee lowered -/

/-- The device after a run of a reset has ended, its requests not yet answered. -/
def runEnded (d : Dev) (run : ResetRun) (key : Nat × Nat) : Dev :=
  { d with kpr := { d.kpr with resets := d.kpr.resets.erase run }, levees := d.levees.filter (fun l => l != key) }

theorem runEnded_kpr (d : Dev) (run : ResetRun) (key : Nat × Nat) : (runEnded d run key).kpr = { d.kpr with resets := d.kpr.resets.erase run } := (rfl)
theorem runEnded_levees (d : Dev) (run : ResetRun) (key : Nat × Nat) : (runEnded d run key).levees = d.levees.filter (fun l => l != key) := (rfl)
theorem runEnded_mem (d : Dev) (run : ResetRun) (key : Nat × Nat) : (runEnded d run key).mem = d.mem := (rfl)
theorem runEnded_cells (d : Dev) (run : ResetRun) (key : Nat × Nat) : (runEnded d run key).cells = d.cells := (rfl)

theorem leveeLower_settled {d : Dev} {scope target : Nat} {run : ResetRun}
    (hrun : d.kpr.resets.find? (fun r => r.scope == scope && r.target == target && r.raised) = some run) (howed : run.owed = [])
    (hs : scopeSettled d scope = true) :
    leveeLower d scope target = noteResets (fcount (runEnded d run (scope, target)) KPR_RESET_STATUS_RESETS 1) := by
  simp only [leveeLower, hrun, hs, howed, Bool.not_true, Bool.false_eq_true, if_false, List.foldl_nil]
  rfl

/-! ## The watchdog -/

theorem restartRecord_now (d : Dev) : (restartRecord d).now = d.now := by
  simp only [restartRecord]
  rw [addFault_now]
  rfl

theorem restartRecord_kpr (d : Dev) : (restartRecord d).kpr = d.kpr := by
  simp only [restartRecord]
  rw [addFault_kpr]
  rfl

theorem restartRecord_mem (d : Dev) : (restartRecord d).mem = d.mem := by
  simp only [restartRecord]
  rw [addFault_mem]
  rfl

theorem restartRecord_cells (d : Dev) : (restartRecord d).cells = d.cells := by
  simp only [restartRecord]
  rw [addFault_cells]
  rfl

/-- The registers of a patch that is dropped. -/
def patchDropped (d : Dev) : Dev := fset (fset (fset d SEC_STATUS_FW_PATCHED 0) SEC_STATUS_FW_DROPPED 1) SEC_FW_INFO_SVN 0

/-- The watchdog of a keeper that runs a patch: it drops the patch after a second failure in 10 s, and else notes the time. -/
theorem keeperWatchdog_patched {d : Dev} {t t0 : Nat} (hr : d.kpr.running = true) (hp : d.kpr.patch.isSome) (hw : d.kpr.wdAt = some t0) :
    keeperWatchdog d true t = if max d.now t ≤ t0 + 10000000000 then
      patchDropped (withKpr (restartRecord (atTime d t)) { (restartRecord (atTime d t)).kpr with patch := none, wdAt := none })
    else withKpr (restartRecord (atTime d t)) { (restartRecord (atTime d t)).kpr with wdAt := some (max d.now t) } := by
  have hgo : keeperWatchdog d true t = (if decide (restartRecord (atTime d t)).kpr.patch.isNone then restartRecord (atTime d t)
      else if (match (restartRecord (atTime d t)).kpr.wdAt with
        | some t0 => decide ((restartRecord (atTime d t)).now ≤ t0 + 10000000000)
        | none => false) then
        patchDropped (withKpr (restartRecord (atTime d t)) { (restartRecord (atTime d t)).kpr with patch := none, wdAt := none })
      else withKpr (restartRecord (atTime d t)) { (restartRecord (atTime d t)).kpr with wdAt := some (restartRecord (atTime d t)).now }) := by
    simp only [keeperWatchdog, hr, Bool.not_true, Bool.false_or, Bool.false_eq_true, if_false, Bool.decide_eq_true]
    rfl
  have hpn : d.kpr.patch.isNone = false := by
    rw [← Option.not_isSome, hp]
    rfl
  have hn : (restartRecord (atTime d t)).now = max d.now t := (restartRecord_now _).trans (now_atTime d t)
  have hk : (restartRecord (atTime d t)).kpr = d.kpr := restartRecord_kpr _
  rw [hgo, hn, hk, hpn, hw]
  simp only [Bool.false_eq_true, decide_false, if_false, decide_eq_true_eq]

/-! ## The levee raised -/

theorem leveeRaise_run {d : Dev} {scope target : Nat} {run : ResetRun} (hm : run ∈ d.kpr.resets) (hs : run.scope = scope) (ht : run.target = target)
    (hr : run.raised = false) : leveeRaise d scope target = bar2Wake (noteResets (resetScope (leveeRecord
      { d with kpr := { d.kpr with resets := d.kpr.resets.map (fun r =>
          if r.scope == scope && r.target == target && !r.raised then { r with raised := true } else r) },
               levees := d.levees.filter (fun l => !scopeHas (scope, target) l) ++ [(scope, target)] } (scope, target)) (scope, target))) := by
  have hany : d.kpr.resets.any (fun r => r.scope == scope && r.target == target && !r.raised) = true :=
    List.any_eq_true.mpr ⟨run, hm, by simp [hs, ht, hr]⟩
  exact if_neg (by simp only [hany, Bool.not_true, Bool.false_eq_true, not_false_eq_true])

theorem leveeRaise_none {d : Dev} {scope target : Nat} (h : ∀ r ∈ d.kpr.resets, ¬(r.scope = scope ∧ r.target = target ∧ r.raised = false)) :
    leveeRaise d scope target = d := by
  have hany : d.kpr.resets.any (fun r => r.scope == scope && r.target == target && !r.raised) = false :=
    List.any_eq_false.mpr (fun r hr => by simpa using h r hr)
  exact if_pos (by simp only [hany, Bool.not_false])

/-- Settles O42: each event by what it leaves of the keeper's resets, levees, patch and address. -/
theorem resetsAndLevees : Obligations.ResetsAndLevees := by
  intro s scope target
  refine ⟨fun hvin hr hst hstop hres => ?asserted, ?deasserted, fun run rs ls d1 hm hs ht hr hrs hls hd1 => ?raised, fun h => ?noRun,
    fun run hrun howed hset => ?lowered, fun run hrun hset => ?waits, fun t hr => ?watchdog, fun t t0 hr hp hw => ⟨fun hlt => ?dropped, fun hlt => ?noted⟩,
    fun addr hr hc hside => ?address⟩
  case asserted =>
    refine runs_of (fun d => sysRstAssert d) rfl ?_
    obtain ⟨d1, hd1⟩ : ∃ d1, d1 = withKpr s.dev { s.dev.kpr with rstLow := true } := ⟨_, rfl⟩
    have hk1 : d1.kpr = { s.dev.kpr with rstLow := true } := by rw [hd1, withKpr_kpr]
    have hmem1 : d1.mem = s.dev.mem := by rw [hd1, withKpr_mem]
    have hcells1 : d1.cells = s.dev.cells := by rw [hd1, withKpr_cells]
    obtain ⟨d2, hd2⟩ : ∃ d2, d2 = withKpr (endDebug d1) { (endDebug d1).kpr with resets := [deviceRun] } := ⟨_, rfl⟩
    have hk2 : d2.kpr = { d1.kpr with resets := [deviceRun] } := by rw [hd2, withKpr_kpr, endDebug_kpr]
    have heq : sysRstAssert s.dev = noteResets d2 := by
      rw [sysRstAssert_asks hvin hr hst hstop hres, ← hd1, requestReset_device (by rw [hk1]; exact hres), hd2]
    have hres2 : d2.kpr.resets = [deviceRun] := by rw [hk2]
    rw [heq]
    refine ⟨by rw [noteResets_kpr, hk2, hk1], by rw [noteResets_kpr, hres2]; rfl, ?_, ?_, memSame_of ?_, ?_⟩
    · rw [noteResets_busy, hres2]
      rfl
    · rw [noteResets_one hres2, fget_fset_skip _ _ _ _ (by decide) (by decide), fget_fset _ _ _ (by decide)]
      rfl
    · rw [noteResets_mem, hd2, withKpr_mem, endDebug_mem, hmem1]
    · rw [noteResets_cells, hd2, withKpr_cells, endDebug_cells, hcells1]
  case deasserted =>
    refine runs_of (fun d => sysRstDeassert d) rfl ?_
    have heq : sysRstDeassert s.dev = noteWaiting (withKpr s.dev { s.dev.kpr with rstLow := false }) := rfl
    rw [heq]
    refine ⟨by rw [noteWaiting_kpr, withKpr_kpr], memSame_of (by rw [noteWaiting_mem, withKpr_mem]), fun o ho => ?_⟩
    rw [noteWaiting_rget _ (by simpa using ho), withKpr_rget]
  case raised =>
    subst hd1 hrs hls
    exact runs_of (fun d => leveeRaise d scope target) rfl (leveeRaise_run hm hs ht hr)
  case noRun => exact runs_of (fun d => leveeRaise d scope target) rfl (leveeRaise_none h)
  case lowered =>
    refine runs_of (fun d => leveeLower d scope target) rfl ?_
    rw [leveeLower_settled hrun howed hset]
    refine ⟨?_, ?_, ?_, memSame_of ?_, ?_⟩
    · rw [noteResets_kpr, fcount_kpr, runEnded_kpr]
    · rw [noteResets_levees, fcount_levees, runEnded_levees]
    · rw [noteResets_busy, fcount_kpr, runEnded_kpr]
    · rw [noteResets_mem, fcount_mem, runEnded_mem]
    · rw [noteResets_cells, fcount_cells, runEnded_cells]
  case waits =>
    refine runs_of (fun d => leveeLower d scope target) rfl ?_
    simp only [leveeLower, hrun, hset, Bool.not_false, if_true]
  case watchdog =>
    refine runs_of (fun d => keeperWatchdog d false t) rfl ?_
    simp only [keeperWatchdog, hr, Bool.not_true, Bool.not_false, Bool.true_or, Bool.false_eq_true, if_false, if_true]
  case dropped =>
    refine runs_of (fun d => keeperWatchdog d true t) rfl ?_
    rw [keeperWatchdog_patched hr hp hw, if_pos hlt]
    refine ⟨by simp only [patchDropped, fset_kpr, withKpr_kpr], ?_, ?_, memSame_of ?_, ?_⟩
    · rw [patchDropped, fget_fset_ne _ _ _ _ (by decide), fget_fset_skip _ _ _ _ (by decide) (by decide), fget_fset _ _ _ (by decide)]
      rfl
    · rw [patchDropped, fget_fset_ne _ _ _ _ (by decide), fget_fset _ _ _ (by decide)]
      rfl
    · rw [patchDropped, fset_mem, fset_mem, fset_mem, withKpr_mem, restartRecord_mem]
      rfl
    · rw [patchDropped, fset_cells, fset_cells, fset_cells, withKpr_cells, restartRecord_cells]
      rfl
  case noted =>
    refine runs_of (fun d => keeperWatchdog d true t) rfl ?_
    rw [keeperWatchdog_patched hr hp hw, if_neg (Nat.not_le.mpr hlt)]
    refine ⟨?_, by rw [withKpr_kpr], memSame_of ?_, ?_⟩
    · rw [withKpr_kpr, restartRecord_kpr]
      rfl
    · rw [withKpr_mem, restartRecord_mem]
      rfl
    · rw [withKpr_cells, restartRecord_cells]
      rfl
  case address =>
    refine runs_of (fun d => dynamicAddressAssign d addr) rfl ?_
    have hcar : fbit s.dev KPR_READY_CARRIER = true := by simp [fbit, hc]
    simp only [dynamicAddressAssign, hcar, if_true, hr, hside, Bool.not_true, Bool.or_self, Bool.false_eq_true, if_false]

end Sys2Proof.Machine
end

section
/-! PROOF. O46, O48: the SPDM responder and the test access port. -/
namespace Sys2Proof.Machine

/-! ## How a request of SPDM is answered -/

section
variable {d : Dev} {via need : Nat} (f : Dev → Dev)

theorem spdmServe_closed (h : spdmOpen d via = false) : spdmServe d via need f = d := if_pos (by simp [h])

variable (hopen : spdmOpen d via = true)
include hopen

theorem spdmServe_unverified (h : fget d SEC_STATUS_ID_OK = 0) : spdmServe d via need f = emit d (.spdm via .notReady []) := by
  rw [spdmServe, if_neg (by simp [hopen]), if_pos (by simp [fbit, h])]

variable (hid : fget d SEC_STATUS_ID_OK = 1)
include hid

theorem spdmServe_early (h : spdmStage d via < need) : spdmServe d via need f = emit d (.spdm via .unexpectedRequest []) := by
  rw [spdmServe, if_neg (by simp [hopen]), if_neg (by simp [fbit, hid]), if_pos h]

theorem spdmServe_served (h : need ≤ spdmStage d via) : spdmServe d via need f = f d := by
  rw [spdmServe, if_neg (by simp [hopen]), if_neg (by simp [fbit, hid]), if_neg (Nat.not_lt.mpr h)]

end

theorem inSession_of_mem {d : Dev} {via id : Nat} {done : Bool} (f : Dev → Dev) (h : { via := via, id := id, done := done } ∈ d.sec.sessions) :
    inSession d via id done f = f d :=
  if_pos (List.any_eq_true.mpr ⟨_, h, by simp⟩)

/-- Each request of SPDM is served in its own order. -/
theorem spdm_served (s : State) (via : Fin 3) (id : Nat) (i : Instr)
    (h : i ∈ [Instr.getVersion via, .getCapabilities via, .negotiateAlgorithms via, .getDigests via, .keyExchange via, .spdmFinish via id, .heartbeat via id,
      .keyUpdate via id, .endSession via id, .spdmUnsupportedRequest via]) : ∃ need f, exec i s = run s (fun d => spdmServe d via need f) := by
  simp only [List.mem_cons, List.not_mem_nil, or_false] at h
  rcases h with rfl | rfl | rfl | rfl | rfl | rfl | rfl | rfl | rfl | rfl <;> exact ⟨_, _, rfl⟩

/-- The device with `x` for its security state. -/
def withSec (d : Dev) (x : SecState) : Dev := { d with sec := x }

theorem withSec_sec (d : Dev) (x : SecState) : (withSec d x).sec = x := (rfl)
theorem withSec_regs (d : Dev) (x : SecState) : (withSec d x).regs = d.regs := (rfl)
theorem withSec_mem (d : Dev) (x : SecState) : (withSec d x).mem = d.mem := (rfl)
theorem withSec_cells (d : Dev) (x : SecState) : (withSec d x).cells = d.cells := (rfl)
theorem withSec_kpr (d : Dev) (x : SecState) : (withSec d x).kpr = d.kpr := (rfl)

theorem noteSessions_sec (d : Dev) : (noteSessions d).sec = d.sec := noteSessions_keeps Dev.sec (fun _ _ => rset_sec _ _ _) d
theorem noteSessions_mem (d : Dev) : (noteSessions d).mem = d.mem := noteSessions_keeps Dev.mem (fun _ _ => rset_mem _ _ _) d
theorem noteSessions_cells (d : Dev) : (noteSessions d).cells = d.cells := noteSessions_keeps Dev.cells (fun _ _ => rset_cells _ _ _) d

/-- The device with `ss` for its sessions. -/
def withSessions (d : Dev) (ss : List SpdmSession) : Dev := withSec d { d.sec with sessions := ss }

theorem withSessions_sessions (d : Dev) (ss : List SpdmSession) : (withSessions d ss).sec.sessions = ss := (rfl)
theorem withSessions_mem (d : Dev) (ss : List SpdmSession) : (withSessions d ss).mem = d.mem := (rfl)
theorem withSessions_regs (d : Dev) (ss : List SpdmSession) : (withSessions d ss).regs = d.regs := (rfl)

/-- Settles O46: each request by the one way in which requests are answered. -/
theorem spdmResponder : Obligations.SpdmResponder := by
  intro s via id spdm
  refine ⟨fun i hi => ?_, fun ho hid => ?_⟩
  · obtain ⟨need, f, hx⟩ := spdm_served s via id i hi
    exact ⟨fun h => runs_of _ hx (spdmServe_closed f h), fun h hid => runs_of _ hx (spdmServe_unverified f h hid)⟩
  have serve : ∀ need f, need ≤ spdmStage s.dev via → spdmServe s.dev via need f = f s.dev := fun need f h => spdmServe_served f ho hid h
  refine ⟨?_, ?_, fun h => ?_, fun h => ?_, fun h => ?_, fun h3 => ⟨?_, fun off len => ?_, fun slot off len hs => ?_, fun nonce => ?_, ?_,
    fun index h10 hff => ?_, fun h4 => ?_, fun h4 => ?_, fun hm => ?_, fun hm => ⟨?_, ?_, ?_, fun hv x => ?_⟩, fun hv x => ?_⟩⟩
  · exact runs_of (fun d => spdmVersion d via) rfl (serve 0 _ (Nat.zero_le _))
  · exact runs_of (fun d => spdmUnsupported d via) rfl (serve 0 _ (Nat.zero_le _))
  · refine runs_of (fun d => spdmCapabilities d via) rfl ((serve 1 _ h.ge).trans ?_)
    simp only [h]
    rfl
  · exact runs_of (fun d => spdmAlgorithms d via) rfl (serve 2 _ h.ge)
  · exact runs_of (fun d => spdmDigests d via) rfl (spdmServe_early _ ho hid h)
  · exact runs_of (fun d => spdmDigests d via) rfl (serve 3 _ h3)
  · exact runs_of (fun d => spdmCertificate d via 0 off len) rfl ((serve 3 _ h3).trans (if_neg (by simp)))
  · exact runs_of (fun d => spdmCertificate d via slot off len) rfl ((serve 3 _ h3).trans (if_pos hs))
  · exact runs_of (fun d => spdmChallenge d via 0 nonce) rfl ((serve 3 _ h3).trans (if_neg (by simp)))
  · refine runs_of (fun d => spdmMeasurements d via 0xFF none) rfl ((serve 3 _ h3).trans ?_)
    refine (if_neg (by decide)).trans ?_
    rw [if_pos (by decide), List.append_nil]
  · refine runs_of (fun d => spdmMeasurements d via index none) rfl ((serve 3 _ h3).trans (if_pos ⟨h10, fun he => hff (Fin.ext he)⟩))
  · exact runs_of (fun d => spdmKeyExchange d via) rfl ((serve 3 _ h3).trans (if_pos h4))
  · refine runs_of (fun d => spdmKeyExchange d via) rfl ?_
    obtain ⟨d1, hd1⟩ : ∃ d1, d1 = withSec s.dev { s.dev.sec with
      sessions := s.dev.sec.sessions ++ [{ via := via, id := s.dev.sec.nextId, done := false }], nextId := s.dev.sec.nextId + 1 } := ⟨_, rfl⟩
    have heq : spdmKeyExchange s.dev via = emit (noteSessions d1)
        (.spdm via .keyExchange (leBytes 2 s.dev.sec.nextId ++ sigBytes (leBytes 2 s.dev.sec.nextId))) := by
      rw [hd1]
      exact (serve 3 _ h3).trans (if_neg (Nat.not_le.mpr h4))
    have hsec : d1.sec = { s.dev.sec with
        sessions := s.dev.sec.sessions ++ [{ via := via, id := s.dev.sec.nextId, done := false }], nextId := s.dev.sec.nextId + 1 } := by
      rw [hd1, withSec_sec]
    rw [heq]
    refine ⟨?_, ?_, memSame_of ?_, ?_⟩
    · rw [emit_sec, noteSessions_sec, hsec]
    · rw [emit_sec, noteSessions_sec, hsec]
    · rw [emit_mem, noteSessions_mem, hd1, withSec_mem]
    · rw [emit_cells, noteSessions_cells, hd1, withSec_cells]
  · refine runs_of (fun d => spdmFinish d via id) rfl ?_
    have heq : spdmFinish s.dev via id = emit (withSessions s.dev
        (s.dev.sec.sessions.map (fun x => if x.via = via.val ∧ x.id = id then { x with done := true } else x))) (.spdm via .finish []) :=
      (serve 3 _ h3).trans (inSession_of_mem _ hm)
    rw [heq]
    refine ⟨by rw [emit_sec, withSessions_sessions], memSame_of (by rw [emit_mem, withSessions_mem]),
      regsBut_of _ (by rw [emit_regs, withSessions_regs])⟩
  · exact runs_of (fun d => spdmHeartbeat d via id) rfl ((serve 3 _ h3).trans (inSession_of_mem _ hm))
  · exact runs_of (fun d => spdmKeyUpdate d via id) rfl ((serve 3 _ h3).trans (inSession_of_mem _ hm))
  · refine runs_of (fun d => spdmEndSession d via id) rfl ?_
    have heq : spdmEndSession s.dev via id = emit (noteSessions (withSessions s.dev
        (s.dev.sec.sessions.filter (fun x => x.via != via.val || x.id != id)))) (.spdm via .endSessionAck []) :=
      (serve 3 _ h3).trans (inSession_of_mem _ hm)
    rw [heq]
    refine ⟨by rw [emit_sec, noteSessions_sec, withSessions_sessions], memSame_of (by rw [emit_mem, noteSessions_mem, withSessions_mem])⟩
  · refine runs_of (fun d => spdmVendorDefined d via id (some x)) rfl ((serve 3 _ h3).trans ?_)
    exact (if_neg hv).trans (inSession_of_mem _ hm)
  · refine runs_of (fun d => spdmVendorDefined d via id x) rfl ((serve 3 _ h3).trans ?_)
    cases x with
    | none => rfl
    | some m => exact if_pos hv

/-! ## The test access port -/

/-- The device with `n` in the instruction register of its test port. -/
def withIr (d : Dev) (n : Nat) : Dev := { d with tap := { d.tap with ir := n } }

section
variable {d : Dev} {code : Nat} {allowed : Bool} (f : Dev → Dev)

theorem tapDecode_off (h : polderHi d 14 = false) : tapDecode d code allowed f = d := if_pos (by simp [h])

theorem tapDecode_allowed (h : polderHi d 14 = true) (ha : allowed = true) : tapDecode d code allowed f = f (withIr d code) :=
  (if_neg (by simp [h])).trans (if_pos ha)

theorem tapDecode_refused (h : polderHi d 14 = true) (ha : allowed = false) : tapDecode d code allowed f = withIr d 0xFF :=
  (if_neg (by simp [h])).trans (if_neg (by simp [ha]))

end

/-- Settles O48: each instruction by the one way in which instructions are decoded. -/
theorem testPort : Obligations.TestPort := by
  intro s pins shiftIn ir
  refine ⟨fun h => ⟨?_, ?_, ?_, ?_, fun ha => ⟨?_, ?_, ?_⟩, fun ha i hi => ?_, fun hl => ⟨?_, fun hr => ?_⟩, fun hl hs => ⟨?_, ?_⟩⟩, fun h i hi => ?_⟩
  · exact runs_of (fun d => tapReset_ d) rfl (if_pos h)
  · exact runs_of (fun d => tapIdcode d) rfl (tapDecode_allowed _ h rfl)
  · exact runs_of (fun d => tapSamplePreload d pins shiftIn) rfl (tapDecode_allowed _ h rfl)
  · exact runs_of (fun d => tapBypass d) rfl (tapDecode_allowed _ h rfl)
  · exact runs_of (fun d => tapExtest d pins shiftIn) rfl (tapDecode_allowed _ h ha)
  · exact runs_of (fun d => tapClamp d) rfl (tapDecode_allowed _ h ha)
  · exact runs_of (fun d => tapHighz d) rfl (tapDecode_allowed _ h ha)
  · simp only [List.mem_cons, List.not_mem_nil, or_false] at hi
    rcases hi with rfl | rfl | rfl
    · exact runs_of (fun d => tapExtest d pins shiftIn) rfl (tapDecode_refused _ h ha)
    · exact runs_of (fun d => tapClamp d) rfl (tapDecode_refused _ h ha)
    · exact runs_of (fun d => tapHighz d) rfl (tapDecode_refused _ h ha)
  · exact runs_of (fun d => tapStackSel d) rfl (tapDecode_allowed _ h (by simp [hl]))
  · exact runs_of (fun d => tapScan d) rfl (tapDecode_allowed _ h (by simp [hl, hr]))
  · exact runs_of (fun d => tapStackSel d) rfl (tapDecode_refused _ h (by simp [hl, hs]))
  · exact runs_of (fun d => tapScan d) rfl (tapDecode_refused _ h (by simp [hl, hs]))
  · simp only [List.mem_cons, List.not_mem_nil, or_false] at hi
    rcases hi with rfl | rfl | rfl | rfl | rfl | rfl | rfl | rfl | rfl
    · exact runs_of (fun d => tapReset_ d) rfl (if_neg (by simp [h]))
    · exact runs_of (fun d => tapIdcode d) rfl (tapDecode_off _ h)
    · exact runs_of (fun d => tapSamplePreload d pins shiftIn) rfl (tapDecode_off _ h)
    · exact runs_of (fun d => tapBypass d) rfl (tapDecode_off _ h)
    · exact runs_of (fun d => tapExtest d pins shiftIn) rfl (tapDecode_off _ h)
    · exact runs_of (fun d => tapClamp d) rfl (tapDecode_off _ h)
    · exact runs_of (fun d => tapHighz d) rfl (tapDecode_off _ h)
    · exact runs_of (fun d => tapStackSel d) rfl (tapDecode_off _ h)
    · exact runs_of (fun d => tapScan d) rfl (tapDecode_off _ h)

end Sys2Proof.Machine
end

section
/-! PROOF. O45: security actions. -/
namespace Sys2Proof.Machine

/-! ## A job begun, and a job ended -/

theorem secBegin_eq (d : Dev) (j : SecJob) : secBegin d j = fset (withSec d { d.sec with job := some j }) SEC_STATUS_BUSY 1 := (rfl)
theorem secEnd_eq (d : Dev) : secEnd d = fset (withSec d { d.sec with job := none }) SEC_STATUS_BUSY 0 := (rfl)

theorem secBegin_sec (d : Dev) (j : SecJob) : (secBegin d j).sec = { d.sec with job := some j } := by rw [secBegin_eq, fset_sec, withSec_sec]
theorem secEnd_sec (d : Dev) : (secEnd d).sec = { d.sec with job := none } := by rw [secEnd_eq, fset_sec, withSec_sec]
theorem secEnd_kpr (d : Dev) : (secEnd d).kpr = d.kpr := by rw [secEnd_eq, fset_kpr, withSec_kpr]

theorem secBegin_regsBut (d : Dev) (j : SecJob) : RegsBut [SEC_STATUS] d (secBegin d j) := by
  rw [secBegin_eq]
  exact (regsBut_of _ (withSec_regs _ _)).fset SEC_STATUS_BUSY (by decide) 1

/-- What a draw of a nonce writes. -/
def nonceRegs (d : Dev) (v : Nat) : Dev := rset (rset d (SEC_DBG_NONCE 0) (BitVec.ofNat 64 v)) (SEC_DBG_NONCE 1) (BitVec.ofNat 64 (v / 2 ^ 64))

theorem drawNonce_eq (d : Dev) : drawNonce d = nonceRegs (withSec d { d.sec with draws := d.sec.draws + 1 }) (Config.drbg d.sec.draws) := (rfl)

theorem drawNonce_sec (d : Dev) : (drawNonce d).sec = { d.sec with draws := d.sec.draws + 1 } := by
  rw [drawNonce_eq, nonceRegs, rset_sec, rset_sec, withSec_sec]

theorem drawNonce_mem (d : Dev) : (drawNonce d).mem = d.mem := by rw [drawNonce_eq, nonceRegs, rset_mem, rset_mem, withSec_mem]

theorem drawNonce_regsBut (d : Dev) : RegsBut [SEC_DBG_NONCE 0, SEC_DBG_NONCE 1] d (drawNonce d) := by
  rw [drawNonce_eq]
  exact ((regsBut_of _ (withSec_regs _ _)).rset (by simp) _).rset (by simp) _

/-! ## Tokens -/

/-- The device after a token has been read and checked. -/
theorem tokenCheckDone_read {d d1 : Dev} {addr len n0 n1 : Nat} {far : SMap Byte} {e : EccHits} {bs : List Byte} {v : Nat}
    (hj : d.sec.job = some (.token addr len n0 n1)) (hm : memPowered d = true)
    (hf : fetchRange d e .dmaRead far addr len 0 0xFFFF = (d1, .bytes bs false)) (hv : v = tokenVerdict (secEnd d1) bs (n0 + n1 * 2 ^ 64)) :
    tokenCheckDone d far e = if v ≠ 1 then fset (secEnd d1) SEC_STATUS_TOKEN_RESULT v
      else if leAt bs 6 2 = 1 then enterDebug (fset (secEnd d1) SEC_STATUS_TOKEN_RESULT v) bs
      else enterRetired (fset (secEnd d1) SEC_STATUS_TOKEN_RESULT v) := by
  subst hv
  simp only [tokenCheckDone, hj, hm, if_true, hf]

/-- A token with its session begun: the token is kept, and the sessions are counted. -/
def tokenKept (d : Dev) (bs : List Byte) : Dev := fcount (withSec d { d.sec with token := bs.take 64 }) SEC_STATUS_DBG_SESSIONS 1

theorem enterDebug_eq (d : Dev) (bs : List Byte) : enterDebug d bs = lifecycleChange (tokenKept d bs) 2 (leAt bs 40 8) := (rfl)

theorem endSessions_eq (d : Dev) (gone : Nat → Bool) :
    endSessions d gone = noteSessions (withSessions d (d.sec.sessions.filter (fun s => !gone s.via))) := (rfl)

theorem withSessions_sec (d : Dev) (ss : List SpdmSession) : (withSessions d ss).sec = { d.sec with sessions := ss } := (rfl)

/-- A change of the lifecycle state keeps the token and the job. -/
theorem lifecycleChange_sec (d : Dev) (st perms : Nat) : (lifecycleChange d st perms).sec.token = d.sec.token ∧
    (lifecycleChange d st perms).sec.job = d.sec.job := by
  have h : (lifecycleChange d st perms).sec = { d.sec with sessions := d.sec.sessions.filter (fun s => !(fun _ => true) s.via) } := by
    simp only [lifecycleChange, endIde]
    rw [raiseBoth_sec, fset_sec, fset_sec, endSessions_eq, noteSessions_sec, withSessions_sec, rset_sec, fset_sec]
  rw [h]
  exact ⟨rfl, rfl⟩

theorem lifecycleChange_rget (d : Dev) (st perms : Nat) {o : Nat} (h0 : o < 0x760000 ∨ 0x790000 ≤ o) (h1 : o ≠ SEC_SPDM_STATUS) :
    rget (lifecycleChange d st perms) o = rget (rset (fset d SEC_STATUS_LIFECYCLE st) SEC_DBG_PERMS (BitVec.ofNat 64 perms)) o := by
  simp only [lifecycleChange, endIde]
  rw [raiseBoth_rget _ _ (by unfold HIF_EVENT; omega) (by unfold HIF_EVENT; omega),
    rget_fset_ne _ _ _ (by dsimp only [HIF_LINK_IDE_SECURE, HIF_LINK]; omega), rget_fset_ne _ _ _ (by dsimp only [HIF_LINK_IDE_SECURE, HIF_LINK]; omega),
    endSessions_eq, noteSessions, rget_rset_ne _ h1]
  exact rget_congr (withSessions_regs _ _) o

theorem lifecycleChange_state (d : Dev) (st perms : Nat) : lifecycle (lifecycleChange d st perms) = st % 4 ∧
    rget (lifecycleChange d st perms) SEC_DBG_PERMS = BitVec.ofNat 64 perms := by
  constructor
  · rw [lifecycle, fget_congr SEC_STATUS_LIFECYCLE (lifecycleChange_rget d st perms (by decide) (by decide)), fget_rset_ne _ _ _ (by decide),
      fget_fset _ _ _ (by decide)]
    rfl
  · rw [lifecycleChange_rget d st perms (by decide) (by decide), rget_rset_same]

/-! ## Keeper firmware patches -/

/-- A patch in effect: the keeper's state and the registers. -/
def patchTaken (d : Dev) (bs : List Byte) : Dev :=
  let k := withKpr d { d.kpr with patch := some { svn := leAt bs 8 4, sum := Config.sha384 (bs.take (64 + leAt bs 16 4)) },
                                  svnFloor := max d.kpr.svnFloor (leAt bs 8 4), wdAt := none }
  fset (fset k SEC_STATUS_FW_PATCHED 1) SEC_FW_INFO_SVN (leAt bs 8 4)

theorem patchTaken_kpr (d : Dev) (bs : List Byte) : (patchTaken d bs).kpr =
    { d.kpr with patch := some { svn := leAt bs 8 4, sum := Config.sha384 (bs.take (64 + leAt bs 16 4)) },
                 svnFloor := max d.kpr.svnFloor (leAt bs 8 4), wdAt := none } := by
  simp only [patchTaken, fset_kpr, withKpr_kpr]

theorem patchTaken_sec (d : Dev) (bs : List Byte) : (patchTaken d bs).sec = d.sec := by
  simp only [patchTaken, fset_sec]
  rfl

theorem patchTaken_fget (d : Dev) (bs : List Byte) : fget (patchTaken d bs) SEC_STATUS_FW_PATCHED = 1 ∧
    fget (patchTaken d bs) SEC_STATUS_FW_RESULT = fget d SEC_STATUS_FW_RESULT := by
  simp (disch := decide) only [patchTaken, fget_fset_skip, fget_fset]
  exact ⟨rfl, fget_of_regs (withKpr_regs _ _) _⟩

theorem fwLoadDone_read {d d1 : Dev} {addr len : Nat} {e : EccHits} {bs : List Byte} (hj : d.sec.job = some (.firmware addr len))
    (hr : readPhys d e addr len = (d1, some bs)) : fwLoadDone d e =
      if fwVerdict (secEnd d1) bs ≠ 1 then fset (secEnd d1) SEC_STATUS_FW_RESULT (fwVerdict (secEnd d1) bs)
      else restartRecord (patchTaken (fset (secEnd d1) SEC_STATUS_FW_RESULT (fwVerdict (secEnd d1) bs)) bs) := by
  simp only [fwLoadDone, hj, hr]
  exact if_congr Iff.rfl rfl rfl

theorem restartRecord_fget (d : Dev) {f : Fld} (h : 0x7B0000 ≤ f.off ∧ f.off < 0x7B1000) : fget (restartRecord d) f = fget d f := by
  obtain ⟨hlo, hhi⟩ := h
  simp only [restartRecord]
  refine (fget_congr f (addFault_rget _ _ _ _ _ _ _ _ _ _ _ ?_ ?_ ?_ ?_ ?_ ?_)).trans (fget_of_regs (takeFree_regs d) f)
  · unfold KPR_FLOG_STATUS; omega
  · unfold KPR_FLOG_NEWEST; omega
  · unfold KPR_FLOG_OLDEST; omega
  · unfold HIF_EVENT; omega
  · unfold HIF_EVENT; omega
  · unfold DBG_TRC_STATUS; omega

theorem restartRecord_sec (d : Dev) : (restartRecord d).sec = d.sec := by
  simp only [restartRecord]
  rw [addFault_sec]
  rfl

/-! ## Trust anchors -/

/-- An anchor installed in its slot. -/
def anchorSet (d : Dev) (slot roles : Nat) (cert : List Byte) : Dev :=
  fset (fset (withSec d { d.sec with anchors := smSet (fun _ => none) d.sec.anchors slot (some ⟨roles, cert⟩) }) ⟨SEC_ANCHOR_STATUS, 2 * slot, 2⟩ roles)
    SEC_STATUS_ANCHOR_RESULT 1

theorem anchorAddDone_read {d d1 d2 : Dev} {addr slot roles : Nat} {e : EccHits} {h cert : List Byte} (hj : d.sec.job = some (.anchor addr slot roles))
    (h1 : readPhys d e addr 4 = (d1, some h)) (h2 : readPhys d1 e addr (derLength h) = (d2, some cert)) : anchorAddDone d e =
      if fbit (secEnd d2) SEC_STATUS_ANCHOR_LOCK then fset (secEnd d2) SEC_STATUS_ANCHOR_RESULT 3
      else if slot = 0 then fset (secEnd d2) SEC_STATUS_ANCHOR_RESULT 4
      else if roles == 0 || !Config.certOk cert then fset (secEnd d2) SEC_STATUS_ANCHOR_RESULT 2
      else anchorSet (secEnd d2) slot roles cert := by
  simp only [anchorAddDone, hj, h1, h2, Option.getD_some, Option.isNone_some, Bool.false_or]
  rfl

/-- Settles O45: each action by its writer's right, and each end by its verdict. -/
theorem securityActions : Obligations.SecurityActions := by
  intro s by_ e
  refine ⟨fun hw => ⟨?submit, ?fw, ?anchor, ?lock, fun hm => ?relock⟩, fun hw i hi => ?denied, fun addr len n0 n1 far d1 bs v hj hm hf hv => ?token,
    fun addr len d1 got hj hr => ?patch, fun addr slot roles d1 h d2 cert hj h1 h2 => ?anchorDone⟩
  case submit =>
    refine runs_of (fun d => secSubmit d by_) rfl ?_
    have heq : secSubmit s.dev by_ = drawNonce (secBegin s.dev (.token (fget s.dev SEC_TOKEN_ADDR_ADDR * 64) (fget s.dev SEC_TOKEN_LEN_LEN)
        (rget s.dev (SEC_DBG_NONCE 0)).toNat (rget s.dev (SEC_DBG_NONCE 1)).toNat)) := if_neg (by simp [hw])
    rw [heq]
    refine ⟨by rw [drawNonce_sec, secBegin_sec], by rw [drawNonce_sec, secBegin_sec], ?_, memSame_of ?_, ?_⟩
    · rw [fget_congr SEC_STATUS_BUSY (drawNonce_regsBut _ SEC_STATUS (by decide)), secBegin_eq, fget_fset _ _ _ (by decide)]
      rfl
    · rw [drawNonce_mem, secBegin_eq, fset_mem, withSec_mem]
    · exact ((secBegin_regsBut s.dev _).mono (by simp)).trans ((drawNonce_regsBut _).mono (by simp))
  case fw => exact runs_of (fun d => secFwLoad d by_) rfl (if_neg (by simp [hw]))
  case anchor => exact runs_of (fun d => secAnchorAdd d by_) rfl (if_neg (by simp [hw]))
  case lock => exact runs_of (fun d => secLockAnchors d by_) rfl (if_pos hw)
  case relock => exact runs_of (fun d => secRelock d by_) rfl (if_pos (by simp [hw, hm]))
  case denied =>
    simp only [List.mem_cons, List.not_mem_nil, or_false] at hi
    rcases hi with rfl | rfl | rfl | rfl | rfl
    · exact runs_of (fun d => secSubmit d by_) rfl (if_pos (by simp [hw]))
    · exact runs_of (fun d => secFwLoad d by_) rfl (if_pos (by simp [hw]))
    · exact runs_of (fun d => secAnchorAdd d by_) rfl (if_pos (by simp [hw]))
    · exact runs_of (fun d => secLockAnchors d by_) rfl (if_neg (by simp [hw]))
    · exact runs_of (fun d => secRelock d by_) rfl (if_neg (by simp [hw]))
  case token =>
    have heq := tokenCheckDone_read hj hm hf hv
    refine ⟨fun hne => runs_of (fun d => tokenCheckDone d far e) rfl (heq.trans (if_pos hne)), fun h1 hk => ?_, fun h1 hk => ?_⟩
    · refine runs_of (fun d => tokenCheckDone d far e) rfl ?_
      rw [heq, if_neg (by simp [h1]), if_pos hk, enterDebug_eq]
      obtain ⟨hl, hp⟩ := lifecycleChange_state (tokenKept (fset (secEnd d1) SEC_STATUS_TOKEN_RESULT v) bs) 2 (leAt bs 40 8)
      obtain ⟨ht, hj'⟩ := lifecycleChange_sec (tokenKept (fset (secEnd d1) SEC_STATUS_TOKEN_RESULT v) bs) 2 (leAt bs 40 8)
      refine ⟨hl, hp, ?_, ?_⟩
      · rw [ht, tokenKept, fcount_sec, withSec_sec]
      · rw [hj', tokenKept, fcount_sec, withSec_sec, fset_sec, secEnd_sec]
    · refine runs_of (fun d => tokenCheckDone d far e) rfl ?_
      rw [heq, if_neg (by simp [h1]), if_neg hk, h1]
  case patch =>
    refine ⟨fun hn => ?_, fun bs hb hv => ?_, fun bs hb hv => ?_⟩
    · subst hn
      refine runs_of (fun d => fwLoadDone d e) rfl ?_
      simp only [fwLoadDone, hj, hr]
    · subst hb
      exact runs_of (fun d => fwLoadDone d e) rfl ((fwLoadDone_read hj hr).trans (if_pos hv))
    · subst hb
      refine runs_of (fun d => fwLoadDone d e) rfl ?_
      rw [fwLoadDone_read hj hr, if_neg (by simp [hv]), restartRecord_fget _ (by decide), restartRecord_fget _ (by decide), restartRecord_kpr,
        restartRecord_sec, patchTaken_kpr, patchTaken_sec, fset_kpr, secEnd_kpr, fset_sec, secEnd_sec]
      refine ⟨?_, (patchTaken_fget _ bs).1, rfl, rfl, rfl, rfl⟩
      rw [(patchTaken_fget _ bs).2, fget_fset _ _ _ (by decide), hv]
      rfl
  case anchorDone =>
    have heq := anchorAddDone_read hj h1 h2
    refine ⟨fun hl => ?_, fun hl hs => ?_, fun hl hs hr hc => ?_⟩
    · exact runs_of (fun d => anchorAddDone d e) rfl (heq.trans (if_pos (by simp [fbit, hl])))
    · exact runs_of (fun d => anchorAddDone d e) rfl (heq.trans ((if_neg (by simp [fbit, hl])).trans (if_pos hs)))
    · refine runs_of (fun d => anchorAddDone d e) rfl ?_
      rw [heq, if_neg (by simp [fbit, hl]), if_neg hs, if_neg (by simp [hr, hc])]
      have hsec : (anchorSet (secEnd d2) slot roles cert).sec.anchors = smSet (fun _ => none) d2.sec.anchors slot (some ⟨roles, cert⟩) := by
        rw [anchorSet, fset_sec, fset_sec, withSec_sec, secEnd_sec]
      rw [hsec]
      refine ⟨?_, fun k hk => ?_, ?_⟩
      · rw [smGet_smSet, if_pos rfl]
      · rw [smGet_smSet, if_neg hk]
      · rw [anchorSet, fget_fset _ _ _ (by decide)]
        rfl

end Sys2Proof.Machine
end

section
/-! PROOF. O47: the DBG block. -/
namespace Sys2Proof.Machine

/-! ## Resuming -/

theorem resumeThread_other {d : Dev} {c t : Nat} (h : (thread d c t).st ≠ .brk) : resumeThread d c t = d := if_pos h

/-- A thread in BREAK goes back to its next stitch. -/
theorem resumeThread_brk {d : Dev} {c t : Nat} (h : (thread d c t).st = .brk) : resumeThread d c t =
    traceEv (modTh d c t (fun th => if th.draining then { th with st := .stall, stallOn := 6 } else { th with st := .run })) 6 0x51
      (thread d c t).lastTag c t .ok (0, 0) := if_neg (by simp [h])

theorem resumeThread_thread {d : Dev} {c t : Nat} (h : (thread d c t).st = .brk) (hd : (thread d c t).draining = false) :
    thread (resumeThread d c t) c t = { thread d c t with st := .run } := by
  rw [resumeThread_brk h, thread_congr (traceEv_cells _ _ _ _ _ _ _ _), thread_modTh_same, if_neg (by simp [hd])]

theorem resumeThread_mem (d : Dev) (c t : Nat) : (resumeThread d c t).mem = d.mem := by
  by_cases h : (thread d c t).st = .brk
  · rw [resumeThread_brk h, traceEv_mem, modTh_mem]
  · rw [resumeThread_other h]

theorem resumeThread_regsBut (d : Dev) (c t : Nat) : RegsBut [TID_STATUS, DBG_TRC_STATUS] d (resumeThread d c t) := by
  by_cases h : (thread d c t).st = .brk
  · rw [resumeThread_brk h]
    intro o ho
    rw [traceEv_rget _ _ _ _ _ _ _ _ (by simp only [List.mem_cons, not_or] at ho; exact ho.2.1)]
    exact rget_congr (modTh_regs _ _ _ _) o
  · rw [resumeThread_other h]
    exact RegsBut.refl _ d

theorem resumeThread_cellsBut (d : Dev) (c t : Nat) : CellsBut c d (resumeThread d c t) := by
  by_cases h : (thread d c t).st = .brk
  · rw [resumeThread_brk h]
    exact fun k hk => (getCell_congr (traceEv_cells _ _ _ _ _ _ _ _) k).trans (cellsBut_modTh _ _ _ _ k hk)
  · rw [resumeThread_other h]
    exact fun _ _ => rfl

theorem tryArrive_regsBut (os : List Nat) (h : TID_STATUS ∈ os) (d : Dev) : RegsBut os d (tryArrive d) := fun _ ho =>
  tryArrive_rget d (ne_of_mem_of_not_mem h ho).symm

/-! ## Comparators -/

/-- The fields of a comparator that a write keeps. -/
def bpWord (v : Word) : Nat :=
  ([(63, 1), (62, 1), (61, 1), (59, 2), (56, 3), (36, 12), (20, 12), (0, 16)].map (fun f => bitsOf v f.1 f.2 * 2 ^ f.1)).sum

/-- The sum over the fields of a comparator, those above COUNT first. -/
theorem sum_bpFields (g : Nat × Nat → Nat) : ([(63, 1), (62, 1), (61, 1), (59, 2), (56, 3), (36, 12), (20, 12), (0, 16)].map g).sum =
    (g (63, 1) + g (62, 1) + g (61, 1) + g (59, 2) + g (56, 3) + g (36, 12)) + g (20, 12) + g (0, 16) := by
  simp only [List.map_cons, List.map_nil, List.sum_cons, List.sum_nil]
  ring

/-- A middle field of a word, above `lo` and below a multiple of 2^32. -/
theorem middle_of_parts {hi mid lo : Nat} (hhi : 4294967296 ∣ hi) (hmid : mid < 4096) (hlo : lo < 1048576) :
    (hi + mid * 1048576 + lo) % 18446744073709551616 / 1048576 % 4096 = mid := by
  obtain ⟨k, rfl⟩ := hhi
  omega

theorem dvd_mul_two_pow {n : Nat} (x : Nat) (h : 32 ≤ n) : 4294967296 ∣ x * 2 ^ n :=
  Dvd.dvd.mul_left ((by norm_num : 4294967296 = 2 ^ 32) ▸ pow_dvd_pow 2 h) x

/-- The COUNT field of what a comparator's write keeps. -/
theorem bpWord_count (v : Word) : bitsOf (BitVec.ofNat 64 (bpWord v)) 20 12 = bitsOf v 20 12 := by
  rw [bitsOf, BitVec.toNat_ofNat, bpWord, sum_bpFields]
  refine middle_of_parts ?_ (bitsOf_lt v 20 12) (lo := bitsOf v 0 16 * 2 ^ 0) ?_
  · have hd : ∀ x n, 32 ≤ n → 4294967296 ∣ x * 2 ^ n := fun x n h => dvd_mul_two_pow x h
    exact (((((hd _ 63 (by decide)).add (hd _ 62 (by decide))).add (hd _ 61 (by decide))).add (hd _ 59 (by decide))).add (hd _ 56 (by decide))).add
      (hd _ 36 (by decide))
  · rw [pow_zero, Nat.mul_one]
    exact (bitsOf_lt v 0 16).trans (by decide)

/-- A comparator configured, COUNT 0 stored as 1. -/
def bpConfigured (d : Dev) (k : Fin 8) (v : Word) : Dev :=
  let d := rset d (DBG_BP k) (BitVec.ofNat 64 (bpWord v))
  if fget d (DBG_BP_COUNT k) = 0 then fset d (DBG_BP_COUNT k) 1 else d

theorem bpConfigured_count (d : Dev) (k : Fin 8) (v : Word) : fget (bpConfigured d k v) (DBG_BP_COUNT k) = max 1 (bitsOf v 20 12) := by
  have hc : fget (rset d (DBG_BP k) (BitVec.ofNat 64 (bpWord v))) (DBG_BP_COUNT k) = bitsOf v 20 12 := by
    rw [fget]
    exact (congrArg (fun w => bitsOf w 20 12) (rget_rset_same d (DBG_BP k) _)).trans (bpWord_count v)
  simp only [bpConfigured]
  split_ifs with h
  · rw [fget_fset _ _ _ (by dsimp only [DBG_BP_COUNT]; omega), ← hc, h]
    rfl
  · rw [hc]
    rw [hc] at h
    omega

theorem bpConfigured_regsBut (d : Dev) (k : Fin 8) (v : Word) : RegsBut [DBG_BP k, (DBG_BP_CNT_MATCHES k).off] d (bpConfigured d k v) := by
  simp only [bpConfigured]
  split_ifs
  · exact ((RegsBut.refl _ d).rset (by simp) _).fset (DBG_BP_COUNT k) (by simp [DBG_BP_COUNT]) 1
  · exact (RegsBut.refl _ d).rset (by simp) _

theorem bpConfigured_mem (d : Dev) (k : Fin 8) (v : Word) : (bpConfigured d k v).mem = d.mem := by
  simp only [bpConfigured]
  split_ifs <;> simp only [fset_mem, rset_mem]

theorem dbgBpWrite_eq {d : Dev} {by_ : Option PciePort} (hw : dbgWrites d by_ = true) (hp : perm d 0 = true) (k : Fin 8) (v : Word) :
    dbgBpWrite d by_ k v = if v.toNat.testBit 63 then fset (bpConfigured d k v) (DBG_BP_CNT_MATCHES k) 0 else bpConfigured d k v :=
  if_neg (by simp [hw, hp])

/-! ## Telemetry -/

/-- The fields of a telemetry page copied from their registers, from field `n` on. -/
def telemetryCopied (d : Dev) (n : Nat) (os : List Nat) : Dev := (os.zipIdx n).foldl (fun d f => rset d (DBG_TELEM (f.2 + 1)) (rget d f.1)) d

theorem telemetryCopied_cons (d : Dev) (n o : Nat) (os : List Nat) :
    telemetryCopied d n (o :: os) = telemetryCopied (rset d (DBG_TELEM (n + 1)) (rget d o)) (n + 1) os := by
  rw [telemetryCopied, List.zipIdx_cons]
  rfl

/-- A register that is no field from `n` on is kept. -/
theorem telemetryCopied_rget (os : List Nat) : ∀ (d : Dev) (n : Nat) {p : Nat}, p ≤ DBG_TELEM n → rget (telemetryCopied d n os) p = rget d p := by
  induction os with
  | nil => exact fun _ _ _ _ => rfl
  | cons o os ih =>
    intro d n p hp
    rw [telemetryCopied_cons, ih _ _ (by unfold DBG_TELEM at hp ⊢; omega), rget_rset_ne _ (by unfold DBG_TELEM at hp ⊢; omega)]

/-- Each field of the page holds what its register holds. -/
theorem telemetryCopied_field (os : List Nat) : ∀ (d : Dev) (n : Nat), (∀ o ∈ os, o ≤ DBG_TELEM 0) → ∀ (i : Nat) (o : Nat), os[i]? = some o →
    rget (telemetryCopied d n os) (DBG_TELEM (n + i + 1)) = rget d o := by
  induction os with
  | nil => exact fun _ _ _ i o h => by simp at h
  | cons p os ih =>
    intro d n hos i o hi
    rw [telemetryCopied_cons]
    cases i with
    | zero =>
      obtain rfl : p = o := by simpa using hi
      rw [telemetryCopied_rget _ _ _ le_rfl, Nat.add_zero, rget_rset_same]
    | succ i =>
      have hi' : os[i]? = some o := by simpa using hi
      have h := ih (rset d (DBG_TELEM (n + 1)) (rget d p)) (n + 1) (fun o ho => hos o (List.mem_cons_of_mem p ho)) i o hi'
      have hne : o ≠ DBG_TELEM (n + 1) := by
        have := hos o (List.mem_cons_of_mem p (List.mem_of_getElem? hi'))
        unfold DBG_TELEM at this ⊢
        omega
      rw [rget_rset_ne _ hne] at h
      rw [← h]
      congr 2
      omega

theorem telemetryCopied_onlyRegs (os : List Nat) : ∀ {d d1 : Dev} (n : Nat), OnlyRegs d d1 → OnlyRegs d (telemetryCopied d1 n os) := by
  induction os with
  | nil => exact fun _ h => h
  | cons o os ih =>
    intro d d1 n h
    rw [telemetryCopied_cons]
    exact ih _ (h.rset _ _)

/-- The registers that telemetry copies, in the order of their fields. -/
def telemetrySources : List Nat := [TID_COUNT, TID_LAST_TIME, PWR_MEAS, PWR_CAP, PWR_DEBT, THM_STATUS, KPR_READY, FAR_CTR, TRF_STATUS, CLV_CTR]

theorem telemetrySnapshot_eq {d : Dev} (h : polderHi d 14 = true) : telemetrySnapshot d =
    rset (telemetryCopied d 0 telemetrySources) (DBG_TELEM 0) (BitVec.ofNat 64 ((rget d (DBG_TELEM 0)).toNat + 2)) := if_neg (by simp [h])

theorem OnlyRegs.mem {d d' : Dev} (h : OnlyRegs d d') : d'.mem = d.mem := by
  rw [OnlyRegs] at h
  rw [h]

/-! ## The obligation -/

theorem dbgResumeAll_one {d : Dev} {by_ : Option PciePort} {c t : Nat} {x : Cell} {th : Thread} (hw : dbgWrites d by_ = true) (hc : d.cells = [(c, x)])
    (hx : x.threads = [(t, th)]) (hs : th.st = .brk) (hn : ∀ x ∈ allCmds d, x.2.brk = false) : dbgResumeAll d by_ = tryArrive (resumeThread d c t) := by
  have hcmds : (allCmds d).filter (fun e => e.2.brk) = [] := List.filter_eq_nil_iff.mpr (fun e he => by simp [hn e he])
  have hths : d.cells.flatMap (fun e => (e.2.threads.filter (fun t => t.2.st == .brk)).map (fun t => (e.1, t.1))) = [(c, t)] := by
    simp [hc, hx, hs]
  rw [dbgResumeAll, if_neg (by simp [hw])]
  simp only [hcmds, hths, List.foldl_cons, List.foldl_nil]

theorem stitchCommit_moved {d : Dev} {by_ : Option PciePort} {c t : Nat} (hw : dbgWrites d by_ = true) (hp : perm d 2 = true)
    (hc : fget d DBG_STITCH_SEL_CELL = c) (ht : t < 4) (hs : (thread d c t).st = .run) : stitchCommit d by_ = fset d DBG_STATUS_STITCH_REJ 1 := by
  have hm : t ∈ [0, 1, 2, 3] := by simp only [List.mem_cons, List.not_mem_nil, or_false]; omega
  have hstill : [0, 1, 2, 3].all (fun t => decide ((thread d c t).st = .brk) || decide ((thread d c t).st = .idle) || decide ((thread d c t).st = .fault)) =
      false := List.all_eq_false.mpr ⟨t, hm, by simp [hs]⟩
  simp only [stitchCommit, hw, hp, hc, hstill]
  simp

/-- The word that a stitch commit writes. -/
def stitchWord (d : Dev) : Nat := ([0, 1, 2, 3].map (fun j => (rget d (DBG_STITCH_DATA j)).toNat * 2 ^ (64 * j))).sum

/-- A cell with the word `w` at place `i` of its stitch memory. -/
def withStitch (x : Cell) (i w : Nat) : Cell := { x with stitches := smSet (fun _ => StitchWord.asm emptyStitch) x.stitches i (.raw w) }

theorem stitchCommit_still {d : Dev} {by_ : Option PciePort} {c : Nat} (hw : dbgWrites d by_ = true) (hp : perm d 2 = true)
    (hc : fget d DBG_STITCH_SEL_CELL = c) (htg : fget d DBG_STITCH_SEL_TARGET = 0) (hlt : c < 4096) (hr : rbit d KPR_RGN_READY (regionOf c) = true)
    (hs : ∀ t, t < 4 → (thread d c t).st = .idle) :
    stitchCommit d by_ = modCell d c (fun x => withStitch x (fget d DBG_STITCH_SEL_INDEX) (stitchWord d)) := by
  have hstill : [0, 1, 2, 3].all (fun t => decide ((thread d c t).st = .brk) || decide ((thread d c t).st = .idle) || decide ((thread d c t).st = .fault)) =
      true := List.all_eq_true.mpr (fun t ht => by
      simp only [List.mem_cons, List.not_mem_nil, or_false] at ht
      simp [hs t (by omega)])
  have htb : fbit d DBG_STITCH_SEL_TARGET = false := by simp [fbit, htg]
  simp only [stitchCommit, hw, hp, hc, hstill, htb, hr, Nat.not_le.mpr hlt]
  rfl

/-- Settles O47: each write by its guard, and the page by its copies. -/
theorem debugControls : Obligations.DebugControls := by
  intro s by_ v
  refine ⟨fun hw => ⟨fun hl => ⟨?_, ?_, fun hr => ?_⟩, fun hno hh => ?none, fun c t th hc ht hh hlt hth hs hd => ?one, fun c t x th hc hx hs hd hn => ?all,
    fun hp => ?freeze, fun hp => ?noFreeze, fun k hp => ⟨?bp, ?cnt⟩, fun j => ?tagctr, fun c i w hp hc hi htg hlt hww => ⟨fun hr hs => ?still, fun hm => ?moved⟩⟩,
    fun hw k j i hi => ?denied, fun hp => ?page, fun hp => ?off⟩
  · exact runs_of (fun d => trcStart d by_) rfl (if_pos (by simp [hw, hl]))
  · exact runs_of (fun d => trcStop d by_) rfl (if_pos (by simp [hw, hl]))
  · exact runs_of (fun d => trcClear d by_) rfl (if_pos (by simp [hw, hl, fbit, hr]))
  case none =>
    refine runs_of (fun d => dbgResumeOne d by_) rfl ?_
    have heq : dbgResumeOne s.dev by_ = s.dev ∨ dbgResumeOne s.dev by_ = tryArrive s.dev := by
      simp only [dbgResumeOne, hw, Bool.not_true, fbit, hh, bne_self_eq_false, Bool.false_eq_true, if_false]
      split_ifs
      · exact .inl rfl
      · exact .inr (congrArg tryArrive (resumeThread_other (hno _ _)))
    rcases heq with heq | heq <;> rw [heq]
    · exact ⟨fun _ => rfl, rfl, RegsBut.refl _ _⟩
    · exact ⟨memSame_of (tryArrive_mem _), tryArrive_cells _, tryArrive_regsBut _ (by simp) _⟩
  case one =>
    refine runs_of (fun d => dbgResumeOne d by_) rfl ?_
    subst hth
    have heq : dbgResumeOne s.dev by_ = tryArrive (resumeThread s.dev c t) := by
      simp only [dbgResumeOne, hw, Bool.not_true, fbit, hh, bne_self_eq_false, Bool.false_eq_true, if_false, hc, ht, if_neg (Nat.not_le.mpr hlt)]
    rw [heq]
    refine ⟨?_, (resumeThread_cellsBut _ _ _).trans_eq (tryArrive_cells _), memSame_of ?_,
      (resumeThread_regsBut _ _ _).trans (tryArrive_regsBut _ (by simp) _)⟩
    · rw [thread_congr (tryArrive_cells _), resumeThread_thread hs hd]
    · rw [tryArrive_mem, resumeThread_mem]
  case all =>
    refine runs_of (fun d => dbgResumeAll d by_) rfl ?_
    have hth : thread s.dev c t = th := by simp [thread, getCell, hc, getTh, hx, smGet]
    rw [dbgResumeAll_one hw hc hx hs hn]
    refine ⟨?_, memSame_of ?_, (resumeThread_regsBut _ _ _).trans (tryArrive_regsBut _ (by simp) _)⟩
    · rw [thread_congr (tryArrive_cells _), resumeThread_thread (by rw [hth, hs]) (by rw [hth, hd]), hth]
    · rw [tryArrive_mem, resumeThread_mem]
  case freeze =>
    refine runs_of (fun d => dbgFreezeWrite d by_ v) rfl ?_
    have heq : dbgFreezeWrite s.dev by_ v = rset ({ s.dev with frozen := s.dev.frozen.lor v.toNat } : Dev) DBG_FREEZE v := if_neg (by simp [hw, hp])
    rw [heq]
    exact ⟨rget_rset_same _ _ _, rset_frozen _ _ _, memSame_of (rset_mem _ _ _), (regsBut_of _ rfl).rset (by simp) v, rset_cells _ _ _⟩
  case noFreeze => exact runs_of (fun d => dbgFreezeWrite d by_ v) rfl (if_pos (by simp [hp]))
  case bp =>
    refine runs_of (fun d => dbgBpWrite d by_ k v) rfl ?_
    have hcount : ∀ n, fget (fset (bpConfigured s.dev k v) (DBG_BP_CNT_MATCHES k) n) (DBG_BP_COUNT k) = fget (bpConfigured s.dev k v) (DBG_BP_COUNT k) :=
      fun n => fget_fset_ne _ _ _ _ (by dsimp only [DBG_BP_COUNT, DBG_BP_CNT_MATCHES, DBG_BP, DBG_BP_CNT]; omega)
    have hregs := bpConfigured_regsBut s.dev k v
    rw [dbgBpWrite_eq hw hp]
    split_ifs with h63
    · refine ⟨(hcount 0).trans (bpConfigured_count _ _ _), fun _ => ?_, memSame_of ?_, hregs.fset _ (by simp) 0⟩
      · rw [fget_fset _ _ _ (by dsimp only [DBG_BP_CNT_MATCHES]; omega)]
        exact Nat.zero_mod _
      · rw [fset_mem, bpConfigured_mem]
    · exact ⟨bpConfigured_count _ _ _, fun h => absurd h h63, memSame_of (bpConfigured_mem _ _ _), hregs⟩
  case cnt =>
    refine runs_of (fun d => dbgBpCntWrite d by_ k v) rfl ?_
    have heq : dbgBpCntWrite s.dev by_ k v = fset (fset s.dev (DBG_BP_CNT_TAG_VAL k) (bitsOf v 32 16)) (DBG_BP_CNT_MATCHES k) 0 := if_neg (by simp [hw, hp])
    rw [heq]
    refine ⟨?_, ?_, memSame_of (by rw [fset_mem, fset_mem]), ((RegsBut.refl _ _).fset _ (by simp [DBG_BP_CNT_TAG_VAL, DBG_BP_CNT_MATCHES]) _).fset _ (by simp) 0⟩
    · rw [fget_fset_skip _ _ _ _ (by dsimp only [DBG_BP_CNT_MATCHES]; omega) (by dsimp only [DBG_BP_CNT_MATCHES, DBG_BP_CNT_TAG_VAL]; omega),
        fget_fset _ _ _ (by dsimp only [DBG_BP_CNT_TAG_VAL]; omega)]
      exact Nat.mod_eq_of_lt (Nat.mod_lt _ (by positivity))
    · rw [fget_fset _ _ _ (by dsimp only [DBG_BP_CNT_MATCHES]; omega)]
      exact Nat.zero_mod _
  case tagctr =>
    refine runs_of (fun d => dbgTagctrCfgWrite d by_ j v) rfl ?_
    have heq : dbgTagctrCfgWrite s.dev by_ j v = rset (rset s.dev (DBG_TAGCTR_CFG j) (BitVec.ofNat 64 (v.toNat % 2 ^ 35))) (DBG_TAGCTR j) 0 :=
      if_neg (by simp [hw])
    rw [heq]
    refine ⟨?_, rget_rset_same _ _ _, memSame_of (by rw [rset_mem, rset_mem]), ((RegsBut.refl _ _).rset (by simp) _).rset (by simp) _⟩
    rw [rget_rset_ne _ (by dsimp only [DBG_TAGCTR_CFG, DBG_TAGCTR]; omega), rget_rset_same]
  case still =>
    subst hi hww
    exact runs_of (fun d => stitchCommit d by_) rfl (stitchCommit_still hw hp hc htg hlt hr hs)
  case moved =>
    obtain ⟨t, ht, hrun⟩ := hm
    exact runs_of (fun d => stitchCommit d by_) rfl (stitchCommit_moved hw hp hc ht hrun)
  case denied =>
    simp only [List.mem_cons, List.not_mem_nil, or_false] at hi
    rcases hi with rfl | rfl | rfl | rfl | rfl | rfl | rfl | rfl | rfl | rfl
    · exact runs_of (fun d => trcStart d by_) rfl (if_neg (by simp [hw]))
    · exact runs_of (fun d => trcStop d by_) rfl (if_neg (by simp [hw]))
    · exact runs_of (fun d => trcClear d by_) rfl (if_neg (by simp [hw]))
    · exact runs_of (fun d => dbgResumeAll d by_) rfl (if_pos (by simp [hw]))
    · exact runs_of (fun d => dbgResumeOne d by_) rfl (if_pos (by simp [hw]))
    · exact runs_of (fun d => stitchCommit d by_) rfl (if_pos (by simp [hw]))
    · exact runs_of (fun d => dbgFreezeWrite d by_ v) rfl (if_pos (by simp [hw]))
    · exact runs_of (fun d => dbgBpWrite d by_ k v) rfl (if_pos (by simp [hw]))
    · exact runs_of (fun d => dbgBpCntWrite d by_ k v) rfl (if_pos (by simp [hw]))
    · exact runs_of (fun d => dbgTagctrCfgWrite d by_ j v) rfl (if_pos (by simp [hw]))
  case page =>
    refine runs_of (fun d => telemetrySnapshot d) rfl ?_
    have hlow : ∀ o ∈ telemetrySources, o ≤ DBG_TELEM 0 := by decide
    have honly : OnlyRegs s.dev (rset (telemetryCopied s.dev 0 telemetrySources) (DBG_TELEM 0) (BitVec.ofNat 64 ((rget s.dev (DBG_TELEM 0)).toNat + 2))) :=
      (telemetryCopied_onlyRegs _ _ (OnlyRegs.refl _)).rset _ _
    rw [telemetrySnapshot_eq hp]
    refine ⟨?_, fun x hx => ?_, memSame_of honly.mem, honly⟩
    · rw [rget_rset_same, BitVec.toNat_ofNat]
    · have hidx : 0 < x.1 ∧ telemetrySources[x.1 - 1]? = some x.2 := by
        simp only [List.mem_cons, List.not_mem_nil, or_false] at hx
        rcases hx with rfl | rfl | rfl | rfl | rfl | rfl | rfl | rfl | rfl | rfl <;> exact ⟨by decide, rfl⟩
      have hfield := telemetryCopied_field telemetrySources s.dev 0 hlow (x.1 - 1) x.2 hidx.2
      rw [show 0 + (x.1 - 1) + 1 = x.1 by omega] at hfield
      rw [rget_rset_ne _ (by unfold DBG_TELEM; omega), hfield]
  case off => exact runs_of (fun d => telemetrySnapshot d) rfl (if_pos (by simp [hp]))

end Sys2Proof.Machine
end

section
/-! PROOF. The route of a message (R256 to R258). -/

namespace Sys2Proof.Machine

/-! ## The oldest message that waits for its route -/

/-- The device whose oldest waiting message is taken. -/
def withRoute (d : Dev) (rest : List Msg) : Dev := { d with toRoute := rest }

/-- What becomes of a message that has been taken. -/
def routed (d : Dev) (m : Msg) : Dev :=
  if m.dest = nodeId d then { d with inbox := d.inbox ++ [m] }
  else match flowPort d m with
    | some p => queueMsg d p m
    | none => discardMsg (fcount d TRF_CTR_UNROUTABLE 1) m

theorem messageRoute_eq {d : Dev} {m : Msg} {rest : List Msg} (h : d.toRoute = m :: rest) (t : Nat) :
    messageRoute d t = routed (withRoute (atTime d t) rest) m := by
  have h1 : (atTime d t).toRoute = m :: rest := h
  unfold messageRoute
  dsimp only
  rw [h1]
  rfl

section
variable {d : Dev} {m : Msg}

theorem routed_here (hm : m.dest = nodeId d) : routed d m = { d with inbox := d.inbox ++ [m] } := if_pos hm

theorem routed_port {p : Nat} (hm : m.dest ≠ nodeId d) (hp : flowPort d m = some p) : routed d m = queueMsg d p m := by
  rw [routed, if_neg hm, hp]

theorem routed_unroutable (hm : m.dest ≠ nodeId d) (hp : flowPort d m = none) :
    routed d m = discardMsg (fcount d TRF_CTR_UNROUTABLE 1) m := by
  rw [routed, if_neg hm, hp]

end

/-! ## A message that joins the queue of a port -/

theorem queueMsg_side (d : Dev) (p : Nat) (m : Msg) :
    (getPort (queueMsg d p m) p).side = (getPort d p).side ++ if 14 ≤ m.vc then [m] else [] := by
  simp only [queueMsg, getPort_modPort_same]
  split_ifs
  · rfl
  · exact (List.append_nil _).symm

@[simp] theorem queueMsg_regs (d : Dev) (p : Nat) (m : Msg) : (queueMsg d p m).regs = d.regs := (rfl)
@[simp] theorem queueMsg_mem (d : Dev) (p : Nat) (m : Msg) : (queueMsg d p m).mem = d.mem := (rfl)
@[simp] theorem queueMsg_cells (d : Dev) (p : Nat) (m : Msg) : (queueMsg d p m).cells = d.cells := (rfl)

/-- Settles O52: a message is delivered at its destination, and elsewhere the port that carries its flow decides. -/
theorem messageRouting : Obligations.MessageRouting := by
  unfold Obligations.MessageRouting
  intro s t m rest d0 h hd
  obtain rfl : d0 = withRoute (atTime s.dev t) rest := hd
  have hrun : ∀ P : Dev → Prop, P (routed (withRoute (atTime s.dev t) rest) m) → Runs (.messageRoute t) s P := fun P hP =>
    runs_of (fun d => messageRoute d t) rfl (by rwa [messageRoute_eq h])
  refine ⟨fun hm => hrun _ (routed_here hm), fun p hm hp => hrun _ ?_, fun hm hp => hrun _ (routed_unroutable hm hp)⟩
  rw [routed_port (d := withRoute (atTime s.dev t) rest) hm hp]
  exact ⟨rfl, queueMsg_side _ p m, memSame_of (queueMsg_mem _ p m), regsBut_of [] (queueMsg_regs _ p m), queueMsg_cells _ p m⟩

end Sys2Proof.Machine
end

section
/-! PROOF. Flits (R247 to R249, R254, R255). -/

namespace Sys2Proof.Machine

/-! ## What a port's sluice of held flits leaves -/

/-- What a part of the device has to be kept by, for the sluice of a port's flits to keep it. -/
structure KeptByFlits {α : Type} (get : Dev → α) : Prop where
  slc : KeptBySluices get
  outbox : ∀ (d : Dev) q, get { d with kpr := { d.kpr with outbox := q } } = get d
  badOps : ∀ d i n, get (fcount d (SLC_CTR_BAD_OPS i) n) = get d
  rewinds : ∀ d i n, get (fcount d (SLC_CTR_REWINDS i) n) = get d

namespace KeptByFlits
variable {α : Type} {get : Dev → α} (h : KeptByFlits get)
include h

theorem slcTake (d : Dev) (i : Nat) : get (slcTake d i) = get d := by
  simp only [Machine.slcTake]
  split_ifs
  · rfl
  · rw [h.slc.setSlc]

theorem slcRelease (d : Dev) (i n : Nat) : get (slcRelease d i n) = get d := by
  rw [slcRelease_eq, h.slc.setSlc]
  split_ifs
  · rw [h.badOps]
  · rfl

theorem slcSync (d : Dev) (i : Nat) (b : Bool) : get (slcSync d i b) = get d := by
  simp only [Machine.slcSync]
  split_ifs
  · rw [h.slc.respFlush h.outbox, h.slc.slcMarks, h.slc.setSlc]
  · rw [h.slc.setSlc]

theorem slcRewind (d : Dev) (i : Nat) : get (slcRewind d i) = get d := by
  simp only [Machine.slcRewind]
  rw [h.rewinds, h.slc.setSlc]

/-- The places of flits that are acknowledged are released. -/
theorem slcFlitsFreed (d : Dev) (p n : Nat) : get (slcFlitsFreed d p n) = get d := by
  simp only [Machine.slcFlitsFreed]
  split_ifs
  · rfl
  · rw [h.slcSync, h.slcRelease, foldl_keeps get _ (fun d _ => h.slcTake d _)]

end KeptByFlits

theorem keptByFlits_mem : KeptByFlits Dev.mem := ⟨keptBySluices_mem, fun _ _ => rfl, fun _ _ _ => fcount_mem _ _ _, fun _ _ _ => fcount_mem _ _ _⟩

theorem keptByFlits_cells : KeptByFlits Dev.cells := ⟨keptBySluices_cells, fun _ _ => rfl, fun _ _ _ => fcount_cells _ _ _, fun _ _ _ => fcount_cells _ _ _⟩

theorem keptBySluices_ports : KeptBySluices Dev.ports :=
  ⟨fun _ _ _ => rfl, fun _ _ _ => fcount_ports _ _ _, fun _ _ _ => raiseEvent_ports _ _ _, fun _ _ => rfl, fun _ _ => rset_ports _ _ _⟩

theorem keptByFlits_ports : KeptByFlits Dev.ports :=
  ⟨keptBySluices_ports, fun _ _ => rfl, fun _ _ _ => fcount_ports _ _ _, fun _ _ _ => fcount_ports _ _ _⟩

theorem keptBySluices_inbox : KeptBySluices Dev.inbox :=
  ⟨fun _ _ _ => rfl, fun _ _ _ => fcount_inbox _ _ _, fun _ _ _ => raiseEvent_inbox _ _ _, fun _ _ => rfl, fun _ _ => rset_inbox _ _ _⟩

theorem keptByFlits_inbox : KeptByFlits Dev.inbox :=
  ⟨keptBySluices_inbox, fun _ _ => rfl, fun _ _ _ => fcount_inbox _ _ _, fun _ _ _ => fcount_inbox _ _ _⟩

theorem keptBySluices_toRoute : KeptBySluices Dev.toRoute :=
  ⟨fun _ _ _ => rfl, fun _ _ _ => fcount_toRoute _ _ _, fun _ _ _ => raiseEvent_toRoute _ _ _, fun _ _ => rfl, fun _ _ => rset_toRoute _ _ _⟩

theorem keptByFlits_toRoute : KeptByFlits Dev.toRoute :=
  ⟨keptBySluices_toRoute, fun _ _ => rfl, fun _ _ _ => fcount_toRoute _ _ _, fun _ _ _ => fcount_toRoute _ _ _⟩

/-- The registers below the sluices' are kept. -/
theorem keptByFlits_rget {o : Nat} (h : o < 0x750000) : KeptByFlits (fun d => rget d o) :=
  have hc : ∀ i, o ≠ SLC_CTR i := fun i => by unfold SLC_CTR; omega
  ⟨keptBySluices_rget_low h, fun _ _ => rfl, fun _ i _ => rget_fcount_ne _ _ _ (hc i), fun _ i _ => rget_fcount_ne _ _ _ (hc i)⟩

theorem keptByFlits_fget {f : Fld} (h : f.off < 0x750000) : KeptByFlits (fun d => fget d f) :=
  have hr := keptByFlits_rget h
  ⟨⟨fun d i q => fget_congr f (hr.slc.setSlc d i q), fun d i n => fget_congr f (hr.slc.changes d i n), fun d p n => fget_congr f (hr.slc.raise d p n),
    fun d o => fget_congr f (hr.slc.emit d o), fun d v => fget_congr f (hr.slc.pins d v)⟩, fun d q => fget_congr f (hr.outbox d q),
    fun d i n => fget_congr f (hr.badOps d i n), fun d i n => fget_congr f (hr.rewinds d i n)⟩

/-- What of a port an acknowledgement does not touch: what it expects, and whether it owes a NAK or skips. -/
def awaits (d : Dev) (p : Nat) : Nat × Bool × Bool := ((getPort d p).expSeq, (getPort d p).nakOwed, (getPort d p).skipping)

theorem awaits_of_ports {d d' : Dev} (h : d'.ports = d.ports) (p : Nat) : awaits d' p = awaits d p := by simp only [awaits, getPort, h]

theorem awaits_modPort (d : Dev) (p : Nat) {g : Port → Port} (hg : ∀ q, ((g q).expSeq, (g q).nakOwed, (g q).skipping) = (q.expSeq, q.nakOwed, q.skipping)) :
    awaits (modPort d p g) p = awaits d p := by
  rw [awaits, getPort_modPort_same, hg, awaits]

theorem resendAll_awaits (d : Dev) (p : Nat) : awaits (resendAll d p) p = awaits d p := by
  rw [resendAll, awaits_of_ports (keptByFlits_ports.slcRewind _ _)]
  exact awaits_modPort _ _ fun _ => rfl

theorem ackUpTo_awaits (d : Dev) (p n : Nat) : awaits (ackUpTo d p n) p = awaits d p := by
  rw [ackUpTo, ← awaits_of_ports (keptByFlits_ports.slcFlitsFreed d p ((getPort d p).held.filter (fun h => seqBefore h.flit.seq n)).length)]
  exact awaits_modPort _ _ fun _ => rfl

/-- What the sluice of a port's flits keeps, and its ports do not show, an acknowledgement keeps. -/
theorem KeptByFlits.ackUpTo {α : Type} {get : Dev → α} (h : KeptByFlits get) (hp : ∀ d p g, get (modPort d p g) = get d) (d : Dev) (p n : Nat) :
    get (ackUpTo d p n) = get d := by
  rw [Machine.ackUpTo, hp, h.slcFlitsFreed]

theorem KeptByFlits.resendAll {α : Type} {get : Dev → α} (h : KeptByFlits get) (hp : ∀ d p g, get (modPort d p g) = get d) (d : Dev) (p : Nat) :
    get (resendAll d p) = get d := by
  rw [Machine.resendAll, h.slcRewind, hp]

/-! ## A flit that comes -/

/-- The next flit of the port is not the one that came: one NAK becomes due. -/
def skipFlit (p : Nat) (d : Dev) : Dev := modPort d p (fun q => { q with nakOwed := q.nakOwed || !q.skipping, skipping := true })

/-- The port with the credits that a flit returns. -/
def takeCredits (d : Dev) (p : Nat) (f : Flit) : Dev :=
  modPort d p (fun q => { q with credits := f.credits.foldl (fun m c => smModify (fun _ => 0) m c.1 (· - c.2)) q.credits })

/-- The port after the acknowledgement of a flit. -/
def takeAck (d : Dev) (p : Nat) (f : Flit) : Dev :=
  if f.nak then resendAll (ackUpTo d p f.ack) p else ackUpTo d p ((f.ack + 1) % 65536)

/-- The status of a port shows the flits it holds. -/
def showHeld (d : Dev) (p : Nat) : Dev := fset d (TRF_PORT_STATUS_HELD p) (getPort d p).held.length

/-- The flit of the expected SEQ is counted. -/
def takeSeq (d : Dev) (p : Nat) : Dev := modPort d p (fun q => { q with expSeq := (q.expSeq + 1) % 65536, skipping := false })

section
variable {d : Dev} {p : Nat} {f : Flit}

theorem flitReceive_off (h : (getPort d p).retrying = true) : flitReceive d p f = d := if_pos (by simp [h])

variable (hp : portState d p = 3) (hr : (getPort d p).retrying = false)
include hp hr

theorem portActive : ¬ (portState d p ≠ psUp || (getPort d p).retrying) = true := by simp [hp, hr, psUp]

theorem flitReceive_bad (hc : f.crcOk = false) : flitReceive d p f = skipFlit p (fcount d (TRF_PORT_LINK_CRC_ERRS p) 1) :=
  (if_neg (portActive hp hr)).trans (if_pos (by simp [hc]))

theorem flitReceive_good (hc : f.crcOk = true) : flitReceive d p f =
    if !f.message then showHeld (takeAck (takeCredits d p f) p f) p
    else if f.seq ≠ (getPort (showHeld (takeAck (takeCredits d p f) p f) p) p).expSeq then skipFlit p (showHeld (takeAck (takeCredits d p f) p f) p)
    else f.msgs.foldl (acceptMsg p) (takeSeq (showHeld (takeAck (takeCredits d p f) p f) p) p) :=
  (if_neg (portActive hp hr)).trans (if_neg (by simp [hc]))

end


theorem takeAck_awaits (d : Dev) (p : Nat) (f : Flit) : awaits (takeAck d p f) p = awaits d p := by
  unfold takeAck
  split_ifs
  · rw [resendAll_awaits, ackUpTo_awaits]
  · rw [ackUpTo_awaits]

theorem KeptByFlits.takeAck {α : Type} {get : Dev → α} (h : KeptByFlits get) (hp : ∀ d p g, get (modPort d p g) = get d) (d : Dev) (p : Nat) (f : Flit) :
    get (takeAck d p f) = get d := by
  unfold Machine.takeAck
  split_ifs
  · rw [h.resendAll hp, h.ackUpTo hp]
  · rw [h.ackUpTo hp]

/-- The port when a good flit's credits and acknowledgement have been taken. -/
def acked (d : Dev) (p : Nat) (f : Flit) : Dev := showHeld (takeAck (takeCredits d p f) p f) p

theorem acked_awaits (d : Dev) (p : Nat) (f : Flit) : awaits (acked d p f) p = awaits d p := by
  rw [acked, showHeld, awaits_of_ports (fset_ports _ _ _), takeAck_awaits]
  exact awaits_modPort _ _ fun _ => rfl

theorem acked_expSeq (d : Dev) (p : Nat) (f : Flit) : (getPort (acked d p f) p).expSeq = (getPort d p).expSeq := congrArg (·.1) (acked_awaits d p f)

theorem acked_inbox (d : Dev) (p : Nat) (f : Flit) : (acked d p f).inbox = d.inbox := by
  rw [acked, showHeld, fset_inbox, keptByFlits_inbox.takeAck modPort_inbox, takeCredits, modPort_inbox]

theorem acked_toRoute (d : Dev) (p : Nat) (f : Flit) : (acked d p f).toRoute = d.toRoute := by
  rw [acked, showHeld, fset_toRoute, keptByFlits_toRoute.takeAck modPort_toRoute, takeCredits, modPort_toRoute]

section
variable {d : Dev} {p : Nat} {f : Flit} (hp : portState d p = 3) (hr : (getPort d p).retrying = false) (hc : f.crcOk = true)
include hp hr hc

theorem flitReceive_idle (hm : f.message = false) : flitReceive d p f = acked d p f :=
  (flitReceive_good hp hr hc).trans (if_pos (by simp [hm]))

theorem flitReceive_next (hm : f.message = true) (hs : f.seq = (getPort d p).expSeq) :
    flitReceive d p f = f.msgs.foldl (acceptMsg p) (takeSeq (acked d p f) p) :=
  (flitReceive_good hp hr hc).trans ((if_neg (by simp [hm])).trans (if_neg (not_not.2 (hs.trans (acked_expSeq d p f).symm))))

theorem flitReceive_skip (hm : f.message = true) (hs : f.seq ≠ (getPort d p).expSeq) : flitReceive d p f = skipFlit p (acked d p f) :=
  (flitReceive_good hp hr hc).trans ((if_neg (by simp [hm])).trans (if_pos (fun he => hs (he.trans (acked_expSeq d p f)))))

end

theorem skipFlit_port (d : Dev) (p : Nat) : (getPort (skipFlit p d) p).skipping = true ∧
    (getPort (skipFlit p d) p).nakOwed = ((getPort d p).nakOwed || !(getPort d p).skipping) ∧ (getPort (skipFlit p d) p).expSeq = (getPort d p).expSeq := by
  rw [skipFlit, getPort_modPort_same]
  exact ⟨rfl, rfl, rfl⟩

/-! ## A flit that goes -/

/-- The idle flit of a port. -/
def idleFlit (d : Dev) (p : Nat) (q : Port) : Dev :=
  let (ack, nak, cr, q) := flitFields q
  sendFlit d p q { seq := 0, ack := ack, message := false, nak := nak, used := 0, credits := cr, msgs := [], crcOk := true }

/-- The message flit of a port that has been filled. -/
def messageFlit (d : Dev) (p : Nat) (fl : Filling) : Dev :=
  let (ack, nak, cr, q) := flitFields fl.port
  let f : Flit := { seq := q.nextSeq, ack := ack, message := true, nak := nak, used := 15 - fl.room, credits := cr, msgs := fl.ends, crcOk := true }
  sendFlit (slcFlit d p) p { q with nextSeq := (q.nextSeq + 1) % 65536, held := q.held ++ [{ flit := f, begins := fl.begins, resent := 0 }] } f

theorem flitTransmit_off {d : Dev} {p : Nat} (h : (getPort d p).retrying = true) : flitTransmit d p = d := if_pos (by simp [h])

section
variable {d : Dev} {p : Nat} (hp : portState d p = 3) (hr : (getPort d p).retrying = false)
include hp hr

theorem flitTransmit_again {n : Nat} {rest : List Nat} {h : HeldFlit} (hq : (getPort d p).resend = n :: rest)
    (hh : (getPort d p).held.find? (fun h => h.flit.seq == n) = some h) :
    flitTransmit d p = if 8 ≤ h.resent then retryLimit d p else sendAgain d p h rest := by
  refine (if_neg (portActive hp hr)).trans ?_
  rw [hq]
  dsimp only
  rw [hh]

theorem flitTransmit_new (hq : (getPort d p).resend = []) (hh : (getPort d p).held.length < 1024) :
    flitTransmit d p = if (fillFlit d (getPort d p)).room = 15 then idleFlit d p (getPort d p) else messageFlit d p (fillFlit d (getPort d p)) := by
  refine (if_neg (portActive hp hr)).trans ?_
  rw [hq]
  exact if_neg (Nat.not_le.2 hh)

end

theorem idleFlit_eq {q q' : Port} {ack : Nat} {nak : Bool} {cr : List (Nat × Nat)} (h : flitFields q = (ack, nak, cr, q')) (d : Dev) (p : Nat) :
    idleFlit d p q = sendFlit d p q' { seq := 0, ack := ack, message := false, nak := nak, used := 0, credits := cr, msgs := [], crcOk := true } := by
  simp only [idleFlit, h]

/-! ## Replay and retrain -/

section
variable {d : Dev} {p : Nat}

theorem replayTimeout_off (h : (getPort d p).retrying = true) : replayTimeout d p = d := if_neg (by simp [h])

theorem replayTimeout_on (hp : portState d p = 3) (hr : (getPort d p).retrying = false) : replayTimeout d p = resendAll d p :=
  if_pos (by simp [hp, hr, psUp])

theorem portRetrainDone_idle (hr : (getPort d p).retrying = false) (locked : Bool) : portRetrainDone d p locked = d := if_pos (by simp [hr])

variable (hr : (getPort d p).retrying = true)
include hr

theorem portRetrainDone_locked : portRetrainDone d p true = resendAll (modPort d p (fun q => { q with retrying := false })) p :=
  if_neg (by simp [hr])

theorem portRetrainDone_last (hf : 3 ≤ (getPort d p).trainFail) : portRetrainDone d p false = portRetire d p 7 :=
  (if_neg (by simp [hr])).trans (if_pos hf)

theorem portRetrainDone_again (hf : (getPort d p).trainFail < 3) :
    portRetrainDone d p false = startRetrain (modPort d p (fun q => { q with trainFail := q.trainFail + 1 })) p :=
  (if_neg (by simp [hr])).trans (if_neg (Nat.not_le.2 hf))

end

/-- Settles O50: each outcome of a flit received or sent by its own equation, over the acknowledgement that all good flits share. -/
theorem flits : Obligations.Flits := by
  unfold Obligations.Flits
  rintro s p q rfl hp
  refine ⟨fun hr => ⟨fun f hc => ?bad, ?good, ?idle, ?fresh, ?again, ?replay, fun locked => ?done⟩,
    fun hr => ⟨fun f => ?offIn, ?offOut, ?offReplay, ?locked, fun hf => ?last, fun hf => ?retry⟩⟩
  case bad =>
    refine runs_of (fun d => flitReceive d p f) rfl ?_
    rw [flitReceive_bad hp hr hc]
    obtain ⟨hskip, hnak, hseq⟩ := skipFlit_port (fcount s.dev (TRF_PORT_LINK_CRC_ERRS p) 1) p
    exact ⟨hskip, hnak, hseq, rfl, rfl, memSame_of rfl, rfl⟩
  case good =>
    rintro f d1 d2 hc rfl rfl
    refine ⟨fun hm => runs_of (fun d => flitReceive d p f) rfl (flitReceive_idle hp hr hc hm),
      fun hm hs => runs_of (fun d => flitReceive d p f) rfl (flitReceive_next hp hr hc hm hs), fun hm hs => runs_of (fun d => flitReceive d p f) rfl ?_⟩
    rw [flitReceive_skip hp hr hc hm hs]
    obtain ⟨hskip, hnak, hseq⟩ := skipFlit_port (acked s.dev p f) p
    have haw := acked_awaits s.dev p f
    simp only [awaits, Prod.mk.injEq] at haw
    obtain ⟨hexp, howed, hwas⟩ := haw
    exact ⟨hskip, hseq.trans hexp, by rw [hnak, howed, hwas], acked_inbox s.dev p f, acked_toRoute s.dev p f⟩
  case idle =>
    intro ack nak cr q' hq hh hroom hf
    exact runs_of (fun d => flitTransmit d p) rfl ((flitTransmit_new hp hr hq hh).trans ((if_pos hroom).trans (idleFlit_eq hf _ _)))
  case fresh =>
    rintro ack nak cr q' f hq hh hroom hf rfl
    refine runs_of (fun d => flitTransmit d p) rfl ((flitTransmit_new hp hr hq hh).trans ((if_neg hroom).trans ?_))
    simp only [messageFlit, hf]
  case again =>
    intro n rest h hq hh
    exact ⟨fun hn => runs_of (fun d => flitTransmit d p) rfl ((flitTransmit_again hp hr hq hh).trans (if_neg (Nat.not_le.2 hn))),
      fun hn => runs_of (fun d => flitTransmit d p) rfl ((flitTransmit_again hp hr hq hh).trans (if_pos hn))⟩
  case replay => exact runs_of (fun d => replayTimeout d p) rfl (replayTimeout_on hp hr)
  case done => exact runs_of (fun d => portRetrainDone d p locked) rfl (portRetrainDone_idle hr locked)
  case offIn => exact runs_of (fun d => flitReceive d p f) rfl (flitReceive_off hr)
  case offOut => exact runs_of (fun d => flitTransmit d p) rfl (flitTransmit_off hr)
  case offReplay => exact runs_of (fun d => replayTimeout d p) rfl (replayTimeout_off hr)
  case locked => exact runs_of (fun d => portRetrainDone d p true) rfl (portRetrainDone_locked hr)
  case last => exact runs_of (fun d => portRetrainDone d p false) rfl (portRetrainDone_last hr hf)
  case retry => exact runs_of (fun d => portRetrainDone d p false) rfl (portRetrainDone_again hr hf)

end Sys2Proof.Machine
end

section
/-! PROOF. The ports of TRAFORT: bring-up and what takes a port down (R243 to R245, R249, R263). -/

namespace Sys2Proof.Machine

/-! ## The registers of the ports -/

/-- A field of a register of one of the ports. -/
def OfPorts (f : Fld) : Prop := 0x731000 ≤ f.off ∧ f.off < 0x740000

theorem OfPorts.below {f : Fld} (h : OfPorts f) : f.off < 0x750000 := by unfold OfPorts at h; omega

theorem addFault_ofPorts (d : Dev) (typ : Nat) (st : Status) (flags uclass unit tag cause det0 det1 : Nat) (pl : List Byte) {f : Fld} (h : OfPorts f) :
    fget (addFault d typ st flags uclass unit tag cause det0 det1 pl) f = fget d f := by
  unfold OfPorts at h
  refine fget_congr f (addFault_rget _ _ _ _ _ _ _ _ _ _ _ ?_ ?_ ?_ ?_ ?_ ?_) <;>
    simp only [KPR_FLOG_STATUS, KPR_FLOG_NEWEST, KPR_FLOG_OLDEST, HIF_EVENT, DBG_TRC_STATUS] <;> omega

theorem raiseBoth_ofPorts (d : Dev) (n : Nat) {f : Fld} (h : OfPorts f) : fget (raiseBoth d n) f = fget d f := by
  unfold OfPorts at h
  refine raiseBoth_fget _ _ _ ?_ ?_ <;> simp only [HIF_EVENT] <;> omega

/-- What a change of state writes of the port's own registers. -/
theorem setPortState_ofPorts (d : Dev) (p st reason : Nat) {f : Fld} (h : OfPorts f) :
    fget (setPortState d p st reason) f = fget (fset (fset d (TRF_PORT_STATUS_STATE p) st) (TRF_PORT_STATUS_REASON p) reason) f := by
  have ht : f.off ≠ TRF_STATUS := by unfold OfPorts at h; unfold TRF_STATUS; omega
  have hk : f.off ≠ KPR_READY := by unfold OfPorts at h; unfold KPR_READY; omega
  simp only [setPortState]
  split_ifs
  · rw [fget_rsetBit_ne _ _ _ _ hk, fget_rsetBit_ne _ _ _ _ ht, fget_rsetBit_ne _ _ _ _ ht]
  · rw [raiseBoth_ofPorts _ _ h, fget_rsetBit_ne _ _ _ _ hk, fget_rsetBit_ne _ _ _ _ ht, fget_rsetBit_ne _ _ _ _ ht]

section
variable {p : Nat} (hp : p < 12)
include hp

theorem ofPorts_status (lo wid : Nat) : OfPorts ⟨TRF_PORT_STATUS p, lo, wid⟩ := by dsimp only [OfPorts, TRF_PORT_STATUS]; omega
theorem ofPorts_ctl (lo wid : Nat) : OfPorts ⟨TRF_PORT_CTL p, lo, wid⟩ := by dsimp only [OfPorts, TRF_PORT_CTL]; omega
theorem ofPorts_peer (lo wid : Nat) : OfPorts ⟨TRF_PORT_PEER p, lo, wid⟩ := by dsimp only [OfPorts, TRF_PORT_PEER]; omega

theorem ofPorts_lane {l : Nat} (hl : l < 8) (lo wid : Nat) : OfPorts ⟨TRF_LANE p l, lo, wid⟩ := by dsimp only [OfPorts, TRF_LANE]; omega

theorem portState_setPortState (d : Dev) {st : Nat} (hs : st < 16) (reason : Nat) : portState (setPortState d p st reason) p = st := by
  rw [portState, setPortState_ofPorts _ _ _ _ (f := TRF_PORT_STATUS_STATE p) (ofPorts_status hp 60 4), fget_fset_skip _ _ _ _ (by exact (by decide : 56 + 4 ≤ 64))
    (.inr (.inr (by exact (by decide : 56 + 4 ≤ 60)))), fget_fset _ _ _ (by exact (by decide : 60 + 4 ≤ 64))]
  exact Nat.mod_eq_of_lt hs

theorem reason_setPortState (d : Dev) (st : Nat) {reason : Nat} (hr : reason < 16) :
    fget (setPortState d p st reason) (TRF_PORT_STATUS_REASON p) = reason := by
  rw [setPortState_ofPorts _ _ _ _ (f := TRF_PORT_STATUS_REASON p) (ofPorts_status hp 56 4), fget_fset _ _ _ (by exact (by decide : 56 + 4 ≤ 64))]
  exact Nat.mod_eq_of_lt hr

end

/-- A field of the ports apart from STATE and REASON is not written by a change of state. -/
theorem setPortState_apart (d : Dev) (p st reason : Nat) {f : Fld} (h : OfPorts f) (ha : f.off ≠ TRF_PORT_STATUS p ∨ f.lo + f.wid ≤ 56) :
    fget (setPortState d p st reason) f = fget d f := by
  rw [setPortState_ofPorts _ _ _ _ h, fget_fset_skip _ _ _ _ (by decide : 56 + 4 ≤ 64) (ha.imp_right .inl),
    fget_fset_skip _ _ _ _ (by decide : 60 + 4 ≤ 64) (ha.imp_right fun hf => .inl (hf.trans (by exact (by decide : 56 ≤ 60))))]

theorem setPortState_mem (d : Dev) (p st reason : Nat) : (setPortState d p st reason).mem = d.mem :=
  setPortState_keeps (get := Dev.mem) (fun _ _ => rfl) (fun d => raiseBoth_mem d 24) d p st reason

theorem setPortState_cells (d : Dev) (p st reason : Nat) : (setPortState d p st reason).cells = d.cells :=
  setPortState_keeps (get := Dev.cells) (fun _ _ => rfl) (fun d => raiseBoth_cells d 24) d p st reason

theorem setPortState_ports (d : Dev) (p st reason : Nat) : (setPortState d p st reason).ports = d.ports :=
  setPortState_keeps (get := Dev.ports) (fun _ _ => rfl) (fun d => raiseBoth_ports d 24) d p st reason

theorem getPort_of_ports {d d' : Dev} (h : d'.ports = d.ports) (p : Nat) : getPort d' p = getPort d p := by rw [getPort, getPort, h]

/-! ## Lanes -/

/-- A fold each of whose steps writes registers only does so too. -/
theorem OnlyRegs.foldl {α : Type} {g : Dev → α → Dev} (h : ∀ d a, OnlyRegs d (g d a)) (l : List α) (d : Dev) : OnlyRegs d (l.foldl g d) := by
  induction l generalizing d with
  | nil => exact OnlyRegs.refl d
  | cons a l ih => exact (h d a).trans (ih (g d a))

theorem OnlyRegs.cells {d d' : Dev} (h : OnlyRegs d d') : d'.cells = d.cells := by have e := congrArg Dev.cells h; exact e
theorem OnlyRegs.ports {d d' : Dev} (h : OnlyRegs d d') : d'.ports = d.ports := by have e := congrArg Dev.ports h; exact e

theorem lanesDown_onlyRegs (d : Dev) (p : Nat) : OnlyRegs d (lanesDown d p) :=
  ((OnlyRegs.foldl (fun d _ => (OnlyRegs.refl d).fset _ _) _ d).fset _ _).fset _ _

theorem applyWidth_onlyRegs (d : Dev) (p : Nat) : OnlyRegs d (applyWidth d p) :=
  (((OnlyRegs.foldl (fun d _ => (OnlyRegs.refl d).fset _ _) _ d).fset _ _).fset _ _).fset _ _

/-- The lanes that go down are the port's own. -/
theorem lanesDown_fget (d : Dev) (p : Nat) {f : Fld} (hs : f.off ≠ TRF_PORT_STATUS p) (hl : ∀ l, f.off ≠ TRF_LANE p l) : fget (lanesDown d p) f = fget d f := by
  simp only [lanesDown]
  rw [fget_fset_ne _ _ _ _ hs, fget_fset_ne _ _ _ _ hs]
  exact foldl_keeps (fun d => fget d f) _ (fun d l => fget_fset_ne _ _ _ _ (hl l)) _ d

/-! ## A port that goes down -/

/-- The sluice of a port's flits gives up what the port holds. -/
def heldFreed (d : Dev) (p : Nat) : Dev := slcFlitsFreed d p (getPort d p).held.length

/-- A port that forgets what it held and queued, but for its cable and the lane it lost. -/
def emptied (q : Port) : Port := { portReset with cable := q.cable, cableOk := q.cableOk, laneLost := q.laneLost }

/-- The messages of a port that goes down wait for a new route, and its flows are forgotten. -/
def rerouted (d : Dev) (p : Nat) (again : List Msg) : Dev :=
  { d with toRoute := d.toRoute ++ again, flows := d.flows.filter (fun f => f.port != p) }

/-- The registers of a port that goes down. -/
def downRegs (d : Dev) (p st reason : Nat) : Dev :=
  fset (setPortState (fset (lanesDown d p) (TRF_PORT_STATUS_HELD p) 0) p st reason) (TRF_PORT_PEER_VALID p) 0

theorem portTakedown_eq (d : Dev) (p st reason : Nat) : portTakedown d p st reason = (unackedMsgs (getPort d p)).foldl discardMsg
    (downRegs (rerouted (modPort (heldFreed d p) p emptied) p ((waitingMsgs (getPort d p)).filter (fun m => m.dest != 0xFFFF))) p st reason) := (rfl)

theorem heldFreed_rerouted_keeps {α : Type} {get : Dev → α} (h : KeptByFlits get) (hp : ∀ d p g, get (modPort d p g) = get d)
    (hr : ∀ d p again, get (rerouted d p again) = get d) (d : Dev) (p : Nat) (again : List Msg) :
    get (rerouted (modPort (heldFreed d p) p emptied) p again) = get d := by
  rw [hr, hp, heldFreed, h.slcFlitsFreed]

theorem downRegs_keeps {α : Type} {get : Dev → α} (hlanes : ∀ d p, get (lanesDown d p) = get d) (hset : ∀ d f v, get (fset d f v) = get d)
    (hst : ∀ d p st reason, get (setPortState d p st reason) = get d) (d : Dev) (p st reason : Nat) : get (downRegs d p st reason) = get d := by
  rw [downRegs, hset, hst, hset, hlanes]

section
variable {d : Dev} {p : Nat} (hg : unackedMsgs (getPort d p) = [])
include hg

theorem portTakedown_quiet (st reason : Nat) : portTakedown d p st reason =
    downRegs (rerouted (modPort (heldFreed d p) p emptied) p ((waitingMsgs (getPort d p)).filter (fun m => m.dest != 0xFFFF))) p st reason := by
  rw [portTakedown_eq, hg]
  rfl

theorem portTakedown_mem (st reason : Nat) : (portTakedown d p st reason).mem = d.mem := by
  rw [portTakedown_quiet hg, downRegs_keeps (get := Dev.mem) (fun d p => (lanesDown_onlyRegs d p).mem) fset_mem setPortState_mem,
    heldFreed_rerouted_keeps keptByFlits_mem modPort_mem (fun _ _ _ => rfl)]

theorem portTakedown_cells (st reason : Nat) : (portTakedown d p st reason).cells = d.cells := by
  rw [portTakedown_quiet hg, downRegs_keeps (get := Dev.cells) (fun d p => (lanesDown_onlyRegs d p).cells) fset_cells setPortState_cells,
    heldFreed_rerouted_keeps keptByFlits_cells modPort_cells (fun _ _ _ => rfl)]

theorem portTakedown_port (st reason : Nat) : getPort (portTakedown d p st reason) p = emptied (getPort d p) := by
  have hports := downRegs_keeps (get := Dev.ports) (fun d p => (lanesDown_onlyRegs d p).ports) fset_ports setPortState_ports
  rw [portTakedown_quiet hg, getPort_of_ports (hports _ p st reason)]
  refine (getPort_modPort_same (heldFreed d p) p emptied).trans (congrArg emptied ?_)
  exact getPort_of_ports (keptByFlits_ports.slcFlitsFreed _ _ _) p

variable (hp : p < 12)
include hp

theorem portTakedown_state {st : Nat} (hs : st < 16) (reason : Nat) : portState (portTakedown d p st reason) p = st := by
  rw [portTakedown_quiet hg, downRegs, portState, fget_fset_ne _ _ _ _ (by dsimp only [TRF_PORT_STATUS_STATE, TRF_PORT_PEER_VALID]; unfold TRF_PORT_STATUS TRF_PORT_PEER; omega)]
  exact portState_setPortState hp _ hs reason

theorem portTakedown_reason (st : Nat) {reason : Nat} (hr : reason < 16) : fget (portTakedown d p st reason) (TRF_PORT_STATUS_REASON p) = reason := by
  rw [portTakedown_quiet hg, downRegs, fget_fset_ne _ _ _ _ (by dsimp only [TRF_PORT_STATUS_REASON, TRF_PORT_PEER_VALID]; unfold TRF_PORT_STATUS TRF_PORT_PEER; omega)]
  exact reason_setPortState hp _ st hr

theorem portTakedown_ctl (st reason : Nat) : fget (portTakedown d p st reason) (TRF_PORT_CTL_DISABLE p) = fget d (TRF_PORT_CTL_DISABLE p) := by
  have hs : TRF_PORT_CTL p ≠ TRF_PORT_STATUS p := by unfold TRF_PORT_CTL TRF_PORT_STATUS; omega
  have hl : ∀ l, TRF_PORT_CTL p ≠ TRF_LANE p l := fun l => by unfold TRF_PORT_CTL TRF_LANE; omega
  have hpeer : TRF_PORT_CTL p ≠ TRF_PORT_PEER p := by unfold TRF_PORT_CTL TRF_PORT_PEER; omega
  have ho : OfPorts (TRF_PORT_CTL_DISABLE p) := ofPorts_ctl hp 0 1
  rw [portTakedown_quiet hg, downRegs, fget_fset_ne _ _ _ _ hpeer, setPortState_apart _ _ _ _ ho (.inl hs), fget_fset_ne _ _ _ _ hs, lanesDown_fget _ _ hs hl]
  exact heldFreed_rerouted_keeps (keptByFlits_fget ho.below) (fun d p g => fget_of_regs (modPort_regs d p g) _) (fun _ _ _ => rfl) d p _

end

/-! ## Training -/

/-- A cable comes or goes. -/
def withCable (d : Dev) (p : Nat) : Dev := modPort d p (fun q => { q with cable := true })

/-- The cable of a port is pulled. -/
def withoutCable (d : Dev) (p : Nat) : Dev := modPort d p (fun q => { q with cable := false, cableOk := false })

theorem cablePresent_gone {d : Dev} {p : Nat} (h5 : portState d p ≠ 5) (h6 : portState d p ≠ 6) (accepted : Bool) :
    cablePresent d p false accepted = portTakedown (withoutCable d p) p psDown 1 :=
  (if_neg Bool.false_ne_true).trans (if_neg (by simp only [Bool.or_eq_true, decide_eq_true_eq]; exact not_or.2 ⟨h5, h6⟩))

/-- What a port says of the cable it has. -/
def withAnswer (d : Dev) (p : Nat) (accepted : Bool) : Dev := modPort d p (fun q => { q with cableOk := accepted })

theorem portTrain_on {d : Dev} {p : Nat} (hv : fget d TRF_NODE_CFG_VALID = 1) (hc : (getPort d p).cable = true) (hw : portPowered d p = true)
    (hd : fget d (TRF_PORT_CTL_DISABLE p) = 0) (hs : portState d p = 0) (accepted : Bool) : portTrain d p accepted =
    if accepted then setPortState (withAnswer d p accepted) p psTraining 0 else setPortState (withAnswer d p accepted) p psDown 2 :=
  if_neg (by simp [fbit, hv, hc, hw, hd, hs, psDown])

/-- The outcome of a training that may begin. -/
theorem portTrain_outcome {d : Dev} {p : Nat} (hp : p < 12) (hv : fget d TRF_NODE_CFG_VALID = 1) (hc : (getPort d p).cable = true)
    (hw : portPowered d p = true) (hd : fget d (TRF_PORT_CTL_DISABLE p) = 0) (hs : portState d p = 0) (accepted : Bool) :
    (accepted = true → portState (portTrain d p accepted) p = 2) ∧
    (accepted = false → portState (portTrain d p accepted) p = 0 ∧ fget (portTrain d p accepted) (TRF_PORT_STATUS_REASON p) = 2) ∧
    (getPort (portTrain d p accepted) p).cable = true ∧ (getPort (portTrain d p accepted) p).cableOk = accepted ∧
    MemSame d (portTrain d p accepted) ∧ (portTrain d p accepted).cells = d.cells := by
  have hport : ∀ st reason, getPort (setPortState (withAnswer d p accepted) p st reason) p = { getPort d p with cableOk := accepted } := fun st reason =>
    (getPort_of_ports (setPortState_ports _ _ _ _) p).trans (getPort_modPort_same _ _ _)
  have hframe : ∀ st reason, MemSame d (setPortState (withAnswer d p accepted) p st reason) ∧
      (setPortState (withAnswer d p accepted) p st reason).cells = d.cells := fun st reason =>
    ⟨memSame_of (setPortState_mem _ p st reason), setPortState_cells _ p st reason⟩
  rw [portTrain_on hv hc hw hd hs]
  cases accepted with
  | true =>
    rw [if_pos rfl, hport]
    exact ⟨fun _ => portState_setPortState hp _ (by decide) 0, nofun, hc, rfl, hframe _ _⟩
  | false =>
    rw [if_neg Bool.false_ne_true, hport]
    exact ⟨nofun, fun _ => ⟨portState_setPortState hp _ (by decide) 2, reason_setPortState hp _ _ (by decide)⟩, hc, rfl, hframe _ _⟩

/-- The port of a training that ends in UP: a fresh port, but for the cable and the messages that wait. -/
def freshPort (q : Port) : Port := { portReset with cable := q.cable, cableOk := q.cableOk, laneLost := q.laneLost, vcq := q.vcq, side := q.side }

/-- A trained port with its width and the identity of its peer. -/
def peered (d : Dev) (p peerNode peerPort : Nat) : Dev :=
  fset (fset (fset (applyWidth (modPort d p freshPort) p) (TRF_PORT_PEER_VALID p) 1) (TRF_PORT_PEER_PORT p) peerPort) (TRF_PORT_PEER_NODE p) peerNode

theorem trfPortUp_same {d : Dev} {p node : Nat} (hs : portState d p = 2) (hn : node = nodeId d) (port : Nat) :
    trfPortUp d p node port = setPortState d p 0 4 :=
  (if_neg (not_not.2 hs)).trans (if_pos hn)

theorem trfPortUp_peer {d : Dev} {p node : Nat} (hs : portState d p = 2) (hn : node ≠ nodeId d) (port : Nat) :
    trfPortUp d p node port = setPortState (peered d p node port) p psUp 0 :=
  (if_neg (not_not.2 hs)).trans (if_neg hn)

theorem peered_fields (d : Dev) {p node port : Nat} (hn : node < 2 ^ 16) (hq : port < 16) : fget (peered d p node port) (TRF_PORT_PEER_VALID p) = 1 ∧
    fget (peered d p node port) (TRF_PORT_PEER_NODE p) = node ∧ fget (peered d p node port) (TRF_PORT_PEER_PORT p) = port := by
  have h64 : 32 + 16 ≤ 64 ∧ 48 + 4 ≤ 64 ∧ 63 + 1 ≤ 64 := by decide
  obtain ⟨hnode, hport, hvalid⟩ := h64
  refine ⟨?_, ?_, ?_⟩
  · rw [peered, fget_fset_skip _ _ _ _ hnode (.inr (.inr (by exact (by decide : 32 + 16 ≤ 63)))),
      fget_fset_skip _ _ _ _ hport (.inr (.inr (by exact (by decide : 48 + 4 ≤ 63)))), fget_fset _ _ _ hvalid]
    rfl
  · rw [peered, fget_fset _ _ _ hnode]
    exact Nat.mod_eq_of_lt hn
  · rw [peered, fget_fset_skip _ _ _ _ hnode (.inr (.inr (by exact (by decide : 32 + 16 ≤ 48)))), fget_fset _ _ _ hport]
    exact Nat.mod_eq_of_lt hq

theorem peered_onlyRegs (d : Dev) (p node port : Nat) : OnlyRegs (modPort d p freshPort) (peered d p node port) :=
  (((applyWidth_onlyRegs _ p).fset _ _).fset _ _).fset _ _

/-! ## The node ID -/

/-- The ports that are UP retrain. -/
def portsRetrain (d : Dev) : Dev := (List.range 12).foldl (fun d p => if portState d p = psUp then startRetrain d p else d) d

/-- The registers of a node ID that is written. -/
def withNodeId (d : Dev) (v : Word) : Dev := fset (fset (fset d TRF_NODE_CFG_ID (bitsOf v 0 16)) TRF_NODE_CFG_VALID 1) KPR_READY_NODE_ID 1

/-- A register below the ports' is not written by a change of state but for TRF_STATUS and the ready bits. -/
theorem setPortState_nodeCfg (d : Dev) (p st reason lo wid : Nat) :
    fget (setPortState d p st reason) ⟨TRF_NODE_CFG, lo, wid⟩ = fget d ⟨TRF_NODE_CFG, lo, wid⟩ := by
  have hps : TRF_NODE_CFG ≠ TRF_PORT_STATUS p := by unfold TRF_NODE_CFG TRF_PORT_STATUS; omega
  have hready : TRF_NODE_CFG ≠ KPR_READY := by decide
  have hstat : TRF_NODE_CFG ≠ TRF_STATUS := by decide
  have hall : ∀ d b b' b'', fget (rsetBit (rsetBit (rsetBit (fset (fset d (TRF_PORT_STATUS_STATE p) st) (TRF_PORT_STATUS_REASON p) reason) TRF_STATUS (16 + p)
      b) TRF_STATUS p b') KPR_READY (32 + p) b'') ⟨TRF_NODE_CFG, lo, wid⟩ = fget d ⟨TRF_NODE_CFG, lo, wid⟩ := fun d b b' b'' => by
    rw [fget_rsetBit_ne _ _ _ _ hready, fget_rsetBit_ne _ _ _ _ hstat, fget_rsetBit_ne _ _ _ _ hstat, fget_fset_ne _ _ _ _ hps,
      fget_fset_ne _ _ _ _ hps]
  simp only [setPortState]
  split_ifs
  · exact hall _ _ _ _
  · rw [raiseBoth_fget _ _ _ (by exact (by decide : TRF_NODE_CFG ≠ HIF_EVENT 0)) (by exact (by decide : TRF_NODE_CFG ≠ HIF_EVENT 1))]
    exact hall _ _ _ _

/-- What follows a node ID that is taken: the Trafort polders that may come on do, and the power state follows. -/
theorem trafortNoted_nodeCfg (d : Dev) (lo wid : Nat) :
    fget (powerNote (trafortStart d)) ⟨TRF_NODE_CFG, lo, wid⟩ = fget d ⟨TRF_NODE_CFG, lo, wid⟩ := by
  rw [powerNote_fget _ (by exact (by decide : TRF_NODE_CFG ≠ PWR_STATUS)) (by exact (by decide : TRF_NODE_CFG ≠ HIF_EVENT 0))
    (by exact (by decide : TRF_NODE_CFG ≠ HIF_EVENT 1))]
  exact trafortStart_keeps (fun d => fget d ⟨TRF_NODE_CFG, lo, wid⟩)
    (fun d i _ => fget_rsetBit_ne _ _ _ _ (by exact (by decide : TRF_NODE_CFG ≠ PWR_POLDER_ON_HI))) (fun d p _ => setPortState_nodeCfg _ _ _ _ _ _) d

theorem trafortNoted_ready (d : Dev) : fget (powerNote (trafortStart d)) KPR_READY_NODE_ID = fget d KPR_READY_NODE_ID := by
  rw [powerNote_fget _ (by decide) (by decide) (by decide)]
  exact trafortStart_fget d (.inl (by decide)) (.inl (by decide))

theorem nodeIdTaken_on {d : Dev} {by_ : Option PciePort} (ho : ownerWrites d by_ = true) (ha : fget d PAT_STATUS_ACTIVE = 0) (v : Word) :
    nodeIdTaken d by_ v = powerNote (trafortStart (nodeIdWrite d by_ v)) :=
  if_neg (by simp [ho, fbit, ha])

theorem nodeIdWrite_on {d : Dev} {by_ : Option PciePort} (ho : ownerWrites d by_ = true) (ha : fget d PAT_STATUS_ACTIVE = 0) (v : Word) :
    nodeIdWrite d by_ v = portsRetrain (withNodeId d v) :=
  if_neg (by simp [ho, fbit, ha])

theorem portsRetrain_keeps {α : Type} {get : Dev → α} (hp : ∀ d p g, get (modPort d p g) = get d)
    (hc : ∀ d p, get (fcount d (TRF_PORT_LINK_RETRAINS p) 1) = get d) (d : Dev) : get (portsRetrain d) = get d := by
  refine foldl_keeps get _ (fun d p => ?_) _ d
  split_ifs
  · rw [startRetrain, hp, hc]
  · rfl

theorem portsRetrain_fget (d : Dev) {f : Fld} (hf : ∀ p, f.off ≠ TRF_PORT_LINK p) : fget (portsRetrain d) f = fget d f :=
  portsRetrain_keeps (get := fun d => fget d f) (fun d p g => fget_of_regs (modPort_regs d p g) f) (fun _ p => fget_fset_ne _ _ _ _ (hf p)) d

theorem nodeIdFields (d : Dev) (v : Word) : fget (withNodeId d v) TRF_NODE_CFG_ID = bitsOf v 0 16 ∧ fget (withNodeId d v) TRF_NODE_CFG_VALID = 1 ∧
    fget (withNodeId d v) KPR_READY_NODE_ID = 1 := by
  refine ⟨?_, ?_, ?_⟩
  · rw [withNodeId, fget_fset_ne _ _ _ _ (by decide), fget_fset_skip _ _ _ _ (by decide) (by decide), fget_fset _ _ _ (by decide)]
    exact Nat.mod_eq_of_lt (bitsOf_lt _ _ _)
  · rw [withNodeId, fget_fset_ne _ _ _ _ (by decide), fget_fset _ _ _ (by decide)]
    rfl
  · rw [withNodeId, fget_fset _ _ _ (by decide)]
    rfl

/-! ## Commands of a port -/

section
variable {d : Dev} {by_ : Option PciePort} (ho : ownerWrites d by_ = true) {p : Nat} {v : Word}
include ho

theorem trfPortDisable_on (hv : v.toNat % 2 = 1) (hd : fget d (TRF_PORT_CTL_DISABLE p) = 0) (hs : portState d p ≠ 5) (accepted : Bool) :
    trfPortDisable d by_ p v accepted = portDisable (fset d (TRF_PORT_CTL_DISABLE p) 1) p 8 := by
  have hstate : portState (fset d (TRF_PORT_CTL_DISABLE p) 1) p = portState d p :=
    fget_fset_ne _ _ _ _ (by dsimp only [TRF_PORT_STATUS_STATE, TRF_PORT_CTL_DISABLE]; unfold TRF_PORT_STATUS TRF_PORT_CTL; omega)
  refine (if_neg (by simp [ho])).trans ?_
  dsimp only
  rw [hv]
  exact if_pos (by simp [fbit, hd, hstate, hs, psRetired])

theorem trfPortDisable_off (hv : v.toNat % 2 = 0) (hs : portState d p = 6) (accepted : Bool) : trfPortDisable d by_ p v accepted =
    portTrain (setPortState (fset d (TRF_PORT_CTL_DISABLE p) 0) p 0 0) p accepted := by
  have hstate : portState (fset d (TRF_PORT_CTL_DISABLE p) 0) p = portState d p :=
    fget_fset_ne _ _ _ _ (by dsimp only [TRF_PORT_STATUS_STATE, TRF_PORT_CTL_DISABLE]; unfold TRF_PORT_STATUS TRF_PORT_CTL; omega)
  refine (if_neg (by simp [ho])).trans ?_
  dsimp only
  rw [hv]
  exact (if_neg (by simp)).trans (if_pos (by simp [hstate, hs, psDisabled]))

end

/-- The registers of a CMIS access that starts. -/
def cmisRegs (d : Dev) (p : Nat) (v : Word) : Dev :=
  fset (fset (fset (fset d (TRF_CMIS_CTL_PAGE p) (bitsOf v 16 8)) (TRF_CMIS_CTL_OFFSET p) (bitsOf v 8 8)) (TRF_CMIS_CTL_DONE p) 0) (TRF_CMIS_CTL_ERR p) 0

/-- A port waits, or waits no more, for its module's answer. -/
def withCmis (d : Dev) (p : Nat) (b : Bool) : Dev := modPort d p (fun q => { q with cmisWait := b })

theorem fget_withCmis (d : Dev) (p : Nat) (b : Bool) (f : Fld) : fget (withCmis d p b) f = fget d f := (rfl)
theorem withCmis_regs (d : Dev) (p : Nat) (b : Bool) : (withCmis d p b).regs = d.regs := (rfl)
theorem withCmis_mem (d : Dev) (p : Nat) (b : Bool) : (withCmis d p b).mem = d.mem := (rfl)

theorem withCmis_port (d : Dev) (p : Nat) (b : Bool) : (getPort (withCmis d p b) p).cmisWait = b := by rw [withCmis, getPort_modPort_same]

theorem trfCmisGo_on (d : Dev) (p : Nat) {v : Word} (hv : v.toNat.testBit 63 = true) : trfCmisGo d p v = withCmis (cmisRegs d p v) p true := if_pos hv

theorem cmisRegs_fields (d : Dev) (p : Nat) (v : Word) : fget (cmisRegs d p v) (TRF_CMIS_CTL_PAGE p) = bitsOf v 16 8 ∧
    fget (cmisRegs d p v) (TRF_CMIS_CTL_OFFSET p) = bitsOf v 8 8 ∧ fget (cmisRegs d p v) (TRF_CMIS_CTL_DONE p) = 0 ∧
    fget (cmisRegs d p v) (TRF_CMIS_CTL_ERR p) = 0 := by
  have h64 : 61 + 1 ≤ 64 ∧ 62 + 1 ≤ 64 ∧ 8 + 8 ≤ 64 ∧ 16 + 8 ≤ 64 := by decide
  obtain ⟨herr, hdone, hofs, hpage⟩ := h64
  refine ⟨?_, ?_, ?_, ?_⟩
  · rw [cmisRegs, fget_fset_skip _ _ _ _ herr (.inr (.inl (by exact (by decide : 16 + 8 ≤ 61)))),
      fget_fset_skip _ _ _ _ hdone (.inr (.inl (by exact (by decide : 16 + 8 ≤ 62)))),
      fget_fset_skip _ _ _ _ hofs (.inr (.inr (by exact (by decide : 8 + 8 ≤ 16)))), fget_fset _ _ _ hpage]
    exact Nat.mod_eq_of_lt (bitsOf_lt _ _ _)
  · rw [cmisRegs, fget_fset_skip _ _ _ _ herr (.inr (.inl (by exact (by decide : 8 + 8 ≤ 61)))),
      fget_fset_skip _ _ _ _ hdone (.inr (.inl (by exact (by decide : 8 + 8 ≤ 62)))), fget_fset _ _ _ hofs]
    exact Nat.mod_eq_of_lt (bitsOf_lt _ _ _)
  · rw [cmisRegs, fget_fset_skip _ _ _ _ herr (.inr (.inr (by exact (by decide : 61 + 1 ≤ 62)))), fget_fset _ _ _ hdone]
    rfl
  · rw [cmisRegs, fget_fset _ _ _ herr]
    rfl

theorem cmisRegs_mem (d : Dev) (p : Nat) (v : Word) : (cmisRegs d p v).mem = d.mem := by rw [cmisRegs, fset_mem, fset_mem, fset_mem, fset_mem]

theorem cmisRegs_regsBut (d : Dev) (p : Nat) (v : Word) : RegsBut [(TRF_CMIS_CTL_DONE p).off] d (cmisRegs d p v) :=
  have hctl : TRF_CMIS_CTL p ∈ [(TRF_CMIS_CTL_DONE p).off] := List.mem_singleton.2 rfl
  ((((RegsBut.refl _ _).fset _ hctl _).fset _ hctl _).fset _ hctl _).fset _ hctl _

theorem trfCmisDone_data {d : Dev} {p : Nat} (h : (getPort d p).cmisWait = true) (w : Word) :
    trfCmisDone d p (some w) = rset (fset (withCmis d p false) (TRF_CMIS_CTL_DONE p) 1) (TRF_CMIS_DATA p) w := if_neg (by simp [h])

theorem trfCmisDone_error {d : Dev} {p : Nat} (h : (getPort d p).cmisWait = true) :
    trfCmisDone d p none = fset (fset (withCmis d p false) (TRF_CMIS_CTL_DONE p) 1) (TRF_CMIS_CTL_ERR p) 1 := if_neg (by simp [h])

/-- Settles O49: the state that a port is left in by each event, over what training and a port that goes down do. -/
theorem portBringUp : Obligations.PortBringUp := by
  unfold Obligations.PortBringUp
  intro s p by_ v accepted
  have hp : (p : Nat) < 12 := p.isLt
  refine ⟨fun hv hw hd hs => ?train, fun h5 h6 hg => ?pulled, fun node port hn hq h2 => ⟨fun hne => ?up, fun heq => ?same⟩, fun h2 => ?expired, fun h2 => ?late,
    fun ho ha => ?node, fun ha => ?nodeOff, fun ho hv hd h5 hg => ?disable, fun ho hv h6 => ?enable, fun ho hv h3 hr => ?retrain, fun hv => ?cmis,
    fun hw => ⟨?data, ?error⟩⟩
  case train =>
    rintro i (rfl | ⟨rfl, hc⟩)
    · refine runs_of (fun d => cablePresent d p true accepted) rfl ?_
      have hcable : (getPort (withCable s.dev p) p).cable = true := congrArg Port.cable (getPort_modPort_same _ _ _)
      exact portTrain_outcome (d := withCable s.dev p) hp hv hcable hw hd hs accepted
    · exact runs_of (fun d => portTrainRetry d p accepted) rfl (portTrain_outcome hp hv hc hw hd hs accepted)
  case pulled =>
    refine runs_of (fun d => cablePresent d p false accepted) rfl ?_
    have hport : getPort (withoutCable s.dev p) p = { getPort s.dev p with cable := false, cableOk := false } := getPort_modPort_same _ _ _
    have hg' : unackedMsgs (getPort (withoutCable s.dev p) p) = [] := by rw [hport]; exact hg
    rw [cablePresent_gone h5 h6, portTakedown_port hg', hport]
    exact ⟨portTakedown_state hg' hp (by decide) 1, portTakedown_reason hg' hp _ (by decide), rfl, rfl,
      memSame_of (portTakedown_mem hg' _ _), portTakedown_cells hg' _ _⟩
  case up =>
    refine runs_of (fun d => trfPortUp d p node port) rfl ?_
    rw [trfPortUp_peer h2 hne]
    have hpeer : ∀ lo wid, fget (setPortState (peered s.dev p node port) p psUp 0) ⟨TRF_PORT_PEER p, lo, wid⟩ =
        fget (peered s.dev p node port) ⟨TRF_PORT_PEER p, lo, wid⟩ := fun lo wid =>
      setPortState_apart _ _ _ _ (ofPorts_peer hp lo wid) (.inl (by dsimp only; unfold TRF_PORT_PEER TRF_PORT_STATUS; omega))
    obtain ⟨hvalid, hnode, hport⟩ := peered_fields s.dev (p := p) hn hq
    exact ⟨portState_setPortState hp _ (by decide) 0, (hpeer 63 1).trans hvalid, (hpeer 32 16).trans hnode, (hpeer 48 4).trans hport,
      memSame_of ((setPortState_mem _ _ _ _).trans (peered_onlyRegs _ _ _ _).mem), (setPortState_cells _ _ _ _).trans (peered_onlyRegs _ _ _ _).cells⟩
  case same => exact runs_of (fun d => trfPortUp d p node port) rfl (trfPortUp_same h2 heq port)
  case expired => exact runs_of (fun d => portTrainTimeout d p) rfl (if_pos h2)
  case late => exact runs_of (fun d => portTrainTimeout d p) rfl (if_neg h2)
  case node =>
    refine runs_of (fun d => nodeIdTaken d by_ v) rfl ?_
    rw [nodeIdTaken_on ho ha, nodeIdWrite_on ho ha]
    obtain ⟨hid, hvalid, hready⟩ := nodeIdFields s.dev v
    refine ⟨?_, ?_, ?_, memSame_of ?_, ?_⟩
    · exact (trafortNoted_nodeCfg _ 0 16).trans ((portsRetrain_fget _ fun p => by dsimp only; unfold TRF_NODE_CFG TRF_PORT_LINK; omega).trans hid)
    · exact (trafortNoted_nodeCfg _ 16 1).trans ((portsRetrain_fget _ fun p => by dsimp only; unfold TRF_NODE_CFG TRF_PORT_LINK; omega).trans hvalid)
    · exact (trafortNoted_ready _).trans
        ((portsRetrain_fget _ fun p => by dsimp only [KPR_READY_NODE_ID]; unfold KPR_READY TRF_PORT_LINK; omega).trans hready)
    · rw [powerNote_mem, trafortStart_keeps Dev.mem (fun _ _ _ => rsetBit_mem _ _ _ _) (fun _ _ _ => setPortState_mem _ _ _ _),
        portsRetrain_keeps modPort_mem (fun _ _ => fcount_mem _ _ _)]
      exact (fset_mem _ _ _).trans ((fset_mem _ _ _).trans (fset_mem _ _ _))
    · rw [powerNote_cells, trafortStart_keeps Dev.cells (fun _ _ _ => rsetBit_cells _ _ _ _) (fun _ _ _ => setPortState_cells _ _ _ _),
        portsRetrain_keeps modPort_cells (fun _ _ => fcount_cells _ _ _)]
      exact (fset_cells _ _ _).trans ((fset_cells _ _ _).trans (fset_cells _ _ _))
  case nodeOff => exact runs_of (fun d => nodeIdTaken d by_ v) rfl (if_pos (by simp [fbit, ha]))
  case disable =>
    refine runs_of (fun d => trfPortDisable d by_ p v accepted) rfl ?_
    rw [trfPortDisable_on ho hv hd h5]
    have hg' : unackedMsgs (getPort (fset s.dev (TRF_PORT_CTL_DISABLE p) 1) p) = [] := hg
    refine ⟨?_, ?_, ?_, memSame_of ?_, ?_⟩
    · exact (addFault_ofPorts _ _ _ _ _ _ _ _ _ _ _ (ofPorts_status hp 60 4)).trans (portTakedown_state hg' hp (by decide) 8)
    · exact (addFault_ofPorts _ _ _ _ _ _ _ _ _ _ _ (ofPorts_status hp 56 4)).trans (portTakedown_reason hg' hp _ (by decide))
    · exact (addFault_ofPorts _ _ _ _ _ _ _ _ _ _ _ (ofPorts_ctl hp 0 1)).trans
        ((portTakedown_ctl hg' hp _ _).trans (fget_fset _ _ _ (by exact (by decide : 0 + 1 ≤ 64))))
    · exact (addFault_mem _ _ _ _ _ _ _ _ _ _ _).trans ((portTakedown_mem hg' _ _).trans (fset_mem _ _ _))
    · exact (addFault_cells _ _ _ _ _ _ _ _ _ _ _).trans ((portTakedown_cells hg' _ _).trans (fset_cells _ _ _))
  case enable => exact runs_of (fun d => trfPortDisable d by_ p v accepted) rfl (trfPortDisable_off ho hv h6 accepted)
  case retrain => exact runs_of (fun d => trfPortRetrain d by_ p v) rfl (if_pos (by simp [ho, hv, h3, hr, psUp]))
  case cmis =>
    refine runs_of (fun d => trfCmisGo d p v) rfl ?_
    rw [trfCmisGo_on _ _ hv]
    obtain ⟨hpage, hofs, hdone, herr⟩ := cmisRegs_fields s.dev p v
    simp only [fget_withCmis]
    exact ⟨hpage, hofs, hdone, herr, withCmis_port _ _ _, memSame_of ((withCmis_mem _ _ _).trans (cmisRegs_mem _ _ _)),
      (cmisRegs_regsBut s.dev p v).of_regs (withCmis_regs _ _ _)⟩
  case data =>
    refine runs_of (fun d => trfCmisDone d p (some v)) rfl ?_
    rw [trfCmisDone_data hw]
    have hne : TRF_CMIS_CTL p ≠ TRF_CMIS_DATA p := by unfold TRF_CMIS_CTL TRF_CMIS_DATA; omega
    refine ⟨(fget_rset_ne _ _ _ hne).trans (fget_fset _ _ _ (by exact (by decide : 62 + 1 ≤ 64))), rget_rset_same _ _ _, ?_, memSame_of ?_⟩
    · rw [getPort_of_ports (rset_ports _ _ _), getPort_of_ports (fset_ports _ _ _), withCmis_port]
    · rw [rset_mem, fset_mem, withCmis_mem]
  case error =>
    refine runs_of (fun d => trfCmisDone d p none) rfl ?_
    rw [trfCmisDone_error hw]
    have hne : TRF_CMIS_DATA p ≠ TRF_CMIS_CTL p := by unfold TRF_CMIS_CTL TRF_CMIS_DATA; omega
    refine ⟨?_, fget_fset _ _ _ (by exact (by decide : 61 + 1 ≤ 64)), ?_⟩
    · rw [fget_fset_skip _ _ _ _ (by exact (by decide : 61 + 1 ≤ 64)) (.inr (.inr (by exact (by decide : 61 + 1 ≤ 62))))]
      exact fget_fset _ _ _ (by exact (by decide : 62 + 1 ≤ 64))
    · rw [rget_fset_ne _ _ _ hne, rget_fset_ne _ _ _ hne]
      exact rget_congr (modPort_regs _ _ _) _

end Sys2Proof.Machine
end

section
/-! PROOF. Lanes and the width of a port (R245, R250, R251). -/

namespace Sys2Proof.Machine

/-! ## A lane that is retired -/

/-- A lane that is retired with its cause. -/
def laneMarked (d : Dev) (p l cause : Nat) : Dev := fset (fset d (TRF_LANE_STATE p l) 2) (TRF_LANE_CAUSE p l) cause

/-- The retirement of a lane in the port's status and in the fault log. -/
def laneLogged (d : Dev) (p l cause : Nat) : Dev :=
  addFault (noteLanes (laneMarked d p l cause) p) 0x08 .retiredResource 1 6 (8 * p + l) 0 cause
    (fget (laneMarked d p l cause) (TRF_LANE_CE_WIN p l)) (fget (laneMarked d p l cause) (TRF_LANE_UCW_WIN p l)) []

/-- The time at which a port lost a lane. -/
def withLaneLost (d : Dev) (p : Nat) : Dev := modPort d p (fun q => { q with laneLost := some d.now })

theorem laneLogged_ports (d : Dev) (p l cause : Nat) : (laneLogged d p l cause).ports = d.ports := by
  rw [laneLogged, addFault_ports, noteLanes, fset_ports, laneMarked, fset_ports, fset_ports]

theorem laneLogged_now (d : Dev) (p l cause : Nat) : (laneLogged d p l cause).now = d.now := by
  rw [laneLogged, addFault_now, noteLanes, fset_now, laneMarked, fset_now, fset_now]

theorem laneLogged_mem (d : Dev) (p l cause : Nat) : (laneLogged d p l cause).mem = d.mem := by
  rw [laneLogged, addFault_mem, noteLanes, fset_mem, laneMarked, fset_mem, fset_mem]

theorem laneLogged_cells (d : Dev) (p l cause : Nat) : (laneLogged d p l cause).cells = d.cells := by
  rw [laneLogged, addFault_cells, noteLanes, fset_cells, laneMarked, fset_cells, fset_cells]

theorem lane_ne_status (p l : Nat) : TRF_LANE p l ≠ TRF_PORT_STATUS p := by unfold TRF_LANE TRF_PORT_STATUS; omega

/-- A retirement writes the lane's own register, and of the port's status the lanes in service. -/
theorem laneLogged_fget (d : Dev) (p l cause : Nat) {f : Fld} (ho : OfPorts f) (hs : f.off ≠ TRF_PORT_STATUS p ∨ 48 ≤ f.lo) :
    fget (laneLogged d p l cause) f = fget (laneMarked d p l cause) f := by
  rw [laneLogged, addFault_ofPorts _ _ _ _ _ _ _ _ _ _ _ ho]
  exact fget_fset_skip _ _ _ _ (by exact (by decide : 40 + 8 ≤ 64)) (hs.imp_right .inr)

theorem laneMarked_fget (d : Dev) (p l cause : Nat) {f : Fld} (h : f.off ≠ TRF_LANE p l) : fget (laneMarked d p l cause) f = fget d f := by
  rw [laneMarked, fget_fset_ne _ _ _ _ h, fget_fset_ne _ _ _ _ h]

section
variable {p l : Nat} (hp : p < 12) (hl : l < 8)
include hp hl

theorem laneLogged_state (d : Dev) (cause : Nat) : fget (laneLogged d p l cause) (TRF_LANE_STATE p l) = 2 := by
  rw [laneLogged_fget (f := TRF_LANE_STATE p l) _ _ _ _ (ofPorts_lane hp hl 62 2) (.inl (lane_ne_status p l)), laneMarked,
    fget_fset_skip _ _ _ _ (by exact (by decide : 58 + 4 ≤ 64)) (.inr (.inr (by exact (by decide : 58 + 4 ≤ 62)))),
    fget_fset _ _ _ (by exact (by decide : 62 + 2 ≤ 64))]
  rfl

theorem laneLogged_cause (d : Dev) {cause : Nat} (hc : cause < 16) : fget (laneLogged d p l cause) (TRF_LANE_CAUSE p l) = cause := by
  rw [laneLogged_fget (f := TRF_LANE_CAUSE p l) _ _ _ _ (ofPorts_lane hp hl 58 4) (.inl (lane_ne_status p l)), laneMarked, fget_fset _ _ _ (by exact (by decide : 58 + 4 ≤ 64))]
  exact Nat.mod_eq_of_lt hc

omit hl in
theorem laneLogged_portState (d : Dev) (cause : Nat) : portState (laneLogged d p l cause) p = portState d p :=
  (laneLogged_fget _ _ _ _ (ofPorts_status hp 60 4) (.inr (by exact (by decide : 48 ≤ 60)))).trans (laneMarked_fget _ _ _ _ (lane_ne_status p l).symm)

omit hl in
/-- The other lanes stay as they are. -/
theorem laneLogged_other (d : Dev) (cause : Nat) {j : Nat} (hj : j < 8) (hne : j ≠ l) :
    fget (laneLogged d p l cause) (TRF_LANE_STATE p j) = fget d (TRF_LANE_STATE p j) :=
  (laneLogged_fget _ _ _ _ (ofPorts_lane hp hj 62 2) (.inl (lane_ne_status p j))).trans
    (laneMarked_fget _ _ _ _ (by dsimp only [TRF_LANE_STATE]; unfold TRF_LANE; omega))

theorem goodLanes_laneLogged (d : Dev) (cause : Nat) : goodLanes (laneLogged d p l cause) p = (goodLanes d p).erase l := by
  have hnodup : (goodLanes d p).Nodup := List.nodup_range.filter _
  rw [hnodup.erase_eq_filter, goodLanes, goodLanes, List.filter_filter]
  refine List.filter_congr fun j hj => ?_
  by_cases hne : j = l
  · simp [hne, laneLogged_state hp hl d cause]
  · simp [hne, laneLogged_other hp d cause (List.mem_range.1 hj) hne]

theorem goodLanes_length_laneLogged {d : Dev} (cause : Nat) (hs : fget d (TRF_LANE_STATE p l) ≠ 2) (hn : 5 ≤ (goodLanes d p).length) :
    4 ≤ (goodLanes (laneLogged d p l cause) p).length := by
  have hmem : l ∈ goodLanes d p := List.mem_filter.2 ⟨List.mem_range.2 hl, by simpa using hs⟩
  rw [goodLanes_laneLogged hp hl, List.length_erase_of_mem hmem]
  omega

end

theorem goodLanes_withLaneLost (d : Dev) (p : Nat) : goodLanes (withLaneLost d p) p = goodLanes d p := (rfl)

theorem laneRetire_off {d : Dev} {p l : Nat} (h : fget d (TRF_LANE_STATE p l) = 2) (cause epoch : Nat) : laneRetire d p l cause epoch = d :=
  if_pos (by simp [h])

/-- A lane that is retired while enough others are in service, and none was lost before, asks for the next width. -/
theorem laneRetire_width {d : Dev} {p l : Nat} (hp : p < 12) (hl : l < 8) (hc : portCarries d p = true) (hs : fget d (TRF_LANE_STATE p l) ≠ 2)
    (hlost : (getPort d p).laneLost = none) (hn : 5 ≤ (goodLanes d p).length) (cause epoch : Nat) :
    laneRetire d p l cause epoch = wantWidth (withLaneLost (laneLogged d p l cause) p) p l epoch := by
  have hgood : ¬ (goodLanes (withLaneLost (laneLogged d p l cause) p) p).length < 4 := by
    rw [goodLanes_withLaneLost]
    exact Nat.not_lt.2 (goodLanes_length_laneLogged hp hl cause hs hn)
  have hnone : (getPort (laneLogged d p l cause) p).laneLost = none := by rw [getPort_of_ports (laneLogged_ports d p l cause), hlost]
  rw [laneRetire, if_neg (by simp [hs, hc])]
  simp only [laneLogged, laneMarked, withLaneLost] at hnone hgood ⊢
  rw [hnone]
  exact (if_neg Bool.false_ne_true).trans (if_neg hgood)

/-- A port that lost a lane asks for the next width. -/
def askWidth (d : Dev) (p l epoch : Nat) : Dev := wantWidth (withLaneLost d p) p l epoch

theorem askWidth_fget (d : Dev) (p l epoch : Nat) (f : Fld) : fget (askWidth d p l epoch) f = fget d f := (rfl)
theorem askWidth_mem (d : Dev) (p l epoch : Nat) : (askWidth d p l epoch).mem = d.mem := (rfl)
theorem askWidth_cells (d : Dev) (p l epoch : Nat) : (askWidth d p l epoch).cells = d.cells := (rfl)

theorem askWidth_port (d : Dev) (p l epoch : Nat) :
    getPort (askWidth d p l epoch) p = { getPort d p with laneLost := some d.now, wantWidth := some epoch } := by
  rw [askWidth, wantWidth, getPort_of_ports (emit_ports _ _), getPort_modPort_same, withLaneLost, getPort_modPort_same]

section
variable {d : Dev} {p : Nat} {l : Fin 8} {t : Nat}

theorem laneLossOfLock_eq (hp : p < 12) (hc : portCarries d p = true) (hs : fget d (TRF_LANE_STATE p l) ≠ 2) (hlost : (getPort d p).laneLost = none)
    (hn : 5 ≤ (goodLanes d p).length) (flag : Bool) : laneLossOfLock d p l flag t =
    askWidth (laneLogged (atTime d t) p l (if flag then 4 else 3)) p l (nextEpoch d p) :=
  laneRetire_width (d := atTime d t) hp l.isLt hc hs hlost hn _ _

end

/-! ## The next width -/

/-- A port whose new width is in force at its epoch. -/
def atEpoch (d : Dev) (p epoch : Nat) : Dev :=
  fset (applyWidth (modPort d p (fun q => { q with wantWidth := none })) p) (TRF_PORT_STATUS_EPOCH p) epoch

theorem widthChange_on {d : Dev} {p epoch : Nat} (hw : (getPort d p).wantWidth = some epoch) (hs : portState d p = 3) :
    widthChange d p = setPortState (atEpoch d p epoch) p psReconfig 0 := by
  rw [widthChange, hw]
  exact if_neg (not_not.2 hs)

theorem widthChange_off {d : Dev} {p : Nat} (hw : (getPort d p).wantWidth = none) : widthChange d p = d := by rw [widthChange, hw]

theorem applyWidth_width (d : Dev) (p : Nat) : fget (applyWidth d p) (TRF_PORT_STATUS_WIDTH p) = widthOf (goodLanes d p).length := by
  have hlt : widthOf (goodLanes d p).length < 2 ^ 4 := by unfold widthOf; split_ifs <;> decide
  simp only [applyWidth, noteLanes]
  rw [fget_fset_skip _ _ _ _ (by exact (by decide : 40 + 8 ≤ 64)) (.inr (.inr (by exact (by decide : 40 + 8 ≤ 52)))),
    fget_fset_skip _ _ _ _ (by exact (by decide : 32 + 8 ≤ 64)) (.inr (.inr (by exact (by decide : 32 + 8 ≤ 52)))),
    fget_fset _ _ _ (by exact (by decide : 52 + 4 ≤ 64))]
  exact Nat.mod_eq_of_lt hlt

theorem atEpoch_onlyRegs (d : Dev) (p epoch : Nat) : OnlyRegs (modPort d p (fun q => { q with wantWidth := none })) (atEpoch d p epoch) :=
  (applyWidth_onlyRegs _ p).fset _ _

/-- The window's counts of a lane start again. -/
theorem laneWindow_fields (d : Dev) (p : Nat) (l : Fin 8) :
    fget (laneWindowExpire d p l) (TRF_LANE_CE_WIN p l) = 0 ∧ fget (laneWindowExpire d p l) (TRF_LANE_UCW_WIN p l) = 0 := by
  constructor
  · rw [laneWindowExpire, fget_fset_skip _ _ _ _ (by exact (by decide : 0 + 8 ≤ 64)) (.inr (.inr (by exact (by decide : 0 + 8 ≤ 8)))),
      fget_fset _ _ _ (by exact (by decide : 8 + 24 ≤ 64))]
    rfl
  · rw [laneWindowExpire, fget_fset _ _ _ (by exact (by decide : 0 + 8 ≤ 64))]
    rfl

theorem portCarries_atTime (d : Dev) (t p : Nat) : portCarries (atTime d t) p = portCarries d p := (rfl)

theorem laneWindow_regsBut (d : Dev) (p : Nat) (l : Fin 8) :
    RegsBut [(TRF_LANE_CE_WIN p l).off, (TRF_LANE_UCW_WIN p l).off] d (laneWindowExpire d p l) :=
  have hce : TRF_LANE p l ∈ [(TRF_LANE_CE_WIN p l).off, (TRF_LANE_UCW_WIN p l).off] := List.mem_cons_self
  ((RegsBut.refl _ _).fset _ hce _).fset _ hce _

/-- Settles O51: a lane's retirement by its one equation, a new width by what a change of state leaves. -/
theorem lanes : Obligations.Lanes := by
  unfold Obligations.Lanes
  intro s p l t
  have hp : (p : Nat) < 12 := p.isLt
  refine ⟨fun flag hc hs hlost hn => ?lose, fun flag hs => ?gone, fun own ask hc => ?block, fun own ask hc => ?blockOff, fun flags h3 => ?poll, ?window,
    fun epoch hw h3 => ?width, fun hw => ?none, fun h4 => ?done⟩
  case lose =>
    refine runs_of (fun d => laneLossOfLock d p l flag t) rfl ?_
    have hcause : (if flag then 4 else 3) < 16 := by cases flag <;> decide
    rw [laneLossOfLock_eq hp hc hs hlost hn, askWidth_port, portState, askWidth_fget, askWidth_fget, askWidth_fget, laneLogged_now]
    refine ⟨laneLogged_state hp l.isLt _ _, laneLogged_cause hp l.isLt _ hcause, rfl, rfl, laneLogged_portState hp _ _, memSame_of ?_, ?_⟩
    · exact (askWidth_mem _ _ _ _).trans (laneLogged_mem _ _ _ _)
    · exact (askWidth_cells _ _ _ _).trans (laneLogged_cells _ _ _ _)
  case gone => exact runs_of (fun d => laneLossOfLock d p l flag t) rfl (laneRetire_off (d := atTime s.dev t) hs _ _)
  case block => exact runs_of (fun d => laneControlBlock d p own ask t) rfl (if_neg (by rw [portCarries_atTime, hc]; exact Bool.false_ne_true))
  case blockOff => exact runs_of (fun d => laneControlBlock d p own ask t) rfl (if_pos (by rw [portCarries_atTime, hc]; rfl))
  case poll => exact runs_of (fun d => cmisPoll d p flags t) rfl (if_neg (not_not.2 h3))
  case window =>
    refine runs_of (fun d => laneWindowExpire d p l) rfl ?_
    obtain ⟨hce, hucw⟩ := laneWindow_fields s.dev p l
    exact ⟨hce, hucw, laneWindow_regsBut _ _ _, ((OnlyRegs.refl _).fset _ _).fset _ _⟩
  case width =>
    refine runs_of (fun d => widthChange d p) rfl ?_
    rw [widthChange_on hw h3,
      setPortState_apart (f := TRF_PORT_STATUS_EPOCH p) _ _ _ _ (ofPorts_status hp 0 16) (.inr (by exact (by decide : 0 + 16 ≤ 56))),
      setPortState_apart (f := TRF_PORT_STATUS_WIDTH p) _ _ _ _ (ofPorts_status hp 52 4) (.inr (by exact (by decide : 52 + 4 ≤ 56)))]
    refine ⟨portState_setPortState hp _ (by decide) 0, fget_fset _ _ _ (by exact (by decide : 0 + 16 ≤ 64)), ?_, ?_, memSame_of ?_, ?_⟩
    · exact (fget_fset_skip _ _ _ _ (by exact (by decide : 0 + 16 ≤ 64)) (.inr (.inr (by exact (by decide : 0 + 16 ≤ 52))))).trans (applyWidth_width _ _)
    · rw [getPort_of_ports (setPortState_ports _ _ _ _), getPort_of_ports (atEpoch_onlyRegs _ _ _).ports, getPort_modPort_same]
    · exact (setPortState_mem _ _ _ _).trans (atEpoch_onlyRegs _ _ _).mem
    · exact (setPortState_cells _ _ _ _).trans (atEpoch_onlyRegs _ _ _).cells
  case none => exact runs_of (fun d => widthChange d p) rfl (widthChange_off hw)
  case done => exact runs_of (fun d => reconfigDone d p) rfl (if_pos h4)

end Sys2Proof.Machine
end

section
/-! PROOF. Requests of other devices, and the responses to this device's own (R259, R261). -/

namespace Sys2Proof.Machine

/-! ## What a refusal leaves -/

theorem countDeny_mem (d : Dev) (a : Nat) : (countDeny d a).mem = d.mem := by
  unfold countDeny
  split <;> simp

theorem recordRefusal_mem (d : Dev) (a cause level req tag source : Nat) : (recordRefusal d a cause level req tag source).mem = d.mem := by
  simp only [recordRefusal]
  split_ifs <;> simp

theorem refuseRemote_mem (d : Dev) (m : Msg) (a n : Nat) (write : Bool) (cause : Nat) : (refuseRemote d m a n write cause).mem = d.mem := by
  simp only [refuseRemote]
  rw [recordRefusal_mem, fcount_mem]
  split_ifs
  · rfl
  · exact countDeny_mem d a

theorem respond_mem (d : Dev) (m : Msg) (b : MsgBody) : (respond d m b).mem = d.mem := (rfl)
theorem respond_cells (d : Dev) (m : Msg) (b : MsgBody) : (respond d m b).cells = d.cells := (rfl)

/-! ## Gauges and request IDs -/

/-- A request for a gauge of a cell that is in service is applied there. -/
theorem applyCellGauge_one (d : Dev) (c : Nat) (g : Fin 64) (u : GaugeUpd) :
    cellGauge (getCell (applyCellGauge d c g [u]) c) g = (combineGauge (cellGauge (getCell d c) g) [u]).1 := by
  rw [applyCellGauge_value d c g [u] (List.cons_ne_nil u []), Nat.mod_eq_of_lt (combineGauge_value_lt _ _)]

theorem responseCame_late {d : Dev} {m : Msg} (h : ridOf d m.rid = none) (st : Status) (bytes : List Byte) :
    responseCame d m st bytes = fcount d TRF_CTR_LATE_RSP 1 := by
  simp only [responseCame, h]

theorem responseCame_some {d : Dev} {m : Msg} {r : RidRec} (h : ridOf d m.rid = some r) (st : Status) (bytes : List Byte) :
    responseCame d m st bytes = if r.rests then fcount d TRF_CTR_LATE_RSP 1 else completeRid d m.rid st bytes := by
  simp only [responseCame, h]

/-- The request ID of a request that had no answer rests. -/
def restedRid (d : Dev) (rid : Nat) (r : RidRec) : Dev :=
  { d with rids := smSet (fun _ => none) d.rids rid (some { r with use := .dropped, since := d.now, rests := true }) }

section
variable {d : Dev} {rid t : Nat} {r : RidRec} (h : ridOf d rid = some r)
include h

theorem ridOf_atTime : ridOf (atTime d t) rid = some r := h

/-- A request that rests, or is not yet due, is left alone. -/
theorem remoteTimeout_early (hn : (atTime d t).now < r.since + 1000 * fget d TRF_CFG_REMOTE_TIMEOUT) : remoteTimeout d rid t = atTime d t := by
  simp only [remoteTimeout, ridOf_atTime h]
  exact if_pos (by rw [Bool.or_eq_true, decide_eq_true_eq]; exact .inr hn)

theorem remoteTimeout_due (hr : r.rests = false) (hn : r.since + 1000 * fget d TRF_CFG_REMOTE_TIMEOUT ≤ (atTime d t).now) : remoteTimeout d rid t =
    endUse (restedRid (fcount (atTime d t) TRF_CTR_TIMEOUTS 1) rid r) r .retiredResource [] := by
  simp only [remoteTimeout, ridOf_atTime h]
  exact if_neg (by rw [hr, Bool.false_or, decide_eq_true_eq]; exact Nat.not_lt.2 hn)

theorem ridReuseTimeout_due (hr : r.rests = true) (hn : r.since + 2000 * fget d TRF_CFG_REMOTE_TIMEOUT ≤ (atTime d t).now) :
    ridReuseTimeout d rid t = freeRid (atTime d t) rid := by
  simp only [ridReuseTimeout, ridOf_atTime h]
  exact if_pos (by rw [hr, Bool.true_and, decide_eq_true_eq]; exact hn)

theorem ridReuseTimeout_used (hr : r.rests = false) : ridReuseTimeout d rid t = atTime d t := by
  simp only [ridReuseTimeout, ridOf_atTime h]
  exact if_neg (by simp [hr])

end

/-- Settles O53: each request by the equation of its meaning; a gauge's home by the law of a gauge update. -/
theorem remoteAccess : Obligations.RemoteAccess := by
  unfold Obligations.RemoteAccess
  intro s e m d0
  refine ⟨fun a n htake hb => ⟨fun cause hr => ?rdRefused, fun d2 bs bad hr hs hl => ?rd⟩,
    fun a bytes poison htake hb => ⟨fun cause hr => ?wrRefused, fun d2 hr hs hst => ?wr⟩,
    fun cell ref src op htake hb hpatch hret hnear => ?gauge, fun i st bytes hi => ?response, ?timeouts⟩
  case rdRefused =>
    refine runs_of (fun d => remoteRd d e) rfl ?_
    simp only [remoteRd]
    erw [htake]
    simp only [hb, hr]
  case rd =>
    refine runs_of (fun d => remoteRd d e) rfl ?_
    simp only [remoteRd]
    erw [htake]
    simp only [hb, hr, hs, hl, ne_eq, not_true_eq_false, if_false]
  case wrRefused =>
    have heq : remoteWr s.dev = respond (refuseRemote (countWalk d0) m a bytes.length true cause) m (.wrRsp .xltFault) := by
      simp only [remoteWr]
      erw [htake]
      simp only [hb, hr]
    refine runs_of (fun d => remoteWr d) rfl ⟨heq, memSame_of ?_⟩
    rw [heq, respond_mem, refuseRemote_mem, countWalk_mem, takeMsg_mem htake]
  case wr =>
    refine runs_of (fun d => remoteWr d) rfl ?_
    simp only [remoteWr]
    erw [htake]
    simp only [hb, hr, hs, hst, ne_eq, not_true_eq_false, if_false, if_true]
  case gauge =>
    refine runs_of (fun d => remoteGauge d) rfl ?_
    obtain ⟨u, hu⟩ : ∃ u : GaugeUpd, u = { patch := ref.patch, gauge := ref.gauge, src := src, cell := cell, node := m.src, op := op } := ⟨_, rfl⟩
    have heq : remoteGauge s.dev = respond (applyCellGauge d0 (cell % 4096) ref.gauge [u]) m (.gaugeRsp .ok) := by
      simp only [remoteGauge]
      erw [htake]
      have hp : ref.patch.val = 0 := congrArg Fin.val hpatch
      simp only [hb, hp, hret, hnear, hu, ne_eq, not_true_eq_false, if_false, if_true, Bool.false_eq_true]
    have hcells : ∀ c, getCell d0 c = getCell s.dev c := getCell_congr (takeMsg_cells htake)
    have hresp : ∀ c, getCell (respond (applyCellGauge d0 (cell % 4096) ref.gauge [u]) m (.gaugeRsp .ok)) c =
        getCell (applyCellGauge d0 (cell % 4096) ref.gauge [u]) c := getCell_congr (respond_cells _ _ _)
    rw [heq, ← hu]
    refine ⟨?_, fun k hk => ?_, memSame_of ?_⟩
    · rw [hresp, applyCellGauge_one, hcells]
    · rw [hresp, applyCellGauge_others _ _ _ _ hk, hcells]
    · rw [respond_mem, applyCellGauge_mem, takeMsg_mem htake]
  case response =>
    have hcame : ∀ P : Dev → Prop, P (responseCame d0 m st bytes) → Runs i s P := by
      intro P hP
      obtain ⟨rfl, htake, hb⟩ | ⟨rfl, htake, hb, rfl⟩ | ⟨rfl, htake, hb, rfl⟩ := hi
      · refine runs_of (fun d => rdRsp d) rfl ?_
        simp only [rdRsp]
        erw [htake]
        simpa only [hb] using hP
      · refine runs_of (fun d => wrRsp d) rfl ?_
        simp only [wrRsp]
        erw [htake]
        simpa only [hb] using hP
      · refine runs_of (fun d => gaugeRsp d) rfl ?_
        simp only [gaugeRsp]
        erw [htake]
        simpa only [hb] using hP
    exact ⟨fun h => hcame _ (responseCame_late h st bytes), fun r h hr => hcame _ ((responseCame_some h st bytes).trans (if_pos hr)),
      fun r h hr => hcame _ ((responseCame_some h st bytes).trans (if_neg (by simp [hr])))⟩
  case timeouts =>
    rintro rid t r d1 rfl h
    refine ⟨fun hr hn rest d2 hrest hd2 => ?_, fun hn => ?_, fun hr hn => ?_, fun hr => ?_⟩
    · subst hrest hd2
      exact runs_of (fun d => remoteTimeout d rid t) rfl (remoteTimeout_due h hr hn)
    · exact runs_of (fun d => remoteTimeout d rid t) rfl (remoteTimeout_early h hn)
    · exact runs_of (fun d => ridReuseTimeout d rid t) rfl (ridReuseTimeout_due h hr hn)
    · exact runs_of (fun d => ridReuseTimeout d rid t) rfl (ridReuseTimeout_used h hr)

end Sys2Proof.Machine
end

section
/-! PROOF. Configuration space, the mailbox capability and the MSI-X table of a PCI Express port (R312 to R314, R319, R462). -/

namespace Sys2Proof.Machine

/-! ## Configuration requests (R312, R313) -/

theorem configRequest_retry {d : Dev} {p : PciePort} (h : (getPcie d p).cfgReady = false) (write : Bool) (reg : Fin 1024) (mask : Fin 16) (v : BitVec 32) :
    configRequest d p write reg mask v = emit d (.pcieRetry p) :=
  if_pos (by simp [h])

theorem configRequest_write {d : Dev} {p : PciePort} (h : (getPcie d p).cfgReady = true) (reg : Fin 1024) (mask : Fin 16) (v : BitVec 32) :
    configRequest d p true reg mask v = cfgWrite d p (4 * reg.val) mask v.toNat :=
  (if_neg (by simp [h])).trans (if_pos rfl)

/-- A read shows what the register is known to hold, and free bits elsewhere. -/
def cfgAnswer (d : Dev) (p : PciePort) (known val : Nat) : Dev :=
  emit (takeFree d).2 (.pcieCfg p ((Config.free (takeFree d).1 % 2 ^ 32).land (2 ^ 32 - 1 - known) + val))

theorem configRequest_read {d : Dev} {p : PciePort} (h : (getPcie d p).cfgReady = true) (reg : Fin 1024) (mask : Fin 16) (v : BitVec 32) :
    configRequest d p false reg mask v = cfgAnswer d p (cfgKnown d p (4 * reg.val)).1 (cfgKnown d p (4 * reg.val)).2 :=
  (if_neg (by simp [h])).trans (if_neg Bool.false_ne_true)

/-- The first dword holds the vendor and the device ID, and nothing else. -/
theorem cfgKnown_identity (d : Dev) (p : Nat) : cfgKnown d p 0 = (2 ^ 32 - 1, 0x71041FA7) := by
  have hcap : pciCaps.find? (fun c => c.1 == 0) = none := by decide
  have hext : pciExtCaps.find? (fun c => c.1 == 0) = none := by decide
  simp only [cfgKnown, hcap, hext]
  exact if_pos trivial

theorem cfgAnswer_known (d : Dev) (p : PciePort) (val : Nat) : cfgAnswer d p (2 ^ 32 - 1) val = emit (takeFree d).2 (.pcieCfg p val) := by
  have hland : ∀ n : Nat, n.land (2 ^ 32 - 1 - (2 ^ 32 - 1)) = 0 := fun n => Nat.and_zero n
  rw [cfgAnswer, hland, Nat.zero_add]

theorem cfgWrite_command (d : Dev) (p : PciePort) {mask : Fin 16} (hm : mask.val.testBit 0 = true) (v : Nat) :
    cfgWrite d p 0x04 mask v = modPcie d p (fun q => { q with memOn := v.testBit 1 }) := by
  rw [cfgWrite, if_pos rfl]
  exact if_pos hm

/-! ## The mailbox capability (R319) -/

section
variable {d : Dev} {p : PciePort}

theorem mbxPush_off (h : (getPcie d p).cfgReady = false) : mbxPush d p = d := if_pos (by simp [h])
theorem mbxPush_on (h : (getPcie d p).cfgReady = true) : mbxPush d p = slcHostPut d (40 + p.val) (mbxWindow d p) := if_neg (by simp [h])
theorem mbxPop_off (h : (getPcie d p).cfgReady = false) : mbxPop d p = d := if_pos (by simp [h])
theorem mbxPop_none (h : slcFront d (43 + p.val) = none) : mbxPop d p = d := if_pos (by simp [h])

theorem mbxPop_some (h : (getPcie d p).cfgReady = true) {e : List Byte} (he : slcFront d (43 + p.val) = some e) :
    mbxPop d p = slcRelease (slcTake d (43 + p.val)) (43 + p.val) 1 :=
  if_neg (by simp [h, he])

end

/-! ## MSI-X (R314) -/

/-- An entry of the MSI-X table that is written. -/
def writtenEntry (q : PciePortState) (n addr data : Nat) (masked : Bool) : MsixEntry :=
  { smGet (fun _ => msixReset) q.msix n with addr := addr % 2 ^ 64, data := data % 2 ^ 32, masked := masked }

/-- The table with that entry. -/
def writtenTable (n addr data : Nat) (masked : Bool) (q : PciePortState) : PciePortState :=
  { q with msix := smSet (fun _ => msixReset) q.msix n (writtenEntry q n addr data masked) }

theorem msixDeliver_off {d : Dev} {p : Nat} (h : (getPcie d p).msixOn = false) : msixDeliver d p = d := if_pos (by simp [h])

theorem msixTableWrite_quiet {d : Dev} {p : PciePort} (hm : (getPcie d p).memOn = true) (h3 : inD3 d p = false) (hx : (getPcie d p).msixOn = false)
    (n : Fin 64) (addr data : Nat) (masked : Bool) : msixTableWrite d p n addr data masked = modPcie d p (writtenTable n addr data masked) := by
  have hoff : (getPcie (modPcie d p (writtenTable n addr data masked)) p).msixOn = false := by rw [getPcie_modPcie_same]; exact hx
  exact (if_neg (by simp [hm, h3])).trans (msixDeliver_off hoff)

/-! ## The configuration space becomes ready (R462) -/

/-- The ready bit and the settled bit of a port whose configuration space answers. -/
def readyRegs (d : Dev) (p : PciePort) : Dev := rsetBit (fset d (pcieReady p) 1) KPR_SETTLED (3 + p.val) true

theorem configSpaceReady_on {d : Dev} {p : PciePort} (hc : fget d KPR_READY_CORE = 1) (hp : polderHi d (12 + p.val) = true)
    (hr : (getPcie d p).inPerst = false) : configSpaceReady d p = modPcie (readyRegs d p) p (fun q => { q with cfgReady := true }) :=
  if_neg (by simp [fbit, hc, hp, hr])

theorem pcieReady_off (p : Nat) : (pcieReady p).off = KPR_READY := by
  unfold pcieReady
  split_ifs <;> rfl

theorem pcieReady_bit (p : Nat) : (pcieReady p).lo + (pcieReady p).wid ≤ 64 ∧ (pcieReady p).wid = 1 := by
  unfold pcieReady
  split_ifs <;> decide

theorem readyRegs_fields (d : Dev) (p : PciePort) : fget (readyRegs d p) (pcieReady p) = 1 ∧ rbit (readyRegs d p) KPR_SETTLED (3 + p.val) = true ∧
    RegsBut [KPR_READY, KPR_SETTLED] d (readyRegs d p) := by
  obtain ⟨h64, hwid⟩ := pcieReady_bit p
  have hp : p.val < 2 := p.isLt
  refine ⟨?_, rbit_rsetBit_same _ _ (by omega) _, ?_⟩
  · rw [readyRegs, fget_rsetBit_ne _ _ _ _ (by rw [pcieReady_off]; decide), fget_fset _ _ _ h64, hwid]
    rfl
  · exact ((RegsBut.refl _ _).fset _ (by rw [pcieReady_off]; decide) _).rsetBit (by decide) _ _

/-- Settles O54: each request in the case that its statement names; a table entry by the law of a sparse map. -/
theorem configurationSpace : Obligations.ConfigurationSpace := by
  unfold Obligations.ConfigurationSpace
  intro s p mask v
  refine ⟨fun h => ⟨fun write reg => ?retry, ?pushOff, ?popOff⟩, fun h => ⟨?identity, fun reg => ?write, fun hm => ?command, ?push, fun e he => ?pop, fun he => ?popNone⟩,
    fun n addr data masked hm h3 hx => ?entry, fun hc hp hr => ?ready, fun hr => ?perst⟩
  case retry => exact runs_of (fun d => configRequest d p write reg mask v) rfl (configRequest_retry h _ _ _ _)
  case pushOff => exact runs_of (fun d => mbxPush d p) rfl (mbxPush_off h)
  case popOff => exact runs_of (fun d => mbxPop d p) rfl (mbxPop_off h)
  case identity =>
    refine runs_of (fun d => configRequest d p false 0 mask v) rfl ?_
    have heq : configRequest s.dev p false 0 mask v = emit (takeFree s.dev).2 (.pcieCfg p 0x71041FA7) := by
      rw [configRequest_read h]
      exact (congrArg (fun k => cfgAnswer s.dev p k.1 k.2) (cfgKnown_identity s.dev p)).trans (cfgAnswer_known _ _ _)
    rw [heq]
    exact ⟨rfl, memSame_of rfl, regsBut_of [] rfl, rfl⟩
  case write => exact runs_of (fun d => configRequest d p true reg mask v) rfl (configRequest_write h _ _ _)
  case command =>
    refine runs_of (fun d => configRequest d p true 1 mask v) rfl ?_
    have heq : configRequest s.dev p true 1 mask v = modPcie s.dev p (fun q => { q with memOn := v.toNat.testBit 1 }) :=
      (configRequest_write h _ _ _).trans (cfgWrite_command _ _ hm _)
    rw [heq]
    exact ⟨congrArg PciePortState.memOn (getPcie_modPcie_same _ _ _), memSame_of (modPcie_mem _ _ _), regsBut_of [] (modPcie_regs _ _ _)⟩
  case push => exact runs_of (fun d => mbxPush d p) rfl (mbxPush_on h)
  case pop => exact runs_of (fun d => mbxPop d p) rfl (mbxPop_some h he)
  case popNone => exact runs_of (fun d => mbxPop d p) rfl (mbxPop_none he)
  case entry =>
    intro old
    refine runs_of (fun d => msixTableWrite d p n addr data masked) rfl ?_
    rw [msixTableWrite_quiet hm h3 hx, getPcie_modPcie_same]
    exact ⟨smGet_smSet_same _ _ _ _, fun j hj => smGet_smSet_ne _ _ hj _, memSame_of (modPcie_mem _ _ _), regsBut_of [] (modPcie_regs _ _ _), modPcie_out _ _ _⟩
  case ready =>
    refine runs_of (fun d => configSpaceReady d p) rfl ?_
    obtain ⟨hready, hsettled, hregs⟩ := readyRegs_fields s.dev p
    rw [configSpaceReady_on hc hp hr]
    refine ⟨congrArg PciePortState.cfgReady (getPcie_modPcie_same _ _ _), (fget_of_regs (modPcie_regs _ _ _) _).trans hready,
      (rbit_of_fget (fget_of_regs (modPcie_regs _ _ _) _)).trans hsettled, memSame_of ?_, hregs.of_regs (modPcie_regs _ _ _)⟩
    rw [modPcie_mem, readyRegs, rsetBit_mem, fset_mem]
  case perst => exact runs_of (fun d => configSpaceReady d p) rfl (if_pos (by simp [hr]))

end Sys2Proof.Machine
end

section
/-! PROOF. Register, BAR2 and ingest accesses of a host, and doorbells (R9 to R12, R316 to R318, R328). -/

namespace Sys2Proof.Machine

/-! ## Register writes (R9 to R12, R316) -/

theorem registerWrite_odd (d : Dev) (by_ : Option PciePort) {off n : Nat} (h : n ≠ 4 ∧ n ≠ 8 ∨ off % n ≠ 0) (v : Word) : registerWrite d by_ off n v = d :=
  if_pos h

section
variable {d : Dev} {by_ : Option PciePort} {off n : Nat} {r : RegRow} (hn : n = 4 ∨ n = 8) (ha : off % n = 0) (hovr : ¬(0x800000 ≤ off ∧ off < 0x890000))
  (hr : regRow (off / 8 * 8) = some r)
include hn ha hovr hr

/-- An aligned write of a register of the map is left to the register's row. -/
theorem registerWrite_row (v : Word) : registerWrite d by_ off n v =
    if ownCommand (off / 8 * 8) || !mayWrite d by_ r (off / 8 * 8) then d else
      storedAs (rset d (off / 8 * 8) (wordAfter r.fields (rget d (off / 8 * 8))
        (BitVec.ofNat 64 (v.toNat % 2 ^ (8 * n) * 2 ^ (8 * (off % 8)))) (off % 8) (off % 8 + n))) (off / 8 * 8) := by
  have hodd : ¬((n ≠ 4 ∧ n ≠ 8) ∨ off % n ≠ 0) := by omega
  rw [registerWrite, if_neg hodd, if_neg hovr]
  simp only [hr]

end

/-! ## BAR2 and the ingest window (R317, R318) -/

section
variable {d : Dev} {p : PciePort} {secure : Bool}

theorem bar2Read_shut (h : barOpen d p secure = false) (off n : Nat) (e : EccHits) : bar2Read d p secure off n e = answerUr d p := if_pos (by simp [h])

theorem bar2Read_open (h : barOpen d p secure = true) {off n : Nat} (h1 : 1 ≤ n) (h2 : n ≤ 4096) (h3 : off + n ≤ 2 ^ 36) (e : EccHits) :
    bar2Read d p secure off n e = bar2Start d p off n false [] false e :=
  (if_neg (by simp [h])).trans (if_neg (by omega))

theorem bar2Write_shut (h : barOpen d p secure = false) (off : Nat) (bytes : List Byte) (ep : Bool) :
    bar2Write d p secure off bytes ep = fcount d (HIF_PORT_CTR_UR p) 1 :=
  if_pos (by simp [h])

theorem bar2Write_open (h : barOpen d p secure = true) {off : Nat} {bytes : List Byte} (h1 : bytes ≠ []) (h2 : bytes.length ≤ 512)
    (h3 : off + bytes.length ≤ 2 ^ 36) (ep : Bool) : bar2Write d p secure off bytes ep = bar2Start d p off bytes.length true bytes ep noEcc :=
  (if_neg (by simp [h])).trans (if_neg (not_or.2 ⟨h1, by omega⟩))

theorem ingestWindowWrite_shut (h : barOpen d p secure = false) (off : Nat) (bytes : List Byte) :
    ingestWindowWrite d p secure off bytes = fcount d (HIF_PORT_CTR_UR p) 1 :=
  if_pos (by simp [h])

theorem ingestWindowWrite_bad (h : barOpen d p secure = true) {off : Nat} {bytes : List Byte} (hb : off % 64 ≠ 0 ∨ bytes.length % 64 ≠ 0) :
    ingestWindowWrite d p secure off bytes = fcount d (HIF_PORT_CTR_BAD_INGEST p) 1 :=
  (if_neg (by simp [h])).trans (if_pos (hb.imp_right .inl))

theorem ingestWindowWrite_open (h : barOpen d p secure = true) {off : Nat} {bytes : List Byte} (ho : off % 64 = 0) (hl : bytes.length % 64 = 0)
    (h1 : bytes ≠ []) (h2 : bytes.length ≤ 512) (h3 : off + bytes.length ≤ 0x80000) : ingestWindowWrite d p secure off bytes =
    (List.range (bytes.length / 64)).foldl (fun d i => slcHostPut d (2 + p.val) ((bytes.drop (64 * i)).take 64)) d :=
  (if_neg (by simp [h])).trans (if_neg (not_or.2 ⟨not_not.2 ho, not_or.2 ⟨not_not.2 hl, not_or.2 ⟨h1, by omega⟩⟩⟩))

end

/-- A BAR2 base keeps its multiples of 1 GiB. -/
theorem bar2Base_toNat (v : Word) : (BitVec.ofNat 64 (v.toNat / 2 ^ 30 * 2 ^ 30)).toNat = v.toNat / 2 ^ 30 * 2 ^ 30 := by
  rw [BitVec.toNat_ofNat]
  exact Nat.mod_eq_of_lt (lt_of_le_of_lt (Nat.div_mul_le_self _ _) v.isLt)

/-! ## Doorbells (R328) -/

theorem doorbell_none {d : Dev} {p : PciePort} (h : slcFront d p = none) : doorbell d p = d := by rw [doorbell, h]

theorem doorbell_some {d : Dev} {p : PciePort} {entry : List Byte} (h : slcFront d p = some entry) : doorbell d p =
    doorbellTaken (slcRelease (slcTake d p) p 1) (ringNo p (leNat ((entry.drop 8).take 1) % 16)) (leNat (entry.take 4)) := by
  rw [doorbell, h]

theorem doorbellTaken_stale {d : Dev} {k : Nat} (h : ringState d k ≠ 1) (v : Nat) : doorbellTaken d k v = fcount d (HIF_RING_CTR_STALE_DB k) 1 :=
  if_pos (.inl h)

section
variable {d : Dev} {k v gap : Nat} (hg : gap = (v + 2 ^ 32 - fget d (HIF_RING_SEQ_LAST_RECV k)) % 2 ^ 32) (hs : ringState d k = 1) (hpos : 0 < gap)
  (hlt : gap < 2 ^ 31)
include hg hs hpos hlt

theorem doorbellTaken_fresh : ¬(fget d (HIF_RING_STATUS_STATE k) ≠ 1 ∨ (v + 2 ^ 32 - fget d (HIF_RING_SEQ_LAST_RECV k)) % 2 ^ 32 = 0 ∨
    2 ^ 31 ≤ (v + 2 ^ 32 - fget d (HIF_RING_SEQ_LAST_RECV k)) % 2 ^ 32) := by
  rw [← hg]
  exact not_or.2 ⟨not_not.2 hs, not_or.2 ⟨hpos.ne', Nat.not_le.2 hlt⟩⟩

theorem doorbellTaken_far (h : 2 ^ (getRing d k).log2 < gap) : doorbellTaken d k v = ringError d k 2 :=
  (if_neg (doorbellTaken_fresh hg hs hpos hlt)).trans (if_neg (by rw [← hg]; exact Nat.not_le.2 h))

theorem doorbellTaken_near (h : gap ≤ 2 ^ (getRing d k).log2) : doorbellTaken d k v =
    modRing d k (fun r => if (r.target + 2 ^ 32 - fget d (HIF_RING_SEQ_LAST_RECV k)) % 2 ^ 32 < gap then { r with target := v } else r) := by
  refine (if_neg (doorbellTaken_fresh hg hs hpos hlt)).trans ?_
  rw [← hg]
  exact if_pos h

/-- A ring that has fetched all it was asked for takes the doorbell's target. -/
theorem doorbellTaken_ring (h : gap ≤ 2 ^ (getRing d k).log2) (ht : (getRing d k).target = fget d (HIF_RING_SEQ_LAST_RECV k)) :
    getRing (doorbellTaken d k v) k = { getRing d k with target := v } := by
  have hzero : ((getRing d k).target + 2 ^ 32 - fget d (HIF_RING_SEQ_LAST_RECV k)) % 2 ^ 32 < gap := by
    rw [ht, Nat.add_sub_cancel_left, Nat.mod_self]
    exact hpos
  rw [doorbellTaken_near hg hs hpos hlt h, getRing_modRing_same]
  exact if_pos hzero

theorem doorbellTaken_mem (h : gap ≤ 2 ^ (getRing d k).log2) : (doorbellTaken d k v).mem = d.mem := by
  rw [doorbellTaken_near hg hs hpos hlt h, modRing_mem]

end

/-- Settles O55: each access by the branch that its statement names; a doorbell by what is left of its gap. -/
theorem hostAccesses : Obligations.HostAccesses := by
  unfold Obligations.HostAccesses
  intro s by_ p v off n
  refine ⟨?row, fun hodd => ?odd, fun secure e => ⟨fun h => ?readShut, fun h h1 h2 h3 => ?read⟩,
    fun secure bytes ep => ⟨fun h => ?writeShut, fun h h1 h2 h3 => ?write⟩,
    fun secure bytes => ⟨fun h => ?ingestShut, fun h hb => ?ingestBad, fun h ho hl h1 h2 h3 => ?ingest⟩, fun hby => ?base, ?posted, ?nonPosted,
    fun h => ?bellNone, ?bellStale, ?bell⟩
  case row =>
    rintro r reg w hn ha hovr rfl hr hown rfl
    refine ⟨fun hw => runs_of (fun d => registerWrite d by_ off n v) rfl ?_, fun hw => runs_of (fun d => registerWrite d by_ off n v) rfl ?_⟩
    · exact (registerWrite_row hn ha hovr hr v).trans (if_neg (by simp [hown, hw]))
    · exact (registerWrite_row hn ha hovr hr v).trans (if_pos (by simp [hw]))
  case odd => exact runs_of (fun d => registerWrite d by_ off n v) rfl (registerWrite_odd _ _ hodd _)
  case readShut => exact runs_of (fun d => bar2Read d p secure off n e) rfl (bar2Read_shut h _ _ _)
  case read => exact runs_of (fun d => bar2Read d p secure off n e) rfl (bar2Read_open h h1 h2 h3 _)
  case writeShut => exact runs_of (fun d => bar2Write d p secure off bytes ep) rfl (bar2Write_shut h _ _ _)
  case write => exact runs_of (fun d => bar2Write d p secure off bytes ep) rfl (bar2Write_open h h1 h2 h3 _)
  case ingestShut => exact runs_of (fun d => ingestWindowWrite d p secure off bytes) rfl (ingestWindowWrite_shut h _ _)
  case ingestBad => exact runs_of (fun d => ingestWindowWrite d p secure off bytes) rfl (ingestWindowWrite_bad h hb)
  case ingest => exact runs_of (fun d => ingestWindowWrite d p secure off bytes) rfl (ingestWindowWrite_open h ho hl h1 h2 h3)
  case base =>
    refine runs_of (fun d => hifBar2BaseWrite d by_ p v) rfl ?_
    have heq : hifBar2BaseWrite s.dev by_ p v = rset s.dev (HIF_BAR2_BASE p) (BitVec.ofNat 64 (v.toNat / 2 ^ 30 * 2 ^ 30)) := if_pos hby
    rw [heq]
    exact ⟨(congrArg BitVec.toNat (rget_rset_same _ _ _)).trans (bar2Base_toNat v), (RegsBut.refl _ _).rset (List.mem_singleton.2 rfl) _,
      (OnlyRegs.refl _).rset _ _⟩
  case posted => exact runs_of (fun d => unsupportedTlp d p true) rfl rfl
  case nonPosted => exact runs_of (fun d => unsupportedTlp d p false) rfl rfl
  case bellNone => exact runs_of (fun d => doorbell d p) rfl (doorbell_none h)
  case bellStale =>
    rintro entry k d1 h rfl rfl hs
    exact runs_of (fun d => doorbell d p) rfl ((doorbell_some h).trans (doorbellTaken_stale hs _))
  case bell =>
    intro entry k d1 db gap h hk hd1 hdb hg hs hpos hlt
    have hrun : ∀ P : Dev → Prop, P (doorbellTaken d1 k db) → Runs (.doorbell p) s P := fun P hP => by
      refine runs_of (fun d => doorbell d p) rfl ?_
      rwa [doorbell_some h, ← hd1, ← hk, ← hdb]
    refine ⟨fun hfar => hrun _ (doorbellTaken_far hg hs hpos hlt hfar), fun hnear ht => hrun _ ?_⟩
    rw [doorbellTaken_ring hg hs hpos hlt hnear ht]
    refine ⟨rfl, rfl, memSame_of ?_⟩
    rw [doorbellTaken_mem hg hs hpos hlt hnear, hd1, keptByFlits_mem.slcRelease, keptByFlits_mem.slcTake]

end Sys2Proof.Machine
end

section
/-! PROOF. Ring control, moderation and hand-over (R325, R326, R333, R346, R348), and the ingest engine (R343, R344). -/

namespace Sys2Proof.Machine

/-! ## The ingest engine -/

/-- Settles O60: an engine that may not move anything stops at its guard, and another moves what its three bounds leave. -/
theorem ingestEngine : Obligations.IngestEngine := by
  unfold Obligations.IngestEngine
  intro s p n
  refine ⟨fun h => runs_of (fun d => ingestBatch d p n) rfl ?_, fun room m hv he ho hroom hm => runs_of (fun d => ingestBatch d p n) rfl ?_⟩
  · refine if_pos ?_
    obtain h | h | h := h <;> simp [fbit, h]
  · subst hroom hm
    exact if_neg (by simp [fbit, hv, he, ho])

/-! ## What the moderation of completions leaves -/

theorem getRing_of_rings {d d' : Dev} (h : d'.rings = d.rings) (k : Nat) : getRing d' k = getRing d k := by rw [getRing, getRing, h]

theorem moderate_keeps {α : Type} {get : Dev → α} (hr : ∀ d k g, get (modRing d k g) = get d) (he : ∀ d p n, get (raiseEvent d p n) = get d) (d : Dev) (k n : Nat) :
    get (moderate d k n) = get d := by
  simp only [moderate]
  split_ifs
  · rw [he, hr]
  · rw [hr]

theorem moderate_mem (d : Dev) (k n : Nat) : (moderate d k n).mem = d.mem := moderate_keeps modRing_mem raiseEvent_mem d k n
theorem moderate_cells (d : Dev) (k n : Nat) : (moderate d k n).cells = d.cells := moderate_keeps modRing_cells raiseEvent_cells d k n

/-- Moderation counts what it has seen, and leaves the commands and the completions of its ring. -/
theorem moderate_ring (d : Dev) (k n : Nat) : (getRing (moderate d k n) k).cmds = (getRing d k).cmds ∧
    (getRing (moderate d k n) k).unwrit = (getRing d k).unwrit := by
  simp only [moderate]
  split_ifs
  · rw [getRing_of_rings (raiseEvent_rings _ _ _), getRing_modRing_same]
    exact ⟨rfl, rfl⟩
  · rw [getRing_modRing_same]
    exact ⟨rfl, rfl⟩

theorem moderate_fget (d : Dev) (k n : Nat) {f : Fld} (h : 0x770000 ≤ f.off) (h' : f.off < 0x780000) (hp : k < 32) : fget (moderate d k n) f = fget d f := by
  have hev : f.off ≠ HIF_EVENT (k / 16) := by unfold HIF_EVENT; omega
  simp only [moderate]
  split_ifs
  · exact (fget_congr f (raiseEvent_rget _ _ _ hev)).trans (fget_of_regs (modRing_regs _ _ _) f)
  · exact fget_of_regs (modRing_regs _ _ _) f

/-! ## ENABLE, RESUME, STOP and DISABLE (R326) -/

/-- The SEQ before the first that a ring will take. -/
def seqBeforeStart (d : Dev) (k : Nat) : Nat := (fget d (HIF_RING_START_START_SEQ k) + 2 ^ 32 - 1) % 2 ^ 32

/-- The registers of a ring that starts: its history is empty, and its two SEQ counts stand before START_SEQ. -/
def startedRegs (d : Dev) (k : Nat) : Dev :=
  fset (fset (wipeRegs d (fun o => decide (0x780000 + 0x800 * k ≤ o ∧ o < 0x780800 + 0x800 * k))) (HIF_RING_SEQ_LAST_RECV k) (seqBeforeStart d k))
    (HIF_RING_SEQ_LAST_DONE k) (seqBeforeStart d k)

/-- A ring that starts, with nothing in flight. -/
def freshRing (d : Dev) (k : Nat) : Ring := { ringReset with target := seqBeforeStart d k, log2 := fget (startedRegs d k) (HIF_RING_CFG_LOG2 k) }

/-- The completions of a ring that were not yet written are written. -/
def completionsWritten (d : Dev) (k : Nat) : Dev := (getRing d k).unwrit.foldl (fun d s => writeCompletion d k s) d

/-- No completion is left to write. -/
def nothingUnwritten (d : Dev) (k : Nat) : Dev := modRing d k (fun r => { r with unwrit := [] })

/-- A ring that runs again. -/
def resumedRing (d : Dev) (k : Nat) : Dev :=
  nothingUnwritten (fset (fset (completionsWritten d k) (HIF_RING_STATUS_ERR k) 0) (HIF_RING_STATUS_STATE k) 1) k

section
variable {d : Dev} {by_ : Option PciePort} {k : Fin 32}

theorem ringEnable_busy (hs : ringState d k ≠ 0) : ringEnable d by_ k = d := if_pos (by simp [hs])
theorem ringDisable_running (hs : ringState d k = 1) : ringDisable d by_ k = d := if_pos (by simp [hs])

theorem ringControl_off (h : ringWrites by_ k = false) :
    ringEnable d by_ k = d ∧ ringResume d by_ k = d ∧ ringStop d by_ k = d ∧ ringDisable d by_ k = d :=
  ⟨if_pos (by simp [h]), if_pos (by simp [h]), if_pos (by simp [h]), if_pos (by simp [h])⟩

variable (hw : ringWrites by_ k = true)
include hw

theorem ringEnable_on (hs : ringState d k = 0) :
    ringEnable d by_ k = fset (modRing (startedRegs d k) k (fun _ => freshRing d k)) (HIF_RING_STATUS_STATE k) 1 := by
  rw [ringEnable, if_neg (by simp [hw, hs])]
  simp only [startedRegs, seqBeforeStart, freshRing]

theorem ringResume_on (hs : 2 ≤ ringState d k) : ringResume d by_ k = moderate (resumedRing d k) k (getRing d k).unwrit.length :=
  if_neg (by simp only [hw, Bool.not_true, Bool.false_or, decide_eq_true_eq]; omega)

theorem ringStop_on (hs : ringState d k = 1) : ringStop d by_ k = fset d (HIF_RING_STATUS_STATE k) 2 := if_neg (by simp [hw, hs])

theorem ringDisable_on (hs : 2 ≤ ringState d k) (hd : fget d (HIF_RING_SEQ_LAST_DONE k) = fget d (HIF_RING_SEQ_LAST_RECV k)) :
    ringDisable d by_ k = fset (nothingUnwritten d k) (HIF_RING_STATUS_STATE k) 0 :=
  if_neg (by simp only [hw, hd, Bool.not_true, Bool.false_or, bne_self_eq_false, Bool.or_false, decide_eq_true_eq]; omega)

end

theorem startedRegs_recv (d : Dev) (k : Nat) : fget (startedRegs d k) (HIF_RING_SEQ_LAST_RECV k) = seqBeforeStart d k ∧
    fget (startedRegs d k) (HIF_RING_SEQ_LAST_DONE k) = seqBeforeStart d k := by
  have hlt : seqBeforeStart d k < 2 ^ 32 := Nat.mod_lt _ (by decide)
  constructor
  · rw [startedRegs, fget_fset_skip _ _ _ _ (by exact (by decide : 0 + 32 ≤ 64)) (.inr (.inr (by exact (by decide : 0 + 32 ≤ 32)))),
      fget_fset _ _ _ (by exact (by decide : 32 + 32 ≤ 64))]
    exact Nat.mod_eq_of_lt hlt
  · rw [startedRegs, fget_fset _ _ _ (by exact (by decide : 0 + 32 ≤ 64))]
    exact Nat.mod_eq_of_lt hlt

theorem ringStatus_ne_seq (k : Nat) : HIF_RING_SEQ k ≠ HIF_RING_STATUS k := by unfold HIF_RING_SEQ HIF_RING_STATUS; omega

theorem ringState_fset (d : Dev) (k n : Nat) (hn : n < 4) : ringState (fset d (HIF_RING_STATUS_STATE k) n) k = n := by
  rw [ringState, fget_fset _ _ _ (by exact (by decide : 62 + 2 ≤ 64))]
  exact Nat.mod_eq_of_lt hn

theorem completionsWritten_keeps {α : Type} {get : Dev → α} (h : ∀ d o, get (emit d o) = get d) (d : Dev) (k : Nat) : get (completionsWritten d k) = get d :=
  foldl_keeps get _ (fun _ _ => h _ _) _ d

theorem resumedRing_ring (d : Dev) (k : Nat) : getRing (resumedRing d k) k = { getRing d k with unwrit := [] } := by
  rw [resumedRing, nothingUnwritten, getRing_modRing_same, getRing_of_rings (fset_rings _ _ _), getRing_of_rings (fset_rings _ _ _),
    getRing_of_rings (completionsWritten_keeps (get := Dev.rings) emit_rings d k)]

theorem resumedRing_state (d : Dev) (k : Nat) : ringState (resumedRing d k) k = 1 :=
  (fget_of_regs (modRing_regs _ _ _) _).trans (ringState_fset _ k 1 (by decide))

theorem resumedRing_mem (d : Dev) (k : Nat) : (resumedRing d k).mem = d.mem := by
  rw [resumedRing, nothingUnwritten, modRing_mem, fset_mem, fset_mem, completionsWritten_keeps (get := Dev.mem) emit_mem]

theorem resumedRing_cells (d : Dev) (k : Nat) : (resumedRing d k).cells = d.cells := by
  rw [resumedRing, nothingUnwritten, modRing_cells, fset_cells, fset_cells, completionsWritten_keeps (get := Dev.cells) emit_cells]

/-! ## Hand-over (R346) -/

theorem handoverExpire_none {d : Dev} {p : PciePort} (h : fget d (offerFld p) = 1) (ho : openOffer d p = none) : handoverExpire d p = fset d (offerFld p) 0 := by
  rw [handoverExpire, if_pos (by simp [fbit, h]), closeOffer, ho]

theorem handoverExpire_some {d : Dev} {p : PciePort} {j : Nat} {c : HostCmd} (h : fget d (offerFld p) = 1) (ho : openOffer d p = some (j, c)) :
    handoverExpire d p = fset (writeFinal d j c.seq .aborted 21 0 0) (offerFld p) 0 := by
  rw [handoverExpire, if_pos (by simp [fbit, h]), closeOffer, ho]

/-- Settles O57: each command of a ring where it may act, and what its updates leave of the ring and its registers. -/
theorem ringControl : Obligations.RingControl := by
  unfold Obligations.RingControl
  intro s by_ k
  refine ⟨fun hw => ⟨fun hs => ?enable, fun hs => ?enabled, fun hs => ?resume, fun hs => ?stop, fun hs hd => ?disable, fun hs => ?running⟩, fun hw i hi => ?off,
    fun ht hm => ?moderation, fun hm => ?noModeration, fun p h ho => ?expire, fun p j c h ho => ?aborted⟩
  case enable =>
    refine runs_of (fun d => ringEnable d by_ k) rfl ?_
    obtain ⟨hrecv, hdone⟩ := startedRegs_recv s.dev k
    have hother : ∀ f, f.off = HIF_RING_SEQ k → fget (ringEnable s.dev by_ k) f = fget (startedRegs s.dev k) f := fun f hf => by
      rw [ringEnable_on hw hs, fget_fset_ne _ _ _ _ (by rw [hf]; exact ringStatus_ne_seq k)]
      exact fget_of_regs (modRing_regs _ _ _) f
    have hring : getRing (ringEnable s.dev by_ k) k = freshRing s.dev k := by
      rw [ringEnable_on hw hs, getRing_of_rings (fset_rings _ _ _), getRing_modRing_same]
    rw [hring, hother (HIF_RING_SEQ_LAST_RECV k) rfl, hother (HIF_RING_SEQ_LAST_DONE k) rfl, hrecv, hdone]
    refine ⟨?_, rfl, rfl, rfl, rfl, memSame_of ?_, ?_⟩
    · rw [ringEnable_on hw hs, ringState_fset _ _ _ (by decide)]
    · rw [ringEnable_on hw hs, fset_mem, modRing_mem, startedRegs, fset_mem, fset_mem]
      rfl
    · rw [ringEnable_on hw hs, fset_cells, modRing_cells, startedRegs, fset_cells, fset_cells]
      rfl
  case enabled => exact runs_of (fun d => ringEnable d by_ k) rfl (ringEnable_busy hs)
  case resume =>
    refine runs_of (fun d => ringResume d by_ k) rfl ?_
    obtain ⟨hcmds, hunwrit⟩ := moderate_ring (resumedRing s.dev k) k (getRing s.dev k).unwrit.length
    rw [ringResume_on hw hs, hcmds, hunwrit, resumedRing_ring]
    refine ⟨?_, rfl, rfl, memSame_of ((moderate_mem _ _ _).trans (resumedRing_mem _ _)), (moderate_cells _ _ _).trans (resumedRing_cells _ _)⟩
    have hk : (k : Nat) < 32 := k.isLt
    exact (moderate_fget _ _ _ (by dsimp only [HIF_RING_STATUS_STATE]; unfold HIF_RING_STATUS; omega)
      (by dsimp only [HIF_RING_STATUS_STATE]; unfold HIF_RING_STATUS; omega) hk).trans (resumedRing_state _ _)
  case stop => exact runs_of (fun d => ringStop d by_ k) rfl (ringStop_on hw hs)
  case disable =>
    refine runs_of (fun d => ringDisable d by_ k) rfl ?_
    rw [ringDisable_on hw hs hd]
    refine ⟨ringState_fset _ _ _ (by decide), ?_, memSame_of ?_, (regsBut_of _ (modRing_regs _ _ _)).fset _ (List.mem_singleton.2 rfl) _⟩
    · rw [getRing_of_rings (fset_rings _ _ _), nothingUnwritten, getRing_modRing_same]
    · rw [fset_mem, nothingUnwritten, modRing_mem]
  case running => exact runs_of (fun d => ringDisable d by_ k) rfl (ringDisable_running hs)
  case off =>
    obtain ⟨henable, hresume, hstop, hdisable⟩ := ringControl_off (d := s.dev) hw
    simp only [List.mem_cons, List.not_mem_nil, or_false] at hi
    rcases hi with rfl | rfl | rfl | rfl
    · exact runs_of (fun d => ringEnable d by_ k) rfl henable
    · exact runs_of (fun d => ringResume d by_ k) rfl hresume
    · exact runs_of (fun d => ringStop d by_ k) rfl hstop
    · exact runs_of (fun d => ringDisable d by_ k) rfl hdisable
  case moderation => exact runs_of (fun d => modTimeExpire d k) rfl (if_neg (not_or.2 ⟨ht, hm⟩))
  case noModeration => exact runs_of (fun d => modTimeExpire d k) rfl (if_pos (.inr hm))
  case expire => exact runs_of (fun d => handoverExpire d p) rfl (handoverExpire_none h ho)
  case aborted => exact runs_of (fun d => handoverExpire d p) rfl (handoverExpire_some h ho)

end Sys2Proof.Machine
end

section
/-! PROOF. The commands of a ring: descriptors, the end of work, completions (R329 to R332, R335, R340, R441). -/

namespace Sys2Proof.Machine

/-! ## A descriptor that is not accepted (R330) -/

section
variable {d : Dev} {k : Fin 32}

theorem descriptorFetch_idle (h : ringState d k ≠ 1 ∨ (getRing d k).target = fget d (HIF_RING_SEQ_LAST_RECV k)) (bytes : Option (List Byte)) (e : EccHits)
    (far : SMap Byte) : descriptorFetch d k bytes e far = d := by
  refine if_pos ?_
  obtain h | h := h <;> simp [h]

variable (hs : ringState d k = 1) (ht : (getRing d k).target ≠ fget d (HIF_RING_SEQ_LAST_RECV k)) (hn : (getRing d k).cmds.length < 64) (e : EccHits)
  (far : SMap Byte)
include hs ht hn

/-- A ring that runs, has a descriptor to fetch and a place for it. -/
theorem descriptorFetch_due :
    ¬(ringState d k != 1 || (getRing d k).target == fget d (HIF_RING_SEQ_LAST_RECV k) || decide (64 ≤ (getRing d k).cmds.length)) = true := by
  simp only [hs, bne_self_eq_false, Bool.false_or, Bool.or_eq_true, beq_iff_eq, decide_eq_true_eq, not_or]
  exact ⟨ht, Nat.not_le.2 hn⟩

theorem descriptorFetch_failed : descriptorFetch d k none e far = ringError d k 3 := if_neg (descriptorFetch_due hs ht hn)

theorem descriptorFetch_wrongSeq {bs : List Byte} (hl : bs.length = 64) (hq : leAt bs 4 4 ≠ (fget d (HIF_RING_SEQ_LAST_RECV k) + 1) % 2 ^ 32) :
    descriptorFetch d k (some bs) e far = ringError d k 1 :=
  (if_neg (descriptorFetch_due hs ht hn)).trans ((if_neg (not_not.2 hl)).trans (if_pos hq))

end

/-! ## A command that is accepted (R330, R335) -/

/-- The registers of a ring that has received the descriptor `seq`. -/
def receivedRegs (d : Dev) (k seq : Nat) : Dev := fcount (fset d (HIF_RING_SEQ_LAST_RECV k) seq) (HIF_RING_CTR_COMMANDS k) 1

/-- The receipt of a command is counted and traced. -/
def received (d : Dev) (k seq tag : Nat) : Dev := traceEv (receivedRegs d k seq) 2 0x10 tag (0x1020 + k / 16) k .ok (0, 0)

/-- The command that a descriptor names, when no comparator holds it and it reads no list. -/
def acceptedCmd (bs : List Byte) (denied : Bool) (latch : Nat) : HostCmd :=
  { seq := leAt bs 4 4, tag := leAt bs 8 2, opcode := leAt bs 0 2, fence := leAt bs 2 1 % 2 == 1, op := parseOp bs, started := false,
    ended := decide (parseOp bs = .malformed) || denied, due := 0,
    status := if decide (parseOp bs = .malformed) then .aborted else if denied then .securityDenied else .ok,
    detail := if decide (parseOp bs = .malformed) then 1 else if denied then 14 else 0,
    result := 0, lists := [], openReq := 0, latch := latch, workEnd := none, abortAt := none, final := none,
    brk := false, got := [], gotBad := [], spans := [] }

/-- Whether a command that changes the part comes by a port that is not its owner. -/
def deniedCmd (d : Dev) (bs : List Byte) (k : Nat) : Bool := opOwner (parseOp bs) && decide (ownerPort d ≠ k / 16)

/-- A ring whose newest command is `c`. -/
def withNewest (d : Dev) (k : Nat) (c : HostCmd) : Dev :=
  noteInflight (modRing { d with latchNo := d.latchNo + 1 } k (fun r => { r with cmds := r.cmds ++ [c] })) k

theorem listOf_other {op : HostOp} (h : ∀ a n, op ≠ .gaugeList a n) (d : Dev) (e : EccHits) (far : SMap Byte) (tag p : Nat) :
    listOf d e far op tag p = (d, .ok, 0, []) := by
  unfold listOf
  split
  · exact absurd rfl (h _ _)
  · rfl

theorem hostBreak_off {d : Dev} (h : (fget d SEC_DBG_PERMS_PERMS).testBit 0 = false) (k tag : Nat) : hostBreak d k tag = (d, false) := by
  have hbps : hostBps d (k / 16) tag = [] := if_pos (by simp [h])
  rw [hostBreak, hbps]
  rfl

theorem received_fget (d : Dev) (k seq tag : Nat) {f : Fld} (hq : f.off ≠ HIF_RING_SEQ k) (hc : f.off ≠ HIF_RING_CTR k) (ht : f.off ≠ DBG_TRC_STATUS) :
    fget (received d k seq tag) f = fget d f := by
  rw [received, fget_congr f (traceEv_rget _ _ _ _ _ _ _ _ ht), receivedRegs, fcount, fget_fset_ne _ _ _ _ hc, fget_fset_ne _ _ _ _ hq]

theorem received_recv (d : Dev) (k tag : Nat) {seq : Nat} (hs : seq < 2 ^ 32) : fget (received d k seq tag) (HIF_RING_SEQ_LAST_RECV k) = seq := by
  have hc : HIF_RING_SEQ k ≠ HIF_RING_CTR k := by unfold HIF_RING_SEQ HIF_RING_CTR; omega
  have ht : HIF_RING_SEQ k ≠ DBG_TRC_STATUS := by unfold HIF_RING_SEQ DBG_TRC_STATUS; omega
  rw [received, fget_congr _ (traceEv_rget _ _ _ _ _ _ _ _ ht), receivedRegs, fcount, fget_fset_ne _ _ _ _ hc,
    fget_fset _ _ _ (by exact (by decide : 32 + 32 ≤ 64))]
  exact Nat.mod_eq_of_lt hs

theorem received_perms (d : Dev) (k : Fin 32) (seq tag : Nat) : fget (received d k seq tag) SEC_DBG_PERMS_PERMS = fget d SEC_DBG_PERMS_PERMS :=
  received_fget _ _ _ _ (by dsimp only [SEC_DBG_PERMS_PERMS]; unfold SEC_DBG_PERMS HIF_RING_SEQ; omega)
    (by dsimp only [SEC_DBG_PERMS_PERMS]; unfold SEC_DBG_PERMS HIF_RING_CTR; omega) (by decide)

theorem descriptorFetch_accepted {d d1 : Dev} {k : Fin 32} (hs : ringState d k = 1) (ht : (getRing d k).target ≠ fget d (HIF_RING_SEQ_LAST_RECV k))
    (hn : (getRing d k).cmds.length < 64) (e : EccHits) (far : SMap Byte) {bs : List Byte} (hl : bs.length = 64)
    (hq : leAt bs 4 4 = (fget d (HIF_RING_SEQ_LAST_RECV k) + 1) % 2 ^ 32) (hop : ∀ a n, parseOp bs ≠ .gaugeList a n)
    (hperm : (fget d SEC_DBG_PERMS_PERMS).testBit 0 = false) (hd1 : received d k (leAt bs 4 4) (leAt bs 8 2) = d1) :
    descriptorFetch d k (some bs) e far = withNewest d1 k (acceptedCmd bs (deniedCmd d1 bs k) d1.latchNo) := by
  have hbreak : hostBreak d1 k (leAt bs 8 2) = (d1, false) := hostBreak_off (by rwa [← hd1, received_perms]) _ _
  rw [received, receivedRegs] at hd1
  have hlist : listOf d1 e far (parseOp bs) (leAt bs 8 2) (k / 16) = (d1, .ok, 0, []) := listOf_other hop _ _ _ _ _
  rw [descriptorFetch]
  -- Kept abstract, so that no check of the steps below evaluates the comparators or the list.
  obtain ⟨brk, hbrk⟩ : ∃ f, f = hostBreak := ⟨_, rfl⟩
  obtain ⟨list, hls⟩ : ∃ f, f = listOf := ⟨_, rfl⟩
  rw [← hbrk] at hbreak ⊢
  rw [← hls] at hlist ⊢
  dsimp only
  rw [if_neg (descriptorFetch_due hs ht hn), if_neg (not_not.2 hl), if_neg (not_not.2 hq), hd1, hbreak]
  dsimp only
  rw [hlist]
  rfl

theorem withNewest_ring (d : Dev) (k : Nat) (c : HostCmd) : (getRing (withNewest d k c) k).cmds = (getRing d k).cmds ++ [c] := by
  rw [withNewest, noteInflight, getRing_of_rings (fset_rings _ _ _), getRing_modRing_same]
  rfl

theorem withNewest_mem (d : Dev) (k : Nat) (c : HostCmd) : (withNewest d k c).mem = d.mem := by
  rw [withNewest, noteInflight, fset_mem, modRing_mem]

theorem withNewest_cells (d : Dev) (k : Nat) (c : HostCmd) : (withNewest d k c).cells = d.cells := by
  rw [withNewest, noteInflight, fset_cells, modRing_cells]

theorem withNewest_fget (d : Dev) (k : Nat) (c : HostCmd) {f : Fld} (h : f.off ≠ HIF_RING_STATUS k) : fget (withNewest d k c) f = fget d f := by
  rw [withNewest, noteInflight, fget_fset_ne _ _ _ _ h]
  exact fget_of_regs (modRing_regs _ _ _) f

/-- What the newest command is: malformed, denied, or still to start. -/
theorem acceptedCmd_status (bs : List Byte) (denied : Bool) (latch : Nat) :
    (parseOp bs = .malformed → (acceptedCmd bs denied latch).ended = true ∧ (acceptedCmd bs denied latch).status = .aborted ∧
      (acceptedCmd bs denied latch).detail = 1) ∧
    (parseOp bs ≠ .malformed → denied = true → (acceptedCmd bs denied latch).ended = true ∧ (acceptedCmd bs denied latch).status = .securityDenied ∧
      (acceptedCmd bs denied latch).detail = 14) ∧
    (parseOp bs ≠ .malformed → denied = false → (acceptedCmd bs denied latch).ended = false ∧ (acceptedCmd bs denied latch).status = .ok) := by
  refine ⟨fun h => ?_, fun h hd => ?_, fun h hd => ?_⟩ <;> simp [acceptedCmd, *]

/-! ## The end of work, and the completion (R331, R332, R340) -/

theorem latchWork_regs (d : Dev) (k seq : Nat) : (latchWork d k seq).regs = d.regs := by
  unfold latchWork
  split
  · rfl
  · split_ifs
    · rfl
    · exact modRing_regs _ _ _

theorem commandWorkEnd_eq (d : Dev) (k : Fin 32) (seq : Nat) :
    commandWorkEnd d k seq = if tideState d = 1 then latchWork d k seq else commitNow (latchWork d k seq) k seq := by
  have htide : tideState (latchWork d k seq) = tideState d := fget_of_regs (latchWork_regs d k seq) _
  simp only [commandWorkEnd, tideRuns, htide, beq_iff_eq]

/-- A ring whose oldest command leaves, with its completion recorded. -/
def completed (d : Dev) (k : Nat) (c : HostCmd) (f : Status × Nat × Nat × Nat) (rest : List HostCmd) : Dev :=
  noteInflight (modRing (fset (recordCompletion d k c f) (HIF_RING_SEQ_LAST_DONE k) c.seq) k (fun r => { r with cmds := rest })) k

/-- A completion that could not be written is kept for the resumption of its ring. -/
def writeLater (d : Dev) (k seq : Nat) : Dev := modRing d k (fun r => { r with unwrit := r.unwrit ++ [seq] })

theorem completionPost_eq {d : Dev} {k : Fin 32} {c : HostCmd} {rest : List HostCmd} {f : Status × Nat × Nat × Nat} (hc : (getRing d k).cmds = c :: rest)
    (hf : c.final = some f) (ha : f.1 ≠ .aborted) (good : Bool) : completionPost d k good =
    if ringState (completed d k c f rest) k != 1 then writeLater (completed d k c f rest) k c.seq
    else if good then moderate (writeCompletion (completed d k c f rest) k c.seq) k 1
    else ringError (writeLater (completed d k c f rest) k c.seq) k 4 := by
  simp only [completionPost, hc, hf, if_neg ha, completed, writeLater]
  rfl

theorem completionPost_none {d : Dev} {k : Fin 32} (h : (getRing d k).cmds = [] ∨ ∃ c rest, (getRing d k).cmds = c :: rest ∧ c.final = none) (good : Bool) :
    completionPost d k good = d := by
  obtain h | ⟨c, rest, h, hf⟩ := h
  · simp only [completionPost, h]
  · simp only [completionPost, h, hf]

/-- Settles O58: a descriptor by the outcome of its checks, a completion by the state of its ring. -/
theorem ringCommands : Obligations.RingCommands := by
  unfold Obligations.RingCommands
  intro s k e far
  refine ⟨fun h bytes => ?idle, fun hs ht hn => ⟨?failed, fun bs hl hq => ?wrong, fun bs hl hq hop hperm => ?accepted⟩, fun seq => ?ends, ?post,
    fun good h => ?nothing⟩
  case idle => exact runs_of (fun d => descriptorFetch d k bytes e far) rfl (descriptorFetch_idle h _ _ _)
  case failed => exact runs_of (fun d => descriptorFetch d k none e far) rfl (descriptorFetch_failed hs ht hn _ _)
  case wrong => exact runs_of (fun d => descriptorFetch d k (some bs) e far) rfl (descriptorFetch_wrongSeq hs ht hn _ _ hl hq)
  case accepted =>
    refine runs_of (fun d => descriptorFetch d k (some bs) e far) rfl ?_
    have hk : (k : Nat) < 32 := k.isLt
    have hseq : leAt bs 4 4 < 2 ^ 32 := by rw [hq]; exact Nat.mod_lt _ (by decide)
    have howner : ownerPort (received s.dev k (leAt bs 4 4) (leAt bs 8 2)) = ownerPort s.dev :=
      received_fget _ _ _ _ (by dsimp only [HIF_CTRL_OWNER]; unfold HIF_CTRL HIF_RING_SEQ; omega)
        (by dsimp only [HIF_CTRL_OWNER]; unfold HIF_CTRL HIF_RING_CTR; omega) (by decide)
    have hlatch : (received s.dev k (leAt bs 4 4) (leAt bs 8 2)).latchNo = s.dev.latchNo := by
      rw [received, traceEv_latchNo, receivedRegs, fcount_latchNo, fset_latchNo]
    have hrings : (received s.dev k (leAt bs 4 4) (leAt bs 8 2)).rings = s.dev.rings := by
      rw [received, traceEv_rings, receivedRegs, fcount_rings, fset_rings]
    obtain ⟨hmal, hden, hok⟩ := acceptedCmd_status bs (deniedCmd (received s.dev k (leAt bs 4 4) (leAt bs 8 2)) bs k) s.dev.latchNo
    rw [descriptorFetch_accepted hs ht hn e far hl hq hop hperm rfl, withNewest_fget _ _ _ (ringStatus_ne_seq k), withNewest_ring, hlatch,
      getRing_of_rings hrings]
    refine ⟨received_recv _ _ _ hseq, ⟨_, rfl, rfl, rfl, rfl, rfl, rfl, rfl, hmal, fun ho hne => hden ?_ ?_, fun hm ho => hok hm ?_⟩, memSame_of ?_, ?_⟩
    · intro hm
      rw [show (acceptedCmd bs _ _).op = parseOp bs from rfl, hm] at ho
      exact Bool.false_ne_true ho
    · rw [deniedCmd, howner, Bool.and_eq_true, decide_eq_true_eq]
      exact ⟨ho, hne⟩
    · rw [deniedCmd, howner]
      obtain ho | ho := ho
      · exact (congrArg (· && _) ho).trans (Bool.false_and _)
      · rw [ho]
        simp
    · rw [withNewest_mem, received, traceEv_mem, receivedRegs, fcount_mem, fset_mem]
    · rw [withNewest_cells, received, traceEv_cells, receivedRegs, fcount_cells, fset_cells]
  case ends => exact runs_of (fun d => commandWorkEnd d k seq) rfl (commandWorkEnd_eq _ _ _)
  case post =>
    rintro c rest f d1 d2 good hc hf ha rfl rfl
    have hpost := completionPost_eq hc hf ha good
    refine ⟨fun hs hg => runs_of (fun d => completionPost d k good) rfl ?_, fun hs hg => runs_of (fun d => completionPost d k good) rfl ?_,
      fun hs => runs_of (fun d => completionPost d k good) rfl ?_⟩
    · exact hpost.trans ((if_neg (by rw [completed, hs]; decide)).trans (if_pos hg))
    · exact hpost.trans ((if_neg (by rw [completed, hs]; decide)).trans (if_neg (by rw [hg]; exact Bool.false_ne_true)))
    · exact hpost.trans (if_pos (by rw [completed]; simpa using hs))
  case nothing => exact runs_of (fun d => completionPost d k good) rfl (completionPost_none h good)

end Sys2Proof.Machine
end

section
/-! PROOF. Links, resets, power states and IDE streams of a PCI Express port (R311, R320 to R322, R398, R462). -/

namespace Sys2Proof.Machine

/-! ## Fields of one register -/

/-- A field read back after a write that its width holds. -/
theorem fget_fset_fits (d : Dev) (f : Fld) {v : Nat} (h : f.lo + f.wid ≤ 64) (hv : v < 2 ^ f.wid) : fget (fset d f v) f = v :=
  (fget_fset d f v h).trans (Nat.mod_eq_of_lt hv)

/-- The field that a write leaves, when it lies above or below the one written, whatever their registers. -/
theorem fget_fset_beside (d : Dev) (f g : Fld) (v : Nat) (hf : f.lo + f.wid ≤ 64) (h : g.lo + g.wid ≤ f.lo ∨ f.lo + f.wid ≤ g.lo) :
    fget (fset d f v) g = fget d g :=
  fget_fset_skip d f g v hf (.inr h)

/-! ## A link that comes up (R311) -/

/-- The link-up counter of a port whose link was down. -/
def linkCounted (d : Dev) (p : Nat) : Dev := if linkDown d p then fcount d (HIF_LINK_LINK_UPS p) 1 else d

/-- The link register of a port whose link is up at its rate and width. -/
def linkUpRegs (d : Dev) (p rate width flit l0p : Nat) : Dev :=
  fset (fset (fset (fset (fset d (HIF_LINK_UP p) 1) (HIF_LINK_RATE p) rate) (HIF_LINK_WIDTH p) width) (HIF_LINK_FLIT p) flit) (HIF_LINK_L0P_WIDTH p) l0p

theorem linkUpRegs_fields (d : Dev) (p : Nat) {rate width flit l0p : Nat} (hr : rate < 8) (hw : width < 16) (hf : flit < 2) (hl : l0p < 16) :
    fget (linkUpRegs d p rate width flit l0p) (HIF_LINK_UP p) = 1 ∧ fget (linkUpRegs d p rate width flit l0p) (HIF_LINK_RATE p) = rate ∧
    fget (linkUpRegs d p rate width flit l0p) (HIF_LINK_WIDTH p) = width ∧ fget (linkUpRegs d p rate width flit l0p) (HIF_LINK_FLIT p) = flit ∧
    fget (linkUpRegs d p rate width flit l0p) (HIF_LINK_L0P_WIDTH p) = l0p := by
  have h1 : 0 + 1 ≤ 64 ∧ 6 + 3 ≤ 64 ∧ 9 + 4 ≤ 64 ∧ 13 + 1 ≤ 64 ∧ 14 + 4 ≤ 64 := by decide
  obtain ⟨hup, hrate, hwidth, hflit, hl0p⟩ := h1
  refine ⟨?_, ?_, ?_, ?_, ?_⟩
  · rw [linkUpRegs, fget_fset_beside _ _ _ _ hl0p (.inl (by exact (by decide : 0 + 1 ≤ 14))),
      fget_fset_beside _ _ _ _ hflit (.inl (by exact (by decide : 0 + 1 ≤ 13))), fget_fset_beside _ _ _ _ hwidth (.inl (by exact (by decide : 0 + 1 ≤ 9))),
      fget_fset_beside _ _ _ _ hrate (.inl (by exact (by decide : 0 + 1 ≤ 6))), fget_fset_fits _ _ hup (by exact (by decide : 1 < 2 ^ 1))]
  · rw [linkUpRegs, fget_fset_beside _ _ _ _ hl0p (.inl (by exact (by decide : 6 + 3 ≤ 14))),
      fget_fset_beside _ _ _ _ hflit (.inl (by exact (by decide : 6 + 3 ≤ 13))), fget_fset_beside _ _ _ _ hwidth (.inl (by exact (by decide : 6 + 3 ≤ 9))),
      fget_fset_fits _ _ hrate (by exact hr)]
  · rw [linkUpRegs, fget_fset_beside _ _ _ _ hl0p (.inl (by exact (by decide : 9 + 4 ≤ 14))),
      fget_fset_beside _ _ _ _ hflit (.inl (by exact (by decide : 9 + 4 ≤ 13))), fget_fset_fits _ _ hwidth (by exact hw)]
  · rw [linkUpRegs, fget_fset_beside _ _ _ _ hl0p (.inl (by exact (by decide : 13 + 1 ≤ 14))), fget_fset_fits _ _ hflit (by exact hf)]
  · rw [linkUpRegs, fget_fset_fits _ _ hl0p (by exact hl)]

/-- A link that comes up leaves the power state of every function. -/
theorem inD3_linkUpRegs (d : Dev) (p rate width flit l0p j : Nat) : inD3 (linkUpRegs (linkCounted d p) p rate width flit l0p) j = inD3 d j := by
  have hcount : fget (linkCounted d p) (HIF_LINK_DSTATE j) = fget d (HIF_LINK_DSTATE j) := by
    unfold linkCounted
    split_ifs
    · exact fget_fset_beside _ _ _ _ (by exact (by decide : 24 + 8 ≤ 64)) (.inl (by exact (by decide : 18 + 2 ≤ 24)))
    · rfl
  rw [inD3, linkUpRegs, fget_fset_beside _ _ _ _ (by exact (by decide : 14 + 4 ≤ 64)) (.inr (by exact (by decide : 14 + 4 ≤ 18))),
    fget_fset_beside _ _ _ _ (by exact (by decide : 13 + 1 ≤ 64)) (.inr (by exact (by decide : 13 + 1 ≤ 18))),
    fget_fset_beside _ _ _ _ (by exact (by decide : 9 + 4 ≤ 64)) (.inr (by exact (by decide : 9 + 4 ≤ 18))),
    fget_fset_beside _ _ _ _ (by exact (by decide : 6 + 3 ≤ 64)) (.inr (by exact (by decide : 6 + 3 ≤ 18))),
    fget_fset_beside _ _ _ _ (by exact (by decide : 0 + 1 ≤ 64)) (.inr (by exact (by decide : 0 + 1 ≤ 18))), hcount, inD3]

theorem linkUpRegs_onlyRegs (d : Dev) (p rate width flit l0p : Nat) : OnlyRegs d (linkUpRegs (linkCounted d p) p rate width flit l0p) := by
  have hcount : OnlyRegs d (linkCounted d p) := by
    unfold linkCounted
    split_ifs
    exacts [(OnlyRegs.refl d).fcount _ _, OnlyRegs.refl d]
  exact ((((hcount.fset _ _).fset _ _).fset _ _).fset _ _).fset _ _

theorem OnlyRegs.pwr {d d' : Dev} (h : OnlyRegs d d') : d'.pwr = d.pwr := by have e := congrArg Dev.pwr h; exact e

/-- No D3 change is due. -/
def noD3Due (d : Dev) : Dev := { d with pwr := { d.pwr with d3Due := false } }

theorem noD3Due_fget (d : Dev) (f : Fld) : fget (noD3Due d) f = fget d f := (rfl)
theorem noD3Due_mem (d : Dev) : (noD3Due d).mem = d.mem := (rfl)
theorem noD3Due_cells (d : Dev) : (noD3Due d).cells = d.cells := (rfl)

/-- With both functions awake in a part that is on, no D3 change is due. -/
theorem d3Check_awake {d : Dev} (hs : d.pwr.state = 1) (h0 : inD3 d 0 = false) (h1 : inD3 d 1 = false) :
    d3Check d = noD3Due d := by
  have hwant : d3Wanted d = false := by simp [d3Wanted, h0, h1]
  rw [d3Check, if_neg (by omega), if_neg (by omega), hwant]
  exact if_neg Bool.false_ne_true

theorem pcieLinkUp_on {d : Dev} {p : PciePort} {rate width l0p : Nat} (hp : polderHi d (12 + p.val) = true) (hr : (getPcie d p).inPerst = false)
    (h1 : 1 ≤ rate) (h6 : rate ≤ 6) (hw : width ∈ [1, 2, 4, 8]) (hl : l0p ∈ [0, 1, 2, 4, 8]) : pcieLinkUp d p rate width l0p =
    d3Check (linkUpRegs (linkCounted d p) p rate width (if rate = 6 then 1 else 0) (if rate = 6 then l0p else 0)) := by
  have hwc : List.contains [1, 2, 4, 8] width = true := List.contains_iff_mem.2 hw
  have hlc : List.contains [0, 1, 2, 4, 8] l0p = true := List.contains_iff_mem.2 hl
  exact if_neg (by rw [hp, hr, hwc, hlc, decide_eq_true ⟨h1, h6⟩]; decide)

/-! ## A PERST that is asserted (R398) -/

/-- A PORT reset that is asked for, with nothing owed. -/
def portRun (p : Nat) : ResetRun := { scope := 2, target := 4 + p, raised := false, owed := [] }

theorem requestReset_port {d : Dev} (h : d.kpr.resets = []) (p : Nat) :
    requestReset d 2 (4 + p) [] = noteResets (withKpr d { d.kpr with resets := [portRun p] }) := by
  have h2 : ¬4 ≤ 2 := by decide
  simp only [requestReset, if_neg h2, h, List.any_nil, Bool.false_eq_true, if_false, List.filter_nil, List.flatMap_nil, List.nil_append]
  rfl

/-- A port whose PERST is asserted is not ready. -/
def inPerst (d : Dev) (p : PciePort) : Dev := fset (modPcie d p (fun q => { q with inPerst := true, cfgReady := false })) (pcieReady p) 0

theorem perstAssert_first {d : Dev} {p : PciePort} (h : (getPcie d p).inPerst = false) (hr : d.kpr.resets = []) :
    perstAssert d p = noteResets (withKpr (inPerst d p) { d.kpr with resets := [portRun p] }) := by
  have hk : (inPerst d p).kpr = d.kpr := by rw [inPerst, fset_kpr, modPcie_kpr]
  refine (if_neg (by simp [h])).trans ((requestReset_port (d := inPerst d p) (by rw [hk, hr]) p).trans ?_)
  rw [hk]

theorem getPcie_of_pcie {d d' : Dev} (h : d'.pcie = d.pcie) (p : Nat) : getPcie d' p = getPcie d p := by rw [getPcie, getPcie, h]

theorem withKpr_pcie (d : Dev) (k : KeeperState) : (withKpr d k).pcie = d.pcie := (rfl)

/-- What a PERST leaves of its port and of the resets under way. -/
theorem perstAssert_result {d : Dev} {p : PciePort} (h : (getPcie d p).inPerst = false) (hr : d.kpr.resets = []) :
    getPcie (perstAssert d p) p = { getPcie d p with inPerst := true, cfgReady := false } ∧ fget (perstAssert d p) (pcieReady p) = 0 ∧
    (perstAssert d p).kpr.resets = [portRun p] ∧ (perstAssert d p).mem = d.mem ∧ (perstAssert d p).cells = d.cells := by
  obtain ⟨h64, -⟩ := pcieReady_bit p
  rw [perstAssert_first h hr]
  refine ⟨?_, ?_, ?_, ?_, ?_⟩
  · rw [getPcie_of_pcie (noteResets_keeps Dev.pcie (fun _ _ _ _ => fset_pcie _ _ _) _), getPcie_of_pcie (withKpr_pcie _ _), inPerst,
      getPcie_of_pcie (fset_pcie _ _ _), getPcie_modPcie_same]
  · rw [noteResets_keeps (fun d => fget d (pcieReady p)) (fun _ _ _ hf => fget_fset_ne _ _ _ _ (by rw [hf, pcieReady_off]; decide)),
      fget_of_regs (withKpr_regs _ _), inPerst, fget_fset _ _ _ h64]
    exact Nat.zero_mod _
  · rw [noteResets_kpr, withKpr_kpr]
  · rw [noteResets_mem, withKpr_mem, inPerst, fset_mem, modPcie_mem]
  · rw [noteResets_cells, withKpr_cells, inPerst, fset_cells, modPcie_cells]

/-! ## An IDE stream that fails (R320) -/

/-- The link register of a port whose stream is no longer secure. -/
def ideFailed (d : Dev) (p stream : Nat) : Dev := fset (fset d ⟨HIF_LINK p, 20 + stream, 1⟩ 0) (HIF_LINK_IDE_FAIL p) 1

theorem fget_of_rbit (d : Dev) (o n : Nat) : rbit d o n = true ↔ fget d ⟨o, n, 1⟩ = 1 := by rw [rbit_eq_fget, decide_eq_true_eq]

theorem ideIntegrityFail_secure {d : Dev} {p : PciePort} {stream : Fin 3} (h : rbit d (HIF_LINK p) (20 + stream.val) = true) :
    ideIntegrityFail d p stream = raiseBoth (ideFailed d p stream) 27 :=
  if_neg (by rw [(fget_of_rbit _ _ _).1 h]; decide)

theorem ideIntegrityFail_plain {d : Dev} {p : PciePort} {stream : Fin 3} (h : rbit d (HIF_LINK p) (20 + stream.val) = false) :
    ideIntegrityFail d p stream = d := by
  have hlt : fget d ⟨HIF_LINK p, 20 + stream.val, 1⟩ < 2 ^ 1 := fget_lt _ _
  have hne : fget d ⟨HIF_LINK p, 20 + stream.val, 1⟩ ≠ 1 := fun hf => by rw [(fget_of_rbit _ _ _).2 hf] at h; exact Bool.noConfusion h
  exact if_pos (by omega)

theorem ideFailed_fields (d : Dev) (p : Nat) (stream : Fin 3) : fget (ideFailed d p stream) ⟨HIF_LINK p, 20 + stream.val, 1⟩ = 0 ∧
    fget (ideFailed d p stream) (HIF_LINK_IDE_FAIL p) = 1 := by
  have hs : stream.val < 3 := stream.isLt
  constructor
  · rw [ideFailed, fget_fset_beside _ _ _ _ (by exact (by decide : 23 + 1 ≤ 64)) (.inl (by dsimp only [HIF_LINK_IDE_FAIL]; omega)),
      fget_fset _ _ _ (by dsimp only; omega)]
    rfl
  · rw [ideFailed, fget_fset _ _ _ (by exact (by decide : 23 + 1 ≤ 64))]
    rfl

/-- Settles O56: each event of a port by the branch that its statement names. -/
theorem portLinks : Obligations.PortLinks := by
  unfold Obligations.PortLinks
  intro s p
  refine ⟨runs_of (fun d => functionLevelReset d p) rfl rfl, runs_of (fun d => hotReset d p) rfl rfl, fun h => ?down, fun d1 h hd1 => ?goesDown,
    fun rate width l0p hp hr h1 h6 hw hl hs h30 h31 => ?up, fun h => ?perstAgain, fun h hr => ?perst, runs_of (fun d => perstDeassert d p) rfl rfl,
    fun d3 h => ?dstate, fun d3 h => ?dstateOff, fun stream h => ?ide, fun stream h => ?idePlain⟩
  case down => exact runs_of (fun d => pcieLinkDown d p) rfl (if_pos h)
  case goesDown =>
    refine runs_of (fun d => pcieLinkDown d p) rfl ?_
    rw [hd1]
    exact if_neg (by rw [h]; exact Bool.false_ne_true)
  case up =>
    refine runs_of (fun d => pcieLinkUp d p rate width l0p) rfl ?_
    have hw16 : width < 16 := by simp only [List.mem_cons, List.not_mem_nil, or_false] at hw; omega
    have hl16 : (if rate = 6 then l0p else 0) < 16 := by
      simp only [List.mem_cons, List.not_mem_nil, or_false] at hl
      split_ifs <;> omega
    have hf2 : (if rate = 6 then 1 else 0) < 2 := by split_ifs <;> decide
    have honly := linkUpRegs_onlyRegs s.dev p rate width (if rate = 6 then 1 else 0) (if rate = 6 then l0p else 0)
    have hawake := d3Check_awake (honly.pwr ▸ hs) ((inD3_linkUpRegs _ _ _ _ _ _ _).trans h30) ((inD3_linkUpRegs _ _ _ _ _ _ _).trans h31)
    rw [pcieLinkUp_on hp hr h1 h6 hw hl, hawake]
    obtain ⟨hup, hrate, hwidth, hflit, hl0p⟩ := linkUpRegs_fields (linkCounted s.dev p) p (show rate < 8 by omega) hw16 hf2 hl16
    simp only [noD3Due_fget]
    exact ⟨hup, hrate, hwidth, hflit, hl0p, memSame_of ((noD3Due_mem _).trans honly.mem), (noD3Due_cells _).trans honly.cells⟩
  case perstAgain => exact runs_of (fun d => perstAssert d p) rfl (if_pos h)
  case perst =>
    refine runs_of (fun d => perstAssert d p) rfl ?_
    obtain ⟨hport, hready, hresets, hmem, hcells⟩ := perstAssert_result h hr
    exact ⟨congrArg PciePortState.inPerst hport, congrArg PciePortState.cfgReady hport, hready, hresets, memSame_of hmem, hcells⟩
  case dstate => exact runs_of (fun d => dStateChange d p d3) rfl (if_neg (by simp [h]))
  case dstateOff => exact runs_of (fun d => dStateChange d p d3) rfl (if_pos (by simp [h]))
  case ide =>
    refine runs_of (fun d => ideIntegrityFail d p stream) rfl ?_
    obtain ⟨hbit, hfail⟩ := ideFailed_fields s.dev p stream
    have hp : p.val < 2 := p.isLt
    have hev : HIF_LINK p ≠ HIF_EVENT 0 ∧ HIF_LINK p ≠ HIF_EVENT 1 := by unfold HIF_LINK HIF_EVENT; omega
    have hkept : ∀ lo, fget (raiseBoth (ideFailed s.dev p stream) 27) ⟨HIF_LINK p, lo, 1⟩ = fget (ideFailed s.dev p stream) ⟨HIF_LINK p, lo, 1⟩ :=
      fun lo => raiseBoth_fget _ _ _ hev.1 hev.2
    rw [ideIntegrityFail_secure h]
    refine ⟨?_, (hkept 23).trans hfail, memSame_of ?_, ?_⟩
    · rw [rbit_of_fget (hkept _), rbit_eq_fget, hbit]
      rfl
    · rw [raiseBoth_mem, ideFailed, fset_mem, fset_mem]
    · rw [raiseBoth_cells, ideFailed, fset_cells, fset_cells]
  case idePlain => exact runs_of (fun d => ideIntegrityFail d p stream) rfl (ideIntegrityFail_plain h)

end Sys2Proof.Machine
end

section
/-! PROOF. What each host command does when it starts (R114, R208, R212, R267, R334, R336 to R339, R341, R343, R346, R359, R398). -/

namespace Sys2Proof.Machine

/-! ## COPY (R337) -/

theorem copyArgs_copy {c : HostCmd} {hostA dev len : Nat} {toHost : Bool} {g : Gref} (h : c.op = .copy hostA dev len toHost g) :
    copyArgs c = some (hostA, dev, len, toHost, g) := by
  rw [copyArgs, h]

/-- A COPY that has what it moves runs. -/
theorem hostCopy_run {d : Dev} {k : Fin 32} {c : HostCmd} (hn : nextCmd d k = some c) {hostA dev len : Nat} {toHost : Bool} {g : Gref}
    (h : c.op = .copy hostA dev len toHost g) {host : Option (List Byte)} (hb : toHost = true ∨ host = none ∨ ∃ bs, host = some bs ∧ bs.length = len)
    (bad : List Nat) (e : EccHits) : hostCopy d k host bad e = copyRun d e k c host bad := by
  simp only [hostCopy, hn, h]
  obtain rfl | rfl | ⟨bs, rfl, rfl⟩ := hb <;> simp

section
variable {d : Dev} {k : Nat} {c : HostCmd} {hostA dev len : Nat} {toHost : Bool} {g : Gref} (h : c.op = .copy hostA dev len toHost g) {e : EccHits}
  {host : Option (List Byte)} {bad : List Nat}
include h

theorem copyRun_badGref (hg : grefBad d g = true) : copyRun d e k c host bad = markOver d k c.seq .retiredResource 0 0 := by
  simp only [copyRun, copyArgs_copy h, if_pos hg]

/-- A COPY under way: its walk is counted, and its command started. -/
def copyStarted (d : Dev) (k seq : Nat) : Dev := modCmd (countWalk d) k seq (fun c => { c with started := true })

theorem copyRun_held (hg : grefBad d g = false) (ht : toHost = false) (hh : copyHeld d dev len = true) : copyRun d e k c host bad = d := by
  simp only [copyRun, copyArgs_copy h, hg, Bool.false_eq_true, if_false]
  exact if_pos (by simp [ht, hh])

theorem copyRun_toHost (hg : grefBad d g = false) (ht : toHost = true) (hr : checkRange (copyStarted d k c.seq) .barRead dev len = none) :
    copyRun d e k c host bad = copyEnd ((cutAt 128 dev len).foldl (fun d p => copyPiece d e k c.seq c.tag dev p.1 p.2 true [] false)
      (copyStarted d k c.seq)) k c.seq := by
  subst ht
  simp only [copyStarted] at hr ⊢
  simp only [copyRun, copyArgs_copy h, hg, Bool.false_eq_true, if_false, Bool.not_true, Bool.false_and, if_true, hr]

theorem copyRun_toDevice (hg : grefBad d g = false) (ht : toHost = false) (hh : copyHeld d dev len = false) {bs : List Byte} (hb : host = some bs)
    (hbad : bad = []) (hr : checkRange (copyStarted d k c.seq) .barWrite dev len = none) :
    copyRun d e k c host bad = copyEnd ((cutAt 64 dev len).foldl (fun d p => copyPiece d e k c.seq c.tag dev p.1 p.2 false ((bs.drop p.1).take p.2) false)
      (copyStarted d k c.seq)) k c.seq := by
  subst ht hb hbad
  simp only [copyStarted] at hr ⊢
  simp only [copyRun, copyArgs_copy h, hg, hh, Bool.false_eq_true, if_false, Bool.not_false, Bool.and_false, hr, List.any_nil, List.isEmpty_nil, if_true]

end

/-! ## The Pattern commands (R208, R212) -/

theorem modCmd_regs (d : Dev) (k seq : Nat) (f : HostCmd → HostCmd) : (modCmd d k seq f).regs = d.regs := modRing_regs _ _ _
theorem modCmd_pat (d : Dev) (k seq : Nat) (f : HostCmd → HostCmd) : (modCmd d k seq f).pat = d.pat := modRing_pat _ _ _
theorem modCmd_mem (d : Dev) (k seq : Nat) (f : HostCmd → HostCmd) : (modCmd d k seq f).mem = d.mem := modRing_mem _ _ _
theorem modCmd_cells (d : Dev) (k seq : Nat) (f : HostCmd → HostCmd) : (modCmd d k seq f).cells = d.cells := modRing_cells _ _ _

theorem modCmd_cmds (d : Dev) (k seq : Nat) (f : HostCmd → HostCmd) :
    (getRing (modCmd d k seq f) k).cmds = (getRing d k).cmds.map (fun c => if c.seq = seq then f c else c) := by
  rw [modCmd, getRing_modRing_same]

/-- A command that is set to started is so wherever its SEQ stands in the ring. -/
theorem modCmd_started (d : Dev) (k seq : Nat) : ∀ x ∈ (getRing (modCmd d k seq (fun c => { c with started := true })) k).cmds,
    x.seq = seq → x.started = true := by
  intro x hx hs
  rw [modCmd_cmds] at hx
  obtain ⟨c, -, rfl⟩ := List.mem_map.1 hx
  by_cases hc : c.seq = seq
  · rw [if_pos hc]
  · rw [if_neg hc] at hs
    exact absurd hs hc

theorem withPat_mem (d : Dev) (p : PatState) : (withPat d p).mem = d.mem := (rfl)
theorem withPat_cells (d : Dev) (p : PatState) : (withPat d p).cells = d.cells := (rfl)

/-- A stage that loads an image for a command. -/
def loadStarted (d : Dev) (addr len : Nat) (key : Option (Nat × Nat)) : Dev :=
  withPat (fset (emptyStage d) PAT_STATUS_STAGE 1) { (fset (emptyStage d) PAT_STATUS_STAGE 1).pat with loading := some (addr, len), loadCmd := key }

theorem startLoad_pair {d : Dev} (h : patStage d = 0 ∨ patStage d = 2) (addr len : Nat) (key : Option (Nat × Nat)) :
    startLoad d addr len key = (loadStarted d addr len key, true) := by
  rw [startLoad, if_pos h]
  rfl

theorem startLoad_busy {d : Dev} (h : patStage d = 1 ∨ patStage d = 3) (addr len : Nat) (key : Option (Nat × Nat)) :
    startLoad d addr len key = (d, false) :=
  if_neg (by omega)

theorem emptyStage_cells (d : Dev) : (emptyStage d).cells = d.cells := by simp [emptyStage]

theorem loadStarted_mem (d : Dev) (addr len : Nat) (key : Option (Nat × Nat)) : (loadStarted d addr len key).mem = d.mem := by
  rw [loadStarted, withPat_mem, fset_mem, emptyStage_mem]

theorem loadStarted_cells (d : Dev) (addr len : Nat) (key : Option (Nat × Nat)) : (loadStarted d addr len key).cells = d.cells := by
  rw [loadStarted, withPat_cells, fset_cells, emptyStage_cells]

theorem loadStarted_stage (d : Dev) (addr len : Nat) (key : Option (Nat × Nat)) : fget (loadStarted d addr len key) PAT_STATUS_STAGE = 1 := by
  rw [loadStarted, withPat_fget]
  exact patStage_fset (emptyStage d) (by decide)

/-- A switch that is scheduled for a command. -/
def withSwitch (d : Dev) (due : Nat) (key : Option (Nat × Nat)) : Dev :=
  { d with pat := { d.pat with due := due, swCmd := key }, tide := { d.tide with sentReady := false, withdrawn := false } }

theorem withSwitch_pat (d : Dev) (due : Nat) (key : Option (Nat × Nat)) : (withSwitch d due key).pat.due = due ∧ (withSwitch d due key).pat.swCmd = key :=
  ⟨rfl, rfl⟩

theorem withSwitch_regs (d : Dev) (due : Nat) (key : Option (Nat × Nat)) : (withSwitch d due key).regs = d.regs := (rfl)
theorem withSwitch_mem (d : Dev) (due : Nat) (key : Option (Nat × Nat)) : (withSwitch d due key).mem = d.mem := (rfl)
theorem withSwitch_cells (d : Dev) (due : Nat) (key : Option (Nat × Nat)) : (withSwitch d due key).cells = d.cells := (rfl)

/-- A stage whose switch is scheduled for a command. -/
def switchStarted (d : Dev) (e : Nat) (key : Option (Nat × Nat)) : Dev := withSwitch (stageSwitchRegs d e) (edgeUsed d e) key

theorem startSwitch_pair {d : Dev} (h : patStage d = 2) (e : Nat) (key : Option (Nat × Nat)) : startSwitch d e key = (switchStarted d e key, true) := by
  rw [startSwitch, if_pos h]
  rfl

theorem startSwitch_not {d : Dev} (h : patStage d ≠ 2) (e : Nat) (key : Option (Nat × Nat)) : startSwitch d e key = (d, false) := if_neg h

section
variable {d : Dev} {k : Fin 32} {c : HostCmd} (hn : nextCmd d k = some c)
include hn

theorem hostPatLoad_ready {a n : Nat} (h : c.op = .patLoad a n) (hs : patStage d = 0 ∨ patStage d = 2) :
    hostPatLoad d k = modCmd (loadStarted d a n (some (k.val, c.seq))) k c.seq (fun c => { c with started := true }) := by
  simp only [hostPatLoad, hn, h, startLoad_pair hs]

theorem hostPatLoad_busy {a n : Nat} (h : c.op = .patLoad a n) (hs : patStage d = 1 ∨ patStage d = 3) :
    hostPatLoad d k = markOver d k c.seq .notReady 13 0 := by
  simp only [hostPatLoad, hn, h, startLoad_busy hs]

theorem hostPatSwitch_staged {e : Nat} (h : c.op = .patSwitch e) (hs : patStage d = 2) :
    hostPatSwitch d k = startDue (switchStarted d e (some (k.val, c.seq))) k c.seq (edgeUsed d e) := by
  simp only [hostPatSwitch, hn, h, startSwitch_pair hs]
  rfl

theorem hostPatSwitch_not {e : Nat} (h : c.op = .patSwitch e) (hs : patStage d ≠ 2) : hostPatSwitch d k = markOver d k c.seq .notReady 13 0 := by
  simp only [hostPatSwitch, hn, h, startSwitch_not hs]

theorem hostPatDiscard_empty (h : c.op = .patDiscard) (hs : patStage d = 0) : hostPatDiscard d k = markOver d k c.seq .notReady 13 0 := by
  have hd : discardStage d = (d, false) := by simp only [discardStage, hs]
  simp only [hostPatDiscard, hn, h, hd]

theorem hostPatDiscard_done (h : c.op = .patDiscard) {d1 : Dev} (hd : discardStage d = (d1, true)) :
    hostPatDiscard d k = latchWork (markOver d1 k c.seq .ok (fget d1 PAT_STATUS_REASON) 0) k c.seq := by
  simp only [hostPatDiscard, hn, h, hd]

end

/-! ## ABORT (R341) -/

theorem abortOf_abort {c : HostCmd} {p r sq : Nat} (h : c.op = .abort p r sq) : abortOf c = some (16 * p + r, sq) := by rw [abortOf, h]

theorem hostAbort_tide {d : Dev} {k : Fin 32} {c : HostCmd} (hn : nextCmd d k = some c) {p r sq : Nat} (h : c.op = .abort p r sq)
    (ht : tideRuns (startAbort d k c) = true) : hostAbort d k = latchWork (startAbort d k c) k c.seq := by
  simp only [hostAbort, hn, abortOf_abort h, ht, if_true]

/-- While the tide runs, an ABORT whose meaning writes only the commands of rings is latched. -/
theorem hostAbort_eq {d d1 : Dev} {k : Fin 32} {c : HostCmd} (hn : nextCmd d k = some c) {p r sq : Nat} (h : c.op = .abort p r sq) (ht : tideState d = 1)
    (hd : startAbort d k c = d1) (hregs : d1.regs = d.regs) : hostAbort d k = latchWork d1 k c.seq := by
  have hrun : tideRuns d1 = true := by rw [tideRuns, tideState, fget_of_regs hregs, ← tideState, ht]; rfl
  rw [hostAbort_tide hn h (hd.symm ▸ hrun), hd]

section
variable {d : Dev} {k : Nat} {c : HostCmd} {p r sq : Nat} (h : c.op = .abort p r sq) (hr : r < 16)
include h hr

theorem startAbort_denied (hp : p ≠ k / 16) (ho : ownerPort d ≠ k / 16) : startAbort d k c = markOver d k c.seq .securityDenied 14 0 := by
  have hport : (16 * p + r) / 16 = p := by omega
  simp only [startAbort, abortOf_abort h, hport]
  exact if_pos ⟨hp, ho⟩

variable (ha : p = k / 16 ∨ ownerPort d = k / 16)
include ha

omit h in
/-- An ABORT that its port may make goes by the distance of the SEQ it names. -/
theorem startAbort_allowed : ¬((16 * p + r) / 16 ≠ k / 16 ∧ ownerPort d ≠ k / 16) := by
  have hport : (16 * p + r) / 16 = p := by omega
  rw [hport, not_and_or, not_not, not_not]
  exact ha

theorem startAbort_early (hg : 0 < (sq + 2 ^ 32 - fget d (HIF_RING_SEQ_LAST_RECV (16 * p + r))) % 2 ^ 32 ∧
    (sq + 2 ^ 32 - fget d (HIF_RING_SEQ_LAST_RECV (16 * p + r))) % 2 ^ 32 < 2 ^ 31) : startAbort d k c = markOver d k c.seq .notReady 13 0 := by
  simp only [startAbort, abortOf_abort h, if_neg (startAbort_allowed hr ha)]
  exact if_pos hg

theorem startAbort_found (hg : ¬(0 < (sq + 2 ^ 32 - fget d (HIF_RING_SEQ_LAST_RECV (16 * p + r))) % 2 ^ 32 ∧
    (sq + 2 ^ 32 - fget d (HIF_RING_SEQ_LAST_RECV (16 * p + r))) % 2 ^ 32 < 2 ^ 31)) {t : HostCmd} (hf : findCmd d (16 * p + r) sq = some t)
    (hop : t.op = .nop) (hfin : t.final = none) (hab : t.abortAt = none) (hst : t.started = false) : startAbort d k c =
    modCmd (modCmd d k c.seq (fun c => { c with started := true })) (16 * p + r) sq (fun t => { t with abortAt := some (c.latch, k / 16, k % 16, c.seq) }) := by
  simp only [startAbort, abortOf_abort h, if_neg (startAbort_allowed hr ha), if_neg hg, hf, hop, hfin, hab, hst, Option.isSome_none, Bool.or_self,
    Bool.false_and, Bool.false_eq_true, if_false]

end

/-! ## HANDOVER (R346) -/

section
variable {d : Dev} {k : Fin 32} {c : HostCmd} (hn : nextCmd d k = some c)
include hn

theorem hostHandover_eq {n : Nat} (h : c.op = .handover n) : hostHandover d k =
    if fbit d (offerFld (k.val / 16)) then markOver d k c.seq .notReady 13 0
    else if fbit d (offerFld (1 - k.val / 16)) then transferOwner d (1 - k.val / 16) k c.seq
    else fset (modCmd d k c.seq (fun c => { c with started := true })) (offerFld (k.val / 16)) 1 := by
  simp only [hostHandover, hn, h]

theorem hostHandoverAck_eq (h : c.op = .handoverAck) : hostHandoverAck d k =
    if fbit d (offerFld (1 - k.val / 16)) then transferOwner d (1 - k.val / 16) k c.seq else markOver d k c.seq .notReady 13 0 := by
  simp only [hostHandoverAck, hn, h]

theorem hostCapSet_eq {w e : Nat} (h : c.op = .capSet w e) : hostCapSet d k =
    if tideRuns d then startDue d k c.seq (edgeUsed d e) else writeFinal (setHostCap d w) k c.seq .ok 0 0 0 := by
  simp only [hostCapSet, hn, h]

end

theorem fbit_of_one {d : Dev} {f : Fld} (h : fget d f = 1) : fbit d f = true := by rw [fbit, h]; rfl
theorem fbit_of_zero {d : Dev} {f : Fld} (h : fget d f = 0) : fbit d f = false := by rw [fbit, h]; rfl

/-- Settles O59: each command by the equation of its meaning, in the case that its statement names. -/
theorem hostCommands : Obligations.HostCommands := by
  unfold Obligations.HostCommands
  intro s k c hn
  refine ⟨fun h => ?nop, fun hostA dev len toHost g host bad e h hb => ⟨fun hg => ?copyBad, fun hg ht hh => ?copyHeld, ?copyOut, ?copyIn⟩,
    fun g set v h => ?gauge, fun a n h => ?gaugeList, fun a l f g h => ?ingestSet, fun a n h => ⟨fun hs => ?load, fun hs => ?loadBusy⟩,
    fun e h => ⟨fun hs => ?switch, fun hs => ?switchNot⟩, fun h => ⟨fun hs => ?discardEmpty, fun d1 hd => ?discard⟩, fun v e h => ?seed, fun g l e h => ?layout,
    fun w e h => ⟨fun ht => ?cap, fun ht => ?capNow⟩, fun sc t h => ?reset, fun p r sq h ht => ⟨fun hp ho hr => ?denied, fun tk t g ha htk hr hg => ?abort⟩,
    fun n h => ⟨fun ho => ?offered, fun ho h1 => ?offer, fun ho h1 => ?transfer⟩, fun h => ⟨fun h1 => ?ack, fun h1 => ?ackNone⟩⟩
  case nop =>
    refine runs_of (fun d => hostNop d k) rfl ?_
    simp only [hostNop, hn, h]
  case copyBad => exact runs_of (fun d => hostCopy d k host bad e) rfl ((hostCopy_run hn h hb _ _).trans (copyRun_badGref h hg))
  case copyHeld => exact runs_of (fun d => hostCopy d k host bad e) rfl ((hostCopy_run hn h hb _ _).trans (copyRun_held h hg ht hh))
  case copyOut =>
    rintro d1 hg ht rfl hr
    exact runs_of (fun d => hostCopy d k host bad e) rfl ((hostCopy_run hn h hb _ _).trans (copyRun_toHost h hg ht hr))
  case copyIn =>
    rintro d1 bs hg ht hh hbs hbad rfl hr
    exact runs_of (fun d => hostCopy d k host bad e) rfl ((hostCopy_run hn h hb _ _).trans (copyRun_toDevice h hg ht hh hbs hbad hr))
  case gauge =>
    refine runs_of (fun d => hostGauge d k) rfl ?_
    simp only [hostGauge, hn, h]
  case gaugeList =>
    refine runs_of (fun d => hostGaugeList d k) rfl ?_
    simp only [hostGaugeList, hn, h]
  case ingestSet =>
    refine runs_of (fun d => hostIngestSet d k) rfl ?_
    simp only [hostIngestSet, hn, h]
  case load =>
    refine runs_of (fun d => hostPatLoad d k) rfl ?_
    rw [hostPatLoad_ready hn h hs, modCmd_pat]
    exact ⟨(fget_of_regs (modCmd_regs _ _ _ _) _).trans (loadStarted_stage _ _ _ _), rfl, rfl, modCmd_started _ _ _,
      memSame_of ((modCmd_mem _ _ _ _).trans (loadStarted_mem _ _ _ _)), (modCmd_cells _ _ _ _).trans (loadStarted_cells _ _ _ _)⟩
  case loadBusy => exact runs_of (fun d => hostPatLoad d k) rfl (hostPatLoad_busy hn h hs)
  case switch =>
    refine runs_of (fun d => hostPatSwitch d k) rfl ?_
    rw [hostPatSwitch_staged hn h hs, startDue, modCmd_pat]
    have hregs : ∀ key f, (modCmd (switchStarted s.dev e key) k c.seq f).regs = (stageSwitchRegs s.dev e).regs := fun key f =>
      (modCmd_regs _ _ _ _).trans (withSwitch_regs _ _ _)
    obtain ⟨hdue, hcmd⟩ := withSwitch_pat (stageSwitchRegs s.dev e) (edgeUsed s.dev e) (some (k.val, c.seq))
    refine ⟨(fget_of_regs (hregs _ _) _).trans (patStage_stageSwitchRegs _ _), hdue, hcmd, (rget_congr (hregs _ _) _).trans (stageSwitchRegs_done _ _),
      memSame_of ?_, ?_⟩
    · rw [modCmd_mem, switchStarted, withSwitch_mem, stageSwitchRegs_mem]
    · rw [modCmd_cells, switchStarted, withSwitch_cells, stageSwitchRegs, rset_cells, fset_cells]
  case switchNot => exact runs_of (fun d => hostPatSwitch d k) rfl (hostPatSwitch_not hn h hs)
  case discardEmpty => exact runs_of (fun d => amendEdge (hostPatDiscard d k)) rfl (congrArg amendEdge (hostPatDiscard_empty hn h hs))
  case discard => exact runs_of (fun d => amendEdge (hostPatDiscard d k)) rfl (congrArg amendEdge (hostPatDiscard_done hn h hd))
  case seed =>
    refine runs_of (fun d => hostSrSeed d k) rfl ?_
    simp only [hostSrSeed, hn, h, startDue]
  case layout =>
    refine runs_of (fun d => hostClvLayout d k) rfl ?_
    simp only [hostClvLayout, hn, h, startDue]
  case cap => exact runs_of (fun d => hostCapSet d k) rfl ((hostCapSet_eq hn h).trans (if_pos (by rw [tideRuns, ht]; rfl)))
  case capNow => exact runs_of (fun d => hostCapSet d k) rfl ((hostCapSet_eq hn h).trans (if_neg (by simpa [tideRuns] using ht)))
  case reset =>
    refine runs_of (fun d => hostReset d k) rfl ?_
    simp only [hostReset, hn, h]
  case denied =>
    exact runs_of (fun d => amendEdge (hostAbort d k)) rfl
      (congrArg amendEdge (hostAbort_eq hn h ht (startAbort_denied h hr hp ho) (modCmd_regs _ _ _ _)))
  case abort =>
    subst htk hg
    refine ⟨fun h0 h31 => ?_, fun hfar hf hop hfin hab hst => ?_⟩
    · exact runs_of (fun d => amendEdge (hostAbort d k)) rfl
        (congrArg amendEdge (hostAbort_eq hn h ht (startAbort_early h hr ha ⟨h0, h31⟩) (modCmd_regs _ _ _ _)))
    · have hd := startAbort_found h hr ha (by omega) hf hop hfin hab hst
      exact runs_of (fun d => amendEdge (hostAbort d k)) rfl
        (congrArg amendEdge (hostAbort_eq hn h ht hd ((modCmd_regs _ _ _ _).trans (modCmd_regs _ _ _ _))))
  case offered => exact runs_of (fun d => hostHandover d k) rfl ((hostHandover_eq hn h).trans (if_pos (fbit_of_one ho)))
  case offer =>
    exact runs_of (fun d => hostHandover d k) rfl ((hostHandover_eq hn h).trans
      ((if_neg (by rw [fbit_of_zero ho]; exact Bool.false_ne_true)).trans (if_neg (by rw [fbit_of_zero h1]; exact Bool.false_ne_true))))
  case transfer =>
    exact runs_of (fun d => hostHandover d k) rfl ((hostHandover_eq hn h).trans
      ((if_neg (by rw [fbit_of_zero ho]; exact Bool.false_ne_true)).trans (if_pos (fbit_of_one h1))))
  case ack => exact runs_of (fun d => hostHandoverAck d k) rfl ((hostHandoverAck_eq hn h).trans (if_pos (fbit_of_one h1)))
  case ackNone =>
    exact runs_of (fun d => hostHandoverAck d k) rfl ((hostHandoverAck_eq hn h).trans (if_neg (by rw [fbit_of_zero h1]; exact Bool.false_ne_true)))

end Sys2Proof.Machine
end

section
/-! PROOF. Launch, combination, acknowledgement and timeout of a collective under way (R268, R270, R271, R274, R279 to R282). -/

namespace Sys2Proof.Machine

/-! ## What the checks and the messages of a collective leave -/

/-- A refusal is recorded in registers alone. -/
theorem recordRefusal_keeps {α : Type} {get : Dev → α} (hregs : ∀ (d : Dev) r, get { d with regs := r } = get d) (d : Dev) (a cause level req tag source : Nat) :
    get (recordRefusal d a cause level req tag source) = get d := by
  have hr : ∀ (d : Dev) o v, get (rset d o v) = get d := fun d o v => hregs d _
  have hf : ∀ (d : Dev) f n, get (fcount d f n) = get d := fun d f n => hr d _ _
  simp only [recordRefusal]
  split_ifs <;> simp only [hr, hf]

theorem countWalk_keeps {α : Type} {get : Dev → α} (hregs : ∀ (d : Dev) r, get { d with regs := r } = get d) (hfree : ∀ (d : Dev) n, get { d with free := n } = get d)
    (d : Dev) : get (countWalk d) = get d := by
  rw [countWalk_eq]
  exact (hregs _ _).trans (hfree d _)

theorem rangeChecked_keeps {α : Type} {get : Dev → α} (hregs : ∀ (d : Dev) r, get { d with regs := r } = get d)
    (hfree : ∀ (d : Dev) n, get { d with free := n } = get d) (d : Dev) (c tag : Nat) (write : Bool) (a n : Nat) :
    get (rangeChecked d c tag write a n).1 = get d := by
  have hwalk : get (if n = 0 then d else countWalk d) = get d := by
    split_ifs
    · rfl
    · exact countWalk_keeps hregs hfree d
  unfold rangeChecked
  dsimp only
  split
  · exact (recordRefusal_keeps hregs _ _ _ _ _ _ _).trans hwalk
  · exact hwalk

/-- A message joins the waiting messages of its device. -/
theorem sendRank_keeps {α : Type} {get : Dev → α} (hin : ∀ (d : Dev) q, get { d with inbox := q } = get d) (hto : ∀ (d : Dev) q, get { d with toRoute := q } = get d)
    (d : Dev) (g : GroupDef) (l : Layout) (r : Nat) (m : CollMsg) : get (sendRank d g l r m) = get d := by
  simp only [sendRank, postMsg]
  split_ifs
  · exact hin d _
  · exact hto d _

/-! ## Launch (R268) -/

/-- What a launch has done, whatever else it still does: the member's collective is under way and counted, and no memory and no cell has changed. -/
structure Launched (d₀ : Dev) (slot rank n half : Nat) (d : Dev) : Prop where
  found : ∃ i, findInst d slot rank = some i ∧ i.num = n ∧ i.half = half ∧ i.combined = [] ∧ i.written = []
  counted : smGet (fun _ => 0) d.clv.launched (memberKey slot rank) = n + 1
  mem : d.mem = d₀.mem
  cells : d.cells = d₀.cells

namespace Launched
variable {d₀ d d' : Dev} {slot rank n half : Nat} (h : Launched d₀ slot rank n half d)
include h

theorem of_clv (hclv : d'.clv = d.clv) (hm : d'.mem = d.mem) (hc : d'.cells = d.cells) : Launched d₀ slot rank n half d' where
  found := by simpa only [findInst, hclv] using h.found
  counted := by rw [hclv, h.counted]
  mem := hm.trans h.mem
  cells := hc.trans h.cells

theorem fset {f : Fld} {v : Nat} : Launched d₀ slot rank n half (fset d f v) := h.of_clv (fset_clv _ _ _) (fset_mem _ _ _) (fset_cells _ _ _)

theorem modInst {heard : List Nat} {f : CollInst → CollInst} (hf : ∀ i, (f i).slot = i.slot ∧ (f i).rank = i.rank ∧ (f i).num = i.num ∧
    (f i).half = i.half ∧ (f i).combined = i.combined ∧ (f i).written = i.written) : Launched d₀ slot rank n half (modInst d slot rank heard f) where
  found := by
    obtain ⟨i, hi, hnum, hhalf, hcomb, hwrit⟩ := h.found
    obtain ⟨-, -, fnum, fhalf, fcomb, fwrit⟩ := hf i
    exact ⟨_, findInst_modInst (fun i => (hf i).1) (fun i => (hf i).2.1) hi, fnum.trans hnum, fhalf.trans hhalf, fcomb.trans hcomb, fwrit.trans hwrit⟩
  counted := h.counted
  mem := (modInst_mem _ _ _ _ _).trans h.mem
  cells := (modInst_cells _ _ _ _ _).trans h.cells

theorem traceEv {cls ev tag src sub : Nat} {st : Status} {ext : Nat × Nat} : Launched d₀ slot rank n half (traceEv d cls ev tag src sub st ext) :=
  h.of_clv (traceEv_clv _ _ _ _ _ _ _ _) (traceEv_mem _ _ _ _ _ _ _ _) (traceEv_cells _ _ _ _ _ _ _ _)

theorem clvBusy : Launched d₀ slot rank n half (clvBusy d) := h.fset

theorem rangeChecked {c tag : Nat} {write : Bool} {a k : Nat} : Launched d₀ slot rank n half (rangeChecked d c tag write a k).1 :=
  h.of_clv (rangeChecked_keeps (get := Dev.clv) (fun _ _ => rfl) (fun _ _ => rfl) _ _ _ _ _ _)
    (rangeChecked_keeps (get := Dev.mem) (fun _ _ => rfl) (fun _ _ => rfl) _ _ _ _ _ _)
    (rangeChecked_keeps (get := Dev.cells) (fun _ _ => rfl) (fun _ _ => rfl) _ _ _ _ _ _)

theorem sendRank {g : GroupDef} {l : Layout} {r : Nat} {m : CollMsg} : Launched d₀ slot rank n half (sendRank d g l r m) :=
  h.of_clv (sendRank_keeps (get := Dev.clv) (fun _ _ => rfl) (fun _ _ => rfl) _ _ _ _ _)
    (sendRank_keeps (get := Dev.mem) (fun _ _ => rfl) (fun _ _ => rfl) _ _ _ _ _)
    (sendRank_keeps (get := Dev.cells) (fun _ _ => rfl) (fun _ _ => rfl) _ _ _ _ _)

theorem latchInst {st : Status} : Launched d₀ slot rank n half (latchInst d slot rank st) := by
  unfold Machine.latchInst
  split
  · split_ifs
    · exact h
    · refine sendRank (modInst h ?_)
      exact fun _ => ⟨rfl, rfl, rfl, rfl, rfl, rfl⟩
  · exact h

theorem foldl {β : Type} {l : List β} {g : Dev → β → Dev} (hg : ∀ d b, Launched d₀ slot rank n half d → Launched d₀ slot rank n half (g d b)) :
    Launched d₀ slot rank n half (l.foldl g d) := by
  induction l generalizing d with
  | nil => exact h
  | cons b l ih => exact ih (hg d b h)

omit h in
theorem ite {p : Prop} [Decidable p] (ht : Launched d₀ slot rank n half d) (hf : Launched d₀ slot rank n half d') :
    Launched d₀ slot rank n half (if p then d else d') := by
  split_ifs <;> assumption

omit h in
theorem ite_fst {p : Prop} [Decidable p] {a b : Dev × Bool} (ha : Launched d₀ slot rank n half a.1) (hb : Launched d₀ slot rank n half b.1) :
    Launched d₀ slot rank n half (if p then a else b).1 := by
  split_ifs <;> assumption

omit h in
/-- The device of a pair that is known by its parts. -/
theorem of_pair {a : Dev × Bool} {ok : Bool} (ha : Launched d₀ slot rank n half a.1) (e : a = (d, ok)) : Launched d₀ slot rank n half d := by
  rw [e] at ha
  exact ha

end Launched

/-- The device with one more collective of a slot under way at a member, and its launch counted. -/
def withInst (d : Dev) (slot rank : Nat) (i : CollInst) : Dev :=
  { d with clv := { d.clv with insts := d.clv.insts ++ [i], launched := smModify (fun _ => 0) d.clv.launched (memberKey slot rank) (· + 1) } }

theorem launched_withInst {d : Dev} {slot rank : Nat} {i : CollInst} (hnone : findInst d slot rank = none) (hs : i.slot = slot) (hr : i.rank = rank)
    (hc : i.combined = []) (hw : i.written = []) (hn : i.num = smGet (fun _ => 0) d.clv.launched (memberKey slot rank)) :
    Launched d slot rank i.num i.half (withInst d slot rank i) where
  found := by
    refine ⟨i, ?_, rfl, rfl, hc, hw⟩
    rw [findInst] at hnone
    rw [findInst, withInst, List.find?_append, hnone]
    simp [hs, hr]
  counted := by rw [withInst, smModify, smGet_smSet_same, hn]
  mem := rfl
  cells := rfl

section
variable {d : Dev} {slot : Fin 256} {rank : Nat} {sd : SlotDef} {g : GroupDef} {l : Layout} (h : slotSetup d slot = some (sd, g, l))
include h

theorem clvLaunch_early (he : seenGauge (getCell d (memberCell l rank)) sd.gauges.launch <
    (smGet (fun _ => 0) d.clv.launched (memberKey slot rank) + 1) * sd.gauges.step) : clvLaunch d slot rank = d := by
  simp only [clvLaunch, h]
  exact if_pos (by simp [he])

/-- A launch whose gauge has come does at least what `Launched` says. -/
theorem clvLaunch_launched (hr : rank ∈ ranksHere d l) (hnone : findInst d slot rank = none)
    (hg : (smGet (fun _ => 0) d.clv.launched (memberKey slot rank) + 1) * sd.gauges.step ≤ seenGauge (getCell d (memberCell l rank)) sd.gauges.launch) :
    Launched d slot rank (smGet (fun _ => 0) d.clv.launched (memberKey slot rank)) (smGet (fun _ => 0) d.clv.committed (memberKey slot rank) % 2)
      (clvLaunch d slot rank) := by
  have hguard : ¬(!(ranksHere d l).contains rank || (findInst d slot rank).isSome || decide (seenGauge (getCell d (memberCell l rank)) sd.gauges.launch <
      (smGet (fun _ => 0) d.clv.launched (memberKey slot rank) + 1) * sd.gauges.step)) = true := by
    rw [List.contains_iff_mem.2 hr, hnone, decide_eq_false (Nat.not_lt.2 hg)]
    decide
  unfold clvLaunch
  split
  · next e => rw [h] at e; cases e
  next s g l e =>
  rw [h] at e
  cases e
  extract_lets c n half edges i _ d1 d2 d3 d4 _
  split
  · next hc => exact absurd hc hguard
  have h1 : Launched d slot rank n half (withInst d slot rank i) := launched_withInst (i := i) hnone rfl rfl rfl rfl rfl
  have h2 : Launched d slot rank n half d2 := .ite h1.fset h1
  have h3 : Launched d slot rank n half d3 := h2.modInst fun _ => ⟨rfl, rfl, rfl, rfl, rfl, rfl⟩
  have h4 : Launched d slot rank n half d4 := h3.traceEv.clvBusy
  split
  next d5 ok5 e5 =>
  have h5 : Launched d slot rank n half d5 := .of_pair h4.rangeChecked e5
  split
  next d6 ok6 e6 =>
  have h6 : Launched d slot rank n half d6 := .of_pair h5.rangeChecked e6
  split
  next d7 ok7 e7 =>
  have h7 : Launched d slot rank n half d7 := .of_pair (.ite_fst h6.rangeChecked h6) e7
  split
  next d8 ok8 e8 =>
  have h8 : Launched d slot rank n half d8 := .of_pair (.ite_fst h7.rangeChecked h7) e8
  extract_lets d9
  have h9 : Launched d slot rank n half d9 := h8.foldl fun d b hb => by
    split
    exacts [hb.sendRank, hb]
  exact .ite h9 h9.latchInst

end

/-! ## Combination (R270, R271) -/

/-- A native sum with no destination at the member writes nothing. -/
theorem combinedWrites_native_none {d : Dev} {sd : SlotDef} {c j : Nat} {it : CollItem} {own : List Byte} {parts : List (List Byte)} (hdst : it.dst = none) :
    combinedWrites d sd c (combineNative sd it j own parts) = (d, .ok) := by
  simp only [combinedWrites, combineNative, hdst, List.foldl_nil]

section
variable {d : Dev} {slot : Fin 256} {rank k j : Nat} {sd : SlotDef} {g : GroupDef} {l : Layout} {i : CollInst} {it : CollItem} {e : EccHits}
  (hi : findInst d slot rank = some i) (h : slotSetup d slot = some (sd, g, l)) (hk : findItem sd (collItems sd l rank) k = some (it, j))
include hi h hk

/-- A chunk of a latched collective, or one that is combined already, is left alone. -/
theorem clvCombine_over (ho : i.latched.isSome ∨ k ∈ i.combined) : clvCombine d slot rank k e = d := by
  have hc : (i.latched.isSome || i.combined.contains k) = true := by
    rw [Bool.or_eq_true, List.contains_iff_mem]
    exact ho
  simp only [clvCombine, hi, h, hk, hc, if_true]

/-- A chunk that lacks credit on its way up, or a part, waits. -/
theorem clvCombine_waits (hw : (∃ b, it.up = some b ∧ credited i 0 (b + j) = false) ∨ (∃ p ∈ it.ins, heldChunk i.rx p.1 (p.2 + j) = none)) :
    clvCombine d slot rank k e = d := by
  have hpart : (∃ p ∈ it.ins, heldChunk i.rx p.1 (p.2 + j) = none) →
      (it.ins.map (fun p => heldChunk i.rx p.1 (p.2 + j))).any Option.isNone = true := by
    rintro ⟨p, hp, hn⟩
    exact List.any_eq_true.2 ⟨_, List.mem_map.2 ⟨p, hp, rfl⟩, by rw [hn]; rfl⟩
  simp only [clvCombine, hi, h, hk]
  split
  · rfl
  · refine if_pos ?_
    obtain ⟨b, hb, hcr⟩ | hp := hw
    · simp only [hb, hcr, Bool.not_false, Bool.true_or]
    · rw [hpart hp, Bool.or_true]

theorem clvCombine_native {b : Nat} {d1 : Dev} {own : List Byte} (hl : i.latched = none) (hc : k ∉ i.combined) (hs : sd.compressed = false)
    (hown : it.own = true) (hup : it.up = some b) (hdown : it.down = none) (hdst : it.dst = none) (hcr : credited i 0 (b + j) = true)
    (hparts : ∀ p ∈ it.ins, (heldChunk i.rx p.1 (p.2 + j)).isSome)
    (hread : engineRead d e (memberCell l rank) (sd.src + it.src * slotElem sd + 128 * j) (min 128 (wireBytes sd it.count - 128 * j)) = (d1, .ok, own)) :
    clvCombine d slot rank k e = modInst (it.ins.foldl (fun d p => grantMore d sd g l slot rank p.1) (sendChunk d1 sd g l slot rank 0 (b + j)
      (if it.result then .result else .data) (combineNative sd it j own (it.ins.map (fun p => (heldChunk i.rx p.1 (p.2 + j)).getD []))).wire)) slot rank []
      (fun i => { i with combined := k :: i.combined }) := by
  have hpart : (it.ins.map (fun p => heldChunk i.rx p.1 (p.2 + j))).any Option.isNone = false := by
    rw [List.any_eq_false]
    rintro x hx
    obtain ⟨p, hp, rfl⟩ := List.mem_map.1 hx
    simpa using Option.isSome_iff_ne_none.1 (hparts p hp)
  have hnew : (i.latched.isSome || i.combined.contains k) = false := by
    rw [hl, Option.isSome_none, Bool.false_or, List.contains_eq_mem, decide_eq_false hc]
  simp only [clvCombine, hi, h, hk, hnew, hup, hdown, hcr, hpart, hs, hown, hread, Bool.not_true, Bool.or_false, Bool.false_eq_true, if_false, if_true, ne_eq,
    not_true_eq_false, List.map_map, combinedWrites_native_none hdst]
  rfl

end

/-! ## The end of a member's work (R279 to R282) -/

section
variable {d : Dev} {slot : Fin 256} {rank : Nat} {sd : SlotDef} {g : GroupDef} {l : Layout} {i : CollInst}
  (hi : findInst d slot rank = some i) (h : slotSetup d slot = some (sd, g, l))
include hi h

theorem clvAckSend_unfinished (hw : workDone sd l i = false) : clvAckSend d slot rank = d := by
  simp only [clvAckSend, hi, h, hw, Bool.not_false, Bool.or_true, Bool.true_or, if_true]

variable (hl : i.latched = none) (ha : i.ackSent = false) (hw : workDone sd l i = true) (hh : writesHeld d sd = false)
  (hk : ∀ k ∈ treeKids l rank, i.acks.contains k)
include hl ha hw hh hk

/-- The root, whose work and whose children's is done, commits. -/
theorem clvAckSend_root (hp : treeParent rank = none) : clvAckSend d slot rank = spreadOutcome d slot rank .commit .ok := by
  have hall : (treeKids l rank).all (fun k => i.acks.contains k) = true := List.all_eq_true.2 hk
  simp only [clvAckSend, hi, h, hl, ha, hw, hh, hall, hp, Option.isSome_none, Bool.not_true, Bool.or_false, Bool.false_eq_true, if_false]

/-- A member below the root, whose work and whose children's is done, tells its parent. -/
theorem clvAckSend_child {p : Nat} (hp : treeParent rank = some p) :
    clvAckSend d slot rank = modInst (sendRank d g l p (instMsg .ack g i)) slot rank [] (fun i => { i with ackSent := true }) := by
  have hall : (treeKids l rank).all (fun k => i.acks.contains k) = true := List.all_eq_true.2 hk
  simp only [clvAckSend, hi, h, hl, ha, hw, hh, hall, hp, Option.isSome_none, Bool.not_true, Bool.or_false, Bool.false_eq_true, if_false]

end

theorem treeParent_zero : treeParent 0 = none := by
  decide

theorem findInst_atTime (d : Dev) (t slot rank : Nat) : findInst (atTime d t) slot rank = findInst d slot rank := rfl
theorem slotSetup_atTime (d : Dev) (t slot : Nat) : slotSetup (atTime d t) slot = slotSetup d slot := rfl

section
variable {d : Dev} {slot tag rank t : Nat} {sd : SlotDef} {g : GroupDef} {l : Layout} {i : CollInst}
  (hi : findInst d slot rank = some i) (h : slotSetup d slot = some (sd, g, l))
include hi h

theorem clvTimeout_over (hl : i.latched = none) (hw : waitsOver (atTime d t) g i.waits = true) :
    clvTimeout d false slot tag rank t = latchInst (fcount (atTime d t) CLV_CTR_TIMEOUTS 1) slot rank .retiredResource := by
  simp only [clvTimeout, timeoutInst, findInst_atTime, slotSetup_atTime, hi, h, hw, hl, Option.isSome_none, Bool.not_true, Bool.false_eq_true, if_false]

theorem clvTimeout_within (hw : waitsOver (atTime d t) g i.waits = false) : clvTimeout d false slot tag rank t = atTime d t := by
  simp only [clvTimeout, timeoutInst, findInst_atTime, slotSetup_atTime, hi, h, hw, Bool.not_false, Bool.false_eq_true, if_false, if_true]

end

/-- Settles O33: a launch by what every later action of it leaves alone, the other actions by their equation in the case that the clause names. -/
theorem collectiveWork : Obligations.CollectiveWork := by
  intro s slot rank sd g l h
  refine ⟨?_, ?_⟩
  · rintro n rfl hr hnone
    refine ⟨fun hg => runs_of (fun d => clvLaunch d slot rank) rfl ?_, fun he => runs_of (fun d => clvLaunch d slot rank) rfl (clvLaunch_early h he)⟩
    have hl := clvLaunch_launched h hr hnone hg
    exact ⟨hl.found, hl.counted, memSame_of hl.mem, hl.cells⟩
  · intro i hi
    refine ⟨?_, ?_, ?_, ?_, ?_⟩
    · intro k e it j hk
      refine ⟨fun hw => runs_of (fun d => clvCombine d slot rank k e) rfl ?_, fun b d1 own hl hc hs hown hup hdown hdst hcr hparts hread =>
        runs_of (fun d => clvCombine d slot rank k e) rfl ?_⟩
      · obtain ho | ho | hw := hw
        · exact clvCombine_over hi h hk (.inl ho)
        · exact clvCombine_over hi h hk (.inr ho)
        · exact clvCombine_waits hi h hk hw
      · exact clvCombine_native hi h hk hl hc hs hown hup hdown hdst hcr hparts hread
    · intro hl ha hw hh hk
      refine ⟨fun h0 => runs_of (fun d => clvAckSend d slot rank) rfl ?_, fun p hp => runs_of (fun d => clvAckSend d slot rank) rfl ?_⟩
      · subst h0
        exact clvAckSend_root hi h hl ha hw hh hk treeParent_zero
      · have hf := clvAckSend_child hi h hl ha hw hh hk hp
        refine ⟨hf, ?_, ?_, ?_⟩
        · refine memSame_of ((congrArg Dev.mem hf).trans ((modInst_mem _ _ _ _ _).trans
            (sendRank_keeps (get := Dev.mem) (fun _ _ => rfl) (fun _ _ => rfl) _ _ _ _ _)))
        · exact regsBut_of _ ((congrArg Dev.regs hf).trans ((modInst_regs _ _ _ _ _).trans
            (sendRank_keeps (get := Dev.regs) (fun _ _ => rfl) (fun _ _ => rfl) _ _ _ _ _)))
        · exact (congrArg Dev.cells hf).trans ((modInst_cells _ _ _ _ _).trans
            (sendRank_keeps (get := Dev.cells) (fun _ _ => rfl) (fun _ _ => rfl) _ _ _ _ _))
    · exact fun hw => runs_of (fun d => clvAckSend d slot rank) rfl (clvAckSend_unfinished hi h hw)
    · exact fun tag t hl hw => runs_of (fun d => clvTimeout d false slot tag rank t) rfl (clvTimeout_over hi h hl hw)
    · exact fun tag t hw => runs_of (fun d => clvTimeout d false slot tag rank t) rfl (clvTimeout_within hi h hw)

end Sys2Proof.Machine
end

section
/-! PROOF. The head of the matrix queue on an idle matrix engine (R48, R63, R65, R476, R82). -/

namespace Sys2Proof.Machine

/-! ## What a write of the finisher leaves -/

/-- Only memory, its poison marks and the writes that wait in a cell differ. -/
structure WroteOnly (d d' : Dev) : Prop where
  regs : d'.regs = d.regs
  cells : ∀ k, { getCell d' k with held := [] } = { getCell d k with held := [] }

namespace WroteOnly
variable {d d₁ d₂ : Dev}

theorem refl (d : Dev) : WroteOnly d d := ⟨rfl, fun _ => rfl⟩

theorem trans (h : WroteOnly d d₁) (h' : WroteOnly d₁ d₂) : WroteOnly d d₂ :=
  ⟨h'.regs.trans h.regs, fun k => (h'.cells k).trans (h.cells k)⟩

theorem of_cells (hr : d₁.regs = d.regs) (hc : d₁.cells = d.cells) : WroteOnly d d₁ := ⟨hr, fun k => by rw [getCell_congr hc k]⟩

theorem foldl {β : Type} {l : List β} {f : Dev → β → Dev} (hf : ∀ d b, WroteOnly d (f d b)) (d : Dev) : WroteOnly d (l.foldl f d) := by
  induction l generalizing d with
  | nil => exact refl d
  | cons b l ih => exact (hf d b).trans (ih (f d b))

theorem foldl_fst {β : Type} {l : List β} {f : Dev × Nat → β → Dev × Nat} (hf : ∀ x b, WroteOnly x.1 (f x b).1) (x : Dev × Nat) :
    WroteOnly x.1 (l.foldl f x).1 := by
  induction l generalizing x with
  | nil => exact refl x.1
  | cons b l ih => exact (hf x b).trans (ih (f x b))

theorem wrBytes (d : Dev) (a : Nat) (bs : List Byte) : WroteOnly d (wrBytes d a bs) := by
  induction bs generalizing d a with
  | nil => exact refl d
  | cons b bs ih => exact (of_cells (wrByte_regs d a b) (wrByte_cells d a b)).trans (ih (wrByte d a b) (a + 1))

theorem setGran (d : Dev) (g : Nat) (b : Bool) : WroteOnly d (setGran d g b) := of_cells (setGran_regs d g b) (setGran_cells d g b)

theorem storeNow (d : Dev) (a : Nat) (bs : List Byte) (bad : Bool) : WroteOnly d (storeNow d a bs bad) :=
  (wrBytes d a bs).trans (foldl (fun d g => by
    split_ifs
    · exact setGran d g true
    · exact setGran d g false
    · exact refl d) _)

/-- A write that waits is kept in its cell. -/
theorem setHeld (d : Dev) (c : Nat) (hs : List HeldWrite) : WroteOnly d (setCell d c { getCell d c with held := hs }) where
  regs := rfl
  cells k := by
    rw [getCell_setCell]
    split_ifs with hk
    · subst hk
      rfl
    · rfl

theorem store (d : Dev) (a : Nat) (bs : List Byte) (bad : Bool) : WroteOnly d (store d a bs bad) := by
  unfold Machine.store storeHeld
  split
  · split_ifs
    · exact storeNow d a bs bad
    · refine foldl_fst (fun x p => ?_) (d, 0)
      dsimp only
      split_ifs
      · exact setHeld _ _ _
      · exact storeNow _ _ _ _
  · exact storeNow d a bs bad

theorem wrNums (d : Dev) (a sa : Nat) (f : StoreFmt) (xs : List Num) (mode : Nat → Rnd) (bad : Bool) : WroteOnly d (wrNums d a sa f xs mode bad) := by
  cases f with
  | plain x => exact store _ _ _ _
  | block x => exact (store _ _ _ _).trans (store _ _ _ _)
  | i32 => exact refl d

theorem finish (d : Dev) (c : Nat) (short : Bool) (g : Group) (m : MtxCmd Nat) (bad : Bool) : WroteOnly d (finish d c short g m bad).1 := by
  unfold Machine.finish
  extract_lets o mm nn vals pitch d1 got outs d2 d3
  have h1 : WroteOnly d d1 := foldl (fun _ _ => wrNums _ _ _ _ _ _ _) d
  have h2 : WroteOnly d d2 := h1.trans (by
    show WroteOnly d1 (match o.maxRec with | some a => _ | none => _)
    split
    · exact store _ _ _ _
    · exact refl d1)
  have h3 : WroteOnly d d3 := h2.trans (by
    show WroteOnly d2 (match o.zeroRec with | some a => _ | none => _)
    split
    · exact store _ _ _ _
    · exact refl d2)
  split_ifs
  · exact store _ _ _ _
  · exact h3

theorem writeOut (d : Dev) (c : Nat) (g : Group) (m : MtxCmd Nat) (bad : Bool) : WroteOnly d (writeOut d c g m bad).1 :=
  finish d c (getCell d c).short g m (bad || rangesBad d c (finReads m))

end WroteOnly

/-! ## What a command of the engine leaves while it runs -/

/-- The registers of a matrix engine that the dispatch of a command may write. -/
def mtxRegsOf (c : CellId) (m : MtxCmd Nat) : List Nat := [MTX_STATUS c, MTX_REPEAT c, MTX_SKIP c, MTX_PRED c m.entry]

/-- The queue of cell c, every register but the listed ones and every other cell, but for the writes that wait in it, are as before. -/
structure EngineOnly (c : CellId) (os : List Nat) (d d' : Dev) : Prop where
  mq : (getCell d' c).mq = (getCell d c).mq
  regs : RegsBut os d d'
  others : ∀ k, k ≠ c.val → { getCell d' k with held := [] } = { getCell d k with held := [] }

namespace EngineOnly
variable {c : CellId} {os : List Nat} {d d₁ d₂ : Dev}

theorem refl (c : CellId) (os : List Nat) (d : Dev) : EngineOnly c os d d := ⟨rfl, .refl _ _, fun _ _ => rfl⟩

theorem of_cells (h : EngineOnly c os d d₁) (hc : d₂.cells = d₁.cells) (hr : RegsBut os d d₂) : EngineOnly c os d d₂ where
  mq := by rw [getCell_congr hc, h.mq]
  regs := hr
  others k hk := by rw [getCell_congr hc, h.others k hk]

theorem fset (h : EngineOnly c os d d₁) {f : Fld} (hf : f.off ∈ os) {v : Nat} : EngineOnly c os d (fset d₁ f v) :=
  h.of_cells (fset_cells _ _ _) (h.regs.fset f hf v)

theorem fcount (h : EngineOnly c os d d₁) {f : Fld} (hf : f.off ∈ os) {n : Nat} : EngineOnly c os d (fcount d₁ f n) :=
  h.of_cells (fcount_cells _ _ _) (h.regs.fcount f hf n)

theorem wrote (h : EngineOnly c os d d₁) (w : WroteOnly d₁ d₂) : EngineOnly c os d d₂ where
  mq := (congrArg Cell.mq (w.cells c)).trans h.mq
  regs := h.regs.of_regs w.regs
  others k hk := (w.cells k).trans (h.others k hk)

theorem modCell (h : EngineOnly c os d d₁) {f : Cell → Cell} (hf : ∀ x, (f x).mq = x.mq) : EngineOnly c os d (modCell d₁ c f) where
  mq := by rw [getCell_modCell_same, hf, h.mq]
  regs := h.regs.of_regs (modCell_regs _ _ _)
  others k hk := by rw [getCell_modCell_ne _ hk, h.others k hk]

theorem setGroup (h : EngineOnly c os d d₁) {n : Nat} {g : Option Group} : EngineOnly c os d (Machine.modCell d₁ c (fun x => setGroup x n g)) :=
  h.modCell fun _ => rfl

theorem noteGroups (h : EngineOnly c os d d₁) (hs : MTX_STATUS c ∈ os) : EngineOnly c os d (noteGroups d₁ c) :=
  (h.fset (f := MTX_STATUS_GROUPS_OPEN c) hs).fset (f := MTX_STATUS_CHAINS_PENDING c) hs

theorem anchorLimit (h : EngineOnly c os d d₁) (hs : MTX_STATUS c ∈ os) : EngineOnly c os d (anchorLimit d₁ c) :=
  h.fset (f := MTX_STATUS_ANCHOR_LIMIT c) hs

theorem ite {p : Prop} [Decidable p] (ht : EngineOnly c os d d₁) (hf : EngineOnly c os d d₂) : EngineOnly c os d (if p then d₁ else d₂) := by
  split_ifs <;> assumption

theorem writeOut (h : EngineOnly c os d d₁) {g : Group} {m : MtxCmd Nat} {bad : Bool} : EngineOnly c os d (writeOut d₁ c g m bad).1 :=
  h.wrote (.writeOut _ _ _ _ _)

/-- The counters of a tile's passes are among the engine's registers. -/
theorem countTile (m : MtxCmd Nat) (h : EngineOnly c (mtxRegsOf c m) d d₁) {r : TileRun} : EngineOnly c (mtxRegsOf c m) d (countTile d₁ c m r) := by
  have hrep : MTX_REPEAT c ∈ mtxRegsOf c m := by simp [mtxRegsOf]
  have hskip : MTX_SKIP c ∈ mtxRegsOf c m := by simp [mtxRegsOf]
  have hpred : MTX_PRED c m.entry ∈ mtxRegsOf c m := by simp [mtxRegsOf]
  have h1 := (h.fcount (f := MTX_REPEAT_TILE_REPEATS c) hrep (n := r.passes - 1)).fcount (f := MTX_SKIP_BLOCKS_SKIPPED c) hskip (n := r.skipped)
  have h2 := ite (p := r.misses = true) (h1.fcount (f := MTX_SKIP_SKIP_MISSES c) hskip (n := 1)) h1
  exact ite (h2.fcount (f := MTX_PRED_MISSES c m.entry) hpred) h2

end EngineOnly

/-- The engine of cell c has taken e from its queue and is busy with it. -/
structure Engaged (d : Dev) (c : CellId) (e : MtxEntry) (d' : Dev) : Prop where
  only : EngineOnly c (mtxRegsOf c e.cmd) d d'
  mrun : ∃ r, (getCell d' c).mrun = some r ∧ r.entry = e
  busy : fget d' (MTX_STATUS_BUSY c) = 1

theorem mtxStatus_mem_regsOf (c : CellId) (m : MtxCmd Nat) : MTX_STATUS c ∈ mtxRegsOf c m := by
  simp [mtxRegsOf]

theorem engage_cells (d : Dev) (c : Nat) (r : MtxRun) : (engage d c r).cells = (modCell d c (fun x => { x with mrun := some r })).cells := by
  rw [engage, fset_cells, noteGroups_cells]

theorem engage_mem (d : Dev) (c : Nat) (r : MtxRun) : (engage d c r).mem = d.mem := by
  rw [engage, fset_mem, noteGroups_mem, modCell_mem]

theorem EngineOnly.engage {d d₁ : Dev} {c : CellId} {os : List Nat} (h : EngineOnly c os d d₁) (hs : MTX_STATUS c ∈ os) (r : MtxRun) :
    EngineOnly c os d (engage d₁ c r) := by
  have hrun := h.modCell (f := fun x => { x with mrun := some r }) fun _ => rfl
  exact (hrun.noteGroups hs).fset (f := MTX_STATUS_BUSY c) hs

theorem engage_mrun (d : Dev) (c : Nat) (r : MtxRun) : (getCell (engage d c r) c).mrun = some r := by
  rw [getCell_congr (engage_cells d c r), getCell_modCell_same]

theorem engage_busy (d : Dev) (c : Nat) (r : MtxRun) : fget (engage d c r) (MTX_STATUS_BUSY c) = 1 := by
  unfold engage
  exact fget_fset_fits _ (MTX_STATUS_BUSY c) (by exact (by decide : 1 + 1 ≤ 64)) (by exact (by decide : 1 < 2 ^ 1))

theorem EngineOnly.engaged {d d₁ : Dev} {c : CellId} {e : MtxEntry} (h : EngineOnly c (mtxRegsOf c e.cmd) d d₁) {r : MtxRun} (hr : r.entry = e) :
    Engaged d c e (Machine.engage d₁ c r) where
  only := h.engage (mtxStatus_mem_regsOf c e.cmd) r
  mrun := ⟨r, engage_mrun d₁ c r, hr⟩
  busy := engage_busy d₁ c r

/-! ## What each command does -/

/-- The device of a pair that is known by its parts. -/
theorem EngineOnly.of_pair {d d₁ : Dev} {c : CellId} {os : List Nat} {st : Status} {x : Dev × Status} (h : EngineOnly c os d x.1) (e : x = (d₁, st)) :
    EngineOnly c os d d₁ := by
  rw [e] at h
  exact h

/-- The outputs of a command that ends with its group, if it does. -/
theorem EngineOnly.writeOut_if {d d₁ d₂ : Dev} {c : CellId} {os : List Nat} {p : Prop} [Decidable p] {g : Group} {m : MtxCmd Nat} {bad : Bool} {st st' : Status}
    (h : EngineOnly c os d d₁) (e : (if p then Machine.writeOut d₁ c g m bad else (d₁, st)) = (d₂, st')) : EngineOnly c os d d₂ := by
  split_ifs at e
  · exact h.writeOut.of_pair e
  · exact h.of_pair e

section
variable (d : Dev) (c : CellId) (e : MtxEntry) (bad : Bool)

theorem runShort_engaged : Engaged d c e (runShort d c e bad) := by
  unfold runShort
  extract_lets m nb x g many blk g1 g2 d1
  split
  next d2 st e2 => exact EngineOnly.engaged ((EngineOnly.refl c _ d).setGroup.writeOut_if e2) rfl

theorem runTile_engaged : Engaged d c e (runTile d c e bad) := by
  have h0 := EngineOnly.refl c (mtxRegsOf c e.cmd) d
  have hs := mtxStatus_mem_regsOf c e.cmd
  unfold runTile
  extract_lets m nb _ g obs
  split
  · split
    next d1 st e1 => exact EngineOnly.engaged ((h0.anchorLimit hs).writeOut.of_pair e1).setGroup rfl
  · extract_lets r d1 d2 g bad'
    have h1 : EngineOnly c (mtxRegsOf c m) d d1 := h0.countTile m
    have h2 : EngineOnly c (mtxRegsOf c m) d d2 := .ite (h1.anchorLimit hs) h1
    split
    next d3 st e3 => exact EngineOnly.engaged (h2.writeOut.of_pair e3).setGroup rfl

theorem runPart_engaged : Engaged d c e (runPart d c e bad) := by
  have h0 := EngineOnly.refl c (mtxRegsOf c e.cmd) d
  unfold runPart
  extract_lets m nb x opened
  clear_value opened
  split
  · exact EngineOnly.engaged (h0.anchorLimit (mtxStatus_mem_regsOf c e.cmd)).setGroup rfl
  · extract_lets p many g' d1
    split
    next d2 st e2 => exact EngineOnly.engaged (h0.setGroup.writeOut_if e2) rfl

theorem runAddTile_engaged (t : Tile) : Engaged d c e (runAddTile d c e t bad) := by
  unfold runAddTile
  extract_lets m x short enc g0 bar g d1
  split
  next d2 st e2 => exact EngineOnly.engaged ((EngineOnly.refl c _ d).setGroup.writeOut_if e2) rfl

theorem runFinish_engaged {g : Group} (hg : getGroup (getCell d c) e.cmd.group = some g) : Engaged d c e (runFinish d c e) := by
  unfold runFinish
  rw [hg]
  exact EngineOnly.engaged (EngineOnly.refl c _ d).writeOut rfl

end

/-! ## Dispatch -/

/-- The device with the head of the matrix queue of cell c taken. -/
def mtxTaken (d : Dev) (c : Nat) (rest : List MtxEntry) : Dev := modCell d c (fun x => { x with mq := rest })

/-- The long-form tile that a command reads. -/
def longInTile (d : Dev) (c : Nat) (m : MtxCmd Nat) : Tile := readTile m.shape (rdBytes d (spAddr c m.longIn) (tileBytes m.shape))

/-- The run of a command outside a chain, by its operation. -/
def headRun (d : Dev) (c : Nat) (e : MtxEntry) (t : Tile) (bad : Bool) : MtxOp → Dev
  | .mma => if (getCell d c).short then runShort d c e bad else if oneCommand e.cmd then runTile d c e bad else runPart d c e bad
  | .chainAdd => runAddTile d c e t bad
  | .finish => runFinish d c e

theorem rangesEcc_none (d : Dev) (c : Nat) (rs : List (Nat × Nat)) : rangesEcc d c ⟨[], []⟩ rs = d := by
  induction rs with
  | nil => rfl
  | cons r rs ih => exact ih

/-- A valid FINISH has its group. -/
theorem getGroup_of_valid_finish {d : Dev} {c : Nat} {m : MtxCmd Nat} (hv : mtxInvalid d c m = false) (ho : m.op = .finish) :
    ∃ g, getGroup (getCell d c) m.group = some g := by
  simp only [mtxInvalid, ho, Bool.or_eq_false_iff] at hv
  have hfits : groupFits (getCell d c) m = true := by
    obtain ⟨⟨⟨⟨⟨⟨⟨⟨hstart, -⟩, hfit⟩, -⟩, -⟩, -⟩, -⟩, -⟩, -⟩ := hv
    simpa [hstart] using hfit
  unfold groupFits at hfits
  split at hfits
  · cases hfits
  · next g hg => exact ⟨g, hg⟩

section
variable {d : Dev} {c : CellId} {e : MtxEntry} {rest : List MtxEntry}
  (hcell : cellRuns d c = true) (hidle : (getCell d c).mrun = none) (hredo : (getCell d c).redo = []) (hmq : (getCell d c).mq = e :: rest)
  (hchain : e.cmd.chain = .none) (hwait : startWaits (getCell d c) e.cmd = false) (hvalid : mtxInvalid (mtxTaken d c rest) c e.cmd = false)
  (hfit : tileMisfit e.cmd (longInTile d c e.cmd) = false)
include hcell hidle hredo hmq hchain hwait hvalid hfit

/-- A valid command outside a chain is taken and run as its operation says. -/
theorem mtxDispatch_head {op : MtxOp} (ho : e.cmd.op = op) : mtxDispatch d c ⟨[], []⟩ op =
    headRun (mtxTaken d c rest) c e (longInTile d c e.cmd) (rangesBad (mtxTaken d c rest) c (readRanges e.cmd)) op := by
  have hnext : mtxNext (getCell d c) op = some (e, false) := by simp [mtxNext, hidle, hredo, hmq, ho]
  have htake : modCell d c (fun x => mtxTake x false) = mtxTaken d c rest := by
    simp only [mtxTaken, modCell, mtxTake, hmq, Bool.false_eq_true, if_false, List.tail_cons]
  have hc : isChain e.cmd = false := by simp [isChain, hchain]
  unfold longInTile at hfit ⊢
  simp only [mtxDispatch, hcell, hnext, hwait, htake, hvalid, hfit, hc, rangesEcc_none, Bool.not_true, Bool.not_false, Bool.and_false, Bool.false_and,
    Bool.or_false, Bool.false_eq_true, if_false]
  cases op <;> rfl

end

/-! ## Groups in long mode -/

theorem getCell_mtxTaken (d : Dev) (c : Nat) (rest : List MtxEntry) : getCell (mtxTaken d c rest) c = { getCell d c with mq := rest } :=
  getCell_modCell_same _ _ _

theorem mtxTaken_others (d : Dev) (c : Nat) (rest : List MtxEntry) : CellsBut c d (mtxTaken d c rest) := cellsBut_modCell d c _

theorem getGroup_mtxTaken (d : Dev) (c n : Nat) (rest : List MtxEntry) : getGroup (getCell (mtxTaken d c rest) c) n = getGroup (getCell d c) n := by
  rw [getCell_mtxTaken]
  rfl

theorem mtxTaken_short (d : Dev) (c : Nat) (rest : List MtxEntry) : (getCell (mtxTaken d c rest) c).short = (getCell d c).short := by
  rw [getCell_mtxTaken]

/-- The engine's run of a command that only leaves group g in its place. -/
structure LeavesGroup (d : Dev) (c n : Nat) (g : Group) (d' : Dev) : Prop where
  group : getGroup (getCell d' c) n = some g
  others : CellsBut c d d'
  mem : d'.mem = d.mem

theorem getGroup_setGroup_same (x : Cell) (n : Nat) (g : Group) : getGroup (setGroup x n (some g)) n = some g := by
  simp only [getGroup, setGroup, smGet_smSet_same]

theorem engage_leavesGroup (d : Dev) (c n : Nat) (g : Group) (r : MtxRun) :
    LeavesGroup d c n g (engage (modCell d c (fun x => setGroup x n (some g))) c r) where
  group := by
    rw [getCell_congr (engage_cells _ c r), getCell_modCell_same, getCell_modCell_same]
    exact getGroup_setGroup_same (getCell d c) n g
  others := ((cellsBut_modCell d c _).trans (cellsBut_modCell _ c _)).trans_eq (engage_cells _ c r)
  mem := (engage_mem _ _ _).trans (modCell_mem _ _ _)

section
variable {d : Dev} {c : CellId} {e : MtxEntry} {bad : Bool} (hl : e.cmd.last = false)
include hl

/-- R63. A command in the middle of a group adds its sums to it. -/
theorem runPart_middle {g : Group} (hs : e.cmd.start = false) (hg : getGroup (getCell d c) e.cmd.group = some g) :
    let p := mmaPass d c e.cmd g.anchor []
    let n := g.blocks + (e.cmd.kCmd + 31) / 32
    let full := g.poisoned || bad || decide (nBlocks g.kTotal < n) || decide (p.excess ≠ 0)
    LeavesGroup d c e.cmd.group (addSums { g with blocks := n, poisoned := full } p.sums p.flags) (runPart d c e bad) := by
  simp only [runPart, hs, hl, hg, Bool.false_eq_true, if_false]
  exact engage_leavesGroup _ _ _ _ _

/-- R476. A tile that opens a group in long mode gives it its anchor and its sums. -/
theorem runAddTile_opens {t : Tile} (hs : e.cmd.start = true) (hshort : (getCell d c).short = false) (ht : t.rerun = false) :
    LeavesGroup d c e.cmd.group { addSums { freshGroup e.cmd t.anchor with kTotal := t.kTotal } t.sums t.flags with poisoned := bad } (runAddTile d c e t bad) := by
  have hfresh : (freshGroup e.cmd t.anchor).poisoned = false := rfl
  simp only [runAddTile, hs, hl, hshort, ht, hfresh, Bool.not_true, Bool.false_and, Bool.false_or, Bool.false_eq_true, if_false, if_true]
  exact engage_leavesGroup _ _ _ _ _

end

/-- A FINISH writes what the finisher makes of the group. -/
theorem runFinish_mem {d : Dev} {c : CellId} {e : MtxEntry} {g : Group} (hg : getGroup (getCell d c) e.cmd.group = some g) :
    (runFinish d c e).mem = (finish d c (getCell d c).short g e.cmd (g.poisoned || rangesBad d c (finReads e.cmd))).1.mem := by
  unfold runFinish
  rw [hg]
  exact engage_mem _ _ _

/-- The clauses of the statement that every command of the engine keeps. -/
theorem Engaged.of_taken {d d' : Dev} {c : CellId} {e : MtxEntry} {rest : List MtxEntry} (h : Engaged (mtxTaken d c rest) c e d') :
    (getCell d' c).mq = rest ∧ (∃ r, (getCell d' c).mrun = some r ∧ r.entry = e) ∧ fget d' (MTX_STATUS_BUSY c) = 1 ∧
      RegsBut [MTX_STATUS c, MTX_REPEAT c, MTX_SKIP c, MTX_PRED c e.cmd.entry] d d' ∧
      ∀ k, k ≠ c.val → { getCell d' k with held := [] } = { getCell d k with held := [] } := by
  obtain ⟨⟨hmq, hregs, hothers⟩, hrun, hbusy⟩ := h
  refine ⟨?_, hrun, hbusy, fun o ho => hregs o ho, fun k hk => ?_⟩
  · rw [hmq, getCell_mtxTaken]
  · rw [hothers k hk, mtxTaken_others d c rest k hk]

/-- Settles O12: the dispatch takes the head of the queue and runs its operation, which leaves the engine busy with it. -/
theorem matrixCommandsRun : Obligations.MatrixCommandsRun := by
  intro s c e rest d0 m tile runs hcell hidle hredo hmq hchain hwait hvalid hfit
  have hd : ∀ {op}, e.cmd.op = op → mtxDispatch s.dev c ⟨[], []⟩ op = headRun d0 c e tile (rangesBad d0 c (readRanges m)) op := fun ho =>
    mtxDispatch_head hcell hidle hredo hmq hchain hwait hvalid hfit ho
  have hshort0 : (getCell d0 c).short = (getCell s.dev c).short := mtxTaken_short _ _ _
  have hgroup0 : getGroup (getCell d0 c) m.group = getGroup (getCell s.dev c) m.group := getGroup_mtxTaken _ _ _ _
  have hleaves : ∀ {g d}, LeavesGroup d0 c m.group g d → CellsBut c s.dev d ∧ MemSame s.dev d ∧ getGroup (getCell d c) m.group = some g :=
    fun h => ⟨(mtxTaken_others _ _ _).trans h.others, memSame_of h.mem, h.group⟩
  refine ⟨fun ho => ?_, fun ho => ?_, fun ho => ?_, fun hshort => ⟨fun g ho hs hl hg => ?_, fun ho hs hl ht => ?_, fun g ho hg => ?_⟩⟩
  · refine runs_of (fun d => mtxDispatch d c ⟨[], []⟩ .mma) rfl (Engaged.of_taken ?_)
    rw [hd ho]
    unfold headRun
    split_ifs
    · exact runShort_engaged _ _ _ _
    · exact runTile_engaged _ _ _ _
    · exact runPart_engaged _ _ _ _
  · refine runs_of (fun d => mtxDispatch d c ⟨[], []⟩ .chainAdd) rfl (Engaged.of_taken ?_)
    rw [hd ho]
    exact runAddTile_engaged _ _ _ _ _
  · refine runs_of (fun d => mtxDispatch d c ⟨[], []⟩ .finish) rfl (Engaged.of_taken ?_)
    obtain ⟨g, hg⟩ := getGroup_of_valid_finish hvalid ho
    rw [hd ho]
    exact runFinish_engaged _ _ _ hg
  · refine runs_of (fun d => mtxDispatch d c ⟨[], []⟩ .mma) rfl ?_
    have hone : oneCommand e.cmd = false := by simp only [oneCommand, show e.cmd.start = false from hs, Bool.and_false, Bool.false_and]
    dsimp only
    rw [hd ho, headRun, if_neg (by rw [hshort0, hshort]; decide), if_neg (by rw [hone]; decide)]
    exact hleaves (runPart_middle hl hs (hgroup0.trans hg))
  · refine runs_of (fun d => mtxDispatch d c ⟨[], []⟩ .chainAdd) rfl ?_
    dsimp only
    rw [hd ho]
    exact hleaves (runAddTile_opens hl hs (hshort0.trans hshort) ht)
  · refine runs_of (fun d => mtxDispatch d c ⟨[], []⟩ .finish) rfl ?_
    rw [hd ho]
    refine memSame_of ((runFinish_mem (hgroup0.trans hg)).trans ?_)
    rw [hshort0, hshort]

end Sys2Proof.Machine
end
